-- ==== Sys2Proof/Word.lean ====
section
/-!
DEFINITION. The word types of the ZK-7712 manual: bytes, the standard widths, and the names of the
kinds of thing that a value of each width is. Nothing here carries behaviour.
-/

namespace Sys2Proof

/-- One byte of a structure, a value or a memory (R8: multi-byte fields are little-endian). -/
abbrev Byte := BitVec 8

/-- A string of bytes: a structure handed to the device or produced by it. -/
abbrev Bytes := List Byte

/-- The pattern of an FP32 value (R63). -/
abbrev F32 := BitVec 32

/-- A collection handle (R121). -/
abbrev Handle := BitVec 16

/-- A device number on the fabric (R299). -/
abbrev DevNum := BitVec 12

/-- A fleet time in nanoseconds (R11; FT64 does not wrap within the service life of the device). -/
abbrev Time := Nat

end Sys2Proof
end

