-- ==== Sys2Proof/Syntax.lean ====
section
/-!
DEFINITION. The commands the block takes: one constructor of `Instr` per row of
spec/opcode_table.json, with the operands each step needs (the table gives none; a step's operands are
what the manual says arrives with it: the fields of a command, the bytes of a frame, the level or reading
that a monitor reports, and the unit the step happens on).
-/

namespace Sys2Proof

/-- The two CXL ports (R14, R324). -/
inductive Port where
  | a
  | b
deriving DecidableEq, Repr

/-- The two compute dies (R14). -/
inductive Half where
  | west
  | east
deriving DecidableEq, Repr

/-- Who makes a dictionary request: the four transports of R369, with the identity R370 gives a source. -/
inductive Source where
  | mailbox (p : Port)
  | mctp (eid : Byte)
  | pap (ip : BitVec 32) (udp : BitVec 16)
  | shuttle (dev : DevNum)
deriving DecidableEq, Repr

/-- A dictionary write of its own row: the transport it came over, its EXPERT flag (R357), and the identifier of the request where it
came as a frame of the Pattern Access Protocol (R371 to R373). -/
structure Writer where
  src : Source
  expert : Bool
  request : BitVec 32 := 0
deriving DecidableEq, Repr

/-- Where a query entry is read from: a submission spool or the fleet query window (R311, R333). -/
inductive Intake where
  | spool (p : Port) (n : Byte)
  | fleet
deriving DecidableEq, Repr

/-- FEC codewords that a link's receiver corrected and could not correct (R296). -/
structure Fec where
  corrected : Nat := 0
  uncorrected : Nat := 0
deriving DecidableEq, Repr

/-- A Shuttle frame as a link's receiver hands it over: its bytes, header, payload and trailer (R297), and the FEC codewords
since the frame before it. -/
structure Rx where
  wire : Bytes
  fec : Fec := {}
deriving DecidableEq, Repr

/-- A PTP Sync or Follow_Up message, in the fields the device uses; `ethernet` says that it came over IEEE 802.3 and not over UDP
(R43). -/
structure PtpSync where
  ethernet : Bool
  domain : Byte
  gm : BitVec 64
  seq : BitVec 16
  twoStep : Bool
  origin : Time
  correction : Int
  interval : Nat
deriving DecidableEq, Repr

/-- A PTP Delay_Resp, or a peer delay response with its two remote stamps (R43). -/
structure PtpDelay where
  ethernet : Bool
  seq : BitVec 16
  peer : Bool
  received : Time
  sent : Time
  correction : Int
deriving DecidableEq, Repr

/-- A PTP Announce message, in the fields that best timeTransmitter selection compares (R43). -/
structure PtpAnnounce where
  ethernet : Bool
  domain : Byte
  gm : BitVec 64
  priority1 : Byte
  clockClass : Byte
  accuracy : Byte
  variance : BitVec 16
  priority2 : Byte
  steps : BitVec 16
deriving DecidableEq, Repr

/-- What training found of one bulk package position (R263, R286): which channels answered, its density, the manufacturer and
revision of its mode registers, and its temperature. -/
structure PackageReport where
  channels : BitVec 4
  gib : Nat
  manufacturer : Byte := 0
  revision : Byte := 0
  celsius : Option Int := none
deriving DecidableEq, Repr

/-- What enumeration found of one expander (R325). -/
structure ExpanderReport where
  trained : Bool
  type3 : Bool
  dynamic : Bool
  ideOk : Bool
  vendorDevice : BitVec 32
  capacity : Nat
  persistent : Nat
  width : Byte
  speed : Byte
deriving DecidableEq, Repr

/-- What TRAIN found when it completes (R32, R263, R286, R325): stacks that did not train, the bulk positions in order, the
expanders in order, the identities of the stacks in order, and the stacks that failed their verify after training from retained
calibration and were trained in full. -/
structure TrainReport where
  failedStacks : BitVec 12
  packages : List PackageReport
  expanders : List ExpanderReport
  stackIds : List (BitVec 64) := []
  failedVerify : BitVec 12 := 0
deriving DecidableEq, Repr

/-- The compute units that UNIT_OFFLINE can take away (R36, R381). -/
inductive UnitKind where
  | tun
  | needle
  | score
  | lauter
  | kiln
  | core
  | transport
deriving DecidableEq, Repr

/-- One unit of a kind. -/
structure UnitRef where
  kind : UnitKind
  index : Nat
deriving DecidableEq, Repr

/-- What a read line turns out to hold (R258, R266): no error, up to two wrong symbols, three or four,
or five and more, of which the code may detect, miscorrect or miss the error. -/
inductive LineErrors where
  | none
  | upToTwo
  | threeOrFour
  | manyDetected
  | manyMiscorrected
  | manyMissed
deriving DecidableEq, Repr

/-- What the other 15 chunks of a line's stripe are: all of them sound, or one of them, by its channel in the group, uncorrectable
itself (R266, R404). -/
inductive Stripe where
  | whole
  | bad (channel : Fin 16)
deriving DecidableEq, Repr

/-- A line with an error that a read meets: its device-local address, what it holds, and its stripe (R266). -/
structure LineFault where
  addr : Nat
  e : LineErrors
  stripe : Stripe
deriving DecidableEq, Repr

/-- A frame that asks for a read of memory, and the errors that the lines it reads show. -/
structure RxRead where
  rx : Rx
  faults : List LineFault
deriving DecidableEq, Repr

/-- The host request slot whose go is written (R308), and the errors that the lines its request reads show. -/
structure SlotGo where
  slot : Fin 512
  faults : List LineFault
deriving DecidableEq, Repr

/-- A link that has aligned (R290), and which device lies at its other end (R292). -/
structure LinkEnd where
  link : Fin 32
  device : BitVec 64
deriving DecidableEq, Repr

/-- An upstream CXL link that leaves the up state: its port, whether it trains again (R353), and whether its host has led it into
Loopback, where the device follows (R429, CXL depth 2). -/
structure PortDown where
  port : Port
  training : Bool
  loopback : Bool := false
deriving DecidableEq, Repr

/-- A field of a mailbox command's input, with the reserved bytes of that input (R340). -/
structure Padded (α : Type) where
  val : α
  reserved : Bytes
deriving DecidableEq, Repr

/-- The traffic classes (R26). -/
inductive TrafficClass where
  | serve | rerank | scan | mutate | encode | train | fabric | maint | lend
deriving DecidableEq, Repr

/-- Who a memory read serves (R266 step 3); a read of the device's own names its class. -/
inductive Reader where
  | query (q : Nat)
  | host (p : Port)
  | device (c : TrafficClass)
deriving DecidableEq, Repr

/-- A stack or a package that scrub reads (R267). -/
inductive ScrubUnit where
  | stack (n : Fin 12)
  | package (n : Fin 24)
deriving DecidableEq, Repr

/-- A host write to the MSI-X capability of a port (R336): its enable, its function mask, or the mask bit of a vector. -/
inductive MsixOp where
  | enable (on : Bool)
  | maskAll (on : Bool)
  | mask (vector : Fin 512) (on : Bool)
deriving DecidableEq, Repr

/-- A host access: through a device memory window (R327), to the port's MSI-X capability (R336), or a read of its GPF DVSEC (R352). -/
inductive HostOp where
  | read (len : Nat)
  | write (data : Bytes)
  | msix (op : MsixOp)
  | gpfDvsec
deriving DecidableEq, Repr

/-- One HDM decoder as the host commits it (R323, R326): the host range, where it starts in the port's device physical addresses,
and back-invalidate. -/
structure HdmDecoder where
  host : BitVec 64
  size : Nat
  dpa : Nat
  backInvalidate : Bool
deriving DecidableEq, Repr

/-- Which retrain starts (R271): a planned one, one that errors force, or an escalated repair. -/
inductive RetrainCause where
  | planned
  | forced
deriving DecidableEq, Repr

/-- The scan whose chunk completes: a flat batch, or the exhaustive filtered pass of one query. -/
inductive ScanRef where
  | flat (batch : Nat)
  | pass (q : Nat)
deriving DecidableEq, Repr

/-- What one slice of a self-test worked on (R436, R437); a march over memory also says what a read of its worst line shows. -/
inductive SliceRef where
  | compute (u : UnitRef)
  | caskSlice (n : Fin 32)
  | d2dGroup (n : Fin 16)
  | hbmSlice (stack : Fin 12) (slice : Nat) (channel : Fin 32) (e : LineErrors) (stripe : Stripe)
  | bulkSlice (pkg : Fin 24) (slice : Nat) (channel : Fin 4) (e : LineErrors)
  | link (n : Fin 32)
  | golden (u : UnitRef)
deriving DecidableEq, Repr

/-- The CXL event logs (R352). -/
inductive EventLog where
  | informational
  | warning
  | failure
  | fatal
deriving DecidableEq, Repr

/-- The requests of the DOE mailbox (R352): Discovery, a read of the CDAT table, and the SPDM requests the responder distinguishes
(R423). -/
inductive SpdmRequest where
  | doeDiscovery (index : Nat)
  | cdat (entry : Nat)
  | getVersion
  | getCapabilities
  | negotiateAlgorithms
  | getDigests
  | getCertificate (slot : Byte)
  | challenge (slot : Byte)
  | getMeasurements (index : Byte) (signed : Bool)
  | keyExchange (slot : Byte)
  | finish
  | heartbeat
  | keyUpdate
  | endSession
  | setCertificate (slot : Byte)
  | chunk
  | other (code : Byte)
deriving DecidableEq, Repr

/-- A scan of the boundary register (R443): the levels of the pins that it captures, and what TDI shifts in. -/
structure BoundaryScan where
  pins : Bytes
  tdi : Bytes
deriving DecidableEq, Repr

/-- What DETECT finds at a link (R290, R295): a copper partner, or a ready optical module. -/
inductive DetectResult where
  | copper
  | optical (info : Bytes) (fault : Bool)
deriving DecidableEq, Repr

/-- The step of the SPDM session of a link that a LINK_SPDM frame carries (R321): a message, the partner's KEY_UPDATE, or how the
session of CONNECT ends. -/
inductive SessionStep where
  | message (r : Rx)
  | keyUpdate (r : Rx)
  | established
  | failed
deriving DecidableEq, Repr

/-- How a Transfer FW part stands in its transfer (R421). -/
inductive FwAction where
  | full
  | initiate
  | continue
  | finish
  | abort
deriving DecidableEq, Repr

/-- The commands: one constructor per row of spec/opcode_table.json, in its order. -/
inductive Instr where
  | powerGood (straps : BitVec 2)
  | mainPg
  | mainPgTimeout (rails : List (BitVec 16))
  | perstaNDeasserted
  | trainComplete (r : TrainReport)
  | vauxLost
  | perstaN (straps : BitVec 2)
  | perstbN
  | pwrFailN
  | pwrFailNDeasserted
  | gpfPhase1
  | gpfPhase2
  | freezeN
  | freezeNReleased
  | powerEstimate (watts : BitVec 16)
  | railSample (rail : Fin 6) (mv : BitVec 16)
  | junctionSample (h : Half) (celsius : Int)
  | sourceQualification
  | holdoverErrorLimit
  | sync (m : PtpSync)
  | followUp (m : PtpSync)
  | delayResponse (m : PtpDelay)
  | announce (m : PtpAnnounce)
  | ftPpsIn
  | ftPpsOut
  | beaconSend
  | timeBeacon (link : Fin 32) (r : Rx)
  | setTime (w : Writer) (t : BitVec 64)
  | acceptBackwardStep (w : Writer) (v : Byte)
  | generationBell
  | mergeBell (entry : Fin 128)
  | windowStart (entry : Fin 128)
  | windowEnd (entry : Fin 128)
  | telemetrySample (entry : Fin 128)
  | calendarEntryOn (w : Writer) (entry : Fin 128)
  | calendarEntryOff (w : Writer) (entry : Fin 128)
  | functionStartComplete (index : BitVec 16) (ok : Bool)
  | functionStopComplete (index : BitVec 16)
  | submissionDoorbell (p : Port) (n : Byte) (v : BitVec 64)
  | completionHeadDoorbell (p : Port) (n : Byte) (v : BitVec 64)
  | graphSearch (intake : Intake) (needle : Fin 64)
  | flatScan (intake : Intake)
  | getByVid (intake : Intake)
  | hybrid (intake : Intake) (needle : Fin 64)
  | encode (p : Port) (n : Byte)
  | encodeBatchComplete (job : Nat)
  | driftWindow (h : Handle)
  | neighbourListArrival (q : Nat)
  | codeLinesArrival (q : Nat) (slot : Nat) (unit : Fin 3)
  | rerankBatchComplete (q : Nat)
  | basteBatchStart (h : Half)
  | basteBatchComplete (batch : Nat)
  | flatBatchStart (h : Handle) (rerank : Bool)
  | scanChunkComplete (r : ScanRef)
  | listSpaceReleased (q : Nat)
  | queryWaitCutoff (q : Nat)
  | coalesceTimer (p : Port) (n : Byte)
  | mutate (p : Port) (n : Byte)
  | basteRoom (job : Nat)
  | journalBlockTimer
  | journalBlockWriteComplete (ok : Bool)
  | journalSpaceReleased
  | flushJournal (p : Port) (n : Byte)
  | flushSeam (p : Port) (n : Byte)
  | flushSatisfied (job : Nat)
  | replay (p : Port) (n : Byte)
  | save (p : Port) (n : Byte)
  | seamInsert (h : Handle) (slot : Option Nat)
  | seamDelete (h : Handle)
  | slotFree (h : Handle) (slot : Nat)
  | setGeneration (w : Writer) (v : BitVec 64)
  | journalOn (w : Writer)
  | journalOff (w : Writer)
  | seamOn (w : Writer)
  | seamOff (w : Writer)
  | createCollection (p : Port) (definition : Bytes)
  | deleteCollection (p : Port) (h : Padded Handle)
  | collectionDrained (h : Handle)
  | loadBegin (p : Port) (h : Padded Handle) (pre : Bytes)
  | imageWindowWrite (p : Port) (offset : Nat) (data : Bytes)
  | loadEnd (p : Port) (h : Padded Handle)
  | loadEndComplete (h : Handle)
  | loadAbort (p : Port) (h : Padded Handle)
  | collectionOnline (p : Port) (h : Padded Handle)
  | collectionOffline (p : Port) (h : Padded Handle)
  | submitRecipe (p : Port) (d : Bytes)
  | recipeRunStart
  | tunStep (cluster : Fin 8)
  | recipesOn (w : Writer)
  | recipesOff (w : Writer)
  | memoryReadComplete (addr : Nat) (e : LineErrors) (stripe : Stripe) (r : Reader)
  | retrainStart (stack : Fin 12) (channel : Fin 32) (c : RetrainCause)
  | retrainVerify (stack : Fin 12) (channel : Fin 32) (ok : Bool)
  | retrainTimeout (stack : Fin 12) (channel : Fin 32)
  | drainComplete (stack : Fin 12) (channel : Fin 32)
  | scrubRead (u : ScrubUnit) (e : LineErrors) (stripe : Stripe) (parityDisagrees : Bool)
  | hbmTemperatureReading (stack : Fin 12) (celsius : Int)
  | stackReturn (stack : Fin 12) (failed : BitVec 32)
  | zeroFillComplete (stack : Fin 12)
  | bulkTemperatureRead (pkg : Fin 24) (rate : Byte) (above : Bool)
  | bulkPackageOffline (pkg : Fin 24)
  | expanderOffline (e : Fin 4)
  | caskSliceOffline (slice : Fin 32)
  | d2dLaneRetired (group : Fin 16)
  | unitOffline (u : UnitRef)
  | lendOn (w : Writer)
  | lendOff (w : Writer)
  | hostAccess (p : Port) (dpa : Nat) (op : HostOp)
  | hostLinkUp (p : Port) (speed : Byte) (width : Byte) (flit : Bool)
  | hdmDecoderCommit (p : Port) (n : Fin 8) (d : HdmDecoder)
  | cxlLinkDown (d : PortDown)
  | createSpool (p : Port) (d : Bytes)
  | deleteSpool (p : Port) (kind : Byte) (n : Padded Byte)
  | resetSpool (p : Port) (kind : Byte) (n : Padded Byte)
  | spoolResetComplete (p : Port) (n : Byte)
  | flush (p : Port) (kind : Byte) (h : Padded Handle)
  | setPowerState (p : Port) (target : Byte) (flags : Padded Byte)
  | powerTransitionComplete
  | startSelfTest (p : Port) (kind : Padded Byte)
  | getSelfTestResult (p : Port)
  | selfTestSlice (r : SliceRef) (pass : Bool)
  | selfTestResume
  | selfTestLimit
  | deviceReset (p : Port) (straps : BitVec 2)
  | resynchronise (p : Port)
  | getEntry (p : Port) (index : BitVec 16) (sub : Byte) (offset : BitVec 32) (length : Padded (BitVec 32))
  | setEntry (p : Port) (index : BitVec 16) (sub : Byte) (flags : Byte) (offset : Padded (BitVec 32)) (value : Bytes)
  | commitRetained (p : Port)
  | retainedCopyWritten (ok : Bool)
  | factoryReset (w : Writer) (v : Byte)
  | identify (p : Port)
  | backgroundOperationStatus (p : Port)
  | requestAbort (p : Port)
  | getSupportedLogs (p : Port)
  | getLog (p : Port) (effects : Bool) (offset : Nat) (length : Nat)
  | getEventRecords (p : Port) (log : EventLog)
  | clearEventRecords (p : Port) (log : EventLog) (handles : Option (List Nat))
  | getEventInterruptPolicy (p : Port)
  | setEventInterruptPolicy (p : Port) (policy : BitVec 32)
  | getFwInfo (p : Port)
  | transferFw (p : Port) (action : FwAction) (slot : Byte) (offset : Nat) (data : Bytes)
  | activateFw (p : Port) (online : Bool) (slot : Byte)
  | identifyMemoryDevice (p : Port)
  | getTimestamp (p : Port)
  | setTimestamp (p : Port)
  | spdmRequest (via : Source) (r : SpdmRequest)
  | papGet (ip : BitVec 32) (udp : BitVec 16) (b : Bytes)
  | papSet (ip : BitVec 32) (udp : BitVec 16) (b : Bytes)
  | papCommit (ip : BitVec 32) (udp : BitVec 16) (b : Bytes)
  | papResynchronise (ip : BitVec 32) (udp : BitVec 16) (b : Bytes)
  | mctpGet (eid : Byte) (b : Bytes)
  | mctpSet (eid : Byte) (b : Bytes)
  | mctpCommit (eid : Byte) (b : Bytes)
  | mctpResynchronise (eid : Byte) (b : Bytes)
  | stagingDiscard (src : Source)
  | papAnswerExpiry (src : Source) (requestId : BitVec 32)
  | registerWrite (w : Writer) (index : BitVec 16) (sub : Byte) (value : Bytes)
  | rebaseline (w : Writer) (v : Byte)
  | shardMap (w : Writer) (value : Bytes)
  | bindings (w : Writer) (p : Port) (value : Bytes)
  | setSigPolicy (w : Writer) (v : Byte)
  | commitSvn (w : Writer) (v : Byte)
  | recoveryData (w : Writer) (value : Bytes)
  | recoveryVerify (w : Writer) (v : Byte)
  | eventRaised (source : Byte) (inst : BitVec 16) (detail : BitVec 64) (reactionOf : Option Nat)
  | faultNPulseEnd
  | reactionTimer (sequence : Nat)
  | handle (w : Writer) (sequence : BitVec 32)
  | acknowledge (w : Writer) (slot : BitVec 16)
  | clear (w : Writer) (slot : BitVec 16)
  | force (w : Writer) (bits : Bytes)
  | level (w : Writer) (v : Byte)
  | rearm (w : Writer) (v : Byte)
  | tracesOn (w : Writer)
  | tracesOff (w : Writer)
  | linkOn (w : Writer) (link : Fin 32)
  | linkOff (w : Writer) (link : Fin 32)
  | detect (link : Fin 32) (r : DetectResult)
  | measure (link : Fin 32) (cm : BitVec 16)
  | autoneg (link : Fin 32) (oui : BitVec 24) (word : BitVec 64)
  | linkTrainingComplete (link : Fin 32) (lanes : BitVec 4) (loss : F32)
  | align (e : LinkEnd)
  | connect (link : Fin 32)
  | linkTimeout (link : Fin 32)
  | faultRetry (link : Fin 32)
  | alignmentLost (link : Fin 32)
  | modulePoll (link : Fin 32) (celsius : Int) (alarm : Bool) (fault : Bool)
  | keyUpdate (link : Fin 32)
  | put (link : Fin 32) (r : Rx)
  | get (link : Fin 32) (r : RxRead)
  | add64 (link : Fin 32) (r : RxRead)
  | cas64 (link : Fin 32) (r : RxRead)
  | swap64 (link : Fin 32) (r : RxRead)
  | merge (link : Fin 32) (r : Rx)
  | fence (link : Fin 32) (r : Rx)
  | signal (link : Fin 32) (r : Rx)
  | response (link : Fin 32) (wire : Bytes) (corrected : Nat) (uncorrected : Nat)
  | credit (link : Fin 32) (wire : Bytes) (fec : Fec)
  | ack (link : Fin 32) (r : Rx)
  | linkReplay (link : Fin 32) (r : Rx)
  | capability (link : Fin 32) (r : Rx)
  | linkSpdm (link : Fin 32) (x : SessionStep)
  | requestTimeout (tag : BitVec 32)
  | creditStall (link : Fin 32)
  | hostRequestGo (g : SlotGo)
  | hedgeTimer (window : Fin 64) (id : BitVec 32) (shard : Nat)
  | loopBackOn (w : Writer)
  | loopBackOff (w : Writer)
  | loopBackDuration (bits : Nat) (errors : Nat) (firstError : Time)
  | marginScanOn (w : Writer)
  | marginScanOff (w : Writer)
  | marginScanStart
  | bellConflict
  | marginStep (pass : Bool)
  | idcode
  | samplePreload (b : BoundaryScan)
  | extest
  | freezeStatus
  | chainSelect (chain : Byte)
  | chainRead (bits : Nat)
  | bypass (code : Byte)
  | leadCutoff (window : Fin 64) (id : BitVec 32)
  | numberInvalid (link : Fin 32)
  | replayComplete (job : Nat)
  | saveComplete (job : Nat)
  | busMasterEnable (p : Port) (on : Bool)
  | refclkCheck (present : BitVec 3)
  | managementPortState (up : Bool)
  | setEndpointId (eid : Byte)
deriving DecidableEq, Repr

end Sys2Proof
end

