-- ==== Sys2Proof/Decode.lean ====
section
/-!
DEFINITION. Decoding of the table's words. The opcode table gives bits to no row: the block's commands are
transactions, events and requests, which no instruction word of the table spells.
-/

namespace Sys2Proof

/-- The command that a word of the table spells: none, since no row of the table has bits. -/
def decodeTableWord (_nbits _w : Nat) : Option Instr := none

end Sys2Proof
end

