-- ==== Sys2Proof/Config.lean ====
section
/-!
DEFINITION. What the manual leaves open as values: constants with no body, so that nothing in Lean can
evaluate one or prove a value of it. A statement about a state that holds one is a statement for every value.
-/

namespace Sys2Proof.Config

/-- A fresh open value: the n-th one a run draws (log entry 1, DESIGN CHOICE). -/
opaque freeValue : Nat → BitVec 64

/-- What a counter reads after one more event at its largest value, where its entry does not say
(log entry 9, DESIGN CHOICE); the argument is the entry's key. -/
opaque counterOverflow : Nat → BitVec 64

/-- Error of the network path of a PTP grandmaster, ns; R46 adds the device's 50 ns to it (log entry 10). -/
opaque ptpPathError : BitVec 64 → Nat

/-- Error of the source of FT_PPS_IN, ns; R46 adds the device's 10 ns to it (log entry 10). -/
opaque ppsSourceError : Nat

/-- Nominal of VDD_HBM in mV: the JEDEC HBM4 stack core level, which R393 and R406 name without a number
(log entry 11). -/
opaque vddHbmNominal : Nat

/-- SHA-256 as FIPS 180-4 defines it (R418 names it; log entry 12). -/
opaque sha256 : Bytes → Bytes

/-- SHA-384, for the measurement blocks of R423 (log entry 12). -/
opaque sha384 : Bytes → Bytes

/-- RSASSA-PSS verification of R418: modulus, message, signature (log entry 12). -/
opaque rsaPssVerify : Bytes → Bytes → Bytes → Bool

/-- ML-DSA-65 verification of R418: public key, message, signature (log entry 12). -/
opaque mldsaVerify : Bytes → Bytes → Bytes → Bool

/-- The digest of Wearel's RSA key in the security ROM (R418; log entry 12). -/
opaque romRsaDigest : Bytes

/-- The digest of Wearel's ML-DSA key in the security ROM (R418; log entry 12). -/
opaque romMldsaDigest : Bytes

/-- The device secret that the PUF gives with the helper data of the identity record (R416; log entry 12). -/
opaque pufSecret : Bytes → BitVec 256

/-- A key that HKDF with SHA-384 derives from the device secret: 1 the DeviceID key, 2 the record key, 3 the Alias key, from the secret
and a digest (R416; log entry 12). -/
opaque deriveKey : BitVec 256 → Nat → Bytes → Bytes

/-- The Alias certificate, which the DeviceID key signs (R417): the two keys (log entry 12). -/
opaque aliasCertificate : Bytes → Bytes → Bytes

/-- HMAC-SHA-256 of a key and a message (R420; log entry 12). -/
opaque hmacSha256 : Bytes → Bytes → Bytes

/-- The security ROM, which never changes within a stepping (R423; log entry 12). -/
opaque securityRom : Bytes

/-- The Phiug section of an image's payload, or the section of the security core's firmware (R423; log entry 12). -/
opaque firmwareSection : Bool → Bytes → Bytes

/-- An answer of the security core whose bytes DMTF SPDM gives and this manual does not (R423; log entry 12). -/
opaque spdmBytes : Nat → Bytes

/-- Bytes of a standard CXL output that CXL 3.1 gives and this manual does not (R341; log entry 13). -/
opaque cxlBytes : Nat → Bytes

/-- Bytes of a frozen unit's internal memory in a readout chain, where the model holds no byte of it (R444;
log entry 14): the freeze, the chain and the byte offset. -/
opaque chainByte : Nat → Nat → Nat → Byte

/-- Wearel's JEDEC manufacturer identity and part, the IDCODE register (R443; log entry 8). -/
opaque idcodeWord : BitVec 32

/-- Microsecond mean that R316 takes where the shard has no completed query or hop to average (log entry 15). -/
opaque noMean : Nat → Nat

/-- The partner whose capability word this is has encrypt_policy 0x01 and not 0x00, which the word does not show
(R291, R321; log entry 28). -/
opaque partnerEncrypts : BitVec 64 → Bool

/-- The hash of a line's address over the cache slices (R278; log entry 31). -/
opaque cacheHash : Nat → BitVec 64

/-- The AES-256-GCM key and the 32-bit salt of a direction of a link, from the session's secret and the number of key updates (R321
names the SPDM session that gives them; log entry 12): true for the direction that this device sends. -/
opaque linkKey : BitVec 64 → Nat → Bool → BitVec 288

/-- The AES-256-GCM ciphertext of a plaintext under a key and a nonce (R321; log entry 12). -/
opaque gcmSeal : BitVec 256 → BitVec 96 → Bytes → Bytes

/-- The plaintext of an AES-256-GCM ciphertext (R321; log entry 12). -/
opaque gcmOpen : BitVec 256 → BitVec 96 → Bytes → Bytes

/-- The AES-256-GCM tag: key, nonce, bytes authenticated, ciphertext (R321; log entry 12). -/
opaque gcmTag : BitVec 256 → BitVec 96 → Bytes → Bytes → BitVec 128

/-- Frames of a channel that a device's receiver has room for when a link comes UP, its first CREDIT there (R298 gives no number; log
entry 28). -/
opaque linkCredits : Nat → BitVec 16

/-- The level of a driven output whose level no rule gives, by the pin's code and the cycle (R411; log entry 34). -/
opaque pinLevel : Nat → Nat → Bool

/-- Half of the round-trip asymmetry that a copper cable of a length in cm implies, ns; R45 gives no formula (log entry 10). -/
opaque cableAsymmetry : Nat → Int

end Sys2Proof.Config
end

