-- ==== Sys2Proof/Machine/Bytes.lean ====
section
/-!
DEFINITION. Byte strings: little-endian fields (R8), CRC-32C, zero filling, and the sorted
association lists that every sparse table of the state is held in.
-/

namespace Sys2Proof.Machine

/-- The unsigned value of a little-endian byte string (R8). -/
def leNat : Bytes → Nat
  | [] => 0
  | b :: r => b.toNat + 256 * leNat r

/-- `n` bytes of `v`, least significant first (R8); bits above are dropped. -/
def natLE : Nat → Nat → Bytes
  | 0, _ => []
  | n + 1, v => BitVec.ofNat 8 v :: natLE n (v / 256)

/-- The unsigned field of `w` bytes at offset `off`; bytes past the end read as absent. -/
def field (b : Bytes) (off w : Nat) : Nat := leNat ((b.drop off).take w)

/-- The bytes `[off, off + n)` of a string. -/
def sub (b : Bytes) (off n : Nat) : Bytes := (b.drop off).take n

/-- `n` zero bytes. -/
def zeros (n : Nat) : Bytes := List.replicate n 0

/-- A string cut or zero filled to `n` bytes. -/
def padTo (n : Nat) (b : Bytes) : Bytes := b.take n ++ zeros (n - b.length)

/-- Zero fill to a multiple of `m` bytes. -/
def padMul (m : Nat) (b : Bytes) : Bytes := b ++ zeros ((m - b.length % m) % m)

/-- A string with the bytes at `off` replaced. -/
def splice (b : Bytes) (off : Nat) (v : Bytes) : Bytes := b.take off ++ v ++ b.drop (off + v.length)

/-- True when every byte of `[off, off + n)` is zero: the reserved fields of R8. -/
def zeroAt (b : Bytes) (off n : Nat) : Bool := field b off n == 0

/-- The two's-complement value of the low `w` bits of `v`. -/
def signed (w v : Nat) : Int :=
  if v % 2 ^ w < 2 ^ (w - 1) then (v % 2 ^ w : Nat) else (v % 2 ^ w : Nat) - (2 ^ w : Nat)

/-- The unsigned pattern of `v` in `w` bits of two's complement. -/
def unsigned (w : Nat) (v : Int) : Nat := (v % (2 ^ w : Nat)).toNat

/-- Round up to a multiple of `m`. -/
def roundUp (m n : Nat) : Nat := m * ((m + n - 1) / m)

/-- Eight steps of the reflected CRC-32C register (polynomial 0x82F63B78). -/
def crcShift : Nat → BitVec 32 → BitVec 32
  | 0, c => c
  | n + 1, c => crcShift n (if c.getLsbD 0 then (c >>> 1) ^^^ 0x82F63B78#32 else c >>> 1)

/-- The CRC register after each byte of the string. -/
def crcFold : BitVec 32 → Bytes → BitVec 32
  | c, [] => c
  | c, b :: r => crcFold (crcShift 8 (c ^^^ b.zeroExtend 32)) r

/-- CRC-32C (R139, R220, R364): the Castagnoli polynomial, all-ones start, reflected, complemented (log entry 16). -/
def crc32c (b : Bytes) : BitVec 32 := ~~~ (crcFold 0xFFFFFFFF b)

/-- The bits of a natural number, least significant first, `n` of them. -/
def bitsOf : Nat → Nat → List Bool
  | 0, _ => []
  | n + 1, v => (v % 2 == 1) :: bitsOf n (v / 2)

/-- Bit `n` of a number. -/
def bit (v n : Nat) : Bool := v / 2 ^ n % 2 == 1

/-- One as a bit of a number where `b` holds. -/
def bitIf (b : Bool) (n : Nat) : Nat := if b then 2 ^ n else 0

/-- How many of the low `n` bits of a number are set. -/
def popcount : Nat → Nat → Nat
  | 0, _ => 0
  | n + 1, v => v % 2 + popcount n (v / 2)

/-- The positions of the set bits among the low `n`, ascending. -/
def bitList (n v : Nat) : List Nat := (List.range n).filter (bit v)

/-! ## Sorted association lists -/

/-- The value at a key. -/
def look {α : Type} (l : List (Nat × α)) (k : Nat) : Option α := l.lookup k

/-- Put a value at a key, keeping keys strictly rising. -/
def put {α : Type} (k : Nat) (v : α) : List (Nat × α) → List (Nat × α)
  | [] => [(k, v)]
  | (a, x) :: r => if k < a then (k, v) :: (a, x) :: r else if k = a then (k, v) :: r else (a, x) :: put k v r

/-- Remove a key. -/
def del {α : Type} (k : Nat) : List (Nat × α) → List (Nat × α)
  | [] => []
  | (a, x) :: r => if k < a then (a, x) :: r else if k = a then r else (a, x) :: del k r

/-- Put a value at a key of a list that leaves out one default: writing the default removes the entry. -/
def putDef {α : Type} [DecidableEq α] (d : α) (k : Nat) (v : α) (l : List (Nat × α)) : List (Nat × α) :=
  if v = d then del k l else put k v l

/-- The value at a key of a list that leaves out one default. -/
def lookDef {α : Type} (d : α) (l : List (Nat × α)) (k : Nat) : α := (look l k).getD d

/-- Keys strictly rising: the canonical order. -/
def rising {α : Type} : List (Nat × α) → Bool
  | [] => true
  | [_] => true
  | (a, _) :: (b, y) :: r => a < b && rising ((b, y) :: r)

/-- Insert a number into an ascending list without repeats. -/
def insertNat (n : Nat) : List Nat → List Nat
  | [] => [n]
  | a :: r => if n < a then n :: a :: r else if n = a then a :: r else a :: insertNat n r

/-- Replace the elements for which `p` holds. -/
def update {α : Type} (p : α → Bool) (f : α → α) (l : List α) : List α := l.map fun x => if p x then f x else x

/-- Insertion into a list sorted by `before`; an equal element stays ahead of the new one. -/
def insertBy {α : Type} (before : α → α → Bool) (x : α) : List α → List α
  | [] => [x]
  | y :: r => if before x y then x :: y :: r else y :: insertBy before x r

/-- Stable sort by `before`. -/
def sortBy {α : Type} (before : α → α → Bool) (l : List α) : List α :=
  l.foldl (fun acc x => insertBy before x acc) []

/-- The first `n` elements and the rest. -/
def chunks {α : Type} (n : Nat) : Nat → List α → List (List α)
  | 0, _ => []
  | _ + 1, [] => []
  | f + 1, l => l.take n :: chunks n f (l.drop n)

end Sys2Proof.Machine
end

