-- ==== Sys2Proof/Machine/Entries.lean ====
section
/-!
DEFINITION. The table of the Pattern book (R354, R377): for every entry of the manual its type (R355), access
code (R356), level (R357), default and range, in the order of the entries' numbers. One index stands for each
family of indices (the calendar entries, the HBM stacks, the Shuttle links, the grants, the expanders, the
tenant bindings). Ranges that depend on another entry stand in Machine/DictWrite.lean.
-/

namespace Sys2Proof.Machine

/-- The value types of R355. -/
inductive Ty where
  | bool | u8 | u16 | u32 | u64 | i32 | f32 | ft64 | str | domain
deriving DecidableEq, Repr

/-- The access codes of R356. -/
inductive Access where
  | ro | rw | rwr | wo
deriving DecidableEq, Repr

/-- One row of an entry table: sub-index, type, access, Expert level, default, lowest and highest raw value
(F32 as patterns; I32 entries have no range of their own but P7011.02, see Machine/DictWrite.lean). -/
structure Row where
  sub : Nat
  ty : Ty
  access : Access
  expert : Bool
  dflt : Nat
  lo : Nat
  hi : Nat
deriving DecidableEq, Repr

/-- Type codes of R355. -/
def Ty.code : Ty → Byte
  | .bool => 0x01 | .u8 => 0x02 | .u16 => 0x03 | .u32 => 0x04 | .u64 => 0x05
  | .i32 => 0x06 | .f32 => 0x07 | .ft64 => 0x08 | .str => 0x09 | .domain => 0x0A

/-- Sizes in bytes of R355; none for the types of varying length. -/
def Ty.size : Ty → Option Nat
  | .bool | .u8 => some 1
  | .u16 => some 2
  | .u32 | .i32 | .f32 => some 4
  | .u64 | .ft64 => some 8
  | .str | .domain => none


/-- P1000 (R2). -/
def rows1000 : List Row := [
  ⟨0x01, .u8, .ro, false, 0, 0, 255⟩, -- variant
  ⟨0x02, .u8, .ro, false, 176, 0, 255⟩, -- stepping
  ⟨0x03, .u16, .ro, false, 0xFFF, 0, 0xFFFF⟩, -- hbm_stack_mask
  ⟨0x04, .u32, .ro, false, 0xFFFFFFFF, 0, 0xFFFFFFFF⟩, -- shuttle_link_mask
  ⟨0x05, .bool, .ro, false, 1, 0, 1⟩, -- bulk_ring_present
  ⟨0x06, .u32, .ro, false, 0, 0, 0xFFFFFFFF⟩, -- bulk_package_mask
  ⟨0x07, .u32, .ro, false, 0, 0, 0xFFFFFFFF⟩ -- firmware_version
  ]

/-- P1002 (R35). -/
def rows1002 : List Row := [
  ⟨0x01, .u8, .ro, false, 1, 0, 255⟩, -- device_state
  ⟨0x02, .ft64, .ro, false, 0, 0, 0xFFFFFFFFFFFFFFFF⟩, -- state_since
  ⟨0x03, .u16, .ro, false, 0, 0, 0xFFFF⟩, -- degraded_mask
  ⟨0x04, .u8, .ro, false, 0, 0, 255⟩ -- fence_cause
  ]

/-- P1003 (R378). -/
def rows1003 : List Row := [
  ⟨0x01, .bool, .ro, false, 0, 0, 1⟩, -- factory_defaults_applied
  ⟨0x02, .u32, .ro, false, 0, 0, 0xFFFFFFFF⟩, -- retained_version
  ⟨0x03, .u64, .ro, false, 0, 0, 0xFFFFFFFFFFFFFFFF⟩, -- change_counter
  ⟨0x04, .u16, .ro, false, 0, 0, 0xFFFF⟩, -- uncommitted
  ⟨0x05, .u8, .ro, false, 0, 0, 255⟩, -- commit_state
  ⟨0x06, .u32, .ro, false, 0, 0, 0xFFFFFFFF⟩, -- last_commit_sequence
  ⟨0x07, .bool, .wo, true, 0, 0, 1⟩, -- factory_reset
  ⟨0x08, .u8, .ro, true, 0, 0, 255⟩, -- copy_status
  ⟨0x09, .u16, .ro, true, 0, 0, 0xFFFF⟩, -- restore_rejects
  ⟨0x0A, .u16, .ro, true, 0, 0, 0xFFFF⟩, -- deferred_pending
  ⟨0x0B, .u32, .ro, false, 1, 0, 0xFFFFFFFF⟩, -- boot_epoch
  ⟨0x0C, .u32, .ro, true, 0, 0, 0xFFFFFFFF⟩ -- enterprise_number
  ]

/-- P1004 (R378). -/
def rows1004 : List Row := [
  ⟨0x01, .u8, .rwr, false, 0, 0, 2⟩, -- pap_mode
  ⟨0x02, .u8, .rwr, false, 2, 0, 2⟩, -- mctp_mode
  ⟨0x03, .u8, .ro, true, 0, 0, 255⟩, -- mctp_eid
  ⟨0x04, .u64, .ro, true, 0, 0, 0xFFFFFFFFFFFFFFFF⟩, -- pap_requests
  ⟨0x05, .u64, .ro, true, 0, 0, 0xFFFFFFFFFFFFFFFF⟩, -- pap_discarded
  ⟨0x06, .u64, .ro, true, 0, 0, 0xFFFFFFFFFFFFFFFF⟩, -- requests_refused
  ⟨0x07, .domain, .ro, true, 0, 0, 0⟩ -- index_list
  ]

/-- P1006 (R378). -/
def rows1006 : List Row := [
  ⟨0x01, .u64, .ro, false, 0, 0, 0xFFFFFFFFFFFFFFFF⟩, -- mac_address
  ⟨0x02, .u32, .rwr, false, 0, 0, 0xFFFFFFFF⟩, -- ipv4_address
  ⟨0x03, .u8, .rwr, false, 24, 1, 30⟩, -- prefix_length
  ⟨0x04, .u32, .rwr, false, 0, 0, 0xFFFFFFFF⟩, -- gateway
  ⟨0x05, .u16, .rwr, true, 0, 0, 0xFFE⟩, -- vlan
  ⟨0x06, .u8, .ro, false, 0, 0, 255⟩ -- port_state
  ]

/-- P2000 (R62). -/
def rows2000 : List Row := [
  ⟨0x01, .u8, .ro, false, 0, 0, 255⟩, -- time_state
  ⟨0x02, .u8, .ro, false, 0, 0, 255⟩, -- selected_source
  ⟨0x03, .u32, .ro, false, 0xFFFFFFFF, 0, 0xFFFFFFFF⟩, -- error_estimate
  ⟨0x04, .i32, .ro, true, 0, 0, 0xFFFFFFFF⟩, -- last_offset
  ⟨0x05, .i32, .ro, true, 0, 0, 0xFFFFFFFF⟩, -- frequency_offset
  ⟨0x06, .u64, .ro, false, 0, 0, 0xFFFFFFFFFFFFFFFF⟩, -- gm_identity
  ⟨0x07, .u8, .ro, false, 255, 0, 255⟩, -- gm_clock_class
  ⟨0x08, .u8, .ro, false, 254, 0, 255⟩, -- gm_clock_accuracy
  ⟨0x09, .u8, .ro, true, 255, 0, 255⟩, -- beacon_link
  ⟨0x0A, .ft64, .wo, true, 0, 0, 0xFFFFFFFFFFFFFFFF⟩, -- set_time
  ⟨0x0B, .ft64, .ro, false, 0, 0, 0xFFFFFFFFFFFFFFFF⟩ -- now
  ]

/-- P2001 (R62). -/
def rows2001 : List Row := [
  ⟨0x01, .u8, .rwr, false, 0, 0, 4⟩, -- source_mode
  ⟨0x02, .u8, .rwr, false, 0, 0, 127⟩, -- ptp_domain
  ⟨0x03, .u8, .rwr, false, 0, 0, 1⟩, -- ptp_transport
  ⟨0x04, .u8, .rwr, true, 0, 0, 1⟩, -- delay_mechanism
  ⟨0x05, .u16, .rwr, true, 0, 0, 0xFFFF⟩, -- phy_ingress_latency
  ⟨0x06, .u16, .rwr, true, 0, 0, 0xFFFF⟩, -- phy_egress_latency
  ⟨0x07, .u16, .rwr, true, 0, 0, 0xFFFF⟩, -- pps_cable_delay
  ⟨0x08, .u32, .ro, true, 0, 0, 0xFFFFFFFF⟩, -- pps_edges_ignored
  ⟨0x09, .bool, .rwr, true, 1, 0, 1⟩ -- beacons_enabled
  ]

/-- P2002 (R62). -/
def rows2002 : List Row := [
  ⟨0x01, .u16, .rwr, true, 500, 1, 1000⟩, -- max_slew
  ⟨0x02, .u32, .rwr, true, 0xF4240, 0, 0xFFFFFFFF⟩, -- step_threshold
  ⟨0x03, .u32, .rwr, true, 0x989680, 0, 0xFFFFFFFF⟩, -- backward_limit
  ⟨0x04, .u16, .rwr, true, 50, 0, 0xFFFF⟩, -- holdover_drift
  ⟨0x05, .u32, .rwr, true, 0x1388, 0, 0xFFFFFFFF⟩, -- holdover_error_limit
  ⟨0x06, .bool, .wo, true, 0, 0, 1⟩, -- accept_backward_step
  ⟨0x07, .u32, .ro, true, 0, 0, 0xFFFFFFFF⟩ -- steps_taken
  ]

/-- P2003 (R62). -/
def rows2003 : List Row := [
  ⟨0x01, .u32, .rwr, false, 0xFA0, 1000, 0x186A0⟩, -- completion_reserve
  ⟨0x02, .u32, .ro, false, 0, 0, 0xFFFFFFFF⟩, -- max_finalise_observed
  ⟨0x03, .u64, .ro, false, 0, 0, 0xFFFFFFFFFFFFFFFF⟩, -- expired_on_arrival
  ⟨0x04, .u64, .ro, false, 0, 0, 0xFFFFFFFFFFFFFFFF⟩, -- deadline_partial
  ⟨0x05, .u64, .ro, false, 0, 0, 0xFFFFFFFFFFFFFFFF⟩ -- late_completions
  ]

/-- P2004 (R62). -/
def rows2004 : List Row := [
  ⟨0x01, .u8, .ro, true, 7, 0, 255⟩, -- entries_in_use
  ⟨0x02, .u32, .ro, true, 0, 0, 0xFFFFFFFF⟩, -- retrain_deferrals
  ⟨0x03, .u8, .rwr, true, 16, 1, 255⟩, -- max_deferrals
  ⟨0x04, .u32, .ro, true, 0, 0, 0xFFFFFFFF⟩ -- late_fires
  ]

/-- P2100 (R54). -/
def rows2100 : List Row := [
  ⟨0x01, .u8, .rw, true, 0, 0, 255⟩, -- state
  ⟨0x02, .u8, .rwr, true, 0, 0, 6⟩, -- kind
  ⟨0x03, .u64, .rwr, true, 0, 0, 0xFFFFFFFFFFFFFFFF⟩, -- phase
  ⟨0x04, .u64, .rwr, true, 0, 0, 0xFFFFFFFFFFFFFFFF⟩, -- period
  ⟨0x05, .u64, .rwr, true, 0, 0, 0xFFFFFFFFFFFFFFFF⟩, -- length
  ⟨0x06, .u32, .rwr, true, 0, 0, 0xFFFFFFFF⟩, -- target
  ⟨0x07, .ft64, .ro, true, 0, 0, 0xFFFFFFFFFFFFFFFF⟩, -- next_occurrence
  ⟨0x08, .u64, .ro, true, 0, 0, 0xFFFFFFFFFFFFFFFF⟩, -- fire_count
  ⟨0x09, .u32, .ro, true, 0, 0, 0xFFFFFFFF⟩ -- late_fires
  ]

/-- P3000 (R287). -/
def rows3000 : List Row := [
  ⟨0x01, .bool, .rwr, true, 1, 0, 1⟩, -- gusset_parity
  ⟨0x02, .u64, .ro, false, 0, 0, 0xFFFFFFFFFFFFFFFF⟩, -- hbm_usable
  ⟨0x03, .u64, .ro, false, 0, 0, 0xFFFFFFFFFFFFFFFF⟩, -- bulk_usable
  ⟨0x04, .u64, .ro, false, 0, 0, 0xFFFFFFFFFFFFFFFF⟩, -- cxl_usable
  ⟨0x05, .u32, .ro, false, 0, 0, 0xFFFFFFFF⟩, -- bulk_in_use_mask
  ⟨0x06, .u8, .ro, false, 0, 0, 255⟩, -- bulk_density
  ⟨0x07, .u16, .rwr, true, 24, 1, 720⟩, -- scrub_period
  ⟨0x08, .u64, .ro, false, 0, 0, 0xFFFFFFFFFFFFFFFF⟩, -- corrected_inline
  ⟨0x09, .u64, .ro, false, 0, 0, 0xFFFFFFFFFFFFFFFF⟩, -- corrected_gusset
  ⟨0x0A, .u64, .ro, false, 0, 0, 0xFFFFFFFFFFFFFFFF⟩, -- uncorrectable
  ⟨0x0B, .u64, .ro, true, 0, 0, 0xFFFFFFFFFFFFFFFF⟩, -- unbacked_accesses
  ⟨0x0C, .u32, .rwr, true, 1000, 1, 0xF4240⟩ -- retrain_error_limit
  ]

/-- P3010 (R287). -/
def rows3010 : List Row := [
  ⟨0x01, .u8, .ro, false, 0, 0, 255⟩, -- tier
  ⟨0x02, .i32, .ro, false, 0, 0, 0xFFFFFFFF⟩, -- temperature
  ⟨0x03, .u32, .ro, false, 0, 0, 0xFFFFFFFF⟩, -- channels_out
  ⟨0x04, .u32, .ro, false, 0, 0, 0xFFFFFFFF⟩, -- channels_offline
  ⟨0x05, .u32, .ro, true, 0, 0, 0xFFFFFFFF⟩, -- retrains
  ⟨0x06, .u64, .ro, true, 0, 0, 0xFFFFFFFFFFFFFFFF⟩, -- reconstructed_reads
  ⟨0x07, .u64, .ro, true, 0, 0, 0xFFFFFFFFFFFFFFFF⟩, -- hold_stalls
  ⟨0x08, .u16, .ro, true, 0, 0, 0xFFFF⟩ -- hold_peak
  ]

/-- P3100 (R28). -/
def rows3100 : List Row := [
  ⟨0x01, .u8, .rwr, false, 96, 0, 255⟩, -- hbm_weight_serve
  ⟨0x02, .u8, .rwr, true, 16, 0, 255⟩, -- hbm_weight_rerank
  ⟨0x03, .u8, .rwr, true, 16, 0, 255⟩, -- hbm_weight_scan
  ⟨0x04, .u8, .rwr, false, 32, 0, 255⟩, -- hbm_weight_mutate
  ⟨0x05, .u8, .rwr, true, 16, 0, 255⟩, -- hbm_weight_encode
  ⟨0x06, .u8, .rwr, false, 24, 0, 255⟩, -- hbm_weight_train
  ⟨0x07, .u8, .rwr, false, 48, 0, 255⟩, -- hbm_weight_fabric
  ⟨0x08, .u8, .rwr, true, 8, 0, 255⟩, -- hbm_weight_maint
  ⟨0x09, .u8, .rwr, true, 24, 0, 255⟩ -- d2d_weight_lend
  ]

/-- P3101 (R28). -/
def rows3101 : List Row := [
  ⟨0x01, .u8, .rwr, true, 16, 0, 255⟩, -- bulk_weight_serve
  ⟨0x02, .u8, .rwr, false, 64, 0, 255⟩, -- bulk_weight_rerank
  ⟨0x03, .u8, .rwr, false, 64, 0, 255⟩, -- bulk_weight_scan
  ⟨0x04, .u8, .rwr, true, 16, 0, 255⟩, -- bulk_weight_mutate
  ⟨0x05, .u8, .rwr, true, 16, 0, 255⟩, -- bulk_weight_encode
  ⟨0x06, .u8, .rwr, true, 16, 0, 255⟩, -- bulk_weight_train
  ⟨0x07, .u8, .rwr, true, 32, 0, 255⟩, -- bulk_weight_fabric
  ⟨0x08, .u8, .rwr, true, 8, 0, 255⟩, -- bulk_weight_maint
  ⟨0x09, .u8, .rwr, false, 24, 0, 255⟩ -- bulk_weight_lend
  ]

/-- P3200 (R287). -/
def rows3200 : List Row := [
  ⟨0x01, .u16, .rwr, true, 64, 16, 256⟩, -- working_mib
  ⟨0x02, .u16, .rwr, true, 16, 16, 64⟩, -- encode_staging_mib
  ⟨0x03, .u16, .rwr, true, 16, 16, 64⟩, -- recipe_staging_mib
  ⟨0x04, .u8, .ro, false, 11, 0, 255⟩, -- cache_slices
  ⟨0x05, .u64, .ro, true, 0, 0, 0xFFFFFFFFFFFFFFFF⟩, -- cache_hits
  ⟨0x06, .u64, .ro, true, 0, 0, 0xFFFFFFFFFFFFFFFF⟩, -- cache_misses
  ⟨0x07, .u64, .ro, true, 0, 0, 0xFFFFFFFFFFFFFFFF⟩ -- working_waits
  ]

/-- P3210 (R287). -/
def rows3210 : List Row := [
  ⟨0x01, .u8, .ro, true, 0, 0, 255⟩, -- slice_map
  ⟨0x02, .u8, .ro, true, 0, 0, 255⟩, -- slice_map
  ⟨0x03, .u8, .ro, true, 0, 0, 255⟩, -- slice_map
  ⟨0x04, .u8, .ro, true, 0, 0, 255⟩, -- slice_map
  ⟨0x05, .u8, .ro, true, 0, 0, 255⟩, -- slice_map
  ⟨0x06, .u8, .ro, true, 0, 0, 255⟩, -- slice_map
  ⟨0x07, .u8, .ro, true, 0, 0, 255⟩, -- slice_map
  ⟨0x08, .u8, .ro, true, 0, 0, 255⟩, -- slice_map
  ⟨0x09, .u8, .ro, true, 0, 0, 255⟩, -- slice_map
  ⟨0x0A, .u8, .ro, true, 0, 0, 255⟩, -- slice_map
  ⟨0x0B, .u8, .ro, true, 0, 0, 255⟩, -- slice_map
  ⟨0x0C, .u8, .ro, true, 0, 0, 255⟩, -- slice_map
  ⟨0x0D, .u8, .ro, true, 0, 0, 255⟩, -- slice_map
  ⟨0x0E, .u8, .ro, true, 0, 0, 255⟩, -- slice_map
  ⟨0x0F, .u8, .ro, true, 0, 0, 255⟩, -- slice_map
  ⟨0x10, .u8, .ro, true, 0, 0, 255⟩, -- slice_map
  ⟨0x11, .u8, .ro, true, 0, 0, 255⟩, -- slice_map
  ⟨0x12, .u8, .ro, true, 0, 0, 255⟩, -- slice_map
  ⟨0x13, .u8, .ro, true, 0, 0, 255⟩, -- slice_map
  ⟨0x14, .u8, .ro, true, 0, 0, 255⟩, -- slice_map
  ⟨0x15, .u8, .ro, true, 0, 0, 255⟩, -- slice_map
  ⟨0x16, .u8, .ro, true, 0, 0, 255⟩, -- slice_map
  ⟨0x17, .u8, .ro, true, 0, 0, 255⟩, -- slice_map
  ⟨0x18, .u8, .ro, true, 0, 0, 255⟩, -- slice_map
  ⟨0x19, .u8, .ro, true, 0, 0, 255⟩, -- slice_map
  ⟨0x1A, .u8, .ro, true, 0, 0, 255⟩, -- slice_map
  ⟨0x1B, .u8, .ro, true, 0, 0, 255⟩, -- slice_map
  ⟨0x1C, .u8, .ro, true, 0, 0, 255⟩, -- slice_map
  ⟨0x1D, .u8, .ro, true, 0, 0, 255⟩, -- slice_map
  ⟨0x1E, .u8, .ro, true, 0, 0, 255⟩, -- slice_map
  ⟨0x1F, .u8, .ro, true, 0, 0, 255⟩, -- slice_map
  ⟨0x20, .u8, .ro, true, 0, 0, 255⟩ -- slice_map
  ]

/-- P3300 (R287). -/
def rows3300 : List Row := [
  ⟨0x01, .u8, .rwr, true, 85, 70, 90⟩, -- warm_threshold
  ⟨0x02, .u8, .rwr, true, 95, 0, 100⟩, -- hot_threshold
  ⟨0x03, .u8, .ro, true, 105, 0, 255⟩, -- critical_threshold
  ⟨0x04, .u8, .rwr, true, 3, 1, 10⟩ -- hysteresis
  ]

/-- P3400 (R287). -/
def rows3400 : List Row := [
  ⟨0x01, .u8, .rw, false, 0, 0, 255⟩, -- state
  ⟨0x02, .u32, .rwr, false, 0, 0, 0xFFFFFFFF⟩, -- lend_gib
  ⟨0x03, .u8, .rwr, false, 1, 1, 2⟩, -- source
  ⟨0x04, .u64, .ro, false, 0, 0, 0xFFFFFFFFFFFFFFFF⟩, -- lent_bytes
  ⟨0x05, .u64, .ro, true, 0, 0, 0xFFFFFFFFFFFFFFFF⟩, -- device_base
  ⟨0x06, .u64, .ro, true, 0, 0, 0xFFFFFFFFFFFFFFFF⟩ -- poisoned_reads
  ]

/-- P4000 (R143). -/
def rows4000 : List Row := [
  ⟨0x01, .u16, .ro, false, 0, 0, 0xFFFF⟩, -- live_collections
  ⟨0x02, .u16, .ro, false, 0x400, 0, 0xFFFF⟩, -- collection_limit
  ⟨0x03, .u64, .ro, false, 0, 0, 0xFFFFFFFFFFFFFFFF⟩, -- hbm_free
  ⟨0x04, .u64, .ro, false, 0, 0, 0xFFFFFFFFFFFFFFFF⟩, -- bulk_free
  ⟨0x05, .u64, .ro, false, 0, 0, 0xFFFFFFFFFFFFFFFF⟩, -- cxl_free
  ⟨0x06, .u64, .ro, true, 0, 0, 0xFFFFFFFFFFFFFFFF⟩, -- creates
  ⟨0x07, .u64, .ro, true, 0, 0, 0xFFFFFFFFFFFFFFFF⟩, -- deletes
  ⟨0x08, .u64, .ro, true, 0, 0, 0xFFFFFFFFFFFFFFFF⟩, -- deferred_creates
  ⟨0x09, .u64, .ro, false, 0, 0, 0xFFFFFFFFFFFFFFFF⟩, -- deferred_create_failures
  ⟨0x0A, .u64, .ro, false, 0, 0, 0xFFFFFFFFFFFFFFFF⟩, -- load_failures
  ⟨0x0B, .u64, .ro, true, 0, 0, 0xFFFFFFFFFFFFFFFF⟩ -- window_writes_discarded
  ]

/-- P4010 (R143). -/
def rows4010 : List Row := [
  ⟨0x01, .u16, .rw, false, 0xFFFF, 0, 0xFFFF⟩, -- collection_select
  ⟨0x02, .u8, .ro, false, 0, 0, 255⟩, -- state
  ⟨0x03, .u8, .ro, false, 0, 0, 255⟩, -- flags
  ⟨0x04, .u32, .ro, false, 0, 0, 0xFFFFFFFF⟩, -- max_vectors
  ⟨0x05, .u32, .ro, true, 0, 0, 0xFFFFFFFF⟩, -- slot_high_water
  ⟨0x06, .u32, .ro, false, 0, 0, 0xFFFFFFFF⟩, -- live_slots
  ⟨0x07, .u32, .ro, false, 0, 0, 0xFFFFFFFF⟩, -- tombstoned_slots
  ⟨0x08, .u64, .ro, false, 0, 0, 0xFFFFFFFFFFFFFFFF⟩, -- image_generation
  ⟨0x09, .u64, .ro, true, 0, 0, 0xFFFFFFFFFFFFFFFF⟩, -- hbm_bytes
  ⟨0x0A, .u64, .ro, true, 0, 0, 0xFFFFFFFFFFFFFFFF⟩, -- bulk_bytes
  ⟨0x0B, .u64, .ro, true, 0, 0, 0xFFFFFFFFFFFFFFFF⟩, -- cxl_bytes
  ⟨0x0C, .u32, .ro, true, 0, 0, 0xFFFFFFFF⟩, -- queries_holding
  ⟨0x0D, .u64, .ro, false, 0, 0, 0xFFFFFFFFFFFFFFFF⟩ -- journal_position
  ]

/-- P4100 (R229). -/
def rows4100 : List Row := [
  ⟨0x01, .u8, .rw, false, 0, 0, 255⟩, -- state
  ⟨0x02, .u64, .rwr, false, 0, 0, 0xFFFFFFFFFFFFFFFF⟩, -- window_base
  ⟨0x03, .u8, .rwr, false, 0, 0, 1⟩, -- window_location
  ⟨0x04, .u64, .rwr, false, 0, 0, 0xFFFFFFFFFFFFFFFF⟩, -- window_length
  ⟨0x05, .u8, .rwr, false, 0, 0, 2⟩, -- default_ack_mode
  ⟨0x06, .u32, .rwr, true, 0x2710, 1000, 0x186A0⟩, -- commit_interval
  ⟨0x07, .u64, .rwr, false, 0, 0, 0xFFFFFFFFFFFFFFFF⟩, -- resume_position
  ⟨0x08, .u64, .ro, false, 0, 0, 0xFFFFFFFFFFFFFFFF⟩, -- append_position
  ⟨0x09, .u64, .ro, false, 0, 0, 0xFFFFFFFFFFFFFFFF⟩, -- durable_position
  ⟨0x0A, .u64, .ro, true, 0, 0, 0xFFFFFFFFFFFFFFFF⟩, -- release_position
  ⟨0x0B, .u64, .ro, false, 0, 0, 0xFFFFFFFFFFFFFFFF⟩, -- release_word
  ⟨0x0C, .u64, .ro, true, 0, 0, 0xFFFFFFFFFFFFFFFF⟩, -- blocks_written
  ⟨0x0D, .u64, .ro, false, 0, 0, 0xFFFFFFFFFFFFFFFF⟩, -- full_waits
  ⟨0x0E, .u64, .ro, true, 0, 0, 0xFFFFFFFFFFFFFFFF⟩, -- last_sequence
  ⟨0x0F, .u32, .ro, false, 0, 0, 0xFFFFFFFF⟩ -- power_closes
  ]

/-- P4110 (R229). -/
def rows4110 : List Row := [
  ⟨0x01, .u64, .ro, false, 1, 0, 0xFFFFFFFFFFFFFFFF⟩, -- current_generation
  ⟨0x02, .u64, .ro, false, 1, 0, 0xFFFFFFFFFFFFFFFF⟩, -- oldest_snapshot
  ⟨0x03, .u64, .wo, true, 0, 0, 0xFFFFFFFFFFFFFFFF⟩, -- set_generation
  ⟨0x04, .u64, .ro, true, 0, 0, 0xFFFFFFFFFFFFFFFF⟩ -- generations_opened
  ]

/-- P4120 (R229). -/
def rows4120 : List Row := [
  ⟨0x01, .u32, .rwr, false, 0x200000, 0x400, 0x1000000⟩, -- baste_cap
  ⟨0x02, .u16, .rwr, true, 192, 16, 384⟩, -- baste_partition_mib
  ⟨0x03, .u16, .rwr, true, 4, 1, 64⟩, -- payload_area_gib
  ⟨0x04, .u32, .ro, false, 0, 0, 0xFFFFFFFF⟩, -- baste_entries
  ⟨0x05, .u32, .ro, true, 0, 0, 0xFFFFFFFF⟩, -- retired_held
  ⟨0x06, .u64, .ro, true, 0, 0, 0xFFFFFFFFFFFFFFFF⟩, -- baste_bytes
  ⟨0x07, .u64, .ro, false, 0, 0, 0xFFFFFFFFFFFFFFFF⟩, -- cap_waits
  ⟨0x08, .u64, .ro, false, 0, 0, 0xFFFFFFFFFFFFFFFF⟩, -- inserts_accepted
  ⟨0x09, .u64, .ro, false, 0, 0, 0xFFFFFFFFFFFFFFFF⟩, -- deletes_accepted
  ⟨0x0A, .u64, .ro, false, 0, 0, 0xFFFFFFFFFFFFFFFF⟩, -- updates_accepted
  ⟨0x0B, .u64, .ro, true, 0, 0, 0xFFFFFFFFFFFFFFFF⟩, -- baste_removals
  ⟨0x0C, .u8, .rwr, true, 0, 0, 1⟩ -- nonfinite_policy
  ]

/-- P4130 (R229). -/
def rows4130 : List Row := [
  ⟨0x01, .u8, .rw, false, 2, 0, 255⟩, -- state
  ⟨0x02, .u8, .rwr, false, 25, 0, 50⟩, -- seam_share
  ⟨0x03, .u16, .rwr, true, 128, 16, 0x400⟩, -- seam_beam
  ⟨0x04, .f32, .rwr, true, 0x3F99999A, 0x3F800000, 0x40000000⟩, -- prune_alpha
  ⟨0x05, .bool, .rwr, false, 0, 0, 1⟩, -- bulk_build
  ⟨0x06, .u64, .ro, false, 0, 0, 0xFFFFFFFFFFFFFFFF⟩, -- inserted
  ⟨0x07, .u64, .ro, false, 0, 0, 0xFFFFFFFFFFFFFFFF⟩, -- tombstoned
  ⟨0x08, .u64, .ro, true, 0, 0, 0xFFFFFFFFFFFFFFFF⟩, -- repaired
  ⟨0x09, .u64, .ro, true, 0, 0, 0xFFFFFFFFFFFFFFFF⟩, -- freed
  ⟨0x0A, .u64, .ro, true, 0, 0, 0xFFFFFFFFFFFFFFFF⟩, -- reused
  ⟨0x0B, .u64, .ro, false, 0, 0, 0xFFFFFFFFFFFFFFFF⟩, -- seam_lag
  ⟨0x0C, .u64, .ro, true, 0, 0, 0xFFFFFFFFFFFFFFFF⟩ -- slot_waits
  ]

/-- P5000 (R177). -/
def rows5000 : List Row := [
  ⟨0x01, .u16, .rwr, false, 64, 1, 0xFFFF⟩, -- default_beam
  ⟨0x02, .u16, .rwr, false, 512, 1, 0xFFFF⟩, -- default_max_hops
  ⟨0x03, .u16, .rwr, false, 64, 0, 0x1000⟩, -- default_rerank_depth
  ⟨0x04, .u8, .rwr, true, 3, 0, 8⟩, -- default_prefetch_depth
  ⟨0x05, .bool, .rwr, true, 0, 0, 1⟩, -- expert_query_options
  ⟨0x06, .u8, .rwr, true, 64, 1, 255⟩, -- baste_batch_max
  ⟨0x07, .u32, .rwr, true, 0x7D0, 100, 0x186A0⟩, -- baste_batch_wait
  ⟨0x08, .u16, .rwr, true, 256, 1, 0x400⟩, -- flat_batch_max
  ⟨0x09, .u32, .rwr, true, 0x4E20, 1000, 0x989680⟩ -- flat_batch_wait
  ]

/-- P5010 (R88). -/
def rows5010 : List Row := [
  ⟨0x01, .u64, .ro, false, 0, 0, 0xFFFFFFFFFFFFFFFF⟩, -- distance_saturations
  ⟨0x02, .u64, .ro, false, 0, 0, 0xFFFFFFFFFFFFFFFF⟩, -- distance_nan
  ⟨0x03, .u64, .ro, true, 0, 0, 0xFFFFFFFFFFFFFFFF⟩ -- distance_underflows
  ]

/-- P5020 (R177). -/
def rows5020 : List Row := [
  ⟨0x01, .u64, .ro, false, 0, 0, 0xFFFFFFFFFFFFFFFF⟩, -- queries_completed
  ⟨0x02, .u64, .ro, false, 0, 0, 0xFFFFFFFFFFFFFFFF⟩, -- hops
  ⟨0x03, .u64, .ro, true, 0, 0, 0xFFFFFFFFFFFFFFFF⟩, -- table_loads
  ⟨0x04, .u64, .ro, true, 0, 0, 0xFFFFFFFFFFFFFFFF⟩, -- prefetch_discards
  ⟨0x05, .u64, .ro, true, 0, 0, 0xFFFFFFFFFFFFFFFF⟩, -- route_only_expansions
  ⟨0x06, .u64, .ro, true, 0, 0, 0xFFFFFFFFFFFFFFFF⟩, -- snapshot_skips
  ⟨0x07, .u64, .ro, false, 0, 0, 0xFFFFFFFFFFFFFFFF⟩, -- hop_limit_queries
  ⟨0x08, .u64, .ro, true, 0, 0, 0xFFFFFFFFFFFFFFFF⟩, -- nan_mapped_queries
  ⟨0x09, .u64, .ro, true, 0, 0, 0xFFFFFFFFFFFFFFFF⟩, -- baste_batches
  ⟨0x0A, .u64, .ro, true, 0, 0, 0xFFFFFFFFFFFFFFFF⟩ -- flat_batches
  ]

/-- P5030 (R198). -/
def rows5030 : List Row := [
  ⟨0x01, .u16, .rwr, true, 32, 16, 256⟩, -- spill_partition_mib
  ⟨0x02, .u16, .rwr, true, 4, 3, 64⟩, -- overflow_area_gib
  ⟨0x03, .u16, .ro, true, 32, 0, 0xFFFF⟩, -- spill_in_effect
  ⟨0x04, .u16, .ro, true, 4, 0, 0xFFFF⟩, -- overflow_in_effect
  ⟨0x05, .u64, .ro, false, 0, 0, 0xFFFFFFFFFFFFFFFF⟩, -- list_space_waits
  ⟨0x06, .u64, .ro, true, 0, 0, 0xFFFFFFFFFFFFFFFF⟩, -- dedup_losers
  ⟨0x07, .u64, .ro, true, 0, 0, 0xFFFFFFFFFFFFFFFF⟩, -- delete_hides
  ⟨0x08, .u64, .ro, true, 0, 0, 0xFFFFFFFFFFFFFFFF⟩, -- tie_saturations
  ⟨0x09, .u64, .ro, false, 0, 0, 0xFFFFFFFFFFFFFFFF⟩, -- spilled_lists
  ⟨0x0A, .u64, .ro, false, 0, 0, 0xFFFFFFFFFFFFFFFF⟩, -- long_lists
  ⟨0x0B, .u16, .ro, false, 0xFFFF, 0, 0xFFFF⟩ -- units_online
  ]

/-- P5040 (R198). -/
def rows5040 : List Row := [
  ⟨0x01, .f32, .rwr, false, 0x3C23D70A, 0, 0x3F800000⟩, -- prefilter_threshold
  ⟨0x02, .u16, .rwr, true, 0x400, 1, 0xFFFF⟩, -- widen_cap
  ⟨0x03, .u64, .ro, false, 0, 0, 0xFFFFFFFFFFFFFFFF⟩, -- exhaustive_queries
  ⟨0x04, .u64, .ro, false, 0, 0, 0xFFFFFFFFFFFFFFFF⟩, -- bounded_queries
  ⟨0x05, .u64, .ro, true, 0, 0, 0xFFFFFFFFFFFFFFFF⟩, -- widened_queries
  ⟨0x06, .u64, .ro, true, 0, 0, 0xFFFFFFFFFFFFFFFF⟩, -- filter_evaluations
  ⟨0x07, .u64, .ro, true, 0, 0, 0xFFFFFFFFFFFFFFFF⟩ -- histogram_builds
  ]

/-- P6000 (R120). -/
def rows6000 : List Row := [
  ⟨0x01, .u64, .ro, false, 0, 0, 0xFFFFFFFFFFFFFFFF⟩, -- vectors_encoded
  ⟨0x02, .u64, .ro, false, 0, 0, 0xFFFFFFFFFFFFFFFF⟩, -- luts_built
  ⟨0x03, .u64, .ro, true, 0, 0, 0xFFFFFFFFFFFFFFFF⟩, -- constant_blocks
  ⟨0x04, .u64, .ro, true, 0, 0, 0xFFFFFFFFFFFFFFFF⟩, -- rotation_inexact
  ⟨0x05, .u64, .ro, false, 0, 0, 0xFFFFFFFFFFFFFFFF⟩, -- nonfinite_vectors
  ⟨0x06, .u64, .ro, true, 0, 0, 0xFFFFFFFFFFFFFFFF⟩, -- encode_yields
  ⟨0x07, .u8, .ro, false, 15, 0, 255⟩ -- units_online
  ]

/-- P6010 (R88). -/
def rows6010 : List Row := [
  ⟨0x01, .u64, .ro, false, 0, 0, 0xFFFFFFFFFFFFFFFF⟩, -- saturations
  ⟨0x02, .u64, .ro, false, 0, 0, 0xFFFFFFFFFFFFFFFF⟩, -- nan_to_zero
  ⟨0x03, .u64, .ro, true, 0, 0, 0xFFFFFFFFFFFFFFFF⟩, -- underflows
  ⟨0x04, .bool, .rwr, true, 0, 0, 1⟩, -- e5m2_overflow_to_inf
  ⟨0x05, .u64, .ro, true, 0, 0, 0xFFFFFFFFFFFFFFFF⟩ -- nan_passed
  ]

/-- P6020 (R120). -/
def rows6020 : List Row := [
  ⟨0x01, .u32, .rwr, true, 0x10000, 0x400, 0x1000000⟩, -- drift_window
  ⟨0x02, .f32, .rwr, true, 0x3FC00000, 0x3F800000, 0x447A0000⟩, -- nmse_ratio_limit
  ⟨0x03, .f32, .rwr, true, 0x38D1B717, 0, 0x3F800000⟩, -- saturation_rate_limit
  ⟨0x04, .u64, .ro, false, 0, 0, 0xFFFFFFFFFFFFFFFF⟩ -- drift_events
  ]

/-- P6030 (R120). -/
def rows6030 : List Row := [
  ⟨0x01, .u16, .rw, true, 0xFFFF, 0, 0xFFFF⟩, -- collection_select
  ⟨0x02, .f32, .ro, true, 0, 0, 0x7F7FFFFF⟩, -- baseline_nmse
  ⟨0x03, .f32, .ro, true, 0, 0, 0x7F7FFFFF⟩, -- last_window_nmse
  ⟨0x04, .f32, .ro, true, 0, 0, 0x7F7FFFFF⟩, -- last_window_sat_rate
  ⟨0x05, .u32, .ro, true, 0, 0, 0xFFFFFFFF⟩, -- windows
  ⟨0x06, .bool, .ro, false, 0, 0, 1⟩, -- drift_flag
  ⟨0x07, .bool, .wo, true, 0, 0, 1⟩ -- rebaseline
  ]

/-- P7000 (R254). -/
def rows7000 : List Row := [
  ⟨0x01, .u8, .ro, false, 255, 0, 255⟩, -- clusters_online
  ⟨0x02, .u64, .ro, true, 0, 0, 0xFFFFFFFFFFFFFFFF⟩, -- baste_units
  ⟨0x03, .u64, .ro, true, 0, 0, 0xFFFFFFFFFFFFFFFF⟩, -- flat_units
  ⟨0x04, .u64, .ro, true, 0, 0, 0xFFFFFFFFFFFFFFFF⟩, -- seam_units
  ⟨0x05, .u64, .ro, true, 0, 0, 0xFFFFFFFFFFFFFFFF⟩, -- recipe_units
  ⟨0x06, .u64, .ro, false, 0, 0, 0xFFFFFFFFFFFFFFFF⟩, -- busy_cycles
  ⟨0x07, .u64, .ro, true, 0, 0, 0xFFFFFFFFFFFFFFFF⟩, -- paced_cycles
  ⟨0x08, .u8, .ro, true, 0, 0, 255⟩, -- last_scan_acc_status
  ⟨0x09, .u8, .rwr, true, 2, 1, 4⟩ -- grist_scan_mib
  ]

/-- P7010 (R88). -/
def rows7010 : List Row := [
  ⟨0x01, .u64, .ro, false, 0, 0, 0xFFFFFFFFFFFFFFFF⟩, -- saturations
  ⟨0x02, .u64, .ro, false, 0, 0, 0xFFFFFFFFFFFFFFFF⟩, -- nan_to_zero
  ⟨0x03, .u64, .ro, true, 0, 0, 0xFFFFFFFFFFFFFFFF⟩, -- underflows
  ⟨0x04, .bool, .rwr, true, 0, 0, 1⟩, -- e5m2_overflow_to_inf
  ⟨0x05, .u64, .ro, false, 0, 0, 0xFFFFFFFFFFFFFFFF⟩, -- wx_inexact_tiles
  ⟨0x06, .u64, .ro, false, 0, 0, 0xFFFFFFFFFFFFFFFF⟩, -- wx_overflow_tiles
  ⟨0x07, .u64, .ro, true, 0, 0, 0xFFFFFFFFFFFFFFFF⟩, -- special_tiles
  ⟨0x08, .u64, .ro, true, 0, 0, 0xFFFFFFFFFFFFFFFF⟩, -- int_sat_tiles
  ⟨0x09, .u64, .ro, true, 0, 0, 0xFFFFFFFFFFFFFFFF⟩, -- fp_sat_tiles
  ⟨0x0A, .u64, .ro, true, 0, 0, 0xFFFFFFFFFFFFFFFF⟩, -- conv_sat_tiles
  ⟨0x0B, .u64, .ro, true, 0, 0, 0xFFFFFFFFFFFFFFFF⟩ -- conv_nan_tiles
  ]

/-- P7011 (R88). -/
def rows7011 : List Row := [
  ⟨0x01, .u8, .rwr, true, 0, 0, 1⟩, -- wx_point_mode
  ⟨0x02, .i32, .rwr, true, 32, 0, 0xFFFFFFFF⟩ -- wx_fixed_point
  ]

/-- P7020 (R254). -/
def rows7020 : List Row := [
  ⟨0x01, .u8, .rw, false, 2, 0, 255⟩, -- state
  ⟨0x02, .u8, .ro, false, 0, 0, 255⟩, -- queued
  ⟨0x03, .u64, .ro, false, 0, 0, 0xFFFFFFFFFFFFFFFF⟩, -- runs_completed
  ⟨0x04, .u64, .ro, false, 0, 0, 0xFFFFFFFFFFFFFFFF⟩, -- runs_failed
  ⟨0x05, .u64, .ro, true, 0, 0, 0xFFFFFFFFFFFFFFFF⟩, -- steps_executed
  ⟨0x06, .u8, .rwr, true, 8, 1, 8⟩, -- max_clusters
  ⟨0x07, .u32, .ro, true, 0, 0, 0xFFFFFFFF⟩, -- running_tag
  ⟨0x08, .u16, .rwr, false, 8, 0, 64⟩, -- arena_gib
  ⟨0x09, .u64, .ro, false, 0, 0, 0xFFFFFFFFFFFFFFFF⟩ -- arena_base
  ]

/-- P8000 (R322). -/
def rows8000 : List Row := [
  ⟨0x01, .u16, .rwr, false, 0xFFFF, 0, 0xFFFF⟩, -- device_number
  ⟨0x02, .u16, .rwr, false, 0, 0, 0xFFFF⟩, -- fleet_id
  ⟨0x03, .u8, .rwr, false, 1, 0, 2⟩, -- encrypt_policy
  ⟨0x04, .u8, .rwr, true, 1, 0, 2⟩, -- remote_dictionary
  ⟨0x05, .u32, .ro, false, 0, 0, 0xFFFFFFFF⟩, -- links_up
  ⟨0x06, .u8, .ro, false, 3, 0, 255⟩, -- transport_online
  ⟨0x07, .u32, .ro, true, 0, 0, 0xFFFFFFFF⟩ -- vendor_oui
  ]

/-- P8010 (R322). -/
def rows8010 : List Row := [
  ⟨0x01, .u8, .rw, false, 2, 0, 255⟩, -- state
  ⟨0x02, .u8, .ro, false, 0, 0, 255⟩, -- train_state
  ⟨0x03, .u8, .ro, false, 0, 0, 255⟩, -- fault_cause
  ⟨0x04, .u64, .ro, false, 0, 0, 0xFFFFFFFFFFFFFFFF⟩, -- partner_caps
  ⟨0x05, .u8, .ro, false, 0, 0, 255⟩, -- width
  ⟨0x06, .u16, .ro, false, 0xFFFF, 0, 0xFFFF⟩, -- cable_length
  ⟨0x07, .f32, .ro, false, 0, 0, 0x7F7FFFFF⟩, -- insertion_loss
  ⟨0x08, .u32, .ro, true, 0, 0, 0xFFFFFFFF⟩, -- one_way_delay
  ⟨0x09, .u64, .ro, true, 0, 0, 0xFFFFFFFFFFFFFFFF⟩, -- fec_corrected
  ⟨0x0A, .u64, .ro, false, 0, 0, 0xFFFFFFFFFFFFFFFF⟩, -- fec_uncorrected
  ⟨0x0B, .u64, .ro, true, 0, 0, 0xFFFFFFFFFFFFFFFF⟩, -- replays
  ⟨0x0C, .u32, .ro, false, 0, 0, 0xFFFFFFFF⟩, -- retrains
  ⟨0x0D, .bool, .ro, false, 0, 0, 1⟩, -- encrypted
  ⟨0x0E, .str, .ro, true, 0, 0, 0⟩, -- module_info
  ⟨0x0F, .i32, .ro, true, 0, 0, 0xFFFFFFFF⟩ -- module_temperature
  ]

/-- P8100 (R322). -/
def rows8100 : List Row := [
  ⟨0x01, .domain, .rwr, true, 0, 0, 0⟩, -- route_table
  ⟨0x02, .u8, .rwr, true, 8, 1, 15⟩, -- hop_limit
  ⟨0x03, .u32, .rwr, true, 0xF4240, 0x2710, 0x5F5E100⟩, -- request_timeout
  ⟨0x04, .u32, .rwr, true, 0x186A0, 0x2710, 0x989680⟩, -- stall_limit
  ⟨0x05, .u64, .ro, true, 0, 0, 0xFFFFFFFFFFFFFFFF⟩, -- forwarded
  ⟨0x06, .u64, .ro, false, 0, 0, 0xFFFFFFFFFFFFFFFF⟩, -- no_route
  ⟨0x07, .u64, .ro, false, 0, 0, 0xFFFFFFFFFFFFFFFF⟩ -- stall_discards
  ]

/-- P8200 (R322). -/
def rows8200 : List Row := [
  ⟨0x01, .bool, .rwr, true, 0, 0, 1⟩, -- enabled
  ⟨0x02, .u64, .rwr, true, 0, 0, 0xFFFFFFFFFFFFFFFF⟩, -- base
  ⟨0x03, .u64, .rwr, true, 0, 0, 0xFFFFFFFFFFFFFFFF⟩, -- length
  ⟨0x04, .u8, .rwr, true, 0, 0, 7⟩, -- rights
  ⟨0x05, .u16, .rwr, true, 0, 0, 0xFFFF⟩, -- peer_lo
  ⟨0x06, .u16, .rwr, true, 0xFFF, 0, 0xFFFF⟩ -- peer_hi
  ]

/-- P8300 (R322). -/
def rows8300 : List Row := [
  ⟨0x01, .u16, .rw, false, 0xFFFF, 0, 0xFFFF⟩, -- collection_select
  ⟨0x02, .domain, .rw, false, 0, 0, 0⟩, -- shard_map
  ⟨0x03, .u16, .ro, false, 0, 0, 0xFFFF⟩, -- shard_count
  ⟨0x04, .u32, .rwr, true, 0x7D0, 0, 0x186A0⟩, -- path_allowance
  ⟨0x05, .u32, .rwr, true, 0, 0, 0x989680⟩, -- hedge_after
  ⟨0x06, .u32, .rwr, true, 1000, 0, 0x36EE80⟩, -- replica_holdoff
  ⟨0x07, .u64, .ro, false, 0, 0, 0xFFFFFFFFFFFFFFFF⟩, -- fleet_queries_led
  ⟨0x08, .u64, .ro, true, 0, 0, 0xFFFFFFFFFFFFFFFF⟩, -- shard_results
  ⟨0x09, .u64, .ro, false, 0, 0, 0xFFFFFFFFFFFFFFFF⟩, -- shards_missing
  ⟨0x0A, .u64, .ro, false, 0, 0, 0xFFFFFFFFFFFFFFFF⟩, -- late_sent
  ⟨0x0B, .u64, .ro, false, 0, 0, 0xFFFFFFFFFFFFFFFF⟩, -- late_received
  ⟨0x0C, .u64, .ro, false, 0, 0, 0xFFFFFFFFFFFFFFFF⟩, -- hedges
  ⟨0x0D, .u64, .ro, true, 0, 0, 0xFFFFFFFFFFFFFFFF⟩, -- merge_closed
  ⟨0x0E, .u64, .ro, true, 0, 0, 0xFFFFFFFFFFFFFFFF⟩ -- record_waits
  ]

/-- P8400 (R322). -/
def rows8400 : List Row := [
  ⟨0x01, .u64, .ro, false, 0, 0, 0xFFFFFFFFFFFFFFFF⟩, -- requests_served
  ⟨0x02, .u64, .ro, false, 0, 0, 0xFFFFFFFFFFFFFFFF⟩, -- requests_issued
  ⟨0x03, .u64, .ro, false, 0, 0, 0xFFFFFFFFFFFFFFFF⟩, -- access_refused
  ⟨0x04, .u64, .ro, false, 0, 0, 0xFFFFFFFFFFFFFFFF⟩, -- timeouts
  ⟨0x05, .u64, .ro, false, 0, 0, 0xFFFFFFFFFFFFFFFF⟩, -- link_lost
  ⟨0x06, .u64, .ro, true, 0, 0, 0xFFFFFFFFFFFFFFFF⟩ -- poisoned
  ]

/-- P9000 (R353). -/
def rows9000 : List Row := [
  ⟨0x01, .u8, .ro, false, 0, 0, 255⟩, -- link_state
  ⟨0x02, .u8, .ro, false, 0, 0, 255⟩, -- speed
  ⟨0x03, .u8, .ro, false, 0, 0, 255⟩, -- width
  ⟨0x04, .bool, .ro, true, 0, 0, 1⟩, -- flit_mode
  ⟨0x05, .bool, .ro, false, 0, 0, 1⟩, -- ide_active
  ⟨0x06, .u16, .rwr, false, 16, 1, 64⟩, -- host_area_gib
  ⟨0x07, .u64, .ro, false, 0, 0, 0xFFFFFFFFFFFFFFFF⟩, -- host_area_base
  ⟨0x08, .u8, .ro, true, 0, 0, 255⟩, -- bi_windows
  ⟨0x09, .u64, .ro, true, 0, 0, 0xFFFFFFFFFFFFFFFF⟩ -- doorbells_ignored
  ]

/-- P9100 (R353). -/
def rows9100 : List Row := [
  ⟨0x01, .u8, .rwr, false, 0, 0, 1⟩, -- mode
  ⟨0x02, .u8, .rwr, false, 0, 0, 2⟩, -- bifurcation
  ⟨0x03, .u8, .rwr, true, 1, 0, 2⟩, -- expander_ide
  ⟨0x04, .u8, .ro, false, 0, 0, 255⟩, -- mode_in_effect
  ⟨0x05, .u8, .ro, false, 0, 0, 255⟩, -- link_state
  ⟨0x06, .u8, .ro, false, 0, 0, 255⟩, -- speed
  ⟨0x07, .u8, .ro, false, 0, 0, 255⟩, -- width
  ⟨0x08, .u16, .rwr, false, 16, 1, 64⟩, -- host_area_gib
  ⟨0x09, .u64, .ro, false, 0, 0, 0xFFFFFFFFFFFFFFFF⟩, -- host_area_base
  ⟨0x0A, .u8, .ro, false, 0, 0, 255⟩, -- expanders_present
  ⟨0x0B, .u64, .ro, true, 0, 0, 0xFFFFFFFFFFFFFFFF⟩ -- doorbells_ignored
  ]

/-- P9200 (R353). -/
def rows9200 : List Row := [
  ⟨0x01, .u8, .ro, false, 0, 0, 255⟩, -- state
  ⟨0x02, .u32, .ro, false, 0, 0, 0xFFFFFFFF⟩, -- vendor_device
  ⟨0x03, .u64, .ro, false, 0, 0, 0xFFFFFFFFFFFFFFFF⟩, -- capacity
  ⟨0x04, .u64, .ro, false, 0, 0, 0xFFFFFFFFFFFFFFFF⟩, -- persistent
  ⟨0x05, .u8, .ro, true, 0, 0, 255⟩, -- width
  ⟨0x06, .u8, .ro, true, 0, 0, 255⟩, -- speed
  ⟨0x07, .u8, .ro, false, 0, 0, 255⟩ -- cause
  ]

/-- PA000 (R405). -/
def rowsA000 : List Row := [
  ⟨0x01, .u8, .ro, false, 0, 0, 255⟩, -- open_events
  ⟨0x02, .u64, .ro, false, 0, 0, 0xFFFFFFFFFFFFFFFF⟩, -- events_raised
  ⟨0x03, .u64, .ro, false, 0, 0, 0xFFFFFFFFFFFFFFFF⟩, -- events_merged
  ⟨0x04, .u64, .ro, false, 0, 0, 0xFFFFFFFFFFFFFFFF⟩, -- escalations
  ⟨0x05, .u32, .ro, true, 0, 0, 0xFFFFFFFF⟩, -- last_sequence
  ⟨0x06, .domain, .wo, true, 0, 0, 0⟩ -- force
  ]

/-- PA010 (R405). -/
def rowsA010 : List Row := [
  ⟨0x01, .u32, .rwr, true, 0x1E8480, 0, 0xEE6B2800⟩, -- c2_timer
  ⟨0x02, .u32, .rwr, true, 0x1E8480, 0, 0xEE6B2800⟩, -- c3_timer
  ⟨0x03, .u8, .rwr, true, 255, 2, 255⟩, -- freeze_class
  ⟨0x04, .u8, .rwr, false, 1, 0, 4⟩ -- alert_class
  ]

/-- PA020 (R405). -/
def rowsA020 : List Row := [
  ⟨0x01, .domain, .ro, false, 0, 0, 0⟩, -- history
  ⟨0x02, .domain, .ro, false, 0, 0, 0⟩, -- open_list
  ⟨0x03, .u32, .wo, false, 0, 0, 0xFFFFFFFF⟩, -- handle
  ⟨0x04, .u64, .ro, true, 0, 0, 0xFFFFFFFFFFFFFFFF⟩ -- history_writes
  ]

/-- PA030 (R405). -/
def rowsA030 : List Row := [
  ⟨0x01, .domain, .ro, false, 0, 0, 0⟩, -- alarm_table
  ⟨0x02, .u16, .wo, false, 0, 0, 0xFFFF⟩, -- acknowledge
  ⟨0x03, .u16, .wo, false, 0, 0, 0xFFFF⟩, -- clear
  ⟨0x04, .u16, .ro, false, 0, 0, 0xFFFF⟩, -- unacked
  ⟨0x05, .u64, .ro, true, 0, 0, 0xFFFFFFFFFFFFFFFF⟩ -- detail_full
  ]

/-- PA050 (R405). -/
def rowsA050 : List Row := [
  ⟨0x01, .u64, .ro, false, 0, 0, 0xFFFFFFFFFFFFFFFF⟩, -- needles_offline
  ⟨0x02, .domain, .ro, false, 0, 0, 0⟩, -- score_units_offline
  ⟨0x03, .u16, .ro, false, 0, 0, 0xFFFF⟩, -- cores_offline
  ⟨0x04, .u32, .ro, false, 0, 0, 0xFFFFFFFF⟩, -- slices_offline
  ⟨0x05, .u32, .ro, false, 0, 0, 0xFFFFFFFF⟩, -- packages_offline
  ⟨0x06, .u16, .ro, false, 0, 0, 0xFFFF⟩, -- stacks_offline
  ⟨0x07, .u16, .ro, false, 0, 0, 0xFFFF⟩ -- lanes_retired
  ]

/-- PA110 (R405). -/
def rowsA110 : List Row := [
  ⟨0x01, .u8, .rw, false, 0, 0, 1⟩, -- level
  ⟨0x02, .bool, .wo, false, 0, 0, 1⟩, -- rearm
  ⟨0x03, .u32, .rwr, true, 0x2710, 0x2710, 0xF4240⟩, -- pulse_width
  ⟨0x04, .u32, .ro, false, 0, 0, 0xFFFFFFFF⟩ -- pulses
  ]

/-- PB000 (R405). -/
def rowsB000 : List Row := [
  ⟨0x01, .u16, .ro, false, 0, 0, 0xFFFF⟩, -- rail_mv
  ⟨0x02, .u16, .ro, false, 0, 0, 0xFFFF⟩, -- rail_mv
  ⟨0x03, .u16, .ro, false, 0, 0, 0xFFFF⟩, -- rail_mv
  ⟨0x04, .u16, .ro, false, 0, 0, 0xFFFF⟩, -- rail_mv
  ⟨0x05, .u16, .ro, false, 0, 0, 0xFFFF⟩, -- rail_mv
  ⟨0x06, .u16, .ro, false, 0, 0, 0xFFFF⟩, -- rail_mv
  ⟨0x07, .i32, .ro, false, 0, 0, 0xFFFFFFFF⟩, -- junction_west
  ⟨0x08, .i32, .ro, false, 0, 0, 0xFFFFFFFF⟩, -- junction_east
  ⟨0x09, .u8, .ro, false, 0, 0, 255⟩, -- refclk_present
  ⟨0x0A, .u8, .rwr, true, 3, 1, 5⟩ -- rail_warn_band
  ]

/-- PB010 (R405). -/
def rowsB010 : List Row := [
  ⟨0x01, .domain, .ro, false, 0, 0, 0⟩, -- last_sample
  ⟨0x02, .u64, .ro, true, 0, 0, 0xFFFFFFFFFFFFFFFF⟩ -- samples_taken
  ]

/-- PB020 (R405). -/
def rowsB020 : List Row := [
  ⟨0x01, .domain, .ro, false, 0, 0, 0⟩, -- log_read
  ⟨0x02, .u64, .rw, false, 1, 0, 0xFFFFFFFFFFFFFFFF⟩, -- cursor
  ⟨0x03, .u64, .ro, false, 0, 0, 0xFFFFFFFFFFFFFFFF⟩, -- oldest_sequence
  ⟨0x04, .u64, .ro, false, 1, 0, 0xFFFFFFFFFFFFFFFF⟩, -- next_sequence
  ⟨0x05, .u8, .rwr, true, 1, 0, 4⟩, -- min_class
  ⟨0x06, .u64, .ro, false, 0, 0, 0xFFFFFFFFFFFFFFFF⟩, -- dropped_class_0 to dropped_class_4
  ⟨0x07, .u64, .ro, false, 0, 0, 0xFFFFFFFFFFFFFFFF⟩, -- dropped_class_0 to dropped_class_4
  ⟨0x08, .u64, .ro, false, 0, 0, 0xFFFFFFFFFFFFFFFF⟩, -- dropped_class_0 to dropped_class_4
  ⟨0x09, .u64, .ro, false, 0, 0, 0xFFFFFFFFFFFFFFFF⟩, -- dropped_class_0 to dropped_class_4
  ⟨0x0A, .u64, .ro, false, 0, 0, 0xFFFFFFFFFFFFFFFF⟩, -- dropped_class_0 to dropped_class_4
  ⟨0x0B, .u64, .ro, true, 0, 0, 0xFFFFFFFFFFFFFFFF⟩ -- suppressed
  ]

/-- PB030 (R405). -/
def rowsB030 : List Row := [
  ⟨0x01, .u8, .rw, false, 0, 0, 255⟩, -- state
  ⟨0x02, .u32, .rwr, false, 0, 0, 0xFFFFFFFF⟩, -- dest_ipv4
  ⟨0x03, .u16, .rwr, false, 0xC4EC, 1, 0xFFFF⟩, -- dest_port
  ⟨0x04, .u32, .rwr, true, 0x1312D00, 0xF4240, 0x5F5E100⟩, -- rate_limit
  ⟨0x05, .u32, .rwr, false, 0x400, 0, 0xFFFFFFFF⟩, -- query_interval
  ⟨0x06, .u8, .rwr, false, 7, 0, 7⟩, -- streams
  ⟨0x07, .u64, .ro, true, 0, 0, 0xFFFFFFFFFFFFFFFF⟩, -- datagrams_sent
  ⟨0x08, .u64, .ro, false, 0, 0, 0xFFFFFFFFFFFFFFFF⟩, -- shaped_drops
  ⟨0x09, .u64, .ro, false, 0, 0, 0xFFFFFFFFFFFFFFFF⟩ -- port_drops
  ]

/-- PC000 (R353). -/
def rowsC000 : List Row := [
  ⟨0x01, .u8, .ro, false, 0, 0, 255⟩, -- power_state
  ⟨0x02, .u8, .ro, false, 0, 0, 255⟩, -- target_state
  ⟨0x03, .u64, .ro, true, 0, 0, 0xFFFFFFFFFFFFFFFF⟩, -- transitions
  ⟨0x04, .u64, .ro, true, 0, 0, 0xFFFFFFFFFFFFFFFF⟩ -- forced_transitions
  ]

/-- PC100 (R18). -/
def rowsC100 : List Row := [
  ⟨0x01, .u16, .rwr, true, 1000, 600, 1000⟩, -- package_power_limit
  ⟨0x02, .u16, .ro, false, 0, 0, 0xFFFF⟩, -- package_power_estimate
  ⟨0x03, .u64, .ro, false, 0, 0, 0xFFFFFFFFFFFFFFFF⟩ -- pacing_intervals
  ]

/-- PD100 (R447). -/
def rowsD100 : List Row := [
  ⟨0x01, .u8, .rw, true, 0, 0, 255⟩, -- state
  ⟨0x02, .u8, .rw, true, 1, 1, 5⟩, -- interface
  ⟨0x03, .u16, .rw, true, 0, 0, 0xFFFF⟩, -- instance
  ⟨0x04, .u8, .rw, true, 1, 0, 255⟩, -- depth
  ⟨0x05, .u32, .rw, true, 1000, 1, 0xD693A400⟩, -- duration
  ⟨0x06, .u8, .ro, true, 0, 0, 255⟩, -- result
  ⟨0x07, .u64, .ro, true, 0, 0, 0xFFFFFFFFFFFFFFFF⟩, -- bits_compared
  ⟨0x08, .u64, .ro, true, 0, 0, 0xFFFFFFFFFFFFFFFF⟩, -- bit_errors
  ⟨0x09, .f32, .rwr, true, 0x358637BD, 0, 0x3C23D70A⟩, -- error_ratio_limit
  ⟨0x0A, .ft64, .ro, true, 0, 0, 0xFFFFFFFFFFFFFFFF⟩ -- first_error
  ]

/-- PD200 (R447). -/
def rowsD200 : List Row := [
  ⟨0x01, .u8, .rw, true, 0, 0, 255⟩, -- state
  ⟨0x02, .u16, .rw, true, 0, 0, 0xFFFF⟩, -- target
  ⟨0x03, .u32, .rw, true, 0x1000, 256, 0x10000⟩, -- bytes_per_step
  ⟨0x04, .u8, .ro, true, 0, 0, 255⟩, -- result
  ⟨0x05, .domain, .ro, true, 0, 0, 0⟩, -- edges
  ⟨0x06, .u32, .ro, true, 0, 0, 0xFFFFFFFF⟩ -- scans
  ]

/-- PD300 (R447). -/
def rowsD300 : List Row := [
  ⟨0x01, .u8, .ro, false, 0, 0, 255⟩, -- running
  ⟨0x02, .u8, .ro, false, 0, 0, 255⟩, -- progress
  ⟨0x03, .u32, .rwr, true, 0xF4240, 0x186A0, 0x5F5E100⟩, -- resume_idle
  ⟨0x04, .u32, .rwr, true, 60, 10, 0xE10⟩, -- short_limit
  ⟨0x05, .u32, .rwr, true, 0x3840, 600, 0x15180⟩, -- extended_limit
  ⟨0x06, .u64, .ro, true, 0, 0, 0xFFFFFFFFFFFFFFFF⟩ -- yields
  ]

/-- PD400 (R447). -/
def rowsD400 : List Row := [
  ⟨0x01, .bool, .ro, false, 0, 0, 1⟩, -- frozen
  ⟨0x02, .u8, .rwr, true, 0, 0, 2⟩, -- readout_policy
  ⟨0x03, .u8, .rw, true, 0, 0, 9⟩, -- chain_select
  ⟨0x04, .domain, .ro, true, 0, 0, 0⟩, -- chain_data
  ⟨0x05, .u64, .rw, true, 0, 0, 0xFFFFFFFFFFFFFFFF⟩ -- chain_offset
  ]

/-- PE000 (R426). -/
def rowsE000 : List Row := [
  ⟨0x01, .u8, .ro, false, 0, 0, 255⟩, -- sig_policy
  ⟨0x02, .u8, .wo, true, 0, 0, 1⟩, -- set_sig_policy
  ⟨0x03, .u8, .ro, false, 0, 0, 255⟩, -- running_slot
  ⟨0x04, .u8, .ro, false, 0, 0, 255⟩, -- active_slot
  ⟨0x05, .u8, .ro, false, 0, 0, 255⟩, -- trial
  ⟨0x06, .u32, .ro, false, 0, 0, 0xFFFFFFFF⟩, -- running_svn
  ⟨0x07, .u32, .ro, false, 0, 0, 0xFFFFFFFF⟩, -- min_svn
  ⟨0x08, .bool, .wo, true, 0, 0, 1⟩, -- commit_svn
  ⟨0x09, .u8, .ro, false, 0, 0, 255⟩, -- image_status
  ⟨0x0A, .u8, .ro, false, 0, 0, 255⟩, -- identity_state
  ⟨0x0B, .u8, .ro, false, 0, 0, 255⟩, -- boot_sel
  ⟨0x0C, .str, .ro, false, 0, 0, 0⟩ -- serial_number
  ]

/-- PE010 (R426). -/
def rowsE010 : List Row := [
  ⟨0x01, .u8, .rw, true, 0, 0, 1⟩, -- recovery_slot
  ⟨0x02, .u32, .rw, true, 0, 0, 0xEFFFFF⟩, -- recovery_offset
  ⟨0x03, .domain, .wo, true, 0, 0, 0⟩, -- recovery_data
  ⟨0x04, .bool, .wo, true, 0, 0, 1⟩, -- recovery_verify
  ⟨0x05, .u8, .ro, true, 0, 0, 255⟩ -- recovery_status
  ]

/-- PE020 (R426). -/
def rowsE020 : List Row := [
  ⟨0x01, .u16, .rwr, false, 0, 0, 0xFFFF⟩, -- own_tenant
  ⟨0x02, .domain, .rwr, false, 0, 0, 0⟩ -- bindings
  ]

/-- The tables by index, in the ranges of R377. -/
def rowTable0 : List (Nat × List Row) :=
  [(0x1000, rows1000),
   (0x1002, rows1002),
   (0x1003, rows1003),
   (0x1004, rows1004),
   (0x1006, rows1006),
   (0x2000, rows2000),
   (0x2001, rows2001),
   (0x2002, rows2002),
   (0x2003, rows2003),
   (0x2004, rows2004),
   (0x2100, rows2100)]
def rowTable1 : List (Nat × List Row) :=
  [(0x3000, rows3000),
   (0x3010, rows3010),
   (0x3100, rows3100),
   (0x3101, rows3101),
   (0x3200, rows3200),
   (0x3210, rows3210),
   (0x3300, rows3300),
   (0x3400, rows3400),
   (0x4000, rows4000),
   (0x4010, rows4010),
   (0x4100, rows4100)]
def rowTable2 : List (Nat × List Row) :=
  [(0x4110, rows4110),
   (0x4120, rows4120),
   (0x4130, rows4130),
   (0x5000, rows5000),
   (0x5010, rows5010),
   (0x5020, rows5020),
   (0x5030, rows5030),
   (0x5040, rows5040),
   (0x6000, rows6000),
   (0x6010, rows6010),
   (0x6020, rows6020)]
def rowTable3 : List (Nat × List Row) :=
  [(0x6030, rows6030),
   (0x7000, rows7000),
   (0x7010, rows7010),
   (0x7011, rows7011),
   (0x7020, rows7020),
   (0x8000, rows8000),
   (0x8010, rows8010),
   (0x8100, rows8100),
   (0x8200, rows8200),
   (0x8300, rows8300),
   (0x8400, rows8400)]
def rowTable4 : List (Nat × List Row) :=
  [(0x9000, rows9000),
   (0x9100, rows9100),
   (0x9200, rows9200),
   (0xA000, rowsA000),
   (0xA010, rowsA010),
   (0xA020, rowsA020),
   (0xA030, rowsA030),
   (0xA050, rowsA050),
   (0xA110, rowsA110),
   (0xB000, rowsB000),
   (0xB010, rowsB010)]
def rowTable5 : List (Nat × List Row) :=
  [(0xB020, rowsB020),
   (0xB030, rowsB030),
   (0xC000, rowsC000),
   (0xC100, rowsC100),
   (0xD100, rowsD100),
   (0xD200, rowsD200),
   (0xD300, rowsD300),
   (0xD400, rowsD400),
   (0xE000, rowsE000),
   (0xE010, rowsE010),
   (0xE020, rowsE020)]

/-- The whole table. -/
def rowTable : List (Nat × List Row) := rowTable0 ++ rowTable1 ++ rowTable2 ++ rowTable3 ++ rowTable4 ++ rowTable5

/-- The index whose table an index uses: families of R54, R287, R322, R353 and R426 share one. -/
def baseIndex (i : Nat) : Nat :=
  if 0x2100 ≤ i ∧ i ≤ 0x217F then 0x2100
  else if 0x3010 ≤ i ∧ i ≤ 0x301B then 0x3010
  else if 0x8010 ≤ i ∧ i ≤ 0x802F then 0x8010
  else if 0x8200 ≤ i ∧ i ≤ 0x820F then 0x8200
  else if 0x9200 ≤ i ∧ i ≤ 0x9203 then 0x9200
  else if i = 0xE021 then 0xE020
  else i

/-- The key of an entry: 256 × index + sub-index (R10, R354). -/
def key (index sub : Nat) : Nat := 256 * index + sub

/-- The row of an entry, by its key; none where the manual lists no such entry. -/
def rowOf (k : Nat) : Option Row :=
  ((look rowTable (baseIndex (k / 256))).getD []).find? fun r => r.sub = k % 256

/-- The highest sub-index of an index (R354); none where the manual lists no such index. -/
def highestSub (i : Nat) : Option Nat := (look rowTable (baseIndex i)).map fun l => l.length

/-- Kind, phase, period, length and target of calendar entries 0x00 to 0x06 (R58), by sub-index. -/
def calendarDefault : Nat → Nat → Nat
  | 0, 2 => 1 | 0, 4 => 1000000
  | 1, 2 => 3 | 1, 4 => 10000000 | 1, 5 => 10000000
  | 2, 2 => 4 | 2, 4 => 60000000000 | 2, 5 => 1000000000 | 2, 6 => 0x00000FFF
  | 3, 2 => 5 | 3, 4 => 1000000000 | 3, 5 => 1000000000 | 3, 6 => 0x00000FFF
  | 4, 2 => 5 | 4, 4 => 1000000000 | 4, 5 => 1000000000 | 4, 6 => 0x10FFFFFF
  | 5, 2 => 6 | 5, 4 => 1000000
  | 6, 2 => 2 | 6, 4 => 50000
  | _, _ => 0

/-- The default of a numeric entry, by its key. -/
def defaultOf (k : Nat) : Nat :=
  if baseIndex (k / 256) = 0x2100 then calendarDefault (k / 256 - 0x2100) (k % 256)
  else ((rowOf k).map Row.dflt).getD 0

end Sys2Proof.Machine
end

