-- ==== Sys2Proof/Machine/State.lean ====
section
/-!
DEFINITION. The state of the ZK-7712 as plain data: every register, queue, buffer and mode the manual gives
the device, one structure per chapter, `State`, and the state after reset. The entries of the Pattern book
that are settings or counters live in `State.book`, by number; an entry that reports a structure of its own
(a collection's state, the open-event list) is computed from that structure when it is read (Machine/Dict.lean).
-/

namespace Sys2Proof.Machine

/-- Why the device model stops. -/
inductive Fault where
  /-- A command names a unit, port or window that this variant does not have (R1, R14, R354): raised by the
  meanings of the commands that name one. Safe: no such event exists on the part. -/
  | absentUnit
  /-- A command is not well formed (Sys2Proof/WellFormed.lean): raised by the meanings that take a structure
  of a fixed length. Safe: no transport of the manual carries it. -/
  | illFormed
deriving DecidableEq, Repr

/-- A command that the model turns away. -/
inductive Refusal where
  /-- The command has no meaning yet: raised by exec's own arm. Safe. -/
  | notModelled (mnemonic : String)
deriving DecidableEq, Repr

/-- The numeric entries of the Pattern book: key 256 × index + sub-index, and the raw value. Canonical: keys
strictly rising, no entry equal to its default. -/
abbrev Book := List (Nat × BitVec 64)

/-- The STR and DOMAIN entries, by the same key. -/
abbrev Blobs := List (Nat × Bytes)

/-- Byte memory: keys strictly rising, no entry equal to what an unlisted address reads as. -/
abbrev Memory := List Host.Cell

/-! ## Outputs -/

/-- CXL return codes (R340, R341, R421), by name; the last two are those of CXL 3.1 for the standard commands (log entry 13). -/
inductive Rc where
  | success
  | backgroundStarted
  | invalidInput
  | unsupported
  | busy
  | mediaDisabled
  | fwTransferInProgress
  | fwOutOfOrder
  | fwVerificationFailed
  | invalidSlot
  | invalidHandle
  | invalidLog
deriving DecidableEq, Repr

/-- The kinds of Shuttle frame (R297). -/
inductive FrameKind where
  | request
  | response
  | control
  | beacon
deriving DecidableEq, Repr

/-- A Shuttle frame: the fields of its header and its payload (R297). -/
structure Frame where
  kind : FrameKind
  op : Byte := 0
  flags : BitVec 16 := 0
  dest : DevNum
  src : DevNum
  hopsLeft : Byte
  status : Byte := 0
  tag : BitVec 32 := 0
  address : BitVec 64 := 0
  operand : BitVec 64 := 0
  payload : Bytes := []
deriving DecidableEq, Repr

/-- The payload of a TIME_BEACON frame (R309). -/
structure Beacon where
  tSend : Time
  tSendFrac : BitVec 32
  sequence : BitVec 32
  tRecv : Time
  tRecvFrac : BitVec 32
  echo : BitVec 32
  err : BitVec 32
  state : Byte
  hops : Byte
deriving DecidableEq, Repr

/-- The pages of auto-negotiation (R291): the Clause 73 base page with the 800GBASE-CR4 ability and RS-FEC, the message page that
carries an identifier, and an unformatted page. -/
inductive AutonegPage where
  | base
  | message (oui : BitVec 24)
  | unformatted (w : BitVec 32)
deriving DecidableEq, Repr

/-- What leaves the device at a command: answers, messages, frames and datagrams (R336, R340, R352, R358,
R371, R373, R297, R402, R423, R443). -/
inductive Out where
  | mailbox (p : Port) (rc : Rc) (ext : Nat) (data : Bytes)
  | background (p : Port) (rc : Rc) (ext : Nat)
  | msix (p : Port) (vector : Nat)
  | dict (src : Source) (result : Byte) (type : Byte) (total : Nat) (value : Bytes)
  | pap (src : Source) (datagram : Bytes)
  | frame (link : Nat) (wire : Bytes)
  | page (link : Nat) (p : AutonegPage)
  | delayRequest (seq : BitVec 16) (peer : Bool) (ethernet : Bool)
  | trace (source dest port : Nat) (datagram : Bytes)
  | hostRead (p : Port) (data : Option Bytes)
  | spdm (via : Source) (error : Bool) (data : Bytes)
  | flushExpanders
  | tdo (bits : List Bool)
deriving DecidableEq, Repr

/-! ## Device, pins and power (R31, R35, R350, R411) -/

/-- The device states of R31. -/
inductive DevState where
  | off
  | boot
  | train
  | readyEmpty
  | loading
  | serving
  | degraded
  | fenced
deriving DecidableEq, Repr

/-- A power transition in progress (R350, R351). -/
structure Transition where
  port : Port
  target : Nat
  forced : Bool
deriving DecidableEq, Repr

/-- Device state, pins and power. Levels are given as "asserted" for the active-low inputs. `refclk` is what the last
REFCLK_CHECK found: CXL, Shuttle, management (R409). `freezeWait` says that FREEZE_N was low when BOOT began, so that BOOT waits
for its release (R440); `banksDriven` that TRAIN has been reached since, so that the pin banks driven from TRAIN are driven (R411);
and `mainEnAt` is when, on the free-running clock, MAIN_EN was raised last (R407). -/
structure Dev where
  st : DevState := .off
  since : Time := 0
  fenceCause : Byte := 0
  previous : DevState := .off
  epoch : Nat := 0
  straps : BitVec 2 := 0
  perstA : Bool := true
  pwrFail : Bool := false
  freezePin : Bool := false
  freezeWait : Bool := false
  banksDriven : Bool := false
  mainEnAt : Option Nat := none
  mainEn : Bool := false
  mainPg : Bool := false
  phiug : Bool := false
  stepsDone : Bool := false
  thermTrip : Bool := false
  ppsOut : Bool := false
  power : Nat := 0
  target : Nat := 0
  transition : Option Transition := none
  pacing : Bool := false
  frozen : Bool := false
  mgmtUp : Bool := false
  refclk : BitVec 3 := 7
deriving DecidableEq, Repr

/-- Units offline, one mask per kind (R36, PA050, P7000.01, P5030.0B, P6000.07); `channels` counts what
R271 reports through P1002.03 bit [7]. -/
structure Units where
  tun : BitVec 8 := 0
  needle : BitVec 64 := 0
  score : BitVec 192 := 0
  lauter : BitVec 16 := 0
  kiln : BitVec 4 := 0
  slice : BitVec 32 := 0
  stack : BitVec 12 := 0
  package : BitVec 24 := 0
  core : BitVec 16 := 0
  lane : BitVec 16 := 0
  transport : BitVec 2 := 0
  expander : BitVec 4 := 0
deriving DecidableEq, Repr

/-- A valid identity record of a retention flash (R413, R417): PUF helper data, the certificates, the MAC address and the serial number,
and whether the DeviceID certificate carries the public key that the PUF gives. -/
structure IdentityRecord where
  helper : Bytes := []
  chain : Bytes := []
  mac : BitVec 48 := 1
  serial : Bytes := []
  keyMatches : Bool := true
deriving DecidableEq, Repr

/-- What is fixed per part or measured at start-up (R1, R2, R255, R263, R325); `wantA`, `wantB` and `split` are P9000.06, P9100.08
and P9100.02 as this start-up took them (R353), and `cables` the pairs of the device's own links that a cable joins (R429). -/
structure Chip where
  variant : Byte := 0
  stackMask : BitVec 12 := 0xFFF
  linkMask : BitVec 32 := 0xFFFFFFFF
  bulkRing : Bool := true
  fitted : BitVec 24 := 0
  inUse : BitVec 24 := 0
  density : Nat := 0
  parity : Bool := true
  portBRoot : Bool := false
  hostAreaA : Nat := 0
  hostAreaB : Nat := 0
  hostGibA : Nat := 0
  hostGibB : Nat := 0
  wantA : Nat := 16
  wantB : Nat := 16
  split : Nat := 0
  arenaBase : Nat := 0
  arenaGib : Nat := 0
  vendorOui : BitVec 24 := 1
  enterprise : BitVec 32 := 1
  flashA : Bool := true
  flashB : Bool := true
  idA : Option IdentityRecord := some {}
  idB : Option IdentityRecord := some {}
  cables : List (Nat × Nat) := []
deriving DecidableEq, Repr

/-! ## Fleet time (R38 to R48) -/

/-- The time states of R39. -/
inductive TimeState where
  | unset
  | acquiring
  | locked
  | holdover
  | freerun
  | hostset
deriving DecidableEq, Repr

/-- The sources that P2000.02 names (R62). -/
inductive TimeSource where
  | none
  | ptp
  | ppsPtp
  | ppsHost
  | beacon
  | host
deriving DecidableEq, Repr

/-- What the FTU holds of one source (R46): when it last updated, on the always-on clock, how often it
updates, its offset from fleet time (positive: the source is ahead), its error estimate and hops. -/
structure SourceRec where
  seen : Bool := false
  last : Nat := 0
  interval : Nat := 0
  offset : Int := 0
  err : Nat := 0
  hops : Nat := 0
  bad : Bool := false
  fresh : Bool := false
deriving DecidableEq, Repr

/-- The PTP exchange in progress and the selected grandmaster (R43). -/
structure Ptp where
  gm : Option PtpAnnounce := none
  syncSeq : BitVec 16 := 0
  t2 : Time := 0
  awaiting : Bool := false
  interval : Nat := 0
  syncCorrection : Int := 0
  reqSeq : BitVec 16 := 0
  t3 : Time := 0
  requested : Bool := false
  t1 : Time := 0
  pathDelay : Int := 0
deriving DecidableEq, Repr

/-- The Fleet Time Unit. `aon` counts cycles of the always-on clock, and `hostSecs` says that P2000.0A has given a time (R44). -/
structure Ftu where
  now : Time := 0
  frac : BitVec 32 := 0
  aon : Nat := 0
  st : TimeState := .unset
  source : TimeSource := .none
  sourceLink : Nat := 0xFF
  slew : Int := 0
  pending : Option Int := none
  lockRun : Nat := 0
  estimate : Nat := 0xFFFFFFFF
  lossAt : Nat := 0
  lossErr : Nat := 0
  ptp : SourceRec := {}
  pps : SourceRec := {}
  beacons : List (Nat × SourceRec) := []
  exchange : Ptp := {}
  hostSecs : Bool := false
deriving DecidableEq, Repr

/-- Running state of one calendar entry (R54 to R57): its next occurrence, the window open until, the
schedule in force, and a new schedule that waits for the next old occurrence (R56). Of an open RETRAIN_WINDOW it also holds when it
opened, the instant at which its planned retrains start, and the stacks that have had theirs (R60, R272). -/
structure CalEntry where
  next : Option Time := none
  openUntil : Option Time := none
  phase : Nat := 0
  period : Nat := 0
  length : Nat := 0
  switchAfter : Option Time := none
  openedAt : Time := 0
  instant : Option Time := none
  retrained : List Nat := []
deriving DecidableEq, Repr

/-- The states of a switchable function (R361). -/
inductive SwState where
  | off
  | starting
  | on
  | stopping
deriving DecidableEq, Repr

/-- A switchable function: its state and the pending change that R362 keeps (true: start after stop). -/
structure Switch where
  st : SwState
  pend : Option Bool := none
deriving DecidableEq, Repr

/-! ## Retention and transports (R363 to R375) -/

/-- One record of a retained copy (R364). -/
structure RetRecord where
  key : Nat
  type : Byte
  value : Bytes
deriving DecidableEq, Repr

/-- A retained copy (R364). -/
structure RetCopy where
  sequence : Nat
  committed : Time
  firmware : BitVec 32
  records : List RetRecord
deriving DecidableEq, Repr

/-- A copy being written (R366): which area, what it will hold, and whether its retry is spent. -/
structure RetWrite where
  toA : Bool
  copy : RetCopy
  retried : Bool := false
deriving DecidableEq, Repr

/-- Retention (R363 to R368): the contents of SPI_RET_A and SPI_RET_B, where the copies lie (R364). `pending` is the queued commit:
its sequence, and whether it is an empty copy. -/
structure Retention where
  flashA : Memory := []
  flashB : Memory := []
  writing : Option RetWrite := none
  pending : Option (Nat × Bool) := none
  failed : Bool := false
  lastSequence : Nat := 0
  restored : Nat := 0
  defaults : Bool := false
deriving DecidableEq, Repr

/-- A piecewise write being assembled (R370). -/
structure Staging where
  src : Source
  key : Nat
  bytes : Bytes
  last : Nat
deriving DecidableEq, Repr

/-- A kept answer (R372): its source, request, time and bytes. -/
structure Kept where
  src : Source
  requestId : BitVec 32
  time : Nat
  datagram : Bytes
deriving DecidableEq, Repr

/-- A captured Device Summary Record held for a source (R375). -/
structure Capture where
  src : Source
  time : Nat
  bytes : Bytes
deriving DecidableEq, Repr

/-- The dictionary transports. -/
structure Transports where
  staging : List Staging := []
  kept : List Kept := []
  captures : List Capture := []
  token : Nat := 0
  secondStart : Nat := 0
  secondCount : Nat := 0
deriving DecidableEq, Repr

/-! ## Collections (R121 to R143) -/

/-- One attribute field descriptor (R124). -/
structure AttrField where
  offset : Nat
  type : Nat
  width : Nat
  histogram : Bool
deriving DecidableEq, Repr

/-- A collection definition (R123), parsed. -/
structure CollDef where
  handle : Handle
  graph : Bool
  distance : Nat
  dim : Nat
  codeFormat : Nat
  codeHeaded : Bool
  blockLog2 : Nat
  offsetMode : Nat
  rotation : Bool
  degree : Nat
  rerankFormat : Option Nat
  rerankHeaded : Bool
  codeTier : Nat
  rerankTier : Nat
  attrTier : Nat
  vidTier : Nat
  entryPoints : Nat
  attrFields : Nat
  tenant : BitVec 16
  stackMask : BitVec 16
  packageMask : BitVec 32
  maxVectors : Nat
  seed : BitVec 64
  codeTable : Nat
  rerankTable : Nat
  weights : Nat
  program : Nat
  schema : List AttrField
  raw : Bytes
deriving DecidableEq, Repr

/-- A carried scale table (R106): s2, exponents and offsets. -/
structure ScaleTable where
  s2 : BitVec 16
  exponents : List Byte
  offsets : List F32
deriving DecidableEq, Repr

/-- One operation of a compiled distance program (R161). -/
structure DistOp where
  opcode : Nat
  dst : Nat
  srcA : Nat
  srcB : Nat
  imm : F32
deriving DecidableEq, Repr

/-- Slot states (R134). -/
inductive SlotState where
  | free
  | live
  | tombstone
deriving DecidableEq, Repr

/-- One slot: slot table, slot state, code record, neighbour list, rerank copy and attributes (R134 to
R137), and seam's marks: repaired (R215), the free generation (R216), and the seam window in which its being held back was
counted (R217). -/
structure Slot where
  vid : BitVec 64
  birth : Nat
  reuse : Nat
  st : SlotState
  nonfinite : Bool
  death : Nat
  code : Bytes
  nbrs : List Nat
  rerank : Bytes
  attrs : Bytes
  repaired : Bool
  freeGen : Option Nat
  countedIn : Option Nat := none
deriving DecidableEq, Repr

/-- A VID map entry (R138). -/
structure VidEntry where
  vid : BitVec 64
  slot : BitVec 32
deriving DecidableEq, Repr

/-- A histogram block (R193). -/
structure Hist where
  valid : Bool
  field : Nat
  type : Nat
  lo : BitVec 64
  hi : BitVec 64
  population : Nat
  nanCount : Nat
  counters : List Nat
deriving DecidableEq, Repr

/-- One section of an image (R139). -/
structure Section where
  type : Nat
  offset : Nat
  length : Nat
  crc : BitVec 32
deriving DecidableEq, Repr

/-- An open load (R140, R345). -/
structure Load where
  port : Port
  base : Nat
  total : Nat
  generation : Nat
  position : Nat
  slots : Nat
  sections : List Section
  bytes : Memory
  checking : Bool := false
deriving DecidableEq, Repr

/-- Drift state of a collection (R117). Sums are kept as FP32, as R115 forms them; `window` is the size of the window
in progress, 0 before its first vector, and `ready` the nmse and saturation rate of the windows that have filled. -/
structure Drift where
  count : Nat := 0
  window : Nat := 0
  err : F32 := 0
  signal : F32 := 0
  saturated : Nat := 0
  elements : Nat := 0
  baseline : Option F32 := none
  lastNmse : F32 := 0
  lastSat : F32 := 0
  windows : Nat := 0
  flag : Bool := false
  ready : List (F32 × F32) := []
deriving DecidableEq, Repr

/-- Collection states (R128); ABSENT is the absence of the record. -/
inductive CollState where
  | created
  | loading
  | online
  | offline
  | deleting
deriving DecidableEq, Repr

/-- Slices a collection holds (R260, R262, R265): extents over its stack, package and expander sets. -/
structure Extent where
  owner : Nat
  tier : Nat
  base : Nat
  slices : List (Nat × Nat)
deriving DecidableEq, Repr

/-- A collection. -/
structure Coll where
  d : CollDef
  st : CollState
  imageLoaded : Bool := false
  dataLost : Bool := false
  codeScales : Option ScaleTable := none
  rerankScales : Option ScaleTable := none
  weights : List F32 := []
  program : List DistOp := []
  slots : List (Nat × Slot) := []
  highWater : Nat := 0
  vidMap : List (Nat × VidEntry) := []
  entries : List Nat := []
  hists : List Hist := []
  load : Option Load := none
  imageGeneration : Nat := 0
  journalPosition : Nat := 0
  drift : Drift := {}
  shardMap : List (List Nat) := []
  recentHops : List Nat := []
deriving DecidableEq, Repr

/-- A deferred creation (R131): the collection as its create found it, its tables read. -/
structure Deferred where
  coll : Coll
  thenDelete : Bool := false
  port : Port
deriving DecidableEq, Repr

/-! ## Queries (R144 to R177) and Lauter lists (R179) -/

/-- A list entry (R179). -/
structure LEntry where
  vid : BitVec 64
  dist : F32
  returnable : Bool
  filteredOut : Bool
  rerank : Bool
  baste : Bool
  listed : Bool
  expanded : Bool
  shard : Nat
  version : Nat
  codeDist : F32
  ref : Nat
deriving DecidableEq, Repr

/-- A filter operation (R190). -/
structure FilterOp where
  opcode : Nat
  field : Nat
  a : BitVec 64
  b : BitVec 64
deriving DecidableEq, Repr

/-- A query descriptor (R145), parsed. -/
structure QueryDesc where
  opcode : Nat
  flags : Byte
  coll : Handle
  tag : BitVec 32
  deadline : Time
  k : Nat
  beam : Nat
  maxHops : Nat
  rerankDepth : Nat
  prefetch : Nat
  format : Nat
  dim : Nat
  dest : Nat
  capacity : Nat
  listCount : Nat
  filter : Nat
  vidList : Nat
  mergeWindow : BitVec 64
  mergeGrid : Nat
  shards : Nat
  queryId : BitVec 32
  inline : Bytes
  raw : Bytes
  reservedOk : Bool
deriving DecidableEq, Repr

/-- Who gets a query's completion: its spool, with the spool's H after the entry was read, or the lead of its
fleet query (R311, R334). -/
inductive Client where
  | spool (p : Port) (n : Byte) (head : Nat)
  | peer (dev : DevNum) (link : Nat) (shard : Nat)
deriving DecidableEq, Repr

/-- Where a query stands. -/
inductive Stage where
  | waiting
  | hops
  | pass
  | flatWait
  | flat
  | rerank
  | basteWait
  | baste
  | merging
deriving DecidableEq, Repr

/-- What Kiln left of a query in its Cask working area (R111, R112): the rotated query in FP32, the copy of its lookup table,
and its INT8 encoding with the row sums; an output that was not written is empty. -/
structure WorkArea where
  rotated : Bytes := []
  table : Bytes := []
  int8 : Bytes := []
deriving DecidableEq, Repr

/-- A query in flight. `pass` is the way chosen at arrival (R196), `held` says that its list space is reserved (R183), `tau` is the
bound of a LONG list (R184), and the three waits are those of R183, R280 and R312. -/
structure Query where
  id : Nat
  client : Client
  d : QueryDesc
  arrival : Time
  cutoff : Time
  snapshot : Nat
  stage : Stage
  half : Half
  needle : Nat
  lauter : Nat := 0
  beam : Nat
  cap : Nat
  maxHops : Nat
  rerankDepth : Nat
  prefetch : Nat
  vec : List F32
  rotated : List F32
  finite : Bool
  filter : List FilterOp
  selectivity : Nat × Nat := (1, 1)
  list : List LEntry := []
  visited : List Nat := []
  requested : List Nat := []
  lines : List Nat := []
  current : Option Nat := none
  hops : Nat := 0
  lastHop : Time := 0
  tie : Nat := 0
  reranked : Nat := 0
  listedVids : List (BitVec 64) := []
  listedDone : Nat := 0
  listedEntries : List LEntry := []
  basteEntries : List LEntry := []
  basteDeletes : List (BitVec 64 × Nat) := []
  basteFail : List (BitVec 64 × Nat) := []
  basteRan : Bool := false
  passDone : Bool := false
  nextSlot : Nat := 0
  long : Bool := false
  tau : Option (Nat × Nat) := none
  pass : Bool := false
  work : WorkArea := {}
  held : Bool := false
  spill : Nat := 0
  overflow : Nat := 0
  pages : Nat := 0
  waited : Bool := false
  pageWait : Bool := false
  recordWait : Bool := false
  hopLimit : Bool := false
  nanMapped : Bool := false
  nonfinite : Bool := false
  rerankCut : Bool := false
  basteCut : Bool := false
  cut : Bool := false
  widened : Bool := false
  poisoned : Bool := false
  ring : Bool := false
  offlined : Bool := false
  degraded : Bool := false
  powerLimited : Bool := false
  lateSent : Bool := false
  joinedAt : Time := 0
  traversed : Option Time := none
  lead : Option (Nat × BitVec 32) := none
deriving DecidableEq, Repr

/-- A batch of queries on Tun (R165, R166); `tun` says that a collection of it is scanned on Tun and not on score units (R167). -/
structure Batch where
  id : Nat
  flat : Bool
  half : Half
  coll : Handle
  rerank : Bool
  members : List Nat
  entries : List Nat
  status : Byte := 0
  tun : Bool := true
deriving DecidableEq, Repr

/-- Contexts of one score unit: the queries whose tables are resident, most recently used first (R157). -/
abbrev ScoreCtx := List (Nat × List Nat)

/-- Search engine state. `recentPost` holds the times from the end of traversal to sending of the last 1,024 shard queries (R316),
and `vregs` the vector registers of the Lauter units that do not read 0, by 64 × unit + register (R178). -/
structure Search where
  nextId : Nat := 0
  queries : List Query := []
  batches : List Batch := []
  score : ScoreCtx := []
  hopLog : List (Time × Nat) := []
  recentPost : List Nat := []
  vregs : List (Nat × BitVec 2048) := []
deriving DecidableEq, Repr

/-! ## Encode batches (R94) -/

/-- An encode batch in progress, with the settings that R95 resolves and the Kiln unit it runs on (R90). -/
structure EncodeJob where
  id : Nat
  port : Port
  spool : Byte
  head : Nat
  tag : BitVec 32
  flags : Byte
  coll : Option Handle
  source : Nat
  codeDest : Nat
  blockDest : Nat
  vectorDest : Nat
  count : Nat
  dim : Nat
  stride : Nat
  sourceFormat : Nat
  codeFormat : Nat
  blockLog2 : Nat
  offsetMode : Nat
  carried : Option ScaleTable
  rotation : Bool
  seed : BitVec 64
  weights : List F32
  statsDest : Nat
  dimStatsDest : Nat
  cut : Option Byte := none
  unit : Nat := 0
deriving DecidableEq, Repr

/-! ## Mutations, baste list, journal (R199 to R228) -/

/-- A baste entry with its payload record (R207). A delete keeps in `attrs` the attribute record of the vector it
deletes, empty where there is none (R194); `held` says that its wait for a slot is counted (R214), `place` is its byte offset in the
partition, `payloadAt` its payload record index, and `busy` SEAM_BUSY. -/
structure BasteEntry where
  id : Nat
  coll : Handle
  vid : BitVec 64
  version : Nat
  stamp : Time
  insert : Bool
  retired : Option Time := none
  nonfinite : Bool := false
  held : Bool := false
  place : Nat := 0
  payloadAt : Nat := 0xFFFFFFFF
  busy : Bool := false
  code : Bytes := []
  rerank : Bytes := []
  attrs : Bytes := []
deriving DecidableEq, Repr

/-- A mutation record (R201), parsed, with its bytes. -/
structure MutRecord where
  kind : Nat
  format : Nat
  dim : Nat
  vid : BitVec 64
  vec : Bytes
  attrs : Bytes
  raw : Bytes
deriving DecidableEq, Repr

/-- A MUTATE entry being carried out (R202): where its records lie, how many it has, the bytes that hold them, the
acknowledgement mode, and the offset of the next record. -/
structure MutateWork where
  addr : Nat
  count : Nat
  length : Nat
  mode : Nat
  offset : Nat := 0
deriving DecidableEq, Repr

/-- A REPLAY being carried out (R227): its report, the block and the record it stands at, whether records are applied yet
(AFTER_CREATE), and what the report says. -/
structure ReplayWork where
  report : Nat
  position : Nat
  index : Nat := 0
  last : Option Nat := none
  started : Bool
  skipped : Nat := 0
  high : Nat := 0
  deleted : Nat := 0
  ended : Bool := false
deriving DecidableEq, Repr

/-- A SAVE being carried out (R228). -/
structure SaveWork where
  dest : Nat
  capacity : Nat
  snapshot : Nat
deriving DecidableEq, Repr

/-- The work of a mutation-spool entry or a mailbox flush; `lost` says that a journal block a flush waits for was lost
(R223), and `refused` that the entry has no work: its status is known. -/
inductive MutWork where
  | refused
  | mutate (w : MutateWork)
  | flushJournal (lost : Bool)
  | flushSeam
  | replay (w : ReplayWork)
  | save (w : SaveWork)
deriving DecidableEq, Repr

/-- Who gets a mutation job's completion. -/
inductive MutClient where
  | spool (p : Port) (n : Byte) (tag : BitVec 32) (head : Nat)
  | mailbox (p : Port)
deriving DecidableEq, Repr

/-- A mutation-spool entry being carried out, or waiting (R202, R208, R222, R227, R228), or a mailbox flush (R346).
`coll` is none for every collection, `accepted` counts its records, `unacked` those not yet acknowledged; `status` is set
once its outcome is known. -/
structure MutJob where
  id : Nat
  client : MutClient
  opcode : Nat
  coll : Option Handle
  work : MutWork
  waiting : Bool := false
  capCounted : Bool := false
  accepted : Nat := 0
  unacked : Nat := 0
  aux : Nat := 0
  status : Option Nat := none
  arrival : Time := 0
deriving DecidableEq, Repr

/-- A journal record (R220). -/
structure JRecord where
  type : Nat
  coll : Handle
  version : Nat
  stamp : Time
  body : Bytes
  job : Option Nat
  durable : Bool
deriving DecidableEq, Repr

/-- A journal block (R220); sequence and position are given when it closes. -/
structure JBlock where
  sequence : Nat
  position : Nat
  flags : Nat
  opened : Time
  records : List JRecord
  retried : Bool := false
deriving DecidableEq, Repr

/-- The journal (R219 to R226), its settings being in the book. `unwritten` holds the closed blocks that are not durable,
`written` the position and last_generation of each block of the stream, as R228 asks; `intakeStopped` is the cause of the
closing that stopped intake (R225). -/
structure Journal where
  current : Option JBlock := none
  unwritten : List JBlock := []
  append : Nat := 0
  durable : Nat := 0
  release : Nat := 0
  nextSequence : Nat := 1
  lastClosed : Nat := 0
  written : List (Nat × Nat) := []
  replayEnd : Nat := 0
  fullEpisode : Bool := false
  intakeStopped : Option Nat := none
  resume : Nat := 0
deriving DecidableEq, Repr

/-- Mutation state. `lastBell` is when the bell that opened the current generation rang, 0 where none did,
`lastPlace` the stamp of the record accepted last and its spool's place in the order of R204, and `seamWindow` counts the seam windows
opened (R217). -/
structure Mut where
  generation : Nat := 1
  lastBell : Time := 0
  lastPlace : Time × Nat := (0, 0)
  nextId : Nat := 0
  baste : List BasteEntry := []
  jobs : List MutJob := []
  journal : Journal := {}
  seamWindow : Nat := 0
deriving DecidableEq, Repr

/-! ## Spools (R331 to R338) -/

/-- A submission spool. -/
structure SubSpool where
  port : Port
  num : Byte
  mutation : Bool
  weight : Nat
  entries : Nat
  base : Nat
  completion : Byte
  tenant : BitVec 16
  head : BitVec 32 := 0
  tail : BitVec 32 := 0
  resetting : Bool := false
  outstanding : Nat := 0
  ignored : Nat := 0
  processed : Nat := 0
  resets : Nat := 0
deriving DecidableEq, Repr

/-- A completion spool. -/
structure CompSpool where
  port : Port
  num : Byte
  hostMemory : Bool
  entries : Nat
  base : Nat
  tenant : BitVec 16
  msix : Option Nat
  coalesceCount : Nat
  coalesceTime : Nat
  tail : BitVec 32 := 0
  head : BitVec 32 := 0
  reserved : Nat := 0
  ignored : Nat := 0
  processed : Nat := 0
  unsignalled : Nat := 0
  firstUnsignalled : Time := 0
deriving DecidableEq, Repr

/-- The spools of both ports. `turn` is the intake that has its turn, by its place in the round, and the entries its turn still
has (R333). -/
structure Spools where
  sub : List SubSpool := []
  comp : List CompSpool := []
  turn : Nat × Nat := (512, 0)
deriving DecidableEq, Repr

/-! ## Mailboxes, CXL logs, firmware transfer (R326, R339, R352, R421) -/

/-- A background command (R339): its opcode, and what it works on. -/
structure BgCommand where
  opcode : Nat
  arg : Nat
deriving DecidableEq, Repr

/-- One CXL event log: the records, oldest first, with their handles, and the overflow count (R352). -/
structure CxlLog where
  records : List (Nat × Bytes) := []
  overflow : Nat := 0
  firstLost : Time := 0
  lastLost : Time := 0
  nextHandle : Nat := 1
deriving DecidableEq, Repr

/-- The MSI-X capability of a port (R336): its enable, its function mask, the vectors whose mask bit is clear, and those pending. -/
structure Msix where
  enabled : Bool := false
  maskAll : Bool := false
  unmasked : List Nat := []
  pending : List Nat := []
deriving DecidableEq, Repr

/-- One upstream port: mailbox, logs, link, decoders by number, IDE, MSI-X; `follower` says that it follows its host in Loopback
(R429); `memoryActive` and `memoryTimeout` are the DVSEC's Memory_Active and its Memory_Active_Timeout in seconds (R414). -/
structure PortState where
  bg : Option BgCommand := none
  lastOpcode : Nat := 0
  lastRc : Rc := .success
  lastExt : Nat := 0
  policy : BitVec 32 := 0
  info : CxlLog := {}
  warning : CxlLog := {}
  failure : CxlLog := {}
  fatal : CxlLog := {}
  linkState : Byte := 0
  speed : Byte := 0
  width : Byte := 0
  flit : Bool := false
  ide : Bool := false
  decoders : List (Nat × HdmDecoder) := []
  msix : Msix := {}
  busMaster : Bool := false
  follower : Bool := false
  memoryActive : Bool := false
  memoryTimeout : Nat := 64
deriving DecidableEq, Repr

/-- A firmware transfer in progress (R421). -/
structure FwTransfer where
  port : Port
  slotB : Bool
  next : Nat
deriving DecidableEq, Repr

/-- Both host ports. -/
structure HostPorts where
  a : PortState := {}
  b : PortState := {}
  fw : Option FwTransfer := none
deriving DecidableEq, Repr

/-! ## Recipes (R244 to R253) -/

/-- A queued run (R244). -/
structure RunDesc where
  port : Port
  recipe : Nat
  statusDest : Nat
  tag : BitVec 32
  msix : BitVec 16
  clusters : BitVec 8
  stopOnFlag : Bool
deriving DecidableEq, Repr

/-- A tensor descriptor (R246). -/
structure Tensor where
  address : Nat
  rows : Nat
  cols : Nat
  format : Nat
  blockLog2 : Nat
  secondLevel : Bool
  blockOffset : Bool
  stride : Nat
  scales : Nat
deriving DecidableEq, Repr

/-- A recipe step (R247). -/
structure RStep where
  opcode : Nat
  shape : Nat
  acc : Nat
  wxFixed : Bool
  preloadRow : Bool
  preloadTile : Bool
  blockedOut : Bool
  wxPoint : Int
  outExp : Int
  srcA : Nat
  srcB : Nat
  srcC : Nat
  dst : Nat
  imm : List F32
deriving DecidableEq, Repr

/-- A value that has left the Collector and waits for the rest of its row, which BLOCKED_OUT encodes whole (R240): m × 2^e, with the status
bits of its tile (R87). -/
structure Leaving where
  m : Int
  e : Int
  status : Nat
deriving DecidableEq, Repr

/-- The running run (R251); `row` counts the destination rows written, `unit` the issue units of the next rows that have run (R242),
`cluster` is the one that ran the last of them, and `leaving` holds what they gave of rows that are written whole. -/
structure Run where
  d : RunDesc
  tensors : List Tensor
  steps : List RStep
  repeats : Nat
  step : Nat := 0
  row : Nat := 0
  iterations : Nat := 0
  executed : Nat := 0
  acc : Byte := 0
  stepAcc : Byte := 0
  firstFlagged : Option Nat := none
  started : Time
  sats : Nat := 0
  nans : Nat := 0
  unit : Nat := 0
  cluster : Option Nat := none
  leaving : List (List Leaving) := []
deriving DecidableEq, Repr

/-- What the Collector holds of one output element (R235, R237): its entry, and the partial of the super-block in progress, as words of
the accumulator, with the status bits set so far (R87). -/
structure CollEntry where
  entry : Option (BitVec 96) := none
  part : Option (BitVec 96) := none
  status : Nat := 0
deriving DecidableEq, Repr

/-- One Tun cluster (R230). `active` and `shadow` are the stationary blocks in the DPUs' two registers: for each logical column, the codes
of its K pass (R231, R234). `scan` and `cache` are what the two parts of the Grist buffer hold (R241). `collector` holds the tile sets in
flight, row by row, and `acc` their accumulator code (R237). `interval` and `seamCycles` are the 10 µs interval seam last issued in and
the cycles it took there (R242). -/
structure Cluster where
  active : List (List Nat) := []
  shadow : List (List Nat) := []
  scan : Bytes := []
  cache : Bytes := []
  collector : List (List CollEntry) := []
  acc : Nat := 0
  interval : Nat := 0
  seamCycles : Nat := 0
deriving DecidableEq, Repr

/-- Tun state outside the dictionary; clusters not listed hold nothing. `gristMib` is the P7000.09 in effect (R254), and `seamTiles` counts the
tiles of seam scoring that have run for the entry seam is working on (R22). -/
structure Tun where
  queue : List RunDesc := []
  run : Option Run := none
  lastScanStatus : Byte := 0
  gristMib : Nat := 2
  clusters : List (Nat × Cluster) := []
  seamTiles : Nat := 0
deriving DecidableEq, Repr

/-! ## Memory tiers (R255 to R287) -/

/-- Channel states (R268). -/
inductive ChanState where
  | online
  | reconstruct
  | draining
  | offline
deriving DecidableEq, Repr

/-- The kinds of retrain (R271). -/
inductive RetrainKind where
  | periodic
  | full
  | repair
deriving DecidableEq, Repr

/-- One HBM channel: its state, the retrain it takes and when it began, its hold buffer by line of channel data offset, the stripe
rows of it that the gusset stripe map marks (R270), the times of its corrected errors of the last second, and its training age;
`lossEvent` is the number of the event that took it OFFLINE, into which a read that it fails merges (R385). -/
structure Channel where
  st : ChanState := .online
  kind : RetrainKind := .periodic
  nextKind : RetrainKind := .periodic
  retried : Bool := false
  hold : List (Nat × Bytes) := []
  marked : List Nat := []
  began : Nat := 0
  errors : List Nat := []
  lastFull : Option Time := none
  lastRepair : Option Time := none
  trained : Time := 0
  wanted : Bool := false
  forScan : Bool := false
  lossEvent : Option Nat := none
deriving DecidableEq, Repr

/-- Temperature tiers (R274). -/
inductive TempTier where
  | normal
  | warm
  | hot
  | critical
deriving DecidableEq, Repr

/-- A scrub pass over a stack or a package (R267): when it began on the always-on clock, and the lines it has read. -/
structure ScrubPass where
  began : Nat := 0
  line : Nat := 0
deriving DecidableEq, Repr

/-- One HBM stack; its channels not listed are in the default state. `deferrals` counts the consecutive occurrences that moved its
planned retrain (R60). -/
structure Stack where
  tier : TempTier := .normal
  celsius : Option Int := none
  belowWarm : Nat := 0
  belowHot : Nat := 0
  belowCritical : Nat := 0
  zeroFilling : Bool := false
  deferrals : Nat := 0
  channels : List (Nat × Channel) := []
deriving DecidableEq, Repr

/-- One expander behind Port B (R325, P920e). -/
structure Expander where
  st : Byte := 0
  vendorDevice : BitVec 32 := 0
  capacity : Nat := 0
  persistent : Nat := 0
  width : Byte := 0
  speed : Byte := 0
  cause : Byte := 0
deriving DecidableEq, Repr

/-- A calibration record (R286): of a stack, or of a package by 16 + its position; `ident` is the stack's identity, or the
manufacturer and revision of the package. -/
structure Calib where
  unit : Nat
  ident : BitVec 64
  gib : Nat
  celsius : Option Int
  rails : List Nat
  major : Nat
  at_ : Time
deriving DecidableEq, Repr

/-- The memory tiers. `withheld` lists slices a self-test withdrew (R438): tier, unit, slice; `scrubs` holds the scrub passes, of a
stack or of a package by 16 + its position, and `cache` the lines held by each set of the cache, the most recently used first, by
16,384 × slice + set (R278). `calibNew` is the calibration data being written to flash and when that began, none once it has landed
(R413). -/
structure Tiers where
  stackTab : List (Nat × Stack) := []
  expanders : List (Nat × Expander) := []
  refresh : List (Nat × Byte) := []
  extents : List Extent := []
  withheld : List (Nat × Nat × Nat) := []
  sliceMap : List (Nat × Nat) := []
  calib : List Calib := []
  calibNew : Option (List Calib × Nat) := none
  scrubs : List (Nat × ScrubPass) := []
  cache : List (Nat × List Nat) := []
  lendBase : Nat := 0
deriving DecidableEq, Repr

/-! ## Shuttle (R288 to R322) -/

/-- Training states of a link (R290). -/
inductive LinkState where
  | disabled
  | detect
  | measure
  | autoneg
  | train
  | align
  | connect
  | up
  | fault
deriving DecidableEq, Repr

/-- A frame that waits for credit on a link, and since when (R298, R300). -/
structure Sent where
  frame : Frame
  since : Nat := 0
deriving DecidableEq, Repr

/-- A Shuttle link outside its dictionary counters: `since` is when it entered its training state, `device` which device lies at
its other end, `seqIn` the sequence expected next, `replay` the frames not acknowledged, as sent, `replays` the times of the replays
of the last second, `opened` that this side has opened the SPDM exchange of CONNECT, `secret` what the session's secrets are derived
from, and the two epochs the key updates of each direction (R290, R292, R296, R321). -/
structure Link where
  st : LinkState := .disabled
  since : Nat := 0
  device : BitVec 64 := 0
  cause : Byte := 0
  partner : Option (BitVec 64) := none
  optical : Bool := false
  timeouts : Nat := 0
  lanes : Nat := 0
  seqOut : BitVec 32 := 0
  seqIn : BitVec 32 := 0
  replay : List (BitVec 32 × Bytes) := []
  credits : List Nat := []
  replays : List Nat := []
  opened : Bool := false
  session : Bool := false
  encrypted : Bool := false
  secret : BitVec 64 := 0
  frameCounter : Nat := 0
  counterIn : Nat := 0
  keyEpoch : Nat := 0
  keyEpochIn : Nat := 0
  beaconOut : BitVec 32 := 0
  beaconIn : Option (BitVec 32 × Time × BitVec 32) := none
  beaconSent : List (BitVec 32 × Time × BitVec 32) := []
  faultAt : Nat := 0
  fenced : Bool := false
  invalidSince : Option Nat := none
  waiting : List Sent := []
  stopAt : Nat := 0
deriving DecidableEq, Repr

/-- A host request as the device took it from its slot at go (R308): it is a GET, the vector of its message, its tag, and where a
GET's data goes. -/
structure SlotTaken where
  get : Bool
  vector : Option Nat
  tag : Nat
  dest : Nat
deriving DecidableEq, Repr

/-- What an outstanding request was for (R303, R308, R312, R315). -/
inductive ReqFor where
  | hostSlot (n : Nat) (q : SlotTaken)
  | descriptor (window : Nat) (id : BitVec 32) (shard : Nat) (dev : Nat)
  | mergeSend (dest : DevNum) (window : BitVec 64) (frames : List Bytes) (last : Bool)
  | probe
deriving DecidableEq, Repr

/-- An outstanding remote request. -/
structure Req where
  tag : BitVec 32
  op : Byte
  link : Nat
  dest : DevNum
  issued : Time
  length : Nat
  forWhat : ReqFor
deriving DecidableEq, Repr

/-- What one replica of a shard has sent: its entries by sequence, the sequence that carried LAST, and the fields of
that frame (R314). -/
structure ShardPart where
  seqs : List (Nat × List LEntry) := []
  last : Option Nat := none
  status : Nat := 0
  flags : Nat := 0
  tieBeyond : Nat := 0
  hops : Nat := 0
deriving DecidableEq, Repr

/-- What the lead holds of one shard (R313, R317, R318): its replicas, those tried, the one that serves it and since
when, whether it has been heard, what each has sent, and the complete result. -/
structure ShardState where
  replicas : List Nat
  tried : List Nat := []
  current : Option Nat := none
  dispatched : Time := 0
  heard : Bool := false
  parts : List (Nat × ShardPart) := []
  result : Option ShardPart := none
  late : Option Time := none
deriving DecidableEq, Repr

/-- An open merge record (R312, R313). -/
structure MergeRec where
  window : Nat
  id : BitVec 32
  query : Nat
  k : Nat
  cutoff : Time
  bell : Time
  grid : Nat
  descriptor : Bytes
  shards : List ShardState
  lateAny : Bool := false
deriving DecidableEq, Repr

/-- The fabric. -/
structure Fabric where
  links : List (Nat × Link) := []
  outstanding : List Req := []
  nextTag : BitVec 32 := 0
  records : List MergeRec := []
  queue : List (Bytes × DevNum × Nat) := []
  heldOff : List (Nat × Time) := []
deriving DecidableEq, Repr

/-! ## Security (R416 to R425) -/

/-- The security record (R420). -/
structure SecRecord where
  activeB : Bool := false
  trial : Bool := false
  trialStarted : Bool := false
  either : Bool := false
  minSvn : Nat := 0
  sequence : Nat := 0
deriving DecidableEq, Repr

/-- A security record as it lies in its area of flash: the record and its HMAC under the record key (R420). -/
structure SecArea where
  record : SecRecord
  mac : Bytes
deriving DecidableEq, Repr

/-- A security record being written, header last: into area B or A, and when the write ends on the always-on clock (R413, R420). -/
structure SecWrite where
  toB : Bool
  area : SecArea
  due : Nat
deriving DecidableEq, Repr

/-- What a BOOT derives (R416, R417): the device secret, the DeviceID, record and Alias keys, and the Alias certificate. -/
structure SecKeys where
  secret : BitVec 256
  deviceId : Bytes
  recordKey : Bytes
  aliasKey : Bytes
  aliasCert : Bytes
deriving DecidableEq, Repr

/-- Security state: the record in effect, its two areas in flash and the writes under way, oldest first, `lastB` the area written last;
what the last BOOT read, derived and measured; the firmware slots; and the transports with an SPDM session. -/
structure Security where
  record : SecRecord := {}
  areaA : Option SecArea := none
  areaB : Option SecArea := none
  lastB : Bool := true
  writes : List SecWrite := []
  identity : Byte := 0
  mac : BitVec 48 := 0
  serial : Bytes := []
  chain : Bytes := []
  keys : Option SecKeys := none
  policyInEffect : Bool := false
  running : Option Bool := none
  activeAtBoot : Bool := false
  verifiedA : Bool := false
  verifiedB : Bool := false
  fallback : Bool := false
  svn : BitVec 32 := 0
  firmware : BitVec 32 := 0
  slotA : Memory := []
  slotB : Memory := []
  recovery : Bool := false
  recoveryStatus : Byte := 0
  sessions : List Source := []
  block5 : Bytes := []
  block6 : Bytes := []
deriving DecidableEq, Repr

/-! ## Thimble and telemetry (R379 to R405) -/

/-- An event record (R383). `timer` is the always-on cycle at which its reaction timer ends. -/
structure Event where
  sequence : Nat
  source : Nat
  cls : Nat
  inst : BitVec 16
  original : Nat
  isOpen : Bool := false
  handled : Bool := false
  escalated : Bool := false
  forced : Bool := false
  freeze : Bool := false
  listFull : Bool := false
  merged : Bool := false
  mergedCount : Nat := 0
  mask : BitVec 32
  raised : Time
  detail : BitVec 64
  timer : Option Nat := none
deriving DecidableEq, Repr

/-- An alarm slot (R395). -/
structure Alarm where
  source : Nat := 0
  highest : Nat := 0
  inst : BitVec 16 := 0
  count : Nat := 0
  first : Time := 0
  last : Time := 0
  lastSequence : Nat := 0
  inUse : Bool := false
  unacked : Bool := false
deriving DecidableEq, Repr

/-- A log record (R398). -/
structure LogRec where
  sequence : Nat
  time : Time
  cls : Nat
  kind : Nat
  code : Nat
  body : Bytes
  mergedInto : Nat := 0
deriving DecidableEq, Repr

/-- Thimble. `warned` holds, per WARN source and instance of R393, when its reading came back inside its limit; none while it is
outside. `holder` is the number of the open event that the last event raised became or merged into, none where it opened none: what
a read that failed then ends its query under (R385). -/
structure Thimble where
  sequence : Nat := 0
  opened : List Event := []
  history : List Event := []
  alarms : List (Nat × Alarm) := []
  fencer : Option Nat := none
  armed : Bool := false
  pulse : Option Nat := none
  faultLow : Bool := false
  log : List LogRec := []
  logNext : Nat := 1
  logMarks : List (Nat × Time) := []
  warned : List (Nat × Option Nat) := []
  holder : Option Nat := none
deriving DecidableEq, Repr

/-- One trace stream (R401, R402). -/
structure Stream where
  sequence : Nat := 0
  dropped : Nat := 0
  buffer : List Bytes := []
deriving DecidableEq, Repr

/-- What happened at one fleet time of what R394 counts, and the largest power estimate of it. -/
structure Happened where
  stamp : Time
  counts : List Nat
  peak : Nat
deriving DecidableEq, Repr

/-- Telemetry: the last reading of each measured entry by its key (R392); `past` holds what happened at each fleet time of the last
hour, the longest period of a sample (R54, R394), newest first, `snap` the counts as they stood when the fleet time of now began, and
`powerPeak` the largest power estimate since; `hbmRead` and `bulkRead` count the bytes read from HBM and from bulk (R394); and the
trace path: its token bucket and what the transmit queue holds (R403). -/
structure Telemetry where
  readings : List (Nat × BitVec 32) := []
  snap : List Nat := []
  past : List Happened := []
  retired : Nat := 0
  hbmRead : Nat := 0
  bulkRead : Nat := 0
  powerSum : Nat := 0
  powerCount : Nat := 0
  powerPeak : Nat := 0
  latency : List (Nat × Nat) := []
  completions : Nat := 0
  query : Stream := {}
  event : Stream := {}
  sample : Stream := {}
  tokens : Nat := 65536
  refilled : Nat := 0
  backlog : Nat := 0
  backlogAt : Nat := 0
deriving DecidableEq, Repr

/-! ## Test and debug (R427 to R447) -/

/-- A loop-back or margin scan that runs, or waits for its start instant (R428, R432); `expected` is the payload that the responses
of a REMOTE loop-back are compared with (R430). -/
structure TestRun where
  waiting : Bool
  since : Time
  deadline : Time
  expected : Option Bytes := none
  setting : Nat := 0
  step : Nat := 1
  best : Nat := 0
  edges : List Int := []
deriving DecidableEq, Repr

/-- A self-test in progress (R435): when it began on the always-on clock and last paused, how far R437's order has got, and what is
left to test (R436, R437). -/
structure SelfTest where
  port : Port
  extended : Bool
  started : Time
  begun : Nat := 0
  paused : Bool := false
  pausedAt : Nat := 0
  phase : Nat := 0
  idleSince : Nat := 0
  done : Nat := 0
  failures : Nat := 0
  left : List SliceRef := []
deriving DecidableEq, Repr

/-- The last self-test result (R348). -/
structure SelfResult where
  kind : Byte := 0
  outcome : Byte := 0xFF
  failures : Nat := 0
  started : Time := 0
  completed : Time := 0
deriving DecidableEq, Repr

/-- The TAP (R443): `boundary` is what PRELOAD shifted in and `sampled` what SAMPLE captured of the pins. -/
structure Tap where
  ir : Byte := 0xFF
  chain : Byte := 0
  boundary : Bytes := []
  sampled : Bytes := []
  driven : Bool := false
deriving DecidableEq, Repr

/-- Test and debug. `freezeCycle` is when, on the free-running clock, the last freeze was recorded (R440). -/
structure TestState where
  loop : Option TestRun := none
  margin : Option TestRun := none
  selfTest : Option SelfTest := none
  result : SelfResult := {}
  tap : Tap := {}
  freezeRecord : Bytes := []
  freezePolicy : Byte := 0
  freezes : Nat := 0
  freezeCycle : Nat := 0
deriving DecidableEq, Repr

/-! ## The machine -/

/-- The state of the block. `pending` is the queue of waiting commands and `out` what has left the device,
newest first. -/
structure State where
  pending : List Instr := []
  out : List Out := []
  free : Nat := 0
  dev : Dev := {}
  units : Units := {}
  chip : Chip := {}
  ftu : Ftu := {}
  cal : List (Nat × CalEntry) := []
  switches : List (Nat × Switch) := []
  failing : List Nat := []
  book : Book := []
  blobs : Blobs := []
  ret : Retention := {}
  trans : Transports := {}
  mem : Memory := []
  hostMem : Memory := []
  colls : List Coll := []
  deferred : List Deferred := []
  search : Search := {}
  encodes : List EncodeJob := []
  muts : Mut := {}
  spools : Spools := {}
  ports : HostPorts := {}
  tun : Tun := {}
  tiers : Tiers := {}
  fabric : Fabric := {}
  sec : Security := {}
  thimble : Thimble := {}
  tele : Telemetry := {}
  test : TestState := {}
deriving DecidableEq, Repr

/-- The machine before power: OFF (R31), every entry at its default, nothing listed in memory, no
collection (R133). The values the manual does not give are named in the log entries 1 to 8. -/
def State.reset : State := {}

end Sys2Proof.Machine
end

