-- ==== Sys2Proof/Machine/Ops.lean ====
section
/-!
DEFINITION. The named operations every meaning is built from: reading, setting and counting the numeric entries
of the Pattern book, sending what leaves the device, drawing an open value, fleet time, byte memory, switchable
functions, and finding a collection, a query or a unit.
-/

namespace Sys2Proof.Machine

/-- The outcome of a meaning. -/
abbrev Result := Host.Outcome State Fault Refusal

/-! ## Entries -/

/-- The raw value of a numeric entry. -/
def State.num (s : State) (k : Nat) : Nat := ((look s.book k).map BitVec.toNat).getD (defaultOf k)

/-- Set the raw value of a numeric entry; the book keeps its canonical form. -/
def State.setNum (k v : Nat) (s : State) : State :=
  { s with book := putDef (BitVec.ofNat 64 (defaultOf k)) k (BitVec.ofNat 64 v) s.book }

/-- The largest raw value of an entry's type. -/
def topOf (k : Nat) : Nat := ((rowOf k).map Row.hi).getD (2 ^ 64 - 1)

/-- Count `n` events in a counter. Past its largest value a counter whose entry does not say what happens
reads an open value (log entry 9, DESIGN CHOICE). -/
def State.bumpBy (k n : Nat) (s : State) : State :=
  let v := s.num k + n
  s.setNum k (if v ≤ topOf k then v else (Config.counterOverflow k).toNat % (topOf k + 1))

/-- Count one event. -/
def State.bump (k : Nat) (s : State) : State := s.bumpBy k 1

/-- Count `n` events in a counter that saturates (R76 and the entries that say so). -/
def State.bumpSat (k n : Nat) (s : State) : State := s.setNum k (min (s.num k + n) (topOf k))

/-- Raise an entry that holds a maximum. -/
def State.raiseTo (k v : Nat) (s : State) : State := s.setNum k (max (s.num k) v)

/-- The value of an STR or DOMAIN entry; absent means its default. -/
def State.blob (s : State) (k : Nat) : Option Bytes := look s.blobs k

/-- Set an STR or DOMAIN entry. -/
def State.setBlob (k : Nat) (v : Bytes) (s : State) : State := { s with blobs := put k v s.blobs }

/-! ## Outputs and open values -/

/-- Something leaves the device. -/
def State.emit (o : Out) (s : State) : State := { s with out := o :: s.out }

/-- Several things leave the device, the first of the list first. -/
def State.emitAll (os : List Out) (s : State) : State := { s with out := os.reverse ++ s.out }

/-- The next open value (log entry 1). -/
def State.fresh (s : State) : BitVec 64 := Config.freeValue s.free

/-- Pass the next open value. -/
def State.spend (s : State) : State := { s with free := s.free + 1 }

/-! ## Device and time -/

/-- Fleet time is known in every time state but UNSET (R39). -/
def State.timeKnown (s : State) : Bool := s.ftu.st != .unset

/-- Fleet time (R38). -/
def State.now (s : State) : Time := s.ftu.now

/-- The stamp of what happens now: 0 while the time state is UNSET (R379). -/
def State.stamp (s : State) : Time := if s.timeKnown then s.ftu.now else 0

/-- Time on the always-on clock, ns (R16: 100 MHz). -/
def State.aonNs (s : State) : Nat := 10 * s.ftu.aon

/-- State codes of R31. -/
def DevState.code : DevState → Nat
  | .off => 0 | .boot => 1 | .train => 2 | .readyEmpty => 3 | .loading => 4 | .serving => 5
  | .degraded => 6 | .fenced => 7

/-- State codes of R39. -/
def TimeState.code : TimeState → Nat
  | .unset => 0 | .acquiring => 1 | .locked => 2 | .holdover => 3 | .freerun => 4 | .hostset => 5

/-- Codes of P2000.02 (R62). -/
def TimeSource.code : TimeSource → Nat
  | .none => 0 | .ptp => 1 | .ppsPtp => 2 | .ppsHost => 3 | .beacon => 4 | .host => 5

/-- State codes of R128; ABSENT is 0x00. -/
def CollState.code : CollState → Nat
  | .created => 1 | .loading => 2 | .online => 3 | .offline => 4 | .deleting => 5

/-- Codes of a state sub-index (R361). -/
def SwState.code : SwState → Nat
  | .off => 0 | .starting => 1 | .on => 2 | .stopping => 3

/-- The device runs its main clocks: powered and not frozen (R440). -/
def State.running (s : State) : Bool := s.dev.st != .off && !s.dev.frozen

/-- READY-EMPTY to DEGRADED: the states in which the mailbox takes commands and READY can be up (R32, R37). -/
def DevState.ready : DevState → Bool
  | .readyEmpty | .loading | .serving | .degraded => true
  | _ => false

/-- READY (R37). -/
def State.readyPin (s : State) : Bool := s.dev.st.ready && s.dev.power ≤ 2 && !s.dev.frozen

/-- Not frozen, and READY-EMPTY to DEGRADED. -/
def State.serves (s : State) : Bool := s.dev.st.ready && !s.dev.frozen

/-- The upstream ports: Port A, and Port B in UPSTREAM mode (R324). -/
def State.upstream (s : State) : List Port := if s.chip.portBRoot then [.a] else [.a, .b]

/-- Port numbers (R376). -/
def Port.num : Port → Nat
  | .a => 0
  | .b => 1

/-- A port's state. -/
def State.port (s : State) : Port → PortState
  | .a => s.ports.a
  | .b => s.ports.b

/-- Replace a port's state. -/
def State.setPort (p : Port) (x : PortState) (s : State) : State :=
  match p with
  | .a => { s with ports := { s.ports with a := x } }
  | .b => { s with ports := { s.ports with b := x } }

/-- The message of a vector that becomes due on a port (R336, with the rules of PCI Express: log entry 17). It leaves where the
capability is enabled and neither the function nor the vector is masked; a masked one sets the vector's pending bit, and a port
whose capability is off sends none. -/
def Msix.raise (v : Nat) (m : Msix) : Msix × Bool :=
  if !m.enabled then (m, false)
  else if m.maskAll || !m.unmasked.contains v then ({ m with pending := insertNat v m.pending }, false)
  else (m, true)

/-- The pending vectors that no mask holds back any more: the capability without them, and those vectors. -/
def Msix.release (m : Msix) : Msix × List Nat :=
  if !m.enabled || m.maskAll then (m, [])
  else ({ m with pending := m.pending.filter fun v => !m.unmasked.contains v }, m.pending.filter m.unmasked.contains)

/-- What a host write to the capability does to its bits. -/
def Msix.write (o : MsixOp) (m : Msix) : Msix :=
  match o with
  | .enable on => { m with enabled := on }
  | .maskAll on => { m with maskAll := on }
  | .mask v on => { m with unmasked := if on then m.unmasked.filter (· ≠ v.val) else insertNat v.val m.unmasked }

/-- An MSI-X message of the port; while the device is frozen its outputs are idle (R441). -/
def State.msix (p : Port) (v : Nat) (s : State) : State :=
  if s.dev.frozen then s
  else
    let r := (s.port p).msix.raise v
    let s := s.setPort p { s.port p with msix := r.1 }
    if r.2 then s.emit (.msix p v) else s

/-- A host write to the capability of a port: what its masks held back leaves. -/
def State.msixWrite (p : Port) (o : MsixOp) (s : State) : State :=
  let r := ((s.port p).msix.write o).release
  r.2.foldl (fun s v => s.emit (.msix p v)) (s.setPort p { s.port p with msix := r.1 })

/-! ## Load and the self-test (R435) -/

/-- An entry is read or completed: a paused self-test counts its idle time anew. -/
def State.hostWork (s : State) : State :=
  match s.test.selfTest with
  | some t => { s with test := { s.test with selfTest := some { t with idleSince := s.aonNs } } }
  | none => s

/-- Load appears: a self-test that runs pauses. Load while it is paused does not count its idle time anew, which is about entries. -/
def State.loadAppears (s : State) : State :=
  match s.test.selfTest with
  | some t =>
    if t.paused then s
    else ({ s with test := { s.test with selfTest := some { t with paused := true, pausedAt := s.aonNs, idleSince := s.aonNs } } }).bump 0xD30006
  | none => s

/-! ## Switchable functions (R361) -/

/-- The state of a function after each start-up: seam, recipes, every link and calendar entries 0x00 to 0x06 are
ON, and every other function OFF (R58, R229, R254, R322). -/
def switchDefault (i : Nat) : Switch :=
  if (0x2100 ≤ i ∧ i ≤ 0x2106) ∨ i = 0x4130 ∨ i = 0x7020 ∨ (0x8010 ≤ i ∧ i ≤ 0x802F) then ⟨.on, none⟩ else ⟨.off, none⟩

/-- A function's state. -/
def State.sw (s : State) (i : Nat) : Switch := lookDef (switchDefault i) s.switches i

/-- Set a function's state; a change of its state sub-index counts in P1003.03 (R360). -/
def State.setSw (i : Nat) (x : Switch) (s : State) : State :=
  let t := { s with switches := putDef (switchDefault i) i x s.switches }
  if (s.sw i).st = x.st then t else t.bump 0x100303

/-- A function is ON. -/
def State.isOn (s : State) (i : Nat) : Bool := (s.sw i).st == .on

/-! ## Byte memory

Unlisted bytes read 0x00 (log entry 5, DESIGN CHOICE: the manual gives no contents of memory after power-on). -/

/-- The canonical form: addresses strictly rising, no byte listed at what an unlisted address reads as. -/
def Memory.wf (m : Memory) : Bool := rising m && m.all fun c => c.2 != 0

/-- One byte. -/
def Memory.byte (m : Memory) (a : Nat) : Byte := lookDef 0 m a

/-- Write one byte. -/
def Memory.setByte (a : Nat) (v : Byte) (m : Memory) : Memory := putDef 0 a v m

/-- `n` bytes from `a`. -/
def Memory.read (m : Memory) : Nat → Nat → Bytes
  | _, 0 => []
  | a, n + 1 => m.byte a :: Memory.read m (a + 1) n

/-- Write bytes from `a` upward. -/
def Memory.write : Nat → Bytes → Memory → Memory
  | _, [], m => m
  | a, b :: r, m => Memory.write (a + 1) r (Memory.setByte a b m)

/-- Forget every byte at an address for which `p` holds. -/
def Memory.drop (p : Nat → Bool) (m : Memory) : Memory := m.filter fun c => !p c.1

/-! ## Collections and queries -/

/-- A collection by its handle. -/
def State.coll (s : State) (h : Handle) : Option Coll := s.colls.find? fun c => c.d.handle = h

/-- Change a collection. -/
def State.mapColl (h : Handle) (f : Coll → Coll) (s : State) : State :=
  { s with colls := update (fun c => c.d.handle = h) f s.colls }

/-- A query in flight, by its number. -/
def State.query (s : State) (q : Nat) : Option Query := s.search.queries.find? fun x => x.id = q

/-- Change a query in flight. -/
def State.mapQuery (q : Nat) (f : Query → Query) (s : State) : State :=
  { s with search := { s.search with queries := update (fun x => x.id = q) f s.search.queries } }

/-- An HBM stack. -/
def State.stack (s : State) (n : Nat) : Stack := lookDef {} s.tiers.stackTab n

/-- Replace an HBM stack. -/
def State.setStack (n : Nat) (x : Stack) (s : State) : State :=
  { s with tiers := { s.tiers with stackTab := putDef {} n x s.tiers.stackTab } }

/-- A channel of a stack. -/
def State.channel (s : State) (n c : Nat) : Channel := lookDef {} (s.stack n).channels c

/-- Replace a channel of a stack. -/
def State.setChannel (n c : Nat) (x : Channel) (s : State) : State :=
  s.setStack n { s.stack n with channels := putDef {} c x (s.stack n).channels }

/-- A Shuttle link. -/
def State.link (s : State) (n : Nat) : Link := lookDef {} s.fabric.links n

/-- Replace a Shuttle link. -/
def State.setLink (n : Nat) (x : Link) (s : State) : State :=
  { s with fabric := { s.fabric with links := putDef {} n x s.fabric.links } }

/-- Change a Shuttle link. -/
def State.mapLink (n : Nat) (f : Link → Link) (s : State) : State := s.setLink n (f (s.link n))

/-- A submission spool. -/
def State.subSpool (s : State) (p : Port) (n : Byte) : Option SubSpool :=
  s.spools.sub.find? fun x => x.port = p ∧ x.num = n

/-- A completion spool. -/
def State.compSpool (s : State) (p : Port) (n : Byte) : Option CompSpool :=
  s.spools.comp.find? fun x => x.port = p ∧ x.num = n

/-- Change a submission spool. -/
def State.mapSub (p : Port) (n : Byte) (f : SubSpool → SubSpool) (s : State) : State :=
  { s with spools := { s.spools with sub := update (fun x => x.port = p ∧ x.num = n) f s.spools.sub } }

/-- Change a completion spool. -/
def State.mapComp (p : Port) (n : Byte) (f : CompSpool → CompSpool) (s : State) : State :=
  { s with spools := { s.spools with comp := update (fun x => x.port = p ∧ x.num = n) f s.spools.comp } }

/-- Bytes of `n` GiB. -/
def gibBytes (n : Nat) : Nat := 2 ^ 30 * n

/-! ## Presence (R1, R2) -/

/-- The stack exists on this part. -/
def State.stackPresent (s : State) (n : Nat) : Bool := bit s.chip.stackMask.toNat n

/-- The link exists on this part. -/
def State.linkPresent (s : State) (n : Nat) : Bool := bit s.chip.linkMask.toNat n

/-- Stacks present and online, as a list. -/
def State.stacksUp (s : State) : List Nat :=
  (List.range 12).filter fun n => s.stackPresent n && !bit s.units.stack.toNat n

/-- Bulk packages of the pattern in use that are online (R263, R264). -/
def State.packagesUp (s : State) : List Nat :=
  (List.range 24).filter fun n => bit s.chip.inUse.toNat n && !bit s.units.package.toNat n

/-- Expanders in the CXL tier (R325), but one that a loop-back takes out of service (R429). -/
def State.expandersUp (s : State) : List Nat :=
  (List.range 4).filter fun n => (lookDef {} s.tiers.expanders n).st == 2 &&
    !(s.test.loop.isSome && s.num 0xD10002 = 2 && s.num 0xD10003 = n + 2)

/-- Mask form of a list of unit numbers. -/
def maskOf (l : List Nat) : Nat := l.foldl (fun m n => if bit m n then m else m + 2 ^ n) 0

end Sys2Proof.Machine
end

