-- ==== Sys2Proof/Machine/Clock.lean ====
section
/-!
DEFINITION. One cycle of the always-on 100 MHz clock (R16, R38): what the block does in place of idling when no
command waits (log entry 2, DESIGN CHOICE).
-/

namespace Sys2Proof.Machine

/-- One always-on cycle in units of 2^-32 ns. -/
def cycleUnits : Nat := 10 * 2 ^ 32

/-- The most a cycle is lengthened or shortened at max_slew ppm (R41, P2002.01). -/
def slewUnits (ppm : Nat) : Nat := cycleUnits * ppm / 1000000

/-- How much of the remaining slew this cycle takes, in units of 2^-32 ns. -/
def slewStep (lim : Nat) (left : Int) : Int := max (-(lim : Int)) (min (lim : Int) left)

/-- What R394 counts, as it stands: completions, deadline partials, expired on arrival, hops, mutation records accepted, baste
entries retired, requests served, the sum and number of power estimates, the bytes read from HBM and from bulk, and the latency
histogram. -/
def State.sampleCounts (s : State) : List Nat :=
  [s.num 0x502001, s.num 0x200304, s.num 0x200303, s.num 0x502002, s.num 0x412008 + s.num 0x412009 + s.num 0x41200A,
   s.tele.retired, s.num 0x840001, s.tele.powerSum, s.tele.powerCount, s.tele.hbmRead, s.tele.bulkRead] ++ (List.range 32).map fun b => lookDef 0 s.tele.latency b

/-- How much more than each count of one list its namesake in another is; a count that has gone back starts anew. -/
def gained : List Nat → List Nat → List Nat
  | [], _ => []
  | a :: r, l => (if l.headD 0 ≤ a then a - l.headD 0 else a) :: gained r (l.drop 1)

/-- The longest period of a calendar entry, ns (R54): no sample looks further back. -/
def keptNs : Nat := 3600000000000

/-- Keep what has been counted since the fleet time of now began, under that time, before fleet time moves on (R61, R394). -/
def State.keepCounts (s : State) : State :=
  let c := s.sampleCounts
  let g := gained c s.tele.snap
  let old := s.tele.past.filter fun h => s.now ≤ h.stamp + keptNs
  let past := if g.all (· = 0) && s.tele.powerPeak = 0 then old else ⟨s.now, g, s.tele.powerPeak⟩ :: old
  { s with tele := { s.tele with past := past, snap := c, powerPeak := 0 } }

/-- The learned frequency correction, P2000.05, in units of 2^-32 ns a cycle (R38, R47): ppb of the cycle. -/
def State.learned (s : State) : Int := signed 32 (s.num 0x200005) * cycleUnits / 1000000000

/-- One always-on cycle. Fleet time advances by 10 ns, by the learned frequency correction, and by the part of the slew that the rate
allows; it never moves back (R41), it stands while UNSET, and nothing moves without power. `slew` is what is left to slew, in units
of 2^-32 ns. -/
def State.tick (s : State) : State :=
  if s.dev.st = .off then s
  else if !s.timeKnown then { s with ftu := { s.ftu with aon := s.ftu.aon + 1 } }
  else
    let s := s.keepCounts
    let d := slewStep (slewUnits (s.num 0x200201)) s.ftu.slew
    let u := s.ftu.frac.toNat + (cycleUnits + s.learned + d).toNat
    { s with ftu := { s.ftu with aon := s.ftu.aon + 1, now := s.ftu.now + u / 2 ^ 32,
                                 frac := BitVec.ofNat 32 u, slew := s.ftu.slew - d } }

end Sys2Proof.Machine
end

