-- ==== Sys2Proof/Machine/MemMap.lean ====
section
/-!
DEFINITION. The memory tiers as an address map (R255, R256), extents and slices (R260 to R265), the HBM
interleave (R261), and reads and writes of device memory with the hold buffers of R270. Which slices and
addresses an extent takes is the device's own choice (R260); the model takes the lowest free ones
(log entry 18, DESIGN CHOICE).
-/

namespace Sys2Proof.Machine

/-- 256 MiB, the size of a slice (R260). -/
def sliceBytes : Nat := 0x10000000

/-- Bases of R255. -/
def bulkBase : Nat := 0x010000000000
/-- Base of the CXL tier. -/
def cxlBase : Nat := 0x040000000000
/-- Base of the Cask scratchpad. -/
def caskBase : Nat := 0x0C0000000000
/-- Base of the device control space. -/
def controlBase : Nat := 0x0D0000000000
/-- Base of the reserved range. -/
def reservedBase : Nat := 0x0E0000000000

/-- The regions of R255. -/
inductive Region where
  | hbm | bulk | cxl | cask | control | reserved
deriving DecidableEq, Repr

/-- The region of a device-local address. -/
def regionOf (a : Nat) : Region :=
  if a < bulkBase then .hbm
  else if a < 0x030000000000 then .bulk
  else if a < cxlBase then .reserved
  else if a < caskBase then .cxl
  else if a < controlBase then (if a < caskBase + 0x20000000 then .cask else .reserved)
  else if a < reservedBase then .control
  else .reserved

/-- Capacity measured at start-up: P3000.02 to P3000.04 (R287). -/
def State.capacity (s : State) : Region → Nat
  | .hbm => s.num 0x300002
  | .bulk => s.num 0x300003
  | .cxl => s.num 0x300004
  | .cask => 0x20000000
  | .control => 0x010000000000
  | .reserved => 0

/-- The base of a region. -/
def Region.base : Region → Nat
  | .hbm => 0
  | .bulk => bulkBase
  | .cxl => cxlBase
  | .cask => caskBase
  | .control => controlBase
  | .reserved => reservedBase

/-- The address is memory of HBM, bulk or the CXL tier that exists (R255, R256). -/
def State.backed (s : State) (a : Nat) : Bool :=
  match regionOf a with
  | .hbm => a < s.capacity .hbm
  | .bulk => a - bulkBase < s.capacity .bulk
  | .cxl => a - cxlBase < s.capacity .cxl
  | _ => false

/-- Every byte of `[a, a + n)` is backed by one region. -/
def State.backedRange (s : State) (a n : Nat) : Bool :=
  n = 0 || (s.backed a && s.backed (a + n - 1) && regionOf a = regionOf (a + n - 1))

/-! ## Slices and extents -/

/-- Tier codes of R123: HBM, BULK, CXL. -/
def Region.tier : Region → Nat
  | .hbm => 0
  | .bulk => 1
  | .cxl => 2
  | _ => 3

/-- Slices of one unit of a tier: 224 or 240 per stack, 240 or 120 per package, an expander's capacity. -/
def State.unitSlices (s : State) (tier unit : Nat) : Nat :=
  if tier = 0 then (if s.chip.parity then 224 else 240)
  else if tier = 1 then (if s.chip.density = 64 then 240 else if s.chip.density = 32 then 120 else 0)
  else (lookDef {} s.tiers.expanders unit).capacity / sliceBytes

/-- A slice of a unit is taken by an extent or withheld (R438). -/
def State.sliceTaken (s : State) (tier unit n : Nat) : Bool :=
  (s.tiers.extents.any fun e => e.tier = tier && e.slices.contains (unit, n)) ||
    s.tiers.withheld.contains (tier, unit, n)

/-- The lowest free slice of a unit. -/
def State.freeSlice (s : State) (tier unit : Nat) : Option Nat :=
  (List.range (s.unitSlices tier unit)).find? fun n => !s.sliceTaken tier unit n

/-- Free slices of a unit. -/
def State.freeSlices (s : State) (tier unit : Nat) : Nat :=
  s.unitSlices tier unit -
    ((s.tiers.extents.map fun e => if e.tier = tier then (e.slices.filter fun x => x.1 = unit).length else 0).sum +
      (s.tiers.withheld.filter fun x => x.1 = tier && x.2.1 = unit).length)

/-- The units of a tier that are in use and online. -/
def State.tierUnits (s : State) (tier : Nat) : List Nat :=
  if tier = 0 then s.stacksUp else if tier = 1 then s.packagesUp else s.expandersUp

/-- Free bytes of a tier: P4000.03 to P4000.05 (R143). -/
def State.freeBytes (s : State) (tier : Nat) : Nat :=
  sliceBytes * ((s.tierUnits tier).map (s.freeSlices tier)).sum

/-- Ring orders of R260, R262 and R265. -/
def ringOrder (tier : Nat) : List Nat :=
  if tier = 0 then (List.range 6).flatMap fun n => [n, n + 6]
  else if tier = 1 then (List.range 12).flatMap fun n => [n, n + 12]
  else List.range 4

/-- Base of a tier's region. -/
def tierBase (tier : Nat) : Nat := if tier = 0 then 0 else if tier = 1 then bulkBase else cxlBase

/-- Bytes of an extent. -/
def Extent.size (e : Extent) : Nat := sliceBytes * e.slices.length

/-- Two address ranges meet. -/
def overlaps (a n b m : Nat) : Bool := a < b + m && b < a + n

/-- Measured capacity of a tier (R255). -/
def State.tierCapacity (s : State) (tier : Nat) : Nat := s.capacity (if tier = 0 then .hbm else if tier = 1 then .bulk else .cxl)

/-- The lowest base at which `n` slices fit below the measured capacity of the region (R255): the base of the region or the end of
an extent; none where they fit nowhere. -/
def State.freeBase (s : State) (tier n : Nat) : Option Nat :=
  let es := s.tiers.extents.filter fun e => e.tier = tier
  let cands := tierBase tier :: es.map fun e => e.base + e.size
  (cands.filter fun b => b + sliceBytes * n ≤ tierBase tier + s.tierCapacity tier &&
    es.all fun e => !overlaps b (sliceBytes * n) e.base e.size).min?

/-- Units of a tier an extent over a set takes, in ring order; for the CXL tier the expanders that have free slices
(R260, R265). -/
def State.ringOf (s : State) (tier : Nat) (set : List Nat) : List Nat :=
  (ringOrder tier).filter fun u => set.contains u && (tier ≠ 2 || (s.freeSlice 2 u).isSome)

/-- Take one extent over a set of units at a base (R260): one slice from each; none where a unit has no free slice. -/
def State.takeExtentAt (base owner tier : Nat) (set : List Nat) (s : State) : Option State :=
  let ring := s.ringOf tier set
  let picks := ring.filterMap fun u => (s.freeSlice tier u).map fun n => (u, n)
  if ring.isEmpty || picks.length ≠ ring.length then none
  else some { s with tiers := { s.tiers with extents := s.tiers.extents ++ [⟨owner, tier, base, picks⟩] } }

/-- Take one extent over a set of units at the lowest base that fits. -/
def State.takeExtent (owner tier : Nat) (set : List Nat) (s : State) : Option State :=
  match s.freeBase tier (s.ringOf tier set).length with
  | some b => s.takeExtentAt b owner tier set
  | none => none

/-- Take extents until `bytes` are covered; the first argument bounds their number. -/
def State.takeBytes : Nat → Nat → Nat → List Nat → Nat → State → Option State
  | 0, _, _, _, bytes, s => if bytes = 0 then some s else none
  | fuel + 1, owner, tier, set, bytes, s =>
    if bytes = 0 then some s
    else
      match s.takeExtent owner tier set with
      | none => none
      | some t =>
        let got := (t.tiers.extents.getLast?.map Extent.size).getD 0
        State.takeBytes fuel owner tier set (bytes - got) t

/-- Take what an area or part of `bytes` needs; none where it does not fit. -/
def State.alloc (owner tier : Nat) (set : List Nat) (bytes : Nat) (s : State) : Option State :=
  State.takeBytes (bytes / sliceBytes + 1) owner tier set bytes s

/-- Take extents one after another from a base until `bytes` are covered; the first argument bounds their number. An extent over
expanders takes those that still have free slices (R265), so the later ones can be narrower. -/
def State.takeRow : Nat → Nat → Nat → Nat → List Nat → Nat → State → Option State
  | 0, _, _, _, _, bytes, s => if bytes = 0 then some s else none
  | n + 1, base, owner, tier, set, bytes, s =>
    if bytes = 0 then some s
    else
      match s.takeExtentAt base owner tier set with
      | none => none
      | some t =>
        let w := sliceBytes * (s.ringOf tier set).length
        State.takeRow n (base + w) owner tier set (bytes - w) t

/-- Place an area of the device's own over every online unit of a tier, at consecutive addresses (R260, R262, R265); gives its
base. An area of no bytes lies at the base of the tier's region. -/
def State.placeArea (owner tier bytes : Nat) (s : State) : Option (Nat × State) :=
  let set := s.tierUnits tier
  let fuel := bytes / sliceBytes + 1
  if bytes = 0 then some (tierBase tier, s)
  else
    match s.takeRow fuel 0 owner tier set bytes with
    | none => none
    | some t =>
      match s.freeBase tier (((t.tiers.extents.drop s.tiers.extents.length).map fun e => e.slices.length).sum) with
      | some base => (s.takeRow fuel base owner tier set bytes).map fun t => (base, t)
      | none => none

/-- Give back every extent of an owner. -/
def State.release (owner : Nat) (s : State) : State :=
  { s with tiers := { s.tiers with extents := s.tiers.extents.filter fun e => e.owner ≠ owner } }

/-- Bytes an owner holds in a tier. -/
def State.heldBytes (s : State) (owner tier : Nat) : Nat :=
  ((s.tiers.extents.filter fun e => e.owner = owner && e.tier = tier).map Extent.size).sum

/-- An owner holds a slice of a unit. -/
def State.holdsUnit (s : State) (owner tier unit : Nat) : Bool :=
  s.tiers.extents.any fun e => e.owner = owner && e.tier = tier && e.slices.any fun x => x.1 = unit

/-- Owners of the device's own areas, beside collections (whose owner is the handle). -/
def ownerOverflow : Nat := 0x10000
/-- The recipe arena. -/
def ownerArena : Nat := 0x10001
/-- The baste payload area. -/
def ownerPayload : Nat := 0x10002
/-- The lend window. -/
def ownerLend : Nat := 0x10003
/-- The journal window behind Port B. -/
def ownerJournal : Nat := 0x10004

/-! ## The HBM interleave (R261) -/

/-- Where an HBM address lies: stack, channel, channel data offset, and the parity channel with parity on. -/
structure HbmPlace where
  stack : Nat
  channel : Nat
  offset : Nat
  parity : Option Nat
deriving DecidableEq, Repr

/-- The steps of R261 within an extent. -/
def hbmMapIn (parity : Bool) (e : Extent) (a : Nat) : HbmPlace :=
  let n := e.slices.length
  let g := (a - e.base) / 4096
  let u := (e.slices[g % n]?).getD (0, 0)
  let l := u.2 * sliceBytes + g / n * 4096 + a % 4096
  let c := l / 256
  if parity then
    let dc := c % 30
    let r := c / 30
    let h := dc / 15
    let j := dc % 15
    let p := r % 16
    ⟨u.1, 16 * h + (if j < p then j else j + 1), r * 256 + l % 256, some (16 * h + p)⟩
  else ⟨u.1, c % 32, c / 32 * 256 + l % 256, none⟩

/-- The extent that holds an address. -/
def State.extentOf (s : State) (a : Nat) : Option Extent :=
  s.tiers.extents.find? fun e => e.base ≤ a && a < e.base + e.size

/-- Where an HBM address lies; none where no extent holds it. -/
def State.hbmMap (s : State) (a : Nat) : Option HbmPlace :=
  if regionOf a = .hbm then (s.extentOf a).map fun e => hbmMapIn s.chip.parity e a else none

/-- Where a bulk address lies: package, channel, and offset in the channel. -/
structure BulkPlace where
  pkg : Nat
  channel : Nat
  offset : Nat
deriving DecidableEq, Repr

/-- The package, channel and channel offset of a bulk address (R262). -/
def State.bulkMap (s : State) (a : Nat) : Option BulkPlace :=
  if regionOf a = .bulk then
    (s.extentOf a).map fun e =>
      let n := e.slices.length
      let g := (a - e.base) / 4096
      let u := (e.slices[g % n]?).getD (0, 0)
      let l := u.2 * sliceBytes + g / n * 4096 + a % 4096
      let c := l / 256
      ⟨u.1, c % 4, c / 4 * 256 + l % 256⟩
  else none

/-- The stack-local byte at an offset of an HBM channel, or none in a parity chunk: the steps of R261 from their end. -/
def hbmLocal (parity : Bool) (c o : Nat) : Option Nat :=
  let r := o / 256
  if parity then
    let p := r % 16
    let i := c % 16
    if i = p then none else some ((r * 30 + c / 16 * 15 + (if i < p then i else i - 1)) * 256 + o % 256)
  else some ((r * 32 + c) * 256 + o % 256)

/-- The package-local byte at an offset of a bulk channel (R262). -/
def bulkLocal (c o : Nat) : Nat := (o / 256 * 4 + c) * 256 + o % 256

/-- The address at which a byte of a stack or package lies; none in a slice that no extent holds. -/
def State.unitAddr (s : State) (tier unit l : Nat) : Option Nat :=
  let n := l / sliceBytes
  (s.tiers.extents.find? fun e => e.tier = tier && e.slices.contains (unit, n)).map fun e =>
    let w := l % sliceBytes
    e.base + (w / 4096 * e.slices.length + e.slices.idxOf (unit, n)) * 4096 + w % 4096

/-- The expander of an address (R265). -/
def State.cxlMap (s : State) (a : Nat) : Option Nat :=
  if regionOf a = .cxl then
    (s.extentOf a).map fun e => ((e.slices[(a - e.base) / 4096 % e.slices.length]?).getD (0, 0)).1
  else none

/-! ## Hold buffers (R270) and device memory -/

/-- Lines of a hold buffer: 64 KiB of 64-byte lines. -/
def holdLines : Nat := 1024

/-- A line of a channel is in its hold buffer. -/
def Channel.holds (x : Channel) (line : Nat) : Bool := x.hold.any fun y => y.1 = line

/-- A line of a channel's data: what its address holds, and zeros in a slice of no extent or a parity chunk (log entry 31). -/
def State.dataLine (s : State) (n c line : Nat) : Bytes :=
  match (hbmLocal s.chip.parity c line).bind (s.unitAddr 0 n) with
  | some a => s.mem.read a 64
  | none => zeros 64

/-- The channels of a channel's parity group (R257). -/
def groupOf (c : Nat) : List Nat := (List.range 16).map (· + 16 * (c / 16))

/-- The XOR of the data of a stripe's line: what its parity channel holds there (R259). -/
def State.parityLine (s : State) (n c line : Nat) : Bytes :=
  (groupOf c).foldl (fun b i => List.zipWith (· ^^^ ·) b (s.dataLine n i line)) (zeros 64)

/-- A write of one line to a channel in RECONSTRUCT, or of a held line to one in DRAINING, goes to the hold buffer, and the gusset
stripe map marks its stripe; a write that finds the buffer full waits, and is counted (R270, R271). With parity off there is no
holding: the write waits for the retrain (R273). -/
def State.holdLine (n c line : Nat) (data : Bytes) (s : State) : State :=
  let x := s.channel n c
  let held := x.holds line
  if !s.chip.parity || !(x.st == .reconstruct || (x.st == .draining && held)) then s
  else
    let x := { x with marked := if x.st == .reconstruct then insertNat (line / 256) x.marked else x.marked }
    if held then s.setChannel n c { x with hold := update (fun y => y.1 = line) (fun _ => (line, data)) x.hold }
    else if x.hold.length < holdLines then
      (s.setChannel n c { x with hold := x.hold ++ [(line, data)] }).raiseTo (key (0x3010 + n) 8) (x.hold.length + 1)
    else (s.setChannel n c x).bump (key (0x3010 + n) 7)

/-- The hold buffers see a line that has been written: that of its own channel, and that of the channel with the parity of its
stripe. -/
def State.holdWrite (a : Nat) (s : State) : State :=
  match s.hbmMap a with
  | none => s
  | some m =>
    let line := m.offset / 64 * 64
    let s := s.holdLine m.stack m.channel line (s.mem.read a 64)
    match m.parity with
    | some p => if (s.channel m.stack p).st == .online then s else s.holdLine m.stack p line (s.parityLine m.stack p line)
    | none => s

/-- The hold buffers see every line a write covers. -/
def State.holdRange (a n : Nat) (s : State) : State :=
  if n = 0 || regionOf a ≠ .hbm then s
  else ((List.range ((a + n - 1) / 64 - a / 64 + 1)).map (· + a / 64)).foldl (fun s l => s.holdWrite (64 * l)) s

/-- Write device memory; the contents count as written at once, held or not. -/
def State.devWrite (a : Nat) (b : Bytes) (s : State) : State :=
  ({ s with mem := s.mem.write a b }).holdRange a b.length

/-- An access that no memory backs (R256). -/
def State.unbacked (s : State) : State := s.bump 0x30000B

/-! ## The cache (R278) -/

/-- The class's reads go through the cache. -/
def TrafficClass.cached : TrafficClass → Bool
  | .serve | .rerank | .mutate | .encode | .train | .fabric => true
  | .scan | .maint | .lend => false

/-- Sets of a slice: 16 MiB in 64-byte lines, 16 ways. -/
def cacheSets : Nat := 16384

/-- The set that a line falls to, over the cache slices that are online: 16,384 × slice + set. The manual gives no hash (log
entry 31). -/
def cacheSet (slices : List Nat) (line : Nat) : Nat :=
  let h := (Config.cacheHash line).toNat
  cacheSets * (slices[h % max slices.length 1]?).getD 0 + h / max slices.length 1 % cacheSets

/-- A set takes a line, and the line used longest ago gives way. -/
def useWay (line : Nat) (l : List Nat) : List Nat := (line :: l.filter (· ≠ line)).take 16

/-- The cache slices that leave drop their lines (R281). -/
def Tiers.dropCache (gone : Nat → Bool) (t : Tiers) : Tiers := { t with cache := t.cache.filter fun x => !gone (x.1 / cacheSets) }

end Sys2Proof.Machine
end

