-- ==== Sys2Proof/Machine/Trace.lean ====
section
/-!
DEFINITION. The transmit queue of the management port and the trace streams (R401 to R403). When a datagram leaves is log entry 35.
-/

namespace Sys2Proof.Machine

/-- The management port carries datagrams: it is up, and no loop-back stops it (R429). -/
def State.papUp (s : State) : Bool := s.dev.st != .off && s.dev.mgmtUp && !(s.test.loop.isSome && s.num 0xD10002 = 5)

/-- Whole records that a datagram of a stream holds: 1 QUERY, 2 EVENT, 3 SAMPLE. -/
def traceRecords (stream : Nat) : Nat := if stream = 1 then 22 else if stream = 2 then 45 else 5

/-- A stream by its number. -/
def Telemetry.stream (t : Telemetry) (n : Nat) : Stream := if n = 1 then t.query else if n = 2 then t.event else t.sample

/-- Replace a stream. -/
def Telemetry.setStream (n : Nat) (x : Stream) (t : Telemetry) : Telemetry :=
  if n = 1 then { t with query := x } else if n = 2 then { t with event := x } else { t with sample := x }

/-- A datagram. -/
def State.traceDatagram (s : State) (n : Nat) (x : Stream) (records : List Bytes) : Bytes :=
  natLE 2 0x5254 ++ natLE 1 1 ++ natLE 1 n ++ natLE 2 (s.num 0x800001) ++ natLE 2 records.length ++ natLE 8 (x.sequence + 1) ++
    natLE 8 s.stamp ++ natLE 4 x.dropped ++ zeros 4 ++ records.flatten

/-- The token bucket fills at PB030.04, and the transmit queue empties at 1,000 Mb/s. -/
def State.refill (s : State) : State :=
  let got := s.num 0xB03004 * (s.aonNs - s.tele.refilled) / 1000000000
  let gone := (s.aonNs - s.tele.backlogAt) / 8
  { s with tele := { s.tele with tokens := min 65536 (s.tele.tokens + got), refilled := s.aonNs,
                                 backlog := s.tele.backlog - gone, backlogAt := s.aonNs } }

/-- A PTP message or an answer of the Pattern Access Protocol takes its bytes of the transmit queue, ahead of every trace (R403). -/
def State.portSend (n : Nat) (s : State) : State :=
  let s := s.refill
  { s with tele := { s.tele with backlog := min 65536 (s.tele.backlog + n) } }

/-- UDP port that traces leave from (R401). -/
def traceSource : Nat := 50412

/-- One datagram of a stream is sent to PB030.02 and PB030.03, or discarded and its records counted. -/
def State.sendTrace (n : Nat) (s : State) : State :=
  let x := s.tele.stream n
  let rs := x.buffer.take (traceRecords n)
  let x := { x with buffer := x.buffer.drop (traceRecords n) }
  let b := s.traceDatagram n x rs
  let drop (k : Nat) : State :=
    ({ s with tele := s.tele.setStream n { x with dropped := min (x.dropped + rs.length) 0xFFFFFFFF } }).bumpBy k rs.length
  if s.tele.tokens < b.length then drop 0xB03008
  else if 32768 < s.tele.backlog then drop 0xB03009
  else
    let t := { s.tele with tokens := s.tele.tokens - b.length, backlog := s.tele.backlog + b.length }
    (({ s with tele := t.setStream n { x with sequence := x.sequence + 1, dropped := 0 } }).emit
      (.trace traceSource (s.num 0xB03002) (s.num 0xB03003) b)).bump 0xB03007

/-- A stream sends what it holds. -/
def State.sendStream (n : Nat) : Nat → State → State
  | 0, s => s
  | k + 1, s => if (s.tele.stream n).buffer.isEmpty then s else State.sendStream n k (s.sendTrace n)

/-- The port can send traces. -/
def State.tracesUp (s : State) : Bool := s.papUp && s.num 0x100602 ≠ 0

/-- Every stream sends what it holds, where the port is up. -/
def State.sendTraces (s : State) : State :=
  if !s.tracesUp then s else [1, 2, 3].foldl (fun s n => s.sendStream n (s.tele.stream n).buffer.length) s.refill

/-- A record for a stream, where traces are ON and the stream is selected; a datagram that it fills leaves. -/
def State.holdTrace (n : Nat) (b : Bytes) (s : State) : State :=
  if !s.isOn 0xB030 || !bit (s.num 0xB03006) (n - 1) then s
  else
    let x := s.tele.stream n
    let s := { s with tele := s.tele.setStream n { x with buffer := x.buffer ++ [b] } }
    if traceRecords n ≤ x.buffer.length + 1 && s.tracesUp then s.refill.sendTrace n else s

end Sys2Proof.Machine
end

