-- ==== Sys2Proof/Machine/Thimble.lean ====
section
/-!
DEFINITION. Thimble: recording an event in the alarm table, the lists, the log ring and the CXL event logs,
merging, FAULT_N, ALERT_N and the freeze (R379 to R400, R440, R441, R445). What an event does to a unit and
what entering FENCED does stand in Machine/Offline.lean and Machine/Fence.lean.
-/

namespace Sys2Proof.Machine

/-- One source of R381: code, group bit, class. -/
structure SourceRow where
  code : Nat
  group : Nat
  cls : Nat
deriving DecidableEq, Repr

/-- The sources of R381. -/
def sourceTable : List SourceRow :=
  [⟨0x00, 0, 1⟩, ⟨0x01, 0, 1⟩, ⟨0x02, 0, 0⟩,
   ⟨0x08, 1, 1⟩, ⟨0x09, 1, 4⟩, ⟨0x0A, 1, 1⟩, ⟨0x0B, 1, 4⟩, ⟨0x0C, 1, 0⟩,
   ⟨0x10, 2, 1⟩, ⟨0x11, 2, 1⟩, ⟨0x12, 2, 2⟩, ⟨0x13, 2, 1⟩, ⟨0x14, 2, 0⟩, ⟨0x15, 2, 3⟩, ⟨0x16, 2, 3⟩,
   ⟨0x17, 2, 0⟩, ⟨0x18, 2, 1⟩, ⟨0x19, 2, 3⟩,
   ⟨0x20, 3, 1⟩, ⟨0x21, 3, 2⟩, ⟨0x22, 3, 3⟩, ⟨0x23, 3, 0⟩,
   ⟨0x28, 4, 1⟩, ⟨0x29, 4, 3⟩,
   ⟨0x30, 5, 1⟩, ⟨0x31, 5, 3⟩,
   ⟨0x38, 6, 3⟩, ⟨0x39, 6, 2⟩,
   ⟨0x40, 7, 3⟩, ⟨0x41, 7, 3⟩, ⟨0x42, 7, 2⟩,
   ⟨0x48, 8, 3⟩, ⟨0x4C, 9, 3⟩, ⟨0x4D, 9, 0⟩, ⟨0x50, 10, 3⟩, ⟨0x54, 11, 3⟩,
   ⟨0x58, 12, 1⟩, ⟨0x59, 12, 1⟩, ⟨0x5A, 12, 1⟩, ⟨0x5B, 12, 3⟩,
   ⟨0x60, 13, 3⟩, ⟨0x61, 13, 0⟩, ⟨0x62, 14, 0⟩,
   ⟨0x68, 15, 1⟩, ⟨0x69, 15, 1⟩, ⟨0x6A, 15, 0⟩, ⟨0x6B, 15, 1⟩, ⟨0x6C, 15, 0⟩,
   ⟨0x70, 17, 0⟩, ⟨0x78, 16, 1⟩, ⟨0x79, 16, 4⟩]

/-- The row of a source code; none where the code is reserved. -/
def sourceRow (c : Nat) : Option SourceRow := sourceTable.find? fun r => r.code = c

/-! ## The event record (R383) -/

/-- The flags byte of an event record. -/
def Event.flags (e : Event) : Nat :=
  bitIf e.isOpen 0 + bitIf e.handled 1 + bitIf e.escalated 2 + bitIf e.forced 3 + bitIf e.freeze 4 +
    bitIf e.listFull 5 + bitIf e.merged 6

/-- The 32 bytes of an event record. -/
def Event.bytes (e : Event) : Bytes :=
  natLE 4 e.sequence ++ natLE 1 e.source ++ natLE 1 e.cls ++ natLE 2 e.inst.toNat ++ natLE 1 e.original ++
    natLE 1 e.flags ++ natLE 1 e.mergedCount ++ [0] ++ natLE 4 e.mask.toNat ++ natLE 8 e.raised ++
    natLE 8 e.detail.toNat

/-! ## The log ring (R398, R399) -/

/-- The 64 bytes of a log record. -/
def LogRec.bytes (r : LogRec) : Bytes :=
  natLE 8 r.sequence ++ natLE 8 r.time ++ natLE 1 r.cls ++ natLE 1 r.kind ++ [0, 0] ++ natLE 4 r.code ++
    padTo 32 r.body ++ natLE 4 r.mergedInto ++ zeros 4

/-- The records the ring holds (R398). -/
def logCapacity : Nat := 65536

/-- The entry that counts records of a log class that were evicted or dropped: PB020.06 to PB020.0A (R399). -/
def dropKey (cls : Nat) : Nat := 0xB02006 + cls

/-- Remove the oldest record of class `c`; records are oldest first. -/
def evict (c : Nat) : List LogRec → List LogRec
  | [] => []
  | r :: l => if r.cls = c then l else r :: evict c l

/-- The lowest class present in the ring. -/
def lowestClass (l : List LogRec) : Nat := l.foldl (fun m r => min m r.cls) 4

/-- Write one record (R399): filtered by PB020.05; when the ring is full, the oldest record of the lowest class
gives way, or the new record does where every record outranks it. -/
def State.logWrite (cls kind code : Nat) (body : Bytes) (into : Nat) (s : State) : State :=
  if cls < s.num 0xB02005 then s.bump 0xB0200B
  else
    let r : LogRec := ⟨s.thimble.logNext, s.stamp, cls, kind, code, body, into⟩
    let low := lowestClass s.thimble.log
    let full := logCapacity ≤ s.thimble.log.length
    let t := { s with thimble := { s.thimble with
      logNext := s.thimble.logNext + 1
      log := if !full then s.thimble.log ++ [r]
             else if low ≤ cls then evict low s.thimble.log ++ [r] else s.thimble.log } }
    if full then t.bump (dropKey (if low ≤ cls then low else cls)) else t

/-- A STATE_CHANGE record (R398): NOTICE, with the old and new codes and a collection handle. -/
def State.logChange (code old new handle : Nat) (s : State) : State :=
  s.logWrite 2 3 code (natLE 1 old ++ natLE 1 new ++ natLE 2 handle) 0

/-- Enter a device state (R31, R35): P1002.02 takes the fleet time, and the log a record. -/
def State.setDevState (x : DevState) (s : State) : State :=
  if s.dev.st = x then s
  else ({ s with dev := { s.dev with st := x, since := s.stamp } }).logChange 1 s.dev.st.code x.code 0

/-- FT_PPS_OUT may be high: LOCKED and HOLDOVER (R44). -/
def TimeState.drives (t : TimeState) : Bool := t == .locked || t == .holdover

/-- Enter a time state (R39); in every one but LOCKED and HOLDOVER FT_PPS_OUT is low (R44). -/
def State.setTimeState (x : TimeState) (s : State) : State :=
  if s.ftu.st = x then s
  else ({ s with ftu := { s.ftu with st := x }, dev := { s.dev with ppsOut := s.dev.ppsOut && x.drives } }).logChange 4 s.ftu.st.code x.code 0

/-- Enter a collection state (R128). -/
def State.setCollState (h : Handle) (x : CollState) (s : State) : State :=
  match s.coll h with
  | none => s
  | some c =>
    if c.st = x then s
    else (s.mapColl h fun c => { c with st := x }).logChange 3 c.st.code x.code h.toNat

/-! ## The alarm table (R395 to R397) -/

/-- A slot that nothing has used: all zero (R405). -/
def alarmDefault : Alarm := {}

/-- A slot of the table. -/
def State.alarm (s : State) (n : Nat) : Alarm := lookDef alarmDefault s.thimble.alarms n

/-- Replace a slot. -/
def State.setAlarm (n : Nat) (a : Alarm) (s : State) : State :=
  { s with thimble := { s.thimble with alarms := putDef alarmDefault n a s.thimble.alarms } }

/-- The 32 bytes of a slot. -/
def Alarm.bytes (a : Alarm) : Bytes :=
  natLE 1 a.source ++ natLE 1 a.highest ++ natLE 2 a.inst.toNat ++ natLE 4 a.count ++ natLE 8 a.first ++
    natLE 8 a.last ++ natLE 4 a.lastSequence ++ natLE 1 (bitIf a.inUse 0 + bitIf a.unacked 1) ++ zeros 3

/-- Count an event in a slot: its first event fills it, and an instance other than the first shows 0xFFFF in a
fixed slot. -/
def Alarm.count1 (fixed : Bool) (e : Event) (a : Alarm) : Alarm :=
  { source := if a.inUse then a.source else e.source
    highest := if a.inUse then max a.highest e.cls else e.cls
    inst := if !a.inUse then e.inst else if fixed && a.inst != e.inst then 0xFFFF else a.inst
    count := min (a.count + 1) 0xFFFFFFFF
    first := if a.inUse then a.first else e.raised
    last := e.raised
    lastSequence := e.sequence
    inUse := true
    unacked := true }

/-- The detail slot of a source and instance, else the lowest free one. -/
def State.detailSlot (s : State) (src : Nat) (inst : BitVec 16) : Option Nat :=
  let ns := (List.range 128).map (· + 128)
  match ns.find? fun n => (s.alarm n).inUse && (s.alarm n).source = src && (s.alarm n).inst = inst with
  | some n => some n
  | none => ns.find? fun n => !(s.alarm n).inUse

/-- Count an event in its fixed slot and its detail slot (R396). -/
def State.countAlarm (e : Event) (s : State) : State :=
  let t := s.setAlarm e.source ((s.alarm e.source).count1 true e)
  match s.detailSlot e.source e.inst with
  | some n => t.setAlarm n ((s.alarm n).count1 false e)
  | none => t.bump 0xA03005

/-- The event is the first of its fixed slot, or the first since the slot was acknowledged (R396). -/
def State.fixedFresh (s : State) (src : Nat) : Bool := !(s.alarm src).inUse || !(s.alarm src).unacked

/-- The event is the first of a slot, fixed or detail (R399). -/
def State.slotFirst (s : State) (src : Nat) (inst : BitVec 16) : Bool :=
  !(s.alarm src).inUse ||
    match s.detailSlot src inst with
    | some n => !(s.alarm n).inUse
    | none => false

/-- Slots unacknowledged at or above the alert class: PA030.04 (R389). -/
def State.unacked (s : State) : Nat :=
  (s.thimble.alarms.filter fun x => x.2.unacked && s.num 0xA01004 ≤ x.2.highest).length

/-- ALERT_N is driven low (R389). -/
def State.alertLow (s : State) : Bool := 0 < s.unacked

/-! ## History, open list, CXL logs, trace -/

/-- Enter a record into the history queue (R384): the last 32, newest first. -/
def State.pushHistory (e : Event) (s : State) : State :=
  ({ s with thimble := { s.thimble with history := (e :: s.thimble.history).take 32 } }).bump 0xA02004

/-- Change an open event in place. -/
def State.mapOpen (q : Nat) (f : Event → Event) (s : State) : State :=
  { s with thimble := { s.thimble with opened := update (fun e => e.sequence = q) f s.thimble.opened } }

/-- Put a record into a CXL event log (R352): 64 records, then the overflow fields. -/
def CxlLog.add (b : Bytes) (t : Time) (l : CxlLog) : CxlLog :=
  if l.records.length < 64 then
    { l with records := l.records ++ [(l.nextHandle, b)], nextHandle := l.nextHandle % 0xFFFF + 1 }
  else { l with overflow := min (l.overflow + 1) 0xFFFF, firstLost := if l.overflow = 0 then t else l.firstLost,
                lastLost := t }

/-- The log of a class (R352). -/
def PortState.addEvent (cls : Nat) (b : Bytes) (t : Time) (p : PortState) : PortState :=
  if cls = 0 then { p with info := p.info.add b t }
  else if cls = 1 then { p with warning := p.warning.add b t }
  else if cls = 4 then { p with fatal := p.fatal.add b t }
  else { p with failure := p.failure.add b t }

/-- The log of a class, by its place in the interrupt policy: 0 informational, 1 warning, 2 failure, 3 fatal. -/
def cxlLogOf (cls : Nat) : Nat := if cls = 0 then 0 else if cls = 1 then 1 else if cls = 4 then 3 else 2

/-- A log by that place. -/
def PortState.log (p : PortState) (n : Nat) : CxlLog :=
  if n = 0 then p.info else if n = 1 then p.warning else if n = 3 then p.fatal else p.failure

/-- The vector of a log's interrupt, vector 0 (R323), where its policy asks for an MSI-X message (CXL 3.1; log entry 13). -/
def PortState.logVector (p : PortState) (n : Nat) : Option Nat :=
  if p.policy.toNat / 256 ^ n % 4 = 1 then some 0 else none

/-- Place an event in one port's logs; a log that was empty sends its interrupt. -/
def State.cxlEventOn (e : Event) (p : Port) (s : State) : State :=
  let x := s.port p
  let n := cxlLogOf e.cls
  let t := s.setPort p (x.addEvent e.cls e.bytes e.raised)
  match if (x.log n).records.isEmpty then x.logVector n else none with
  | some v => t.msix p v
  | none => t

/-- Place an event in the CXL logs of every upstream port (R352). -/
def State.cxlEvent (e : Event) (s : State) : State := s.upstream.foldl (fun s p => s.cxlEventOn e p) s

/-- The EVENT stream sends the record of every event that writes a log record (R401). -/
def State.traceEvent (e : Event) (s : State) : State := s.holdTrace 2 e.bytes

/-- The log class of an event's class (R398). -/
def logClassOf (c : Nat) : Nat := if c = 0 then 1 else if c = 1 then 2 else if c = 2 then 3 else 4

/-- A record of a class is written (R399): its class passes the filter, and a full ring has a record that it outranks or equals. -/
def State.logKeeps (s : State) (cls : Nat) : Bool :=
  s.num 0xB02005 ≤ cls && (s.thimble.log.length < logCapacity || lowestClass s.thimble.log ≤ cls)

/-- Write an event's log record, and remember when its source last did (R399). -/
def State.logEvent (e : Event) (into : Nat) (s : State) : State :=
  let t := s.logWrite (logClassOf e.cls) 1 0 e.bytes into
  if !s.logKeeps (logClassOf e.cls) then t
  else ({ t with thimble := { t.thimble with logMarks := put e.source s.aonNs t.thimble.logMarks } }).traceEvent e

/-- The source has not written a record in the last 1 ms (R399), on the always-on clock. -/
def State.rateOk (s : State) (src : Nat) : Bool :=
  match look s.thimble.logMarks src with
  | some t => t + 1000000 ≤ s.aonNs
  | none => true

/-! ## FAULT_N (R388) -/

/-- An event reaches C3 or C4: a pulse while armed; C4 also sets PA110.01. FAULT_N is disarmed when its pulse
ends, so no second pulse starts while one is driven. -/
def State.faultAction (cls : Nat) (s : State) : State :=
  let t := if cls = 4 then s.setNum 0xA11001 1 else s
  if 3 ≤ cls && s.thimble.armed && s.thimble.pulse.isNone then
    ({ t with thimble := { t.thimble with pulse := some (s.aonNs + s.num 0xA11003), faultLow := true } }).bump 0xA11004
  else { t with thimble := { t.thimble with faultLow := s.thimble.pulse.isSome || t.num 0xA11001 == 1 } }

/-! ## Freeze (R440, R441, R445) -/

/-- The freeze record of R445. -/
def State.freezeBytes (s : State) (cause seq : Nat) (mask : Nat) : Bytes :=
  let b := natLE 4 0x52464B5A ++ natLE 2 1 ++ natLE 1 cause ++ natLE 1 s.dev.st.code ++ natLE 8 s.stamp ++
    natLE 4 seq ++ natLE 1 s.dev.power ++ natLE 1 s.ftu.st.code ++ natLE 2 mask ++ natLE 8 s.muts.generation ++
    natLE 8 s.muts.journal.append ++ natLE 8 s.muts.journal.durable ++ natLE 1 (s.num 0xD40002) ++ zeros 11
  b ++ natLE 4 (crc32c b).toNat

/-- The degraded mask of R36. -/
def State.degraded (s : State) : Nat :=
  let u := s.units
  let lost := s.tiers.stackTab.any fun x => x.2.channels.any fun c => c.2.st == .offline
  bitIf (u.tun != 0) 0 + bitIf (u.needle != 0) 1 + bitIf (u.score != 0) 2 + bitIf (u.lauter != 0) 3 +
    bitIf (u.kiln != 0) 4 + bitIf (u.slice != 0) 5 + bitIf (u.stack != 0) 6 + bitIf lost 7 +
    bitIf (u.package != 0) 8 + bitIf (u.core != 0) 9 + bitIf (u.lane != 0) 10 + bitIf (u.transport != 0) 11

/-- FREEZE_N stopped the clocks in this very cycle: an event that freezes in the same cycle is what the record names (R440). -/
def State.sameCycle (s : State) : Bool := s.test.freezeRecord[6]? = some 1 && s.test.freezeCycle = s.ftu.aon

/-- A loop-back or a margin scan ends without a result (R427): its function is OFF, and PD100.06 or PD200.04 reads NONE (log entry
33). -/
def State.dropTest (x res : Nat) (s : State) : State :=
  if (s.sw x).st == .off then s else (s.setSw x ⟨.off, none⟩).setNum res 0

/-- Stop every clock but the always-on domain's (R441): the record is captured, outputs go idle, HBM and bulk
contents are lost, and a test that runs ends without a result (R427). The device state stays. In OFF nothing happens, and a freeze
while frozen has no effect, but for the record of the same cycle. -/
def State.freezeNow (cause seq : Nat) (s : State) : State :=
  if s.dev.st == .off then s
  else if s.dev.frozen then
    (if cause = 2 && s.sameCycle then { s with test := { s.test with freezeRecord := s.freezeBytes cause seq s.degraded } } else s)
  else
    let r := s.freezeBytes cause seq s.degraded
    let s := (s.dropTest 0xD100 0xD10006).dropTest 0xD200 0xD20004
    { s with
      dev := { s.dev with frozen := true }
      test := { s.test with freezeRecord := r, freezeCycle := s.ftu.aon,
                            freezePolicy := BitVec.ofNat 8 (s.num 0xD40002), freezes := s.test.freezes + 1,
                            loop := none, margin := none, selfTest := none }
      ports := { s.ports with a := { s.ports.a with linkState := 0 }, b := { s.ports.b with linkState := 0 } }
      mem := Memory.drop (fun a => a < 0x040000000000) s.mem }

/-! ## Recording an event (R379 to R390) -/

/-- The open event that takes an event of this source, instance and class, and whether a full list is why
(R384, R385): first the event whose reaction raised it, then the event that fenced the device, then an open
event of the same source and instance, then, for a class that would open when 32 are open, the newest of the
highest class. -/
def State.mergeInto (s : State) (src cls : Nat) (inst : BitVec 16) (reaction : Option Nat) : Option (Event × Bool) :=
  let o := s.thimble.opened
  match o.find? fun e => some e.sequence == reaction with
  | some e => some (e, false)
  | none =>
    match o.find? fun e => 2 ≤ cls && some e.sequence == s.thimble.fencer with
    | some e => some (e, false)
    | none =>
      match o.find? fun e => e.source = src && e.inst = inst with
      | some e => some (e, false)
      | none =>
        if 2 ≤ cls && 32 ≤ o.length then
          (o.foldl (fun b e => match b with
            | none => some e
            | some (b : Event) => if b.cls ≤ e.cls then some e else some b) none).map fun e => (e, true)
        else none

/-- When the reaction timer of a class that starts at a time ends (R387), on the always-on clock; none for no timer. -/
def State.timerFor (s : State) (cls at_ : Nat) : Option Nat :=
  let t := if cls = 2 then s.num 0xA01001 else if cls = 3 then s.num 0xA01002 else 0
  if t = 0 then none else some (at_ + t)

/-- The class triggers a freeze (R390): of a device that is not frozen, or that FREEZE_N froze in this cycle. -/
def State.freezes (s : State) (cls : Nat) : Bool :=
  s.num 0xA01003 ≤ 4 && s.num 0xA01003 ≤ cls && (!s.dev.frozen || s.sameCycle)

/-- An event that reaches C4 is the one that fences the device, unless another did; a device that is frozen, or that the event itself
freezes, keeps its state (R37, R441). -/
def State.fencedBy (q : Nat) (s : State) : State :=
  if s.thimble.fencer.isNone && !s.dev.frozen && !s.freezes 4 then { s with thimble := { s.thimble with fencer := some q } } else s

/-- An open event reaches a class, by raise or escalation, at a time of the always-on clock: FAULT_N, its timer, and C4 makes it the
event that fences the device. -/
def State.reach (q cls at_ : Nat) (s : State) : State :=
  let t := (s.mapOpen q fun e => { e with timer := s.timerFor cls at_ }).faultAction cls
  if cls = 4 then t.fencedBy q else t

/-- The sequence after one (R379): wraps from 0xFFFF_FFFF to 1. -/
def nextSequence (n : Nat) : Nat := if n = 0xFFFFFFFF then 1 else n + 1

/-- An event that opens or stands alone. -/
def State.recordAlone (e : Event) (fresh first : Bool) (s : State) : State :=
  let opens := 2 ≤ e.cls
  let e := { e with isOpen := opens }
  let s := if opens then { s with thimble := { s.thimble with opened := s.thimble.opened ++ [e] } } else s
  let s := if opens || fresh then s.pushHistory e else s
  let s := if opens || first || s.rateOk e.source then s.logEvent e 0 else s.bump 0xB0200B
  let s := s.cxlEvent e
  if opens then (s.upstream.foldl (fun s p => s.msix p 0) s).reach e.sequence e.cls s.aonNs else s

/-- An event merged into an open event (R385). -/
def State.recordMerged (e o : Event) (full fresh : Bool) (s : State) : State :=
  let e := { e with merged := true }
  let s := (s.mapOpen o.sequence fun x =>
    { x with mask := x.mask ||| e.mask, mergedCount := min (x.mergedCount + 1) 255,
             listFull := x.listFull || full, cls := max x.cls e.cls }).bump 0xA00003
  let s := if fresh then s.logEvent e o.sequence else s.bump 0xB0200B
  let s := s.cxlEvent e
  if o.cls < e.cls then s.reach o.sequence e.cls s.aonNs else if e.cls = 4 then s.fencedBy o.sequence else s

/-- Record an event: sequence, alarm table, lists, log, CXL logs, timer, FAULT_N and freeze. `reaction` is the open
event whose handling raised it. -/
def State.record (src : Nat) (inst : BitVec 16) (detail : BitVec 64) (forced : Bool) (reaction : Option Nat)
    (s : State) : State :=
  match sourceRow src with
  | none => s
  | some r =>
    let q := nextSequence s.thimble.sequence
    let fz := s.freezes r.cls
    let e : Event := { sequence := q, source := src, cls := r.cls, inst := inst, original := r.cls, forced := forced,
                       freeze := fz, mask := BitVec.ofNat 32 (2 ^ r.group), raised := s.stamp, detail := detail }
    let fresh := s.fixedFresh src
    let first := s.slotFirst src inst
    let target := s.mergeInto src r.cls inst reaction
    let t := (({ s with thimble := { s.thimble with sequence := q } }).bump 0xA00002).countAlarm e
    let t := match target with
      | some (o, full) => t.recordMerged e o full fresh
      | none => t.recordAlone e fresh first
    let t := { t with thimble := { t.thimble with holder := match target with
      | some (o, _) => some o.sequence
      | none => if 2 ≤ r.cls then some q else none } }
    if fz then t.freezeNow 2 q else t

/-- Record an event of a unit at an instance. -/
def State.event (src inst : Nat) (detail : Nat) (s : State) : State :=
  s.record src (BitVec.ofNat 16 inst) (BitVec.ofNat 64 detail) false none

end Sys2Proof.Machine
end

