-- ==== Sys2Proof/Machine/Spool.lean ====
section
/-!
DEFINITION. Spools (R331 to R338): counters, doorbells, the reading of entries, completion entries and their
messages, and the status records; and what every mailbox command shares (R339, R340).
-/

namespace Sys2Proof.Machine

/-! ## The mailbox (R339, R340) -/

/-- Answer a mailbox command. -/
def State.reply (p : Port) (rc : Rc) (ext : Nat) (data : Bytes) (s : State) : State := s.emit (.mailbox p rc ext data)

/-- Answer Success with data. -/
def State.ok (p : Port) (data : Bytes) (s : State) : State := s.reply p .success 0 data

/-- Extended status codes of R340. -/
inductive Ext where
  | field | state | tenant | queueFull | notOn | spoolsBusy | background | powerState | fenced | port
deriving DecidableEq, Repr

/-- Their numbers. -/
def Ext.code : Ext → Nat
  | .field => 0x10 | .state => 0x11 | .tenant => 0x12 | .queueFull => 0x20 | .notOn => 0x21 | .spoolsBusy => 0x22
  | .background => 0x23 | .powerState => 0x30 | .fenced => 0x31 | .port => 0x40

/-- Their return codes. -/
def Ext.rc : Ext → Rc
  | .field | .state | .tenant => .invalidInput
  | .queueFull | .notOn | .spoolsBusy | .background | .powerState => .busy
  | .fenced => .mediaDisabled
  | .port => .unsupported

/-- Turn a command away with a cause of R340. -/
def State.deny (p : Port) (e : Ext) (s : State) : State := s.reply p e.rc e.code []

/-- The mailbox answers: the device is in READY-EMPTY to DEGRADED or in FENCED, and not frozen (R32, R34, R440). -/
def State.mailboxUp (s : State) : Bool := !s.dev.frozen && (s.dev.st.ready || s.dev.st == .fenced)

/-- A mailbox command: a port in ROOT mode has no mailbox, and answers PORT (R324, R340; log entry 30); FENCED refuses what R342
does not mark. -/
def State.onMailbox (p : Port) (inFenced : Bool) (f : State → State) (s : State) : Result :=
  if !s.mailboxUp then .next s
  else if !s.upstream.contains p then .next (s.deny p .port)
  else if s.dev.st == .fenced && !inFenced then .next (s.deny p .fenced)
  else .next (f s)

/-- A mailbox command that is load (R435). -/
def State.onWork (p : Port) (f : State → State) (s : State) : Result := s.onMailbox p false fun s => f s.loadAppears

/-- Start a background command; one runs at a time on each mailbox (R339). -/
def State.startBg (p : Port) (opcode arg : Nat) (f : State → State) (s : State) : State :=
  if (s.port p).bg.isSome then s.deny p .background
  else f ((s.setPort p { s.port p with bg := some ⟨opcode, arg⟩ }).reply p .backgroundStarted 0 [])

/-- End the background command of a port with its return code, if one of this opcode runs. -/
def State.endBg (p : Port) (opcode : Nat) (rc : Rc) (ext : Nat) (s : State) : State :=
  match (s.port p).bg with
  | some b =>
    if b.opcode = opcode then
      ((s.setPort p { s.port p with bg := none, lastOpcode := opcode, lastRc := rc, lastExt := ext }).emit
        (.background p rc ext)).msix p 0
    else s
  | none => s

/-- The port whose mailbox runs a background command of this opcode and argument. -/
def State.bgPort (s : State) (opcode : Nat) : Option Port :=
  [Port.a, Port.b].find? fun p => match (s.port p).bg with | some b => b.opcode = opcode | none => false

/-! ## Counters and rings (R331) -/

/-- x − h in 32 bits. -/
def ahead (h x : BitVec 32) : Nat := (x - h).toNat

/-- Completion entries the ring holds that the host has not released. -/
def CompSpool.occupied (c : CompSpool) : Nat := ahead c.head c.tail

/-- A slot is neither occupied nor reserved (R333). -/
def CompSpool.hasRoom (c : CompSpool) : Bool := c.occupied + c.reserved < c.entries

/-- Entries not read yet. -/
def SubSpool.unread (x : SubSpool) : Nat := ahead x.head x.tail

/-- The completion spool of a submission spool. -/
def State.compOf (s : State) (x : SubSpool) : Option CompSpool := s.compSpool x.port x.completion

/-- The entry that counts a port's ignored doorbell writes (R332). -/
def ignoredKey (p : Port) : Nat := match p with | .a => 0x900009 | .b => 0x91000B

/-! ## Doorbells (R332, R335) -/

/-- Count a doorbell write that a spool ignored. -/
def State.ignoreSub (p : Port) (n : Byte) (s : State) : State :=
  s.mapSub p n fun x => { x with ignored := min (x.ignored + 1) 0xFFFFFFFF }

/-- A new tail t (R332). -/
def State.ringSub (p : Port) (n : Byte) (t : BitVec 32) (s : State) : State :=
  match s.subSpool p n with
  | none => s.bump (ignoredKey p)
  | some x =>
    if x.resetting then s.bump (ignoredKey p)
    else
      let d := ahead x.head t
      if x.entries < d then (s.ignoreSub p n).event 0x70 (256 * Port.num p + n.toNat) 0
      else if d ≤ ahead x.head x.tail then s.ignoreSub p n
      else (s.mapSub p n fun x => { x with tail := t }).loadAppears

/-- A new completion head h (R335). -/
def State.ringComp (p : Port) (n : Byte) (h : BitVec 32) (s : State) : State :=
  match s.compSpool p n with
  | none => s.bump (ignoredKey p)
  | some c =>
    let d := ahead c.head h
    if 0 < d && d ≤ c.occupied then s.mapComp p n fun c => { c with head := h }
    else s.mapComp p n fun c => { c with ignored := min (c.ignored + 1) 0xFFFFFFFF }

/-! ## Reading entries (R333) -/

/-- The device takes entries: serving states, time known (R40), PS0 to PS2 with no transition to PS3 or PS4 in
progress (R351), and intake not stopped by a closing (R225). -/
def State.intake (s : State) : Bool :=
  s.serves && s.timeKnown && s.dev.power ≤ 2 &&
    (match s.dev.transition with | some t => t.target ≤ 2 | none => true)

/-- An entry of a submission spool can be read now. -/
def State.canRead (s : State) (x : SubSpool) : Bool :=
  s.intake && !x.resetting && 0 < x.unread &&
    match s.compOf x with
    | none => false
    | some c => c.hasRoom && (!c.hostMemory || (s.port x.port).busMaster)

/-- The bytes of the entry at a spool's head. -/
def State.headEntry (s : State) (x : SubSpool) : Bytes :=
  s.mem.read (x.base + x.head.toNat % x.entries * 128) 128

/-- The place of an intake in the round of R333: submission spools by port and number, then the fleet query window (log entry 30). -/
def intakePlace : Intake → Nat
  | .spool p n => 256 * Port.num p + n.toNat
  | .fleet => 512

/-- An intake of a weight reads an entry in its turn (R333): a turn that begins has its weight in entries. -/
def State.takeTurn (place weight : Nat) (s : State) : State :=
  let t := s.spools.turn
  { s with spools := { s.spools with turn := (place, (if t.1 = place && 0 < t.2 then t.2 else weight) - 1) } }

/-- Read the entry at the head: H advances, and a completion slot is reserved. -/
def State.takeEntry (p : Port) (n : Byte) (s : State) : State :=
  match s.subSpool p n with
  | none => s
  | some x =>
    (s.hostWork.mapSub p n fun x => { x with head := x.head + 1, outstanding := x.outstanding + 1, processed := x.processed + 1 }).mapComp
      p x.completion fun c => { c with reserved := c.reserved + 1 }

/-! ## Completions (R334, R336) -/

/-- PHASE of a completion written at a tail. -/
def phaseOf (tail : BitVec 32) (m : Nat) : Nat := if tail.toNat / max m 1 % 2 = 0 then 1 else 0

/-- What a completion entry says. -/
structure CompEntry where
  tag : Nat
  count : Nat
  aux : Nat
  spool : Nat
  opcode : Nat
  status : Nat
  head : Nat
deriving DecidableEq, Repr

/-- The 32 bytes of a completion entry. -/
def CompEntry.bytes (e : CompEntry) (time phase : Nat) : Bytes :=
  natLE 4 e.tag ++ natLE 4 e.count ++ natLE 8 e.aux ++ natLE 8 time ++ natLE 1 e.spool ++ [0] ++ natLE 1 e.opcode ++
    natLE 1 e.status ++ natLE 2 e.head ++ [0] ++ natLE 1 phase

/-- Signal a completion spool that has entries not yet signalled. -/
def State.signalComp (p : Port) (n : Byte) (s : State) : State :=
  match s.compSpool p n with
  | none => s
  | some c =>
    match c.msix with
    | none => s
    | some v =>
      if c.unsignalled = 0 then s else (s.mapComp p n fun c => { c with unsignalled := 0 }).msix p v

/-- Write an entry at a completion spool's tail and signal it. -/
def State.pushComp (p : Port) (n : Byte) (e : CompEntry) (s : State) : State :=
  match s.compSpool p n with
  | none => s
  | some c =>
    let at_ := c.base + c.tail.toNat % max c.entries 1 * 32
    let b := e.bytes s.stamp (phaseOf c.tail c.entries)
    let s := if c.hostMemory then { s with hostMem := s.hostMem.write at_ b } else s.devWrite at_ b
    let s := s.mapComp p n fun c =>
      { c with tail := c.tail + 1, processed := c.processed + 1, unsignalled := c.unsignalled + 1,
               firstUnsignalled := if c.unsignalled = 0 then s.now else c.firstUnsignalled }
    if c.coalesceTime = 0 || c.coalesceCount ≤ c.unsignalled + 1 then s.signalComp p n else s

/-- Complete an entry of a submission spool: release its reservation and write the completion. -/
def State.complete (p : Port) (n : Byte) (head tag count aux opcode status : Nat) (s : State) : State :=
  match s.subSpool p n with
  | none => s
  | some x =>
    let s := (s.hostWork.mapSub p n fun x => { x with outstanding := x.outstanding - 1 }).mapComp p x.completion fun c =>
      { c with reserved := c.reserved - 1 }
    s.pushComp p x.completion ⟨tag, count, aux, n.toNat, opcode, status, head⟩

/-- Nothing of a spool is unread or outstanding. -/
def SubSpool.idle (x : SubSpool) : Bool := x.unread = 0 && x.outstanding = 0

/-! ## Status records (R337) -/

/-- A submission spool's status record. -/
def SubSpool.bytes (x : SubSpool) : Bytes :=
  padTo 64 (natLE 4 x.head.toNat ++ natLE 4 x.tail.toNat ++ natLE 1 (if x.resetting then 2 else 1) ++
    natLE 1 (if x.mutation then 2 else 1) ++ natLE 2 x.outstanding ++ natLE 4 x.ignored ++ natLE 8 x.processed ++
    natLE 4 x.resets)

/-- A completion spool's status record. -/
def CompSpool.bytes (c : CompSpool) : Bytes :=
  padTo 64 (natLE 4 c.tail.toNat ++ natLE 4 c.head.toNat ++ [1, 3] ++ natLE 2 c.reserved ++ natLE 4 c.ignored ++
    natLE 8 c.processed ++ zeros 4)

/-- The status record of an absent spool. -/
def absentSpool : Bytes := zeros 64

end Sys2Proof.Machine
end

