-- ==== Sys2Proof/Machine/Fabric.lean ====
section
/-!
DEFINITION. The fabric below the fleet search: link use, routes (R299, R300), sending with credit and replay
(R296, R298), issuing requests and completing them (R303, R307), the 8-byte operations (R302, R305), and the host
request slots (R308).
-/

namespace Sys2Proof.Machine

/-! ## Numbers, links and routes -/

/-- P8000.01. -/
def State.devNum (s : State) : Nat := s.num 0x800001

/-- Assigned (R299). -/
def State.numbered (s : State) : Bool := s.devNum ≠ 0xFFFF

/-- The half of a link (R14: links 0 to 15 west). -/
def linkHalf (n : Nat) : Nat := n / 16

/-- A link's switch index: P80mm with mm = 0x10 + n (R290). -/
def linkIndex (n : Nat) : Nat := 0x8010 + n

/-- A link carries frames. A link that a loop-back trains is OFF and carries none of the device's own (R429). -/
def State.linkUp (s : State) (n : Nat) : Bool :=
  s.linkPresent n && (s.link n).st == .up && !bit s.units.transport.toNat (linkHalf n) && (s.sw (linkIndex n)).st != .off

/-- A link takes new requests: it is UP and not being turned OFF (R290). -/
def State.linkTakes (s : State) (n : Nat) : Bool := s.linkUp n && (s.sw (linkIndex n)).st == .on

/-- The partner's device number, from its capability word (R291). -/
def partnerNum (w : BitVec 64) : Nat := w.toNat / 2 ^ 51 % 4096

/-- A link's partner. -/
def Link.partnerDev (l : Link) : Option Nat := l.partner.map partnerNum

/-- Entry D of the route table: link indices in priority order (R300); 0xFF for none. -/
def State.routeEntry (s : State) (d : Nat) : List Nat :=
  match s.blob 0x810001 with
  | none => []
  | some b => ((List.range 4).map fun i => field b (4 * d + i) 1).filter (· ≠ 0xFF)

/-- The link a frame for device D leaves on (R300), among the links that `ok` allows. -/
def State.routeBy (s : State) (ok : Nat → Bool) (d : Nat) : Option Nat :=
  match (s.routeEntry d).find? fun n => n < 32 && ok n && !(s.link n).fenced with
  | some n => some n
  | none => (List.range 32).find? fun n => ok n && (s.link n).partnerDev == some d

/-- The route of a request. -/
def State.route (s : State) (d : Nat) : Option Nat := s.routeBy s.linkTakes d

/-- The route of a response: a link that is being turned OFF still carries it (R290). -/
def State.routeBack (s : State) (d : Nat) : Option Nat := s.routeBy s.linkUp d

/-! ## Frames as bytes (R296, R297, R321) -/

/-- Codes of frame_type (R297). -/
def FrameKind.code : FrameKind → Nat
  | .request => 1 | .response => 2 | .control => 3 | .beacon => 4

/-- A frame_type by its code. -/
def kindOf (c : Nat) : Option FrameKind :=
  if c = 1 then some .request else if c = 2 then some .response else if c = 3 then some .control else if c = 4 then some .beacon else none

/-- The 32 bytes of a header (R297). -/
def Frame.header (f : Frame) : Bytes :=
  natLE 1 f.kind.code ++ natLE 1 f.op.toNat ++ natLE 2 f.flags.toNat ++ natLE 2 f.dest.toNat ++ natLE 2 f.src.toNat ++
    natLE 1 f.hopsLeft.toNat ++ natLE 1 f.status.toNat ++ natLE 2 f.payload.length ++ natLE 4 f.tag.toNat ++
    natLE 8 f.address.toNat ++ natLE 8 f.operand.toNat

/-- Key updates of a direction. -/
def Link.epoch (l : Link) (out : Bool) : Nat := if out then l.keyEpoch else l.keyEpochIn

/-- The key of a direction: 256 bits of it, below the salt. -/
def Link.key (l : Link) (out : Bool) : BitVec 256 := (Config.linkKey l.secret (l.epoch out) out).truncate 256

/-- The nonce of a frame: the salt of its direction and its 64-bit counter (R321). -/
def Link.nonce (l : Link) (out : Bool) (counter : Nat) : BitVec 96 :=
  (Config.linkKey l.secret (l.epoch out) out).extractLsb' 256 32 ++ BitVec.ofNat 64 counter

/-- The trailer: the link sequence, and the CRC-32C over the header and the payload as they are sent (R297; log entry 28). -/
def trailer (q : BitVec 32) (header body : Bytes) : Bytes := natLE 4 q.toNat ++ natLE 4 (crc32c (header ++ body)).toNat

/-- The bytes of the next frame that leaves on a link: on an encrypted one the payload is encrypted, and a tag over the header and the
trailer follows (R297, R321). -/
def Link.wireOf (l : Link) (f : Frame) : Bytes :=
  if l.encrypted then
    let body := Config.gcmSeal (l.key true) (l.nonce true l.frameCounter) f.payload
    let t := trailer l.seqOut f.header body
    f.header ++ body ++ t ++ natLE 16 (Config.gcmTag (l.key true) (l.nonce true l.frameCounter) (f.header ++ t) body).toNat
  else f.header ++ f.payload ++ trailer l.seqOut f.header f.payload

/-- The payload bytes of a frame that has arrived. -/
def wireBody (w : Bytes) : Bytes := sub w 32 (field w 0xA 2)

/-- A frame that has arrived is whole: it has its length, and its CRC is right (R296). -/
def Link.whole (l : Link) (w : Bytes) : Bool :=
  w.length = 40 + field w 0xA 2 + (if l.encrypted then 16 else 0) &&
    field w (36 + field w 0xA 2) 4 = (crc32c (w.take 32 ++ wireBody w)).toNat

/-- The link sequence of a frame that has arrived. -/
def wireSeq (w : Bytes) : BitVec 32 := BitVec.ofNat 32 (field w (32 + field w 0xA 2) 4)

/-- Its tag is right; a frame of a link that is not encrypted has none (R321). -/
def Link.tagOk (l : Link) (w : Bytes) : Bool :=
  !l.encrypted || field w (40 + field w 0xA 2) 16 =
    (Config.gcmTag (l.key false) (l.nonce false l.counterIn) (w.take 32 ++ sub w (32 + field w 0xA 2) 8) (wireBody w)).toNat

/-- The frame that has arrived, its payload decrypted; none where its frame_type is reserved. -/
def Link.frameOf (l : Link) (w : Bytes) : Option Frame :=
  (kindOf (field w 0 1)).map fun k =>
    { kind := k, op := BitVec.ofNat 8 (field w 1 1), flags := BitVec.ofNat 16 (field w 2 2), dest := BitVec.ofNat 12 (field w 4 2),
      src := BitVec.ofNat 12 (field w 6 2), hopsLeft := BitVec.ofNat 8 (field w 8 1), status := BitVec.ofNat 8 (field w 9 1),
      tag := BitVec.ofNat 32 (field w 0xC 4), address := BitVec.ofNat 64 (field w 0x10 8), operand := BitVec.ofNat 64 (field w 0x18 8),
      payload := if l.encrypted then Config.gcmOpen (l.key false) (l.nonce false l.counterIn) (wireBody w) else wireBody w }

/-- Its device numbers have 12 bits, and its payload is not too long; any other frame is malformed (R297, R303). The reserved bits
of its flags are ignored (R9). -/
def wireSound (w : Bytes) : Bool := field w 4 2 < 4096 && field w 6 2 < 4096 && field w 0xA 2 ≤ 4096

/-! ## Sending (R296, R298) -/

/-- Virtual channel of a frame: requests, responses, and link control together with beacons (R298). -/
def Frame.vc (f : Frame) : Nat :=
  match f.kind with
  | .request => 0
  | .response => 1
  | .control | .beacon => 2

/-- The replay buffer has room for a frame: its header, payload, trailer, and the tag of an encrypted link. -/
def Link.room (l : Link) (f : Frame) : Bool :=
  (l.replay.map fun y => y.2.length).sum + (40 + f.payload.length + if l.encrypted then 16 else 0) ≤ 65536

/-- A frame leaves on a link: it takes the next sequence, is sealed, and stays in the replay buffer. -/
def State.push (n : Nat) (f : Frame) (s : State) : State :=
  let l := s.link n
  let w := l.wireOf f
  (s.setLink n { l with
    seqOut := l.seqOut + 1, replay := l.replay ++ [(l.seqOut, w)]
    frameCounter := if l.encrypted then l.frameCounter + 1 else l.frameCounter }).emit (.frame n w)

/-- A link-control frame to the partner: op, operand and payload (R297; the layout is this model's, log entry 28). -/
def State.controlFrame (s : State) (n : Nat) (op : Byte) (operand : BitVec 64) (payload : Bytes) : Frame :=
  { kind := .control, op := op, dest := BitVec.ofNat 12 ((s.link n).partnerDev.getD 0), src := BitVec.ofNat 12 s.devNum,
    hopsLeft := 1, operand := operand, payload := payload }

/-- A credit of a channel is used; with none left nothing changes. -/
def Link.useCredit (vc : Nat) (l : Link) : Link := { l with credits := l.credits.set vc (((l.credits[vc]?).getD 0) - 1) }

/-- Update the key of an encrypted link (R321): the security core sends SPDM's message at once, under the old key, and the direction
counts its frames anew, so that no nonce repeats. The partner does the same for the other direction. -/
def State.rekey (n : Nat) (s : State) : State :=
  (((s.mapLink n (Link.useCredit 2)).push n (s.controlFrame n 5 0 (Config.spdmBytes s.free))).spend).mapLink n fun l =>
    { l with frameCounter := 0, keyEpoch := l.keyEpoch + 1 }

/-- The partner has updated its key: the frames it sends from now on count anew (R321). -/
def Link.rekeyIn (l : Link) : Link := { l with counterIn := 0, keyEpochIn := l.keyEpochIn + 1 }

/-- A frame leaves on a link; before the frame counter of an encrypted link reaches 2^40 the key is updated (R321). -/
def State.send (n : Nat) (f : Frame) (s : State) : State :=
  (if (s.link n).encrypted && 2 ^ 40 ≤ (s.link n).frameCounter + 2 then s.rekey n else s).push n f

/-- A frame takes a credit of its channel and leaves. -/
def State.transmit (n : Nat) (f : Frame) (s : State) : State :=
  (s.mapLink n (Link.useCredit f.vc)).send n f

/-- A frame can leave now: its channel has credit, and the replay buffer room; link control does not wait for room. -/
def Link.canSend (l : Link) (f : Frame) : Bool := 0 < (l.credits[f.vc]?).getD 0 && (f.kind == .control || l.room f)

/-- Send the waiting frames that credit and the replay buffer allow, in order on each channel. -/
def State.drainWaiting (n : Nat) (s : State) : State :=
  let r := (s.link n).waiting.foldl (fun (a : State × List Sent × List Nat) x =>
    if !a.2.2.contains x.frame.vc && (a.1.link n).canSend x.frame then (a.1.transmit n x.frame, a.2.1, a.2.2)
    else (a.1, a.2.1 ++ [x], x.frame.vc :: a.2.2)) (s, [], [])
  r.1.mapLink n fun l => { l with waiting := r.2.1 }

/-- Send a frame on a link, or keep it waiting for credit. -/
def State.sendOn (n : Nat) (f : Frame) (s : State) : State :=
  (s.mapLink n fun l => { l with waiting := l.waiting ++ [⟨f, s.aonNs⟩] }).drainWaiting n

/-- Send link control, which takes a credit of the third channel (R298). A CREDIT frame takes none, since without it none could be
given (log entry 28). -/
def State.control (n : Nat) (op : Byte) (operand : BitVec 64) (payload : Bytes) (s : State) : State :=
  if op = 1 then s.send n (s.controlFrame n op operand payload) else s.sendOn n (s.controlFrame n op operand payload)

/-- Give back a credit of a channel. -/
def State.giveCredit (n vc : Nat) (s : State) : State := s.control n 1 (BitVec.ofNat 64 (vc + 256)) []

/-- Answer a request: the response goes back to its source, or is discarded where no route is (R300). -/
def State.respond (status : Byte) (f : Frame) (data : Bytes) (old : BitVec 64) (s : State) : State :=
  let r : Frame := { kind := .response, op := f.op, flags := 0, dest := f.src, src := BitVec.ofNat 12 s.devNum,
                     hopsLeft := BitVec.ofNat 8 (s.num 0x810002), status := status, tag := f.tag, address := f.address, operand := old,
                     payload := data }
  match s.routeBack f.src.toNat with
  | some n => s.sendOn n r
  | none => s.bump 0x810006

/-! ## Issuing requests -/

/-- Issue a request on a link. -/
def State.issueVia (n : Nat) (op : Byte) (ordered : Bool) (dest : Nat) (addr operand : BitVec 64) (payload : Bytes) (w : ReqFor)
    (length : Nat) (s : State) : State :=
  let t := s.fabric.nextTag
  let f : Frame := { kind := .request, op := op, flags := if ordered then 1 else 0, dest := BitVec.ofNat 12 dest, src := BitVec.ofNat 12 s.devNum,
                     hopsLeft := BitVec.ofNat 8 (s.num 0x810002), tag := t, address := addr, operand := operand,
                     payload := payload }
  let s := { s with fabric := { s.fabric with
    nextTag := t + 1
    outstanding := s.fabric.outstanding ++
      [({ tag := t, op := op, link := n, dest := BitVec.ofNat 12 dest, issued := s.aonNs, length := length, forWhat := w } : Req)] } }
  (s.bump 0x840002).sendOn n f

/-- Issue a request to another device; none where there is no route (R300) or no device number (R299). -/
def State.issue (op : Byte) (ordered : Bool) (dest : Nat) (addr operand : BitVec 64) (payload : Bytes) (w : ReqFor)
    (length : Nat) (s : State) : Option State :=
  if !s.numbered then none else (s.route dest).map fun n => s.issueVia n op ordered dest addr operand payload w length

/-- An outstanding request by its tag. -/
def State.request (s : State) (t : BitVec 32) : Option Req := s.fabric.outstanding.find? fun r => r.tag = t

/-- Forget an outstanding request. -/
def State.dropRequest (t : BitVec 32) (s : State) : State :=
  { s with fabric := { s.fabric with outstanding := s.fabric.outstanding.filter fun r => r.tag ≠ t } }

/-! ## Memory under operations (R301, R302, R305) -/

/-- The memory at an address is on an offline stack, package or expander. -/
def State.addrOffline (s : State) (a : Nat) : Bool :=
  match regionOf a with
  | .hbm => match s.hbmMap a with | some m => bit s.units.stack.toNat m.stack | none => false
  | .bulk => match s.bulkMap a with | some m => bit s.units.package.toNat m.pkg | none => false
  | .cxl => match s.cxlMap a with | some e => (lookDef {} s.tiers.expanders e).st ≠ 2 | none => false
  | _ => false

/-- Base of the signal words (R301). -/
def signalBase : Nat := 0x0D8001000000

/-- An address range lies in the signal words. -/
def inSignals (a n : Nat) : Bool := signalBase ≤ a && a + n ≤ signalBase + 0x8000

/-- The 8-byte word at an address. -/
def State.word (s : State) (a : Nat) : BitVec 64 := BitVec.ofNat 64 (leNat (s.mem.read a 8))

/-- Write an 8-byte word. -/
def State.setWord (a : Nat) (v : BitVec 64) (s : State) : State := s.devWrite a (natLE 8 v.toNat)

/-- Operation codes of R302. -/
def opPut : Byte := 1
/-- GET. -/
def opGet : Byte := 2
/-- ADD64. -/
def opAdd : Byte := 3
/-- CAS64. -/
def opCas : Byte := 4
/-- SWAP64. -/
def opSwap : Byte := 5
/-- MERGE. -/
def opMerge : Byte := 6
/-- FENCE. -/
def opFence : Byte := 7
/-- SIGNAL. -/
def opSignal : Byte := 8

/-- The new value an 8-byte operation writes over `old` (R302). -/
def newWord (op : Byte) (old operand new : BitVec 64) : BitVec 64 :=
  if op = opAdd || op = opSignal then old + operand
  else if op = opCas then (if old = operand then new else old)
  else operand

/-- Perform an 8-byte operation and give the old value. -/
def State.wordOp (op : Byte) (a : Nat) (operand new : BitVec 64) (s : State) : State × BitVec 64 :=
  let old := s.word a
  let v := newWord op old operand new
  (if v = old then s else s.setWord a v, old)

/-- The request's own size and alignment keep R302: it lies inside one 4 KiB block. -/
def shapeOk (op : Byte) (a len payload : Nat) : Bool :=
  if op = opPut then 1 ≤ payload && payload ≤ 4096 && a % 4096 + payload ≤ 4096
  else if op = opGet then 1 ≤ len && len ≤ 4096 && a % 4096 + len ≤ 4096
  else if op = opCas then a % 8 = 0 && payload = 8
  else if op = opAdd || op = opSwap || op = opSignal then a % 8 = 0
  else if op = opMerge then a % 4096 + payload ≤ 4096
  else true

/-! ## The REMOTE loop-back (R429, R430) -/

/-- The link that a REMOTE loop-back works on. -/
def State.probeLink (s : State) : Option Nat :=
  match s.test.loop with
  | some t => if s.num 0xD10002 = 1 && s.num 0xD10004 = 5 && !t.waiting then some (s.num 0xD10003) else none
  | none => none

/-- Send the next GET of signal word 0 to the partner, on the link under test. -/
def State.probe (s : State) : State :=
  match s.probeLink with
  | some n =>
    match (s.link n).partnerDev with
    | some d => if s.linkUp n then s.issueVia n opGet false d (BitVec.ofNat 64 signalBase) 8 [] .probe 8 else s
    | none => s
  | none => s

/-- Bits of two payloads of 8 bytes that differ. -/
def wrongBits (b e : Bytes) : Nat := (List.range 64).countP fun i => bit (field b 0 8) i != bit (field e 0 8) i

/-- The payload a response is compared with: that of the first response of the run (log entry 33). -/
def TestState.expect (b : Bytes) (t : TestState) : TestState :=
  { t with loop := t.loop.map fun r => { r with expected := some (r.expected.getD b) } }

/-- Bits in error of a response: all 64 where the request did not complete with OK or its payload is not the 8 bytes asked for, else
those in which it differs from what is expected (R430). -/
def State.probeErrors (s : State) (r : Option Bytes) : Nat :=
  match r with
  | some b => if b.length = 8 then wrongBits b ((s.test.loop.bind TestRun.expected).getD b) else 64
  | none => 64

/-- A GET of the loop-back completes: 64 bits are compared. `r` is the payload of a response that is OK. The sequence is kept: the
next GET leaves when the one before it has completed, and a response completes the request of its tag only. -/
def State.probed (r : Option Bytes) (s : State) : State :=
  if s.probeLink.isNone then s
  else
    let e := s.probeErrors r
    let s := s.bumpBy 0xD10007 64
    let s := if e = 0 then s else (s.bumpBy 0xD10008 e).setNum 0xD1000A (if s.num 0xD1000A = 0 then s.stamp else s.num 0xD1000A)
    let s := match r with
      | some b => if b.length = 8 then { s with test := s.test.expect b } else s
      | none => s
    s.probe

/-! ## Host request slots (R308) -/

/-- Base of slot j. -/
def slotBase (j : Nat) : Nat := 0x0D8010000000 + 128 * j

/-- The slot's port. -/
def slotPort (j : Nat) : Port := if j < 256 then .a else .b

/-- A device-local range that a host request slot may name: memory that exists, or the device control space (R255, R256). -/
def State.localOk (s : State) (a n : Nat) : Bool :=
  s.backedRange a n || (regionOf a = .cask && regionOf (a + (n - 1)) = .cask) ||
    (regionOf a = .control && regionOf (a + (n - 1)) = .control)

/-! ## The control block (R330) -/

/-- Put bytes into a 64-byte register at `off` of a block. -/
def slotRead (b : Bytes) (off n : Nat) : Bytes := sub (padTo 64 b) off n

/-- What a read of one 64-byte register of the doorbells and status records gives. -/
def State.controlReg (s : State) (p : Port) (off : Nat) : Bytes :=
  let n := BitVec.ofNat 8 (off / 64)
  if off < 0x4000 then ((s.subSpool p n).map fun x => natLE 4 x.tail.toNat).getD []
  else if off < 0x8000 then ((s.compSpool p n).map fun c => natLE 4 c.head.toNat).getD []
  else if 0x10000 ≤ off && off < 0x14000 then ((s.subSpool p n).map SubSpool.bytes).getD absentSpool
  else if 0x14000 ≤ off && off < 0x18000 then ((s.compSpool p n).map CompSpool.bytes).getD absentSpool
  else []

/-- Device-local base of a port's host request slots. -/
def slotBlock (p : Port) : Nat := slotBase (256 * Port.num p)

/-- A read of the control block inside one 64-byte register, or of the host request slots. -/
def State.controlRead (s : State) (p : Port) (off n : Nat) : Bytes :=
  if 0x20000 ≤ off then s.mem.read (slotBlock p + (off - 0x20000)) n
  else slotRead (s.controlReg p off) (off % 64) n

/-- A write of the control block: an aligned 4- or 8-byte write of a doorbell rings it; status records and the rest discard
writes. -/
def State.controlWrite (p : Port) (off : Nat) (b : Bytes) (s : State) : State :=
  let n := BitVec.ofNat 8 (off / 64)
  let rings := off % 64 = 0 && (b.length = 4 || b.length = 8)
  if 0x20000 ≤ off then s.devWrite (slotBlock p + (off - 0x20000)) b
  else if off < 0x4000 && rings then s.ringSub p n (BitVec.ofNat 32 (field b 0 4))
  else if 0x4000 ≤ off && off < 0x8000 && rings then s.ringComp p n (BitVec.ofNat 32 (field b 0 4))
  else s

/-- The doorbells and status records at their device-local addresses: the upstream port and the CONTROL offset of a range (R330). -/
def State.controlAt (s : State) (a n : Nat) : Option (Port × Nat) :=
  s.upstream.findSome? fun p =>
    let base := controlBase + 0x1000000 * Port.num p
    if base ≤ a && a + n ≤ base + 0x18000 then some (p, a - base) else none

/-- The device writes a device-local range that is memory or lies in the device control space. -/
def State.localWrite (a : Nat) (b : Bytes) (s : State) : State :=
  match s.controlAt a b.length with
  | some (p, off) => s.controlWrite p off b
  | none => s.devWrite a b

/-- What the device keeps of the request in a slot that it takes. -/
def State.takeSlot (s : State) (j : Nat) : SlotTaken :=
  let b := s.mem.read (slotBase j) 64
  { get := field b 0 1 = 2, vector := if bit (field b 1 1) 1 && field b 2 2 < 512 then some (field b 2 2) else none,
    tag := field b 4 4, dest := field b 0x10 8 }

/-- Complete the request of a slot, as it was taken: the data of a GET, bytes 0x40 to 0x7E, done last, and the message. -/
def State.finishSlot (j : Nat) (q : SlotTaken) (status : Byte) (old : BitVec 64) (data : Bytes) (s : State) : State :=
  let s := if q.get && status = 0 then (if s.localOk q.dest data.length then s.localWrite q.dest data else s.unbacked) else s
  let s := s.devWrite (slotBase j + 0x40)
    (natLE 1 status.toNat ++ zeros 3 ++ natLE 4 q.tag ++ natLE 8 old.toNat ++ natLE 8 s.stamp ++ zeros 39 ++ [1])
  match q.vector with
  | some v => s.msix (slotPort j) v
  | none => s

end Sys2Proof.Machine
end

