-- ==== Sys2Proof/Machine/Number.lean ====
section
/-!
DEFINITION. Number formats, decoding, conversion and the exact arithmetic they are defined on (R63 to R76):
dyadic numbers, ratios of them, rounding to nearest with ties away from zero, and FP32 arithmetic.
-/

namespace Sys2Proof.Machine

/-! ## Exact numbers -/

/-- The exact number m × 2^e. -/
structure Dy where
  m : Int
  e : Int
deriving DecidableEq, Repr

/-- Two to the power of the part of `k` above zero. -/
def pow2 (k : Int) : Nat := 2 ^ k.toNat

/-- Exact sum. -/
def Dy.add (a b : Dy) : Dy :=
  if a.m = 0 then b
  else if b.m = 0 then a
  else if a.e ≤ b.e then ⟨a.m + b.m * pow2 (b.e - a.e), a.e⟩
  else ⟨a.m * pow2 (a.e - b.e) + b.m, b.e⟩

/-- Negation. -/
def Dy.neg (a : Dy) : Dy := ⟨-a.m, a.e⟩

/-- Exact difference. -/
def Dy.sub (a b : Dy) : Dy := a.add b.neg

/-- Exact product. -/
def Dy.mul (a b : Dy) : Dy := ⟨a.m * b.m, a.e + b.e⟩

/-- Times 2^k. -/
def Dy.scale (k : Int) (a : Dy) : Dy := ⟨a.m, a.e + k⟩

/-- Magnitude. -/
def Dy.abs (a : Dy) : Dy := ⟨a.m.natAbs, a.e⟩

/-- Strict order. -/
def Dy.lt (a b : Dy) : Bool := (a.sub b).m < 0

/-- Order. -/
def Dy.le (a b : Dy) : Bool := !b.lt a

/-- Equality as numbers. -/
def Dy.eq (a b : Dy) : Bool := (a.sub b).m = 0

/-- An integer. -/
def Dy.ofInt (n : Int) : Dy := ⟨n, 0⟩

/-- The exact sum of a list. -/
def Dy.sum (l : List Dy) : Dy := l.foldl Dy.add ⟨0, 0⟩

/-- A non-negative ratio n/d × 2^e with a sign; d is positive. -/
structure Ratio where
  neg : Bool
  n : Nat
  d : Nat
  e : Int
deriving DecidableEq, Repr

/-- A dyadic as a ratio. -/
def Ratio.ofDy (a : Dy) : Ratio := ⟨a.m < 0, a.m.natAbs, 1, a.e⟩

/-- The quotient of two dyadics, the divisor not zero. -/
def Ratio.div (a b : Dy) : Ratio := ⟨(a.m < 0) != (b.m < 0), a.m.natAbs, b.m.natAbs, a.e - b.e⟩

/-- The magnitude in units of 2^p, rounded to the nearest integer with ties away from zero (R69). -/
def Ratio.units (r : Ratio) (p : Int) : Nat :=
  let n := r.n * pow2 (r.e - p)
  let d := r.d * pow2 (p - r.e)
  (2 * n + d) / (2 * d)

/-- The exponent of the leading bit of a non-zero magnitude: the k with 2^k ≤ |r| < 2^(k+1). -/
def Ratio.top (r : Ratio) : Int :=
  let k : Int := (r.n.log2 : Int) - (r.d.log2 : Int)
  if r.n * pow2 (-k) < r.d * pow2 k then k - 1 + r.e else k + r.e

/-! ## Formats (R63) -/

/-- The fifteen element formats. -/
inductive Fmt where
  | b1 | int4 | bg4 | e2m1 | e3m2 | e2m3 | int8 | uint8 | e4m3 | e5m2 | int16 | fp16 | bf16 | fp32 | int32
deriving DecidableEq, Repr

/-- Bits of an element. -/
def Fmt.bits : Fmt → Nat
  | .b1 => 1 | .int4 | .bg4 | .e2m1 => 4 | .e3m2 | .e2m3 => 6
  | .int8 | .uint8 | .e4m3 | .e5m2 => 8 | .int16 | .fp16 | .bf16 => 16 | .fp32 | .int32 => 32

/-- Mantissa bits and exponent bias of a floating-point format. -/
def Fmt.float : Fmt → Option (Nat × Int)
  | .e2m1 => some (1, 1) | .e3m2 => some (2, 3) | .e2m3 => some (3, 1) | .e4m3 => some (3, 7)
  | .e5m2 => some (2, 15) | .fp16 => some (10, 15) | .bf16 => some (7, 127) | .fp32 => some (23, 127)
  | _ => none

/-- Formats that have infinities. -/
def Fmt.hasInf : Fmt → Bool
  | .e5m2 | .fp16 | .bf16 | .fp32 => true
  | _ => false

/-- Formats that have NaN codes. -/
def Fmt.hasNan : Fmt → Bool
  | .e4m3 => true
  | f => f.hasInf

/-- Least and largest value of an integer format. -/
def Fmt.intRange : Fmt → Option (Int × Int)
  | .int4 => some (-8, 7) | .int8 => some (-128, 127) | .uint8 => some (0, 255)
  | .int16 => some (-32768, 32767) | .int32 => some (-2147483648, 2147483647)
  | _ => none

/-- A decoded value. A zero keeps its sign. -/
inductive Num where
  | fin (neg : Bool) (v : Dy)
  | inf (neg : Bool)
  | nan (neg : Bool)
deriving DecidableEq, Repr

/-- The sign bit. -/
def Num.sign : Num → Bool
  | .fin s _ | .inf s | .nan s => s

/-- The exact value of a finite number, zero otherwise. -/
def Num.val : Num → Dy
  | .fin _ v => v
  | _ => ⟨0, 0⟩

/-- Neither NaN nor infinite. -/
def Num.finite : Num → Bool
  | .fin _ _ => true
  | _ => false

/-- A finite number, with the sign of a non-zero value. -/
def Num.ofDy (v : Dy) : Num := .fin (v.m < 0) v

/-- BG4 magnitudes in 64ths (R65). -/
def bg4Levels : List Nat := [3, 9, 16, 23, 31, 40, 51, 64]

/-- BG4 thresholds in 128ths (R65): the midpoint above each index. -/
def bg4Thresholds : List Nat := [12, 25, 39, 54, 71, 91, 115]

/-- Decode a floating-point code (R64). -/
def decodeFloat (f : Fmt) (mb : Nat) (bias : Int) (c : Nat) : Num :=
  let s := bit c (f.bits - 1)
  let m := c % 2 ^ mb
  let e := c / 2 ^ mb % 2 ^ (f.bits - 1 - mb)
  let top := 2 ^ (f.bits - 1 - mb) - 1
  if f.hasInf && e = top then (if m = 0 then .inf s else .nan s)
  else if f = .e4m3 && e = top && m = 7 then .nan s
  else
    let v : Nat := if e = 0 then m else 2 ^ mb + m
    let x : Int := if e = 0 then 1 - bias - mb else e - bias - mb
    .fin s ⟨if s then -(v : Int) else v, x⟩

/-- The value of a code of a format (R63 to R66). -/
def decodeNum (f : Fmt) (c : Nat) : Num :=
  match f.float with
  | some (mb, bias) => decodeFloat f mb bias c
  | none =>
    match f with
    | .b1 => Num.ofDy ⟨if bit c 0 then -1 else 1, 0⟩
    | .bg4 => let v : Int := (bg4Levels[c % 8]?).getD 0
              .fin (bit c 3) ⟨if bit c 3 then -v else v, -6⟩
    | .uint8 => Num.ofDy ⟨(c % 256 : Nat), 0⟩
    | _ => Num.ofDy ⟨signed f.bits c, 0⟩

/-! ## Conversion (R69 to R76) -/

/-- What a conversion counts. -/
inductive ConvMark where
  | plain | sat | nanZero | under | nanPassed
deriving DecidableEq, Repr

/-- Canonical NaN with a sign (R73). -/
def canonicalNan (f : Fmt) (neg : Bool) : Nat :=
  (match f with
    | .e4m3 => 0x7F | .e5m2 => 0x7E | .fp16 => 0x7E00 | .bf16 => 0x7FC0 | .fp32 => 0x7FC00000 | _ => 0) +
    bitIf (neg && f.hasNan) (f.bits - 1)

/-- Infinity with a sign, for a format that has one. -/
def infinityCode (f : Fmt) (neg : Bool) : Nat :=
  match f.float with
  | some (mb, _) => (2 ^ (f.bits - 1 - mb) - 1) * 2 ^ mb + bitIf neg (f.bits - 1)
  | none => 0

/-- The largest finite value with a sign (R71). -/
def largestFinite (f : Fmt) (neg : Bool) : Nat :=
  match f with
  | .b1 => if neg then 1 else 0
  | .bg4 => if neg then 0xF else 0x7
  | .uint8 => if neg then 0 else 255
  | .int4 | .int8 | .int16 | .int32 => if neg then 2 ^ (f.bits - 1) else 2 ^ (f.bits - 1) - 1
  | .e4m3 => 0x7E + bitIf neg 7
  | .e2m1 | .e3m2 | .e2m3 => 2 ^ (f.bits - 1) - 1 + bitIf neg (f.bits - 1)
  | _ => infinityCode f false - 1 + bitIf neg (f.bits - 1)

/-- The exact magnitude of the largest finite value. -/
def maxMagnitude (f : Fmt) : Dy := (decodeNum f (largestFinite f false)).val

/-- The code of a floating-point magnitude r × 2^p that the format represents. -/
def encodeFloat (f : Fmt) (mb : Nat) (bias : Int) (neg : Bool) (r : Nat) (p : Int) : Nat :=
  let lo : Int := 1 - bias - mb
  -- bring the magnitude to a multiple of 2^lo or to mb + 1 significant bits
  let k : Int := (r.log2 : Int) + p
  let e : Int := max (k + bias) 0
  let q : Int := if e ≤ 0 then lo else k - mb
  let m : Nat := if q ≤ p then r * pow2 (p - q) else r / pow2 (q - p)
  bitIf neg (f.bits - 1) + (if e ≤ 0 then m else e.toNat * 2 ^ mb + (m - 2 ^ mb))

/-- Round a non-zero ratio to a floating-point format with an unbounded exponent range above (R69, R71). -/
def convertFloat (f : Fmt) (mb : Nat) (bias : Int) (ovf : Bool) (r : Ratio) : Nat × ConvMark :=
  let p : Int := max (r.top - mb) (1 - bias - mb)
  let u := r.units p
  if (maxMagnitude f).lt ⟨u, p⟩ then
    (if f = .e5m2 && ovf then infinityCode f r.neg else largestFinite f r.neg, .sat)
  else if u = 0 then (bitIf r.neg (f.bits - 1), .under)
  else (encodeFloat f mb bias r.neg u p, .plain)

/-- Round a non-zero ratio to an integer format (R71). -/
def convertInt (f : Fmt) (lo hi : Int) (r : Ratio) : Nat × ConvMark :=
  let v : Int := if r.neg then -(r.units 0 : Int) else r.units 0
  if v < lo || hi < v then (largestFinite f r.neg, .sat) else (unsigned f.bits v, .plain)

/-- The BG4 index of a magnitude in 128ths times 2·d (R65: a tie takes the larger level). -/
def bg4Index (r : Ratio) : Nat :=
  let n := r.n * 128 * pow2 r.e
  let d := r.d * pow2 (-r.e)
  (bg4Thresholds.filter fun t => t * d ≤ n).length

/-- The conversion of R75. `s` is the effective scale, positive; `ovf` the option of R72. -/
def convertNum (f : Fmt) (ovf : Bool) (x : Num) (s : Dy) : Nat × ConvMark :=
  match x with
  | .nan g => if f.hasNan then (canonicalNan f g, .nanPassed) else (0, .nanZero)
  | .inf g =>
    if f = .b1 then (if g then 1 else 0, .plain)
    else if f.hasInf then (infinityCode f g, .plain)
    else (largestFinite f g, .sat)
  | .fin g v =>
    if f = .b1 then (if g then 1 else 0, .plain)
    else if v.m = 0 then (0, .plain)
    else
      let r := Ratio.div v s
      match f.float with
      | some (mb, bias) => convertFloat f mb bias ovf r
      | none =>
        match f.intRange with
        | some (lo, hi) => convertInt f lo hi r
        | none => -- BG4
          if r.d * pow2 (-r.e) < r.n * pow2 r.e then (largestFinite f r.neg, .sat)
          else (bg4Index r + bitIf r.neg 3, .plain)

/-- Scale 1. -/
def one : Dy := ⟨1, 0⟩

/-! ## Counters of a converter (R76) -/

/-- What a run of conversions counted. -/
structure ConvCount where
  sat : Nat := 0
  nanZero : Nat := 0
  under : Nat := 0
  passed : Nat := 0
deriving DecidableEq, Repr

/-- Count one mark. -/
def ConvCount.add (c : ConvCount) : ConvMark → ConvCount
  | .plain => c
  | .sat => { c with sat := c.sat + 1 }
  | .nanZero => { c with nanZero := c.nanZero + 1 }
  | .under => { c with under := c.under + 1 }
  | .nanPassed => { c with passed := c.passed + 1 }

/-- The sum of two counts. -/
def ConvCount.join (a b : ConvCount) : ConvCount :=
  ⟨a.sat + b.sat, a.nanZero + b.nanZero, a.under + b.under, a.passed + b.passed⟩

/-- Convert a list of values, and count. -/
def convertList (f : Fmt) (ovf : Bool) (s : Dy) (xs : List Num) : List Nat × ConvCount :=
  xs.foldr (fun x acc => let r := convertNum f ovf x s; (r.1 :: acc.1, acc.2.add r.2)) ([], {})

/-! ## Scales (R67, R68) -/

/-- An E8M0 code as an exponent; none for the NaN code. -/
def e8m0 (c : Nat) : Option Int := if c % 256 = 0xFF then none else some ((c % 256 : Nat) - 127)

/-- A second-level scale: a positive finite normal FP16; none where the super-block is invalid. -/
def secondLevel (c : Nat) : Option Dy :=
  let e := c / 1024 % 32
  if bit c 15 || e = 0 || e = 31 then none else some (decodeNum .fp16 c).val

/-- FP16 1.0. -/
def fp16One : Nat := 0x3C00

/-! ## FP32 arithmetic (R69 applied to the exact result) -/

/-- An FP32 pattern as a number. -/
def f32 (p : F32) : Num := decodeNum .fp32 p.toNat

/-- Round an exact value to FP32; an exact zero is +0 (R80). -/
def toF32 (x : Num) : F32 := BitVec.ofNat 32 (convertNum .fp32 false x one).1

/-- The pattern of an element that FP32 holds exactly: a zero keeps its sign, which B1 reads (R66). -/
def elementF32 (x : Num) : F32 :=
  match x with
  | .fin true v => if v.m = 0 then 0x80000000 else toF32 x
  | _ => toF32 x

/-- Round an exact dyadic to FP32. -/
def dyF32 (v : Dy) : F32 := toF32 (Num.ofDy v)

/-- Round a ratio to FP32; zero gives +0. -/
def ratioF32 (r : Ratio) : F32 :=
  if r.n = 0 then 0 else BitVec.ofNat 32 (convertFloat .fp32 23 127 false r).1

/-- The sum of two numbers as IEEE arithmetic defines it on NaN and infinity. -/
def Num.add : Num → Num → Num
  | .fin _ a, .fin _ b => Num.ofDy (a.add b)
  | .nan g, _ => .nan g
  | _, .nan g => .nan g
  | .inf a, .inf b => if a = b then .inf a else .nan false
  | .inf a, _ => .inf a
  | _, .inf b => .inf b

/-- Negation. -/
def Num.neg : Num → Num
  | .fin g v => .fin (!g) v.neg
  | .inf g => .inf (!g)
  | .nan g => .nan (!g)

/-- The product. -/
def Num.mul : Num → Num → Num
  | .nan g, _ => .nan g
  | _, .nan g => .nan g
  | .fin g a, .fin h b => .fin (g != h) (a.mul b)
  | .inf g, .fin h b => if b.m = 0 then .nan false else .inf (g != h)
  | .fin g a, .inf h => if a.m = 0 then .nan false else .inf (g != h)
  | .inf g, .inf h => .inf (g != h)

/-- FP32 sum. -/
def f32Add (a b : F32) : F32 := toF32 ((f32 a).add (f32 b))

/-- FP32 product. -/
def f32Mul (a b : F32) : F32 := toF32 ((f32 a).mul (f32 b))

/-- FP32 quotient of finite values, the divisor not zero. -/
def f32Div (a b : F32) : F32 := ratioF32 (Ratio.div (f32 a).val (f32 b).val)

/-- A NaN pattern. -/
def f32Nan (p : F32) : Bool := match f32 p with | .nan _ => true | _ => false

/-- The total order distances are compared in (R186): by value, −0 equal to +0, infinities at the ends; neither
argument is NaN. -/
def f32Lt (a b : F32) : Bool :=
  match f32 a, f32 b with
  | .fin _ x, .fin _ y => x.lt y
  | .inf g, .fin _ _ => g
  | .fin _ _, .inf g => !g
  | .inf g, .inf h => g && !h
  | _, _ => false

/-- Equal values. -/
def f32Eq (a b : F32) : Bool := !f32Lt a b && !f32Lt b a && !f32Nan a && !f32Nan b

/-- The FP32 of an integer. -/
def f32OfNat (n : Nat) : F32 := dyF32 ⟨n, 0⟩

/-- Floor of the square root. -/
def isqrtAux : Nat → Nat → Nat → Nat
  | 0, _, r => r
  | k + 1, n, r => isqrtAux k n (if (r + 2 ^ k) * (r + 2 ^ k) ≤ n then r + 2 ^ k else r)

/-- Floor of the square root. -/
def isqrt (n : Nat) : Nat := isqrtAux (n.log2 / 2 + 1) n 0

/-- The square root of a non-negative dyadic, rounded to FP32 (R69). The root is carried to 64 bits and a sticky
bit, which decides every rounding since no FP32 midpoint is a square root of a dyadic unless exactly. -/
def sqrtF32 (v : Dy) : F32 :=
  if v.m ≤ 0 then 0
  else
    let n := v.m.natAbs
    let e := if v.e % 2 = 0 then v.e else v.e - 1
    let n := if v.e % 2 = 0 then n else 2 * n
    let r := isqrt (n * 2 ^ 128)
    let sticky := if r * r = n * 2 ^ 128 then 0 else 1
    dyF32 ⟨(2 * r + sticky : Nat), e / 2 - 65⟩

end Sys2Proof.Machine
end

