-- ==== Sys2Proof/Machine/Kiln.lean ====
section
/-!
DEFINITION. Kiln: padding and rotation (R97 to R100), scales (R102 to R106), encoding and its error (R103 to
R109, R115), and the query lookup table (R111 to R114). Everything here is a function of its arguments; the
encode batches that use it stand in Machine/Encode.lean.
-/

namespace Sys2Proof.Machine

/-- Format codes of R93; none for the reserved code. -/
def fmtOfCode : Nat → Option Fmt
  | 0x00 => some .b1 | 0x01 => some .int4 | 0x02 => some .bg4 | 0x03 => some .e2m1 | 0x04 => some .e3m2
  | 0x05 => some .e2m3 | 0x06 => some .int8 | 0x07 => some .uint8 | 0x08 => some .e4m3 | 0x09 => some .e5m2
  | 0x0A => some .int16 | 0x0B => some .fp16 | 0x0C => some .bf16 | 0x0D => some .fp32 | 0x0E => some .int32
  | _ => none

/-- A format Kiln can write as stored codes (R93). -/
def isCodeFormat (c : Nat) : Bool := c ≤ 0x09

/-- A source format: FP32, FP16, BF16, INT8 or UINT8 (R93). -/
def isSourceFormat (c : Nat) : Bool := c = 0x0D || c = 0x0B || c = 0x0C || c = 0x06 || c = 0x07

/-- The offset mode is allowed for the code format (R93): 0 SYM, 1 BLOCK_OFFSET; B1 has no scales. -/
def offsetAllowed (fmt mode : Nat) : Bool :=
  fmt = 0 || (mode = 0 && fmt ≠ 7) || (mode = 1 && (fmt = 1 || fmt = 6 || fmt = 7))

/-- Bytes of a source element. -/
def elemBytes (c : Nat) : Nat := match fmtOfCode c with | some f => f.bits / 8 | none => 0

/-- vmax of SYM (R93). -/
def vmaxOf : Fmt → Dy
  | .int4 => ⟨7, 0⟩ | .bg4 => ⟨1, 0⟩ | .e2m1 => ⟨6, 0⟩ | .e3m2 => ⟨28, 0⟩ | .e2m3 => ⟨15, -1⟩
  | .int8 => ⟨127, 0⟩ | .e4m3 => ⟨448, 0⟩ | .e5m2 => ⟨57344, 0⟩ | _ => ⟨1, 0⟩

/-- vlo and vhi of BLOCK_OFFSET (R93). -/
def vRange : Fmt → Dy × Dy
  | .int4 => (⟨-8, 0⟩, ⟨7, 0⟩) | .int8 => (⟨-128, 0⟩, ⟨127, 0⟩) | .uint8 => (⟨0, 0⟩, ⟨255, 0⟩)
  | _ => (⟨0, 0⟩, ⟨1, 0⟩)

/-- What Kiln encodes by: source dimension, code format, block size, offset mode, rotation and its seed, the
carried table, and the dimension weights (empty for none). -/
structure EncP where
  d : Nat
  fmt : Fmt
  k : Nat
  sym : Bool
  rotate : Bool
  seed : BitVec 64
  carried : Option ScaleTable
  weights : List F32
deriving DecidableEq, Repr

/-- The smallest power of two at least `n`, from `p` upward. -/
def powerUp : Nat → Nat → Nat → Nat
  | 0, p, _ => p
  | f + 1, p, n => if n ≤ p then p else powerUp f (2 * p) n

/-- The padded dimension (R97). -/
def padDim (rotate : Bool) (d : Nat) : Nat := if rotate then powerUp 16 64 d else roundUp 64 d

/-- The padded dimension of the parameters. -/
def EncP.n (p : EncP) : Nat := padDim p.rotate p.d

/-- log2 of the gain g of R99. -/
def gainLog2 (rotate : Bool) (n : Nat) : Nat := if rotate then n.log2 % 2 else 0

/-- The rotation signs of R98: true for −1. -/
def signsFrom : Nat → BitVec 64 → List Bool
  | 0, _ => []
  | j + 1, s =>
    let s := s ^^^ (s <<< 13)
    let s := s ^^^ (s >>> 7)
    let s := s ^^^ (s <<< 17)
    s.getLsbD 63 :: signsFrom j s

/-- The Walsh–Hadamard sums of a list of 2^k integers, in natural order (R99). -/
def wht : Nat → List Int → List Int
  | 0, l => l
  | k + 1, l =>
    let a := l.take (l.length / 2)
    let b := l.drop (l.length / 2)
    wht k (List.zipWith (· + ·) a b) ++ wht k (List.zipWith (· - ·) a b)

/-- Pad a source vector with +0 to n coordinates (R97). -/
def padVec (n d : Nat) (x : List Num) : List Num :=
  let v := x.take d
  v ++ List.replicate (n - v.length) (.fin false ⟨0, 0⟩)

/-- The largest magnitude of a list of finite numbers. -/
def maxAbs (v : List Num) : Dy := v.foldl (fun m a => if m.lt a.val.abs then a.val.abs else m) ⟨0, 0⟩

/-- Rotation (R99, R100): exact fixed-point sums, each rounded once to FP32, and whether an input bit was rounded.
A vector with a non-finite element is not rotated (R105, R114). -/
def rotateVec (rotate : Bool) (seed : BitVec 64) (n : Nat) (v : List Num) : List Num × Bool :=
  if !rotate || v.any (fun a => !a.finite) then (v, false)
  else
    let m := maxAbs v
    if m.m = 0 then (List.replicate n (.fin false ⟨0, 0⟩), false)
    else
      let lg := n.log2
      let b : Int := 94 - lg - (Ratio.ofDy m).top
      let q := v.map fun a => (Ratio.ofDy a.val).units (-b)
      let inexact := (List.zip v q).any fun x => !(x.1.val.abs).eq ⟨x.2, -b⟩
      let ints := (List.zip (List.zip v q) (signsFrom n seed)).map fun x =>
        let t : Int := x.1.2
        if (x.1.1.val.m < 0) != x.2 then -t else t
      ((wht lg ints).map fun t => f32 (dyF32 ⟨t, -b - lg / 2⟩), inexact)

/-! ## Scale derivation (R102) -/

/-- Floor and ceiling of log2 of a non-zero ratio. -/
def Ratio.clog2 (r : Ratio) : Int :=
  let k := r.top - r.e
  if r.n * pow2 (-k) = r.d * pow2 k then r.top else r.top + 1

/-- The smallest FP16 at or above top / 2^p, as a code, 1.0 to 2.0 (R102). -/
def s2Code (top : Ratio) : Nat :=
  let k := top.top - top.e
  let n := 1024 * top.n * pow2 (-k)
  let d := top.d * pow2 k
  fp16One + ((n + d - 1) / d - 1024)

/-- Least and greatest of the finite elements of a block; none where there is none. -/
def blockRange (l : List Num) : Option (Dy × Dy) :=
  l.foldl (fun r a => if a.finite then
    (match r with
     | none => some (a.val, a.val)
     | some (lo, hi) => some (if a.val.lt lo then a.val else lo, if hi.lt a.val then a.val else hi))
    else r) none

/-- The ideal scale σ of a block that is not constant (R102). -/
def sigmaOf (fmt : Fmt) (sym : Bool) (lo hi : Dy) : Ratio :=
  if sym then Ratio.div (if lo.abs.lt hi.abs then hi.abs else lo.abs) (vmaxOf fmt)
  else Ratio.div (hi.sub lo) ((vRange fmt).2.sub (vRange fmt).1)

/-- Order of two ratios with positive denominators. -/
def Ratio.lt (a b : Ratio) : Bool := (Dy.mul ⟨a.n, a.e⟩ ⟨b.d, 0⟩).lt (Dy.mul ⟨b.n, b.e⟩ ⟨a.d, 0⟩)

/-- What Kiln stores of one block (R108): exponent, flags, column sum, offset. -/
structure BlockRec where
  exponent : Nat
  constant : Bool
  saturated : Bool
  columnSum : Int
  offset : F32
deriving DecidableEq, Repr

/-- The effective scale S × 2^(E−127) of R68. -/
def effScale (s2 : Nat) (e : Nat) : Dy := (decodeNum .fp16 s2).val.scale ((e : Int) - 127)

/-- The scale of one block: exponent, offset and whether it is constant (R102, R104, R105). -/
def blockScale (fmt : Fmt) (sym : Bool) (s2 : Nat) (r : Option (Dy × Dy)) : Nat × F32 × Bool :=
  match r with
  | none => (0x7F, 0, false)
  | some (lo, hi) =>
    if lo.eq hi then (0x7F, dyF32 lo, true)
    else
      let σ := sigmaOf fmt sym lo hi
      let s2v := (decodeNum .fp16 s2).val
      let q : Ratio := ⟨false, σ.n, σ.d * s2v.m.natAbs, σ.e - s2v.e⟩
      let e := (max 0 (min 254 (127 + q.clog2))).toNat
      let s := effScale s2 e
      let off := if sym then 0 else
        dyF32 (((lo.add hi).sub (s.mul ((vRange fmt).1.add (vRange fmt).2))).scale (-1))
      (e, off, false)

/-! ## Encoding -/

/-- An encoded vector. -/
structure Encoded where
  codes : List Nat
  blocks : List BlockRec
  s2 : Nat
  allConstant : Bool
  nonfinite : Bool
  saturated : Bool
  inexact : Bool
  normSq : F32
  sqErr : F32
  signal : F32
  decoded : List Num
  y : List Num
  count : ConvCount
  constants : Nat
deriving DecidableEq, Repr

/-- The flags field of a vector record (R109). -/
def Encoded.flags (e : Encoded) : Nat :=
  bitIf e.allConstant 0 + bitIf e.nonfinite 1 + bitIf e.saturated 2 + bitIf e.inexact 3

/-- The exact sum of numbers. -/
def sumNum (l : List Num) : Num := l.foldl Num.add (.fin false ⟨0, 0⟩)

/-- A weight, 1 where none is given. -/
def weightAt (w : List F32) (i : Nat) : Num := match w[i]? with | some p => f32 p | none => .fin false one

/-- Σ w_i x_i² over the first `lim` coordinates, exact, rounded once to FP32 (R109, R112). -/
def normSq (w : List F32) (lim : Nat) (x : List Num) : F32 :=
  toF32 (sumNum (((x.take lim).zipIdx).map fun a => (weightAt w a.2).mul (a.1.mul a.1)))

/-- The decoded value of a code in a block (R68, R104); a non-finite offset, which only a carried table has, propagates. -/
def decodeIn (fmt : Fmt) (s : Dy) (off : F32) (constant : Bool) (c : Nat) : Num :=
  if constant then f32 off
  else
    match decodeNum fmt c with
    | .fin _ v => (f32 off).add (Num.ofDy (s.mul v))
    | x => x

/-- What encoding one block gives: codes, record, decoded values, counts, and the FP32 partials of E and P. -/
structure BlockOut where
  codes : List Nat
  blk : BlockRec
  decoded : List Num
  count : ConvCount
  err : F32
  sig : F32
deriving DecidableEq, Repr

/-- Encode one block against its scale (R103 to R105, R115): in a CONSTANT block only a non-finite element is converted, and the
others take the zero code. `counted` says which coordinates enter E and P. -/
def encodeBlock (fmt : Fmt) (ovf : Bool) (e : Nat) (s : Dy) (off : F32) (constant : Bool) (y : List Num)
    (counted : Nat) : BlockOut :=
  let conv := y.map fun a =>
    if constant then (if a.finite then ((0, .plain) : Nat × ConvMark) else convertNum fmt ovf a s)
    else convertNum fmt ovf (if off = 0 || off = 0x80000000 then a else a.add (f32 off).neg) s
  let codes := conv.map Prod.fst
  let dec := codes.map (decodeIn fmt s off constant)
  let isInt := fmt.intRange.isSome
  let cs : Int := if isInt then (codes.map fun c => (decodeNum fmt c).val.m).sum else 0
  let cnt := conv.foldl (fun c x => c.add x.2) {}
  let pairs := ((List.zip y dec).take counted).filter fun x => x.1.finite
  let err := if constant then 0 else toF32 (sumNum (pairs.map fun x => let d := x.1.add x.2.neg; d.mul d))
  let sig := toF32 (sumNum (pairs.map fun x => x.1.mul x.1))
  ⟨codes, ⟨e, constant, cnt.sat ≠ 0, cs, off⟩, dec, cnt, err, sig⟩

/-- Blocks of a padded vector. -/
def blocksOf (k : Nat) (y : List Num) : List (List Num) := chunks k (y.length / max k 1 + 1) y

/-- Encode one source vector (R92 stages 1 to 6). DESIGN CHOICE (log entry 22): P of a B1 vector, which has no blocks to form
partials over, is summed exactly and rounded once. -/
def encodeVec (p : EncP) (ovf : Bool) (src : List Num) : Encoded :=
  let n := p.n
  let v := padVec n p.d src
  let nonf := v.any fun a => !a.finite
  let lim := if p.rotate then n else p.d
  if nonf && p.rotate then
    { codes := List.replicate n 0,
      blocks := if p.fmt = .b1 then [] else List.replicate (n / p.k) ⟨0x7F, false, false, 0, 0⟩,
      s2 := fp16One, allConstant := false, nonfinite := true, saturated := false, inexact := false, normSq := 0,
      sqErr := 0, signal := 0, decoded := List.replicate n (.fin false ⟨0, 0⟩), y := v, count := {}, constants := 0 }
  else
    let r := rotateVec p.rotate p.seed n v
    let y := r.1
    if p.fmt = .b1 then
      let conv := y.map fun a => convertNum .b1 ovf a one
      let codes := conv.map Prod.fst
      let dec := codes.map (decodeNum .b1)
      let sig := toF32 (sumNum (((y.take lim).filter Num.finite).map fun a => a.mul a))
      { codes := codes, blocks := [], s2 := fp16One, allConstant := false, nonfinite := nonf, saturated := false,
        inexact := r.2, normSq := normSq p.weights lim dec, sqErr := 0, signal := sig, decoded := dec, y := y,
        count := conv.foldl (fun c x => c.add x.2) {}, constants := 0 }
    else
      let bs := blocksOf p.k y
      let ranges := bs.map blockRange
      let sigmas := ranges.filterMap fun r => match r with
        | some (lo, hi) => if lo.eq hi then none else some (sigmaOf p.fmt p.sym lo hi)
        | none => none
      let s2 := match p.carried with
        | some t => t.s2.toNat
        | none => match sigmas with
          | [] => fp16One
          | a :: l => s2Code (l.foldl (fun m b => if m.lt b then b else m) a)
      let scales := match p.carried with
        | some t => (List.range bs.length).map fun i =>
            (((t.exponents[i]?).getD 0x7F).toNat, (t.offsets[i]?).getD 0, false)
        | none => ranges.map (blockScale p.fmt p.sym s2)
      let outs := ((List.zip bs scales).zipIdx).map fun x =>
        encodeBlock p.fmt ovf x.1.2.1 (effScale s2 x.1.2.1) x.1.2.2.1 x.1.2.2.2 x.1.1 (lim - x.2 * p.k)
      let consts := (outs.filter fun o => o.blk.constant).length
      let dec := outs.flatMap BlockOut.decoded
      { codes := outs.flatMap BlockOut.codes, blocks := outs.map BlockOut.blk, s2 := s2,
        allConstant := p.carried.isNone && consts = bs.length, nonfinite := nonf,
        saturated := outs.any fun o => o.blk.saturated, inexact := r.2, normSq := normSq p.weights lim dec,
        sqErr := outs.foldl (fun a o => f32Add a o.err) 0, signal := outs.foldl (fun a o => f32Add a o.sig) 0,
        decoded := dec, y := y, count := outs.foldl (fun c o => c.join o.count) {}, constants := consts }

/-! ## Packing and records (R107 to R109) -/

/-- Elements of w bits as a little-endian bit stream. -/
def packNat (w : Nat) : List Nat → Nat
  | [] => 0
  | c :: r => c + 2 ^ w * packNat w r

/-- The packed codes, n × w / 8 bytes (R107). -/
def packCodes (w : Nat) (codes : List Nat) : Bytes := natLE (codes.length * w / 8) (packNat w codes)

/-- Read n elements of w bits from a bit stream. -/
def unpackNat (w : Nat) : Nat → Nat → List Nat
  | 0, _ => []
  | n + 1, v => v % 2 ^ w :: unpackNat w n (v / 2 ^ w)

/-- Read n elements of w bits from packed bytes. -/
def unpackCodes (w n : Nat) (b : Bytes) : List Nat := unpackNat w n (leNat (b.take (n * w / 8)))

/-- Codes of one vector with their padding to 64 bytes (R107). -/
def codeBytes (fmt : Fmt) (e : Encoded) : Bytes := padMul 64 (packCodes fmt.bits e.codes)

/-- The 8-byte block record (R108). -/
def BlockRec.bytes (sums : Bool) (fmt : Fmt) (b : BlockRec) : Bytes :=
  natLE 1 b.exponent ++ natLE 1 (bitIf b.constant 0 + bitIf b.saturated 1) ++
    natLE 2 (if sums && (fmt = .int4 || fmt = .int8 || fmt = .uint8) then unsigned 16 b.columnSum else 0) ++
    natLE 4 b.offset.toNat

/-- The 16-byte vector record (R109). -/
def vectorRecord (e : Encoded) : Bytes :=
  natLE 2 e.s2 ++ natLE 2 e.flags ++ natLE 4 e.normSq.toNat ++ natLE 4 e.sqErr.toNat ++ zeros 4

/-- Bytes of a carried table (R106). -/
def carriedSize (p : EncP) : Nat :=
  let b := p.n / p.k
  roundUp 8 (8 + b) + (if p.sym then 0 else 4 * b)

/-- Read a carried table; none where its s2 is invalid or an exponent is 0xFF (R106). -/
def parseCarried (p : EncP) (b : Bytes) : Option ScaleTable :=
  let nb := p.n / p.k
  let s2 := field b 0 2
  let ex := sub b 8 nb
  if (secondLevel s2).isNone || ex.contains 0xFF then none
  else some ⟨BitVec.ofNat 16 s2, ex,
    if p.sym then [] else (List.range nb).map fun i => BitVec.ofNat 32 (field b (roundUp 8 (8 + nb) + 4 * i) 4)⟩

/-- The element values of source bytes in a source format. -/
def sourceVec (fmt : Nat) (d : Nat) (b : Bytes) : List Num :=
  match fmtOfCode fmt with
  | none => []
  | some f =>
    let w := f.bits / 8
    (List.range d).map fun i => decodeNum f (field b (i * w) w)

/-! ## The query lookup table (R111 to R114) -/

/-- The largest |v(c)| over the sixteen codes (R112); none for a format without a lookup table. -/
def lutVm : Fmt → Option Dy
  | .bg4 => some ⟨1, 0⟩
  | .int4 => some ⟨8, 0⟩
  | .e2m1 => some ⟨6, 0⟩
  | _ => none

/-- The exponent e of the table scale: the smallest with max |w y| × vm ≤ 32,767 × 2^e; 0 for a zero query. -/
def lutExp (vm : Dy) (wy : List Num) : Int :=
  let m := (maxAbs wy).mul vm
  if m.m = 0 then 0
  else
    let e := (Ratio.div m ⟨32767, 0⟩).top
    if m.le (Dy.scale e ⟨32767, 0⟩) then e else e + 1

/-- Table entry (i, c) as an integer: the INT16 of w_i y_i × v(c) / λ. -/
def lutEntry (fmt : Fmt) (e : Int) (wyi : Num) (c : Nat) : Int :=
  signed 16 (convertNum .int16 false (Num.ofDy (wyi.val.mul (decodeNum fmt c).val)) ⟨1, e⟩).1

/-- w_i y_i for every coordinate. -/
def weighted (w : List F32) (y : List Num) : List Num := y.zipIdx.map fun a => (weightAt w a.2).mul a.1

/-- The row sums R_b = Σ w_i y_i of the blocks, each rounded once to FP32 (R112). -/
def rowSums (k : Nat) (wy : List Num) : List F32 := (blocksOf k wy).map fun b => toF32 (sumNum b)

/-- Bytes of a lookup table, and the score-unit contexts it takes (R112, R113). -/
def lutBytes (n k : Nat) : Nat := 64 + 32 * n + 4 * (n / k)

/-- The 64-byte header of a lookup table (R112). -/
def lutHeader (p : EncP) (code : Nat) (nonfinite : Bool) (e : Int) (norm : F32) (contexts : Nat) : Bytes :=
  natLE 2 p.n ++ natLE 1 code ++ natLE 1 p.k.log2 ++ natLE 1 (gainLog2 p.rotate p.n) ++ natLE 1 (bitIf nonfinite 0) ++
    natLE 2 (unsigned 16 e) ++ natLE 4 norm.toNat ++ natLE 4 (64 + 32 * p.n) ++ natLE 2 contexts ++ zeros 46

/-- Score-unit contexts of a table (R113). DESIGN CHOICE (log entry 22): an unrotated padded dimension between the ones R113 lists
takes the contexts of the next listed one. -/
def lutContexts (n : Nat) : Nat := if n ≤ 1024 then 1 else if n ≤ 2048 then 2 else 4

end Sys2Proof.Machine
end

