-- ==== Sys2Proof/Machine/Records.lean ====
section
/-!
DEFINITION. Collection definitions, the checks of a create (R123 to R126), record layouts (R134 to R137), the
VID map (R138), compiled distance programs (R161, R162) and the capacity a collection takes (R142).
-/

namespace Sys2Proof.Machine

/-! ## Distance programs (R161, R162) -/

/-- Read the operations of a program of `n` operations. -/
def readOps (b : Bytes) : List DistOp :=
  (List.range (field b 1 1)).map fun j =>
    ⟨field b (0x10 + 8 * j) 1, field b (0x11 + 8 * j) 1, field b (0x12 + 8 * j) 1, field b (0x13 + 8 * j) 1,
     BitVec.ofNat 32 (field b (0x14 + 8 * j) 4)⟩

/-- Operations with one source. -/
def opUnary (o : Nat) : Bool := o = 0x06 || o = 0x07 || o = 0x43 || o = 0x44

/-- Class of an opcode: 0 element, 1 reduction, 2 post; none where the tables of R161 hold no such opcode. -/
def opClass (o : Nat) : Option Nat :=
  if 0x01 ≤ o && o ≤ 0x08 then some 0
  else if 0x20 ≤ o && o ≤ 0x22 then some 1
  else if 0x40 ≤ o && o ≤ 0x45 then some 2
  else none

/-- Element registers E0 to E3. -/
def isE (c : Nat) : Bool := 0x08 ≤ c && c ≤ 0x0B

/-- Scalar registers A0 to A3. -/
def isA (c : Nat) : Bool := 0x10 ≤ c && c ≤ 0x13

/-- The sources a class allows. -/
def srcAllowed (cls c : Nat) : Bool :=
  if cls = 0 then c = 0 || c = 1 || c = 2 || c = 0x1F || isE c
  else if cls = 1 then isE c
  else isA c || c = 0x18 || c = 0x19 || c = 0x1F

/-- Check the operations in order: the class reached, the registers written (R162). -/
def opsOk (flags : Nat) : List DistOp → Nat → List Nat → Bool
  | [], _, w => w.contains 0x10
  | o :: r, stage, w =>
    match opClass o.opcode with
    | none => false
    | some c =>
      let one := opUnary o.opcode || c = 1
      let used := if one then [o.srcA] else [o.srcA, o.srcB]
      stage ≤ c && (if c = 0 then isE o.dst else isA o.dst) && (!one || o.srcB = 0) &&
        used.all (fun x => srcAllowed c x && (!(isE x || isA x) || w.contains x) &&
          (x ≠ 2 || bit flags 0) && (x ≠ 0x19 || bit flags 1)) &&
        opsOk flags r c (o.dst :: w)

/-- A program that is not malformed; reserved bits are ignored (R9). -/
def programOk (b : Bytes) : Bool :=
  let n := field b 1 1
  field b 0 1 = 1 && 1 ≤ n && n ≤ 16 && 16 + 8 * n ≤ b.length &&
    (readOps b).any (fun o => opClass o.opcode == some 1) && opsOk (field b 2 1) (readOps b) 0 []

/-! ## The definition (R123, R124) -/

/-- One attribute descriptor. -/
def readAttr (b : Bytes) (i : Nat) : AttrField :=
  ⟨field b (0x50 + 4 * i) 1, field b (0x51 + 4 * i) 1, field b (0x52 + 4 * i) 1, bit (field b (0x53 + 4 * i) 1) 0⟩

/-- Parse the 256 bytes of a definition. -/
def parseDef (b : Bytes) : CollDef :=
  { handle := BitVec.ofNat 16 (field b 0 2), graph := field b 2 1 = 0, distance := field b 3 1, dim := field b 4 2,
    codeFormat := field b 6 1, codeHeaded := field b 7 1 = 1, blockLog2 := field b 8 1, offsetMode := field b 9 1,
    rotation := field b 0xA 1 = 1, degree := field b 0xB 1,
    rerankFormat := if field b 0xC 1 = 0xFF then none else some (field b 0xC 1),
    rerankHeaded := field b 0xD 1 = 1, codeTier := field b 0xE 1, rerankTier := field b 0xF 1,
    attrTier := field b 0x10 1, vidTier := field b 0x11 1, entryPoints := field b 0x12 1,
    attrFields := field b 0x13 1, tenant := BitVec.ofNat 16 (field b 0x14 2),
    stackMask := BitVec.ofNat 16 (field b 0x16 2), packageMask := BitVec.ofNat 32 (field b 0x18 4),
    maxVectors := field b 0x1C 4, seed := BitVec.ofNat 64 (field b 0x20 8), codeTable := field b 0x28 8,
    rerankTable := field b 0x30 8, weights := field b 0x38 8, program := field b 0x40 8,
    schema := (List.range (min 16 (field b 0x13 1))).map (readAttr b), raw := b }

/-- The size an attribute type fixes; none for BITSET and the unused type. -/
def attrSize : Nat → Option Nat
  | 1 => some 1 | 2 => some 2 | 3 => some 4 | 4 => some 8 | 5 => some 4 | 6 => some 4 | _ => none

/-- One descriptor keeps R124. -/
def attrOk (f : AttrField) : Bool :=
  f.type ≤ 7 &&
    (match attrSize f.type with
     | some w => f.width = w && (f.type = 1 || f.offset % w = 0)
     | none => f.type ≠ 7 || (1 ≤ f.width && f.width ≤ 32)) &&
    (f.type = 0 || f.offset + f.width ≤ 32)

/-- Two used fields do not overlap. -/
def attrApart (f g : AttrField) : Bool := f.type = 0 || g.type = 0 || !overlaps f.offset f.width g.offset g.width

/-- Every pair of a list. -/
def pairwiseB {α : Type} (p : α → α → Bool) : List α → Bool
  | [] => true
  | a :: r => r.all (p a) && pairwiseB p r

/-- A tier code. -/
def tierOk (t : Nat) : Bool := t ≤ 2 || t = 0xFF

/-- The fields lie in the ranges of R123 and R124 (cause FIELD_RANGE); the program is checked by its bytes. -/
def defRangeOk (d : CollDef) (prog : Bytes) : Bool :=
  let b := d.raw
  b.length = 256 && field b 0 2 ≤ 0xFFFE && field b 2 1 ≤ 1 && (d.distance ≤ 5 || d.distance = 0x80) &&
    1 ≤ d.dim && d.dim ≤ 4096 && isCodeFormat d.codeFormat && field b 7 1 ≤ 1 &&
    ((d.codeFormat = 0 && d.rerankFormat.isNone) || (4 ≤ d.blockLog2 && d.blockLog2 ≤ 6)) &&
    d.offsetMode ≤ 1 && (d.codeFormat = 0 || offsetAllowed d.codeFormat d.offsetMode) &&
    field b 0xA 1 ≤ 1 &&
    (if d.graph then (d.degree = 16 || d.degree = 32 || d.degree = 48 || d.degree = 64) else d.degree = 0) &&
    (match d.rerankFormat with | none => true | some f => 6 ≤ f && f ≤ 9) && field b 0xD 1 ≤ 1 &&
    tierOk d.codeTier && tierOk d.rerankTier && tierOk d.attrTier && tierOk d.vidTier &&
    (if d.graph then 1 ≤ d.entryPoints && d.entryPoints ≤ 8 else d.entryPoints = 0) && d.attrFields ≤ 16 &&
    1 ≤ d.maxVectors && d.maxVectors ≤ 0xFFFFFFFE && (!d.rotation || d.seed ≠ 0) &&
    (d.codeTable % 64 = 0 && d.rerankTable % 64 = 0 && d.weights % 64 = 0 && d.program % 64 = 0) &&
    (!d.codeHeaded || d.codeTable = 0) && (d.weights = 0 || d.distance = 4) && (d.program = 0 || d.distance = 0x80) &&
    ((d.rerankFormat.isSome && !d.rerankHeaded) || d.rerankTable = 0) &&
    zeroAt b 0x48 8 && zeroAt b 0x90 112 && zeroAt b (0x50 + 4 * d.attrFields) (64 - 4 * d.attrFields) &&
    ((List.range (min 16 d.attrFields)).all fun i => field b (0x53 + 4 * i) 1 ≤ 1) && d.schema.all attrOk && pairwiseB attrApart d.schema && (d.program = 0 || programOk prog)

/-- What Kiln encodes search codes by; carried scales and weights are the collection's. -/
def codeParams (d : CollDef) (carried : Option ScaleTable) (w : List F32) : EncP :=
  { d := d.dim, fmt := (fmtOfCode d.codeFormat).getD .b1, k := 2 ^ d.blockLog2, sym := d.offsetMode = 0,
    rotate := d.rotation, seed := d.seed, carried := carried, weights := w }

/-- The offset mode of rerank copies (R123): SYM for the FP8 formats, BLOCK_OFFSET for UINT8, else offset_mode. -/
def rerankSym (d : CollDef) : Bool :=
  match d.rerankFormat with
  | some 7 => false
  | some 6 => d.offsetMode = 0
  | _ => true

/-- What Kiln encodes rerank copies by. -/
def rerankParams (d : CollDef) (carried : Option ScaleTable) (w : List F32) : EncP :=
  { d := d.dim, fmt := (fmtOfCode (d.rerankFormat.getD 6)).getD .int8, k := 2 ^ d.blockLog2, sym := rerankSym d,
    rotate := d.rotation, seed := d.seed, carried := carried, weights := w }

/-- Parameters of a live collection's search codes. -/
def Coll.codeP (c : Coll) : EncP := codeParams c.d c.codeScales c.weights

/-- Parameters of a live collection's rerank copies. -/
def Coll.rerankP (c : Coll) : EncP := rerankParams c.d c.rerankScales c.weights

/-! ## Record layouts (R135) -/

/-- Offset of the offsets array, and of the codes, in a HEADED record (R135). -/
def headedA (p : EncP) : Nat := let b := p.n / p.k; roundUp 4 (8 + b + (b + 7) / 8)

/-- Offset of the codes in a HEADED record. -/
def headedH (p : EncP) : Nat := roundUp 8 (headedA p + 4 * (p.n / p.k))

/-- Bytes of the codes of one vector. -/
def codeLen (p : EncP) : Nat := p.n * p.fmt.bits / 8

/-- Size of a record, a multiple of 64 bytes (R135). -/
def recordSize (p : EncP) (headed : Bool) : Nat := roundUp 64 ((if headed then headedH p else 0) + codeLen p)

/-- A mask of flags, bit b for the b-th, in whole bytes. -/
def maskBytes (l : List Bool) : Bytes :=
  natLE ((l.length + 7) / 8) (l.zipIdx.foldl (fun m x => m + bitIf x.1 x.2) 0)

/-- The stored record of an encoded vector (R135). -/
def recordBytes (p : EncP) (headed : Bool) (e : Encoded) : Bytes :=
  let codes := packCodes p.fmt.bits e.codes
  if headed then
    let h := natLE 2 e.s2 ++ natLE 2 e.flags ++ natLE 4 e.normSq.toNat ++
      e.blocks.map (fun b => BitVec.ofNat 8 b.exponent) ++ maskBytes (e.blocks.map BlockRec.constant)
    let h := padTo (headedA p) h ++ (e.blocks.map fun b => natLE 4 b.offset.toNat).flatten
    padTo (recordSize p true) (padTo (headedH p) h ++ codes)
  else padTo (recordSize p false) codes

/-- A record as read back: codes, scales of its blocks, decoded values, and the stored norm. -/
structure Stored where
  codes : List Nat
  s2 : Nat
  exps : List Nat
  consts : List Bool
  offs : List F32
  norm : F32
  vals : List Num
deriving DecidableEq, Repr

/-- The decoded value of a code of block b (R68, R104); a block or super-block whose scale is invalid decodes to
NaN (R67, R68). -/
def storedVal (fmt : Fmt) (s2 : Nat) (e : Nat) (constant : Bool) (off : F32) (c : Nat) : Num :=
  if constant then f32 off
  else if (secondLevel s2).isNone || (e8m0 e).isNone then .nan false
  else
    match f32 off with
    | .fin _ o => match decodeNum fmt c with
      | .fin _ v => Num.ofDy (o.add ((effScale s2 e).mul v))
      | x => x
    | x => x

/-- Read a record (R135, R106). -/
def readRecord (p : EncP) (headed : Bool) (b : Bytes) : Stored :=
  let nb := p.n / p.k
  if p.fmt = .b1 then
    let codes := unpackCodes 1 p.n b
    ⟨codes, fp16One, [], [], [], 0, codes.map (decodeNum .b1)⟩
  else
    let a := headedA p
    let s2 := if headed then field b 0 2 else match p.carried with | some t => t.s2.toNat | none => fp16One
    let exps := if headed then (List.range nb).map fun i => field b (8 + i) 1
      else match p.carried with | some t => t.exponents.map BitVec.toNat | none => List.replicate nb 0x7F
    let consts := if headed then bitsOf nb (field b (8 + nb) ((nb + 7) / 8)) else List.replicate nb false
    let offs := if headed then (List.range nb).map fun i => BitVec.ofNat 32 (field b (a + 4 * i) 4)
      else match p.carried with
        | some t => if t.offsets.isEmpty then List.replicate nb 0 else t.offsets
        | none => List.replicate nb 0
    let codes := unpackCodes p.fmt.bits p.n (if headed then b.drop (headedH p) else b)
    let vals := codes.zipIdx.map fun x =>
      let j := x.2 / p.k
      storedVal p.fmt s2 ((exps[j]?).getD 0x7F) ((consts[j]?).getD false) ((offs[j]?).getD 0) x.1
    ⟨codes, s2, exps, consts, offs, if headed then BitVec.ofNat 32 (field b 4 4) else 0, vals⟩

/-- The NONFINITE flag of a HEADED record. -/
def recordNonfinite (headed : Bool) (b : Bytes) : Bool := headed && bit (field b 2 2) 1

/-! ## Slots (R134, R136) -/

/-- A slot that nothing has filled: FREE. -/
def freeSlot : Slot :=
  { vid := 0, birth := 0, reuse := 0, st := .free, nonfinite := false, death := 0, code := [], nbrs := [], rerank := [],
    attrs := [], repaired := false, freeGen := none }

/-- The slot at an index. -/
def Coll.slot (c : Coll) (n : Nat) : Slot := (look c.slots n).getD freeSlot

/-- Replace a slot; the high water follows (R143). -/
def Coll.setSlot (n : Nat) (x : Slot) (c : Coll) : Coll :=
  { c with slots := put n x c.slots, highWater := if x.st = .free then c.highWater else max c.highWater (n + 1) }

/-- Slot state codes of R134. -/
def SlotState.code : SlotState → Nat
  | .free => 0 | .live => 1 | .tombstone => 2

/-- The 16-byte slot table record. -/
def Slot.tableBytes (x : Slot) : Bytes := natLE 8 x.vid.toNat ++ natLE 6 x.birth ++ natLE 2 x.reuse

/-- The 8-byte slot state record. -/
def Slot.stateBytes (x : Slot) : Bytes := natLE 2 (x.st.code + bitIf x.nonfinite 2) ++ natLE 6 x.death

/-- A neighbour list as stored: used entries, then 0xFFFF_FFFF. -/
def nbrBytes (degree : Nat) (l : List Nat) : Bytes :=
  (l.take degree).flatMap (natLE 4) ++ List.replicate (4 * (degree - l.length)) 0xFF

/-- A stored neighbour list as read: up to the first 0xFFFF_FFFF. -/
def readNbrs (degree : Nat) (b : Bytes) : List Nat :=
  ((List.range degree).map fun i => field b (4 * i) 4).takeWhile (· ≠ 0xFFFFFFFF)

/-- A slot holds a vector visible in snapshot `g` (R134). -/
def Slot.visible (g : Nat) (x : Slot) : Bool :=
  x.birth ≤ g && (x.st = .live || (x.st = .tombstone && g < x.death))

/-! ## The VID map (R138) -/

/-- log2 of the number of buckets: the smallest power of two at least max_vectors / 3. -/
def vidLog2 (d : CollDef) : Nat :=
  let rec go : Nat → Nat → Nat
    | 0, m => m
    | f + 1, m => if d.maxVectors ≤ 3 * 2 ^ m then m else go f (m + 1)
  go 32 0

/-- The bucket a VID starts at. -/
def bucketOf (m : Nat) (vid : BitVec 64) : Nat := (vid.toNat * 0x9E3779B97F4A7C15) % 2 ^ 64 / 2 ^ (64 - m)

/-- Entry positions along a VID's probe: bucket by bucket, `n` buckets. -/
def probe (m b n : Nat) : List Nat := (List.range n).flatMap fun i => (List.range 4).map fun j => 4 * ((b + i) % 2 ^ m) + j

/-- How many buckets a probe can meet before an empty entry. -/
def Coll.probeLen (c : Coll) : Nat := min (2 ^ vidLog2 c.d) (c.vidMap.length / 4 + 1)

/-- The slots of a VID, in probe order (R138). -/
def Coll.lookupVid (c : Coll) (vid : BitVec 64) : List Nat :=
  let m := vidLog2 c.d
  let es := ((probe m (bucketOf m vid) c.probeLen).map (look c.vidMap)).takeWhile fun e =>
    match e with | some x => x.slot != 0xFFFFFFFF | none => false
  es.filterMap fun e => match e with
    | some x => if x.vid = vid && x.slot != 0xFFFFFFFE then some x.slot.toNat else none
    | none => none

/-- Enter a VID's slot at the first empty or freed entry of its probe (R138). -/
def Coll.insertVid (vid : BitVec 64) (slot : Nat) (c : Coll) : Coll :=
  let m := vidLog2 c.d
  let free := (probe m (bucketOf m vid) c.probeLen).find? fun i =>
    match look c.vidMap i with | some x => x.slot = 0xFFFFFFFF || x.slot = 0xFFFFFFFE | none => true
  match free with
  | some i => { c with vidMap := put i ⟨vid, BitVec.ofNat 32 slot⟩ c.vidMap }
  | none => c

/-- Mark the entry of a freed slot (R138). -/
def Coll.removeVid (slot : Nat) (c : Coll) : Coll :=
  { c with vidMap := c.vidMap.map fun x =>
      if x.2.slot = BitVec.ofNat 32 slot then (x.1, { x.2 with slot := 0xFFFFFFFE }) else x }

/-! ## What a collection takes (R126, R142) -/

/-- The tier a tier code names on this part: DEFAULT is BULK where the bulk ring is present, else HBM. -/
def resolveTier (bulk : Bool) (t : Nat) : Nat := if t = 0xFF then (if bulk then 1 else 0) else t

/-- The parts of a collection as (tier, bytes), the header apart. -/
def partsOf (bulk : Bool) (d : CollDef) : List (Nat × Nat) :=
  let n := d.maxVectors
  let code := if d.graph && d.codeTier = 0xFF then 0 else resolveTier bulk d.codeTier
  let cp := codeParams d none []
  let rp := rerankParams d none []
  [(code, n * (24 + recordSize cp d.codeHeaded))] ++
    (if d.graph then [(0, 4 * d.degree * n)] else []) ++
    (if d.rerankFormat.isSome then [(resolveTier bulk d.rerankTier, n * recordSize rp d.rerankHeaded)] else []) ++
    (if d.attrFields = 0 then [] else [(resolveTier bulk d.attrTier, 32 * n)]) ++
    [(resolveTier bulk d.vidTier, 64 * 2 ^ vidLog2 d)]

/-- Bytes a collection needs in a tier; the 1 MiB header lies in HBM (R127). -/
def tierNeed (bulk : Bool) (d : CollDef) (t : Nat) : Nat :=
  (if t = 0 then 0x100000 else 0) + (((partsOf bulk d).filter fun p => p.1 = t).map Prod.snd).sum

/-- A mask of a definition as a list of units: 0 means every one. -/
def maskUnits (n mask : Nat) : List Nat := if mask = 0 then List.range n else bitList n mask

/-- The cause codes of R125. -/
inductive Cause where
  | none | handleLive | limit | fieldRange | combination | tierAbsent | capacity | deferPending | tenant | state
  | imageCrc | imageFormat
deriving DecidableEq, Repr

/-- Their numbers. -/
def Cause.code : Cause → Nat
  | .none => 0 | .handleLive => 1 | .limit => 2 | .fieldRange => 3 | .combination => 4 | .tierAbsent => 5
  | .capacity => 6 | .deferPending => 7 | .tenant => 8 | .state => 9 | .imageCrc => 0xA | .imageFormat => 0xB

/-- The tables a definition names, as the device reads them at the create. -/
structure DefTables where
  code : Option ScaleTable
  rerank : Option ScaleTable
  weights : List F32
  program : Bytes
deriving DecidableEq, Repr

/-- The condition COMBINATION of R125 holds. -/
def badCombination (d : CollDef) (t : DefTables) : Bool :=
  let rot := d.distance ≤ 2
  (d.rotation && !rot) ||
    (!d.codeHeaded && (d.distance = 0 || d.distance = 4 || d.distance = 0x80)) ||
    (d.codeHeaded && d.codeFormat = 0) ||
    (d.codeFormat = 0 && d.distance ≠ 5) || (d.distance = 5 && d.codeFormat ≠ 0) ||
    (!d.codeHeaded && d.codeFormat ≠ 0 && t.code.isNone) ||
    (d.rerankFormat.isSome && !d.rerankHeaded && t.rerank.isNone) ||
    (!d.codeHeaded && d.codeFormat = 0 && d.codeTable ≠ 0) ||
    (d.graph && d.codeTier ≠ 0 && d.codeTier ≠ 0xFF) ||
    (d.distance = 4 && d.weights = 0) || (d.distance = 0x80 && d.program = 0)

/-- A tier is present on this part (R126, R263). -/
def State.tierPresent (s : State) (t : Nat) : Bool :=
  if t = 0 then true
  else if t = 1 then s.chip.bulkRing && s.chip.inUse ≠ 0
  else s.chip.portBRoot && !s.expandersUp.isEmpty

/-- The condition TIER_ABSENT of R125 holds. -/
def State.badTier (s : State) (d : CollDef) : Bool :=
  (partsOf s.chip.bulkRing d).any (fun p => !s.tierPresent p.1) ||
    (d.stackMask ≠ 0 && (bitList 12 d.stackMask.toNat).all fun n => !s.stackPresent n) ||
    (d.packageMask ≠ 0 && (bitList 24 d.packageMask.toNat).all fun n => !bit s.chip.fitted.toNat n)

/-- The unit set of a collection's extents in a tier (R260, R262, R265). -/
def State.collUnits (s : State) (d : CollDef) (t : Nat) : List Nat :=
  (s.tierUnits t).filter fun n =>
    if t = 0 then d.stackMask = 0 || bit d.stackMask.toNat n
    else if t = 1 then d.packageMask = 0 || bit d.packageMask.toNat n
    else true

/-- Allocate every part of a collection; none where a tier cannot hold it. -/
def State.allocColl (d : CollDef) (s : State) : Option State :=
  [0, 1, 2].foldl (fun s t =>
    match s with
    | none => none
    | some s =>
      let need := tierNeed s.chip.bulkRing d t
      if need = 0 then some s else s.alloc d.handle.toNat t (s.collUnits d t) need) (some s)

end Sys2Proof.Machine
end

