-- ==== Sys2Proof/Machine/Filter.lean ====
section
/-!
DEFINITION. Attribute fields, filter programs (R190 to R192), histograms (R193, R194) and the selectivity
estimate (R195, R196), which is an exact fraction here.
-/

namespace Sys2Proof.Machine

/-! ## Exact fractions -/

/-- A fraction; the denominator is positive. -/
structure Frac where
  n : Int
  d : Nat
deriving DecidableEq, Repr

/-- Sum. -/
def Frac.add (a b : Frac) : Frac := ⟨a.n * b.d + b.n * a.d, a.d * b.d⟩

/-- Product. -/
def Frac.mul (a b : Frac) : Frac := ⟨a.n * b.n, a.d * b.d⟩

/-- Difference. -/
def Frac.sub (a b : Frac) : Frac := ⟨a.n * b.d - b.n * a.d, a.d * b.d⟩

/-- A fraction held to 0 … 1. -/
def Frac.clamp (a : Frac) : Frac := if a.n < 0 then ⟨0, 1⟩ else if (a.d : Int) < a.n then ⟨1, 1⟩ else a

/-- The quotient of two dyadics, the divisor positive. -/
def Frac.ofDy (a b : Dy) : Frac :=
  let e := min a.e b.e
  ⟨a.m * pow2 (a.e - e), (b.m * pow2 (b.e - e)).toNat⟩

/-! ## Field values (R124, R191) -/

/-- Bytes of a numeric type. -/
def typeBytes (t : Nat) : Nat := (attrSize t).getD 0

/-- An operand or a stored pattern in a field's type: an exact number. -/
def operand (t : Nat) (a : Nat) : Num :=
  if t = 5 then Num.ofDy ⟨signed 32 a, 0⟩
  else if t = 6 then f32 (BitVec.ofNat 32 a)
  else Num.ofDy ⟨(a % 2 ^ (8 * typeBytes t) : Nat), 0⟩

/-- The value of a numeric field of a record. -/
def fieldValue (f : AttrField) (b : Bytes) : Num := operand f.type (field b f.offset (typeBytes f.type))

/-- Bit i of a BITSET field. -/
def fieldBit (f : AttrField) (b : Bytes) (i : Nat) : Bool := bit (field b (f.offset + i / 8) 1) (i % 8)

/-- a ≤ b as numbers. -/
def Num.leB (a b : Num) : Bool :=
  match a, b with
  | .nan _, _ | _, .nan _ => false
  | .inf true, _ => true
  | _, .inf false => true
  | .inf false, _ => false
  | _, .inf true => false
  | .fin _ x, .fin _ y => x.le y

/-! ## Programs (R190 to R192) -/

/-- Read the operations of a program. -/
def readFilter (b : Bytes) : List FilterOp :=
  (List.range (field b 1 1)).map fun j =>
    ⟨field b (0x10 + 24 * j) 1, field b (0x11 + 24 * j) 1, BitVec.ofNat 64 (field b (0x18 + 24 * j) 8),
     BitVec.ofNat 64 (field b (0x20 + 24 * j) 8)⟩

/-- Length of a program by its header. -/
def filterLen (head : Bytes) : Nat := 16 + 24 * field head 1 1

/-- The stack after an operation that keeps R192; none where it does not. -/
def filterDepth (schema : List AttrField) (o : FilterOp) (depth : Nat) : Option Nat :=
  if o.opcode = 0x10 || o.opcode = 0x11 || o.opcode = 0x12 then
    let need := if o.opcode = 0x12 then 1 else 2
    if o.field = 0 && o.a = 0 && o.b = 0 && need ≤ depth then some (depth + 1 - need) else none
  else if 1 ≤ o.opcode && o.opcode ≤ 4 then
    match schema[o.field]? with
    | none => none
    | some f =>
      if (if o.opcode = 4 then f.type = 7 && o.a.toNat < 8 * f.width else (attrSize f.type).isSome) &&
          (o.opcode = 3 || o.b = 0) then some (depth + 1) else none
  else none

/-- A program that is not malformed (R192). -/
def filterOk (schema : List AttrField) (b : Bytes) : Bool :=
  let n := field b 1 1
  field b 0 1 = 1 && 1 ≤ n && n ≤ 32 && zeroAt b 2 14 && 16 + 24 * n ≤ b.length &&
    (List.range n).all (fun j => zeroAt b (0x12 + 24 * j) 6) &&
    (readFilter b).foldl (fun d o => d.bind (filterDepth schema o)) (some 0) = some 1

/-- What a field operation pushes. -/
def filterLeaf (schema : List AttrField) (o : FilterOp) (attrs : Bytes) : Bool :=
  match schema[o.field]? with
  | none => false
  | some f =>
    if o.opcode = 4 then fieldBit f attrs o.a.toNat
    else
      let v := fieldValue f attrs
      let a := operand f.type o.a.toNat
      let b := operand f.type o.b.toNat
      let eq := v.leB a && a.leB v
      if o.opcode = 1 then eq else if o.opcode = 2 then !eq else a.leB v && v.leB b

/-- Run one operation on the stack, top first (R191). -/
def filterStep (schema : List AttrField) (attrs : Bytes) (st : List Bool) (o : FilterOp) : List Bool :=
  if o.opcode = 0x12 then (match st with | x :: r => (!x) :: r | [] => [])
  else if o.opcode = 0x10 then (match st with | y :: x :: r => (x && y) :: r | r => r)
  else if o.opcode = 0x11 then (match st with | y :: x :: r => (x || y) :: r | r => r)
  else filterLeaf schema o attrs :: st

/-- An entry passes the filter; a query without a filter passes everything. -/
def passes (schema : List AttrField) (ops : List FilterOp) (attrs : Bytes) : Bool :=
  ops.isEmpty || ops.foldl (filterStep schema attrs) [] = [true]

/-! ## Histograms (R193, R194) -/

/-- A block that is all zero. -/
def emptyHist : Hist := ⟨false, 0, 0, 0, 0, 0, 0, List.replicate 256 0⟩

/-- A block in bytes. -/
def Hist.bytes (h : Hist) : Bytes :=
  natLE 1 h.field ++ natLE 1 h.type ++ natLE 2 (bitIf h.valid 0) ++ zeros 4 ++ natLE 8 h.lo.toNat ++
    natLE 8 h.hi.toNat ++ natLE 8 h.population ++ natLE 8 h.nanCount ++ zeros 24 ++ h.counters.flatMap (natLE 4)

/-- Read a block. -/
def readHist (b : Bytes) : Hist :=
  ⟨bit (field b 2 2) 0, field b 0 1, field b 1 1, BitVec.ofNat 64 (field b 8 8), BitVec.ofNat 64 (field b 0x10 8),
   field b 0x18 8, field b 0x20 8, (List.range 256).map fun i => field b (0x40 + 4 * i) 4⟩

/-- The block at a position is used (R193). -/
def histUsed (schema : List AttrField) (hists : List Hist) (i : Nat) : Option Hist :=
  match hists[i]?, schema[i]? with
  | some h, some f => if h.valid && h.field = i && h.type = f.type then some h else none
  | _, _ => none

/-- The bucket of a numeric value, clamped to [lo, hi]. -/
def bucketOfValue (h : Hist) (v : Num) : Nat :=
  let lo := operand h.type h.lo.toNat
  let hi := operand h.type h.hi.toNat
  let v := if v.leB lo then lo else if hi.leB v then hi else v
  let off := v.val.sub lo.val
  if h.type = 6 then
    let w := hi.val.sub lo.val
    if w.m ≤ 0 then 0 else
      let q := Frac.ofDy (off.scale 8) w
      min 255 (q.n.toNat / q.d)
  else
    let n := hi.val.m - lo.val.m + 1
    if n ≤ 0 then 0 else min 255 ((off.m * pow2 off.e).toNat * 256 / n.toNat)

/-- Count one record up or down; each count stops at 0 and a counter saturates. -/
def countRecord (f : AttrField) (up : Bool) (attrs : Bytes) (h : Hist) : Hist :=
  let move (n : Nat) : Nat := if up then n + 1 else n - 1
  let sat (n : Nat) : Nat := min (move n) 0xFFFFFFFF
  if h.type = 7 then
    let bits := (List.range (min 256 (8 * f.width))).filter (fieldBit f attrs)
    if bits.isEmpty then h
    else { h with counters := h.counters.zipIdx.map fun x => if bits.contains x.2 then sat x.1 else x.1
                  population := move h.population }
  else
    let v := fieldValue f attrs
    if isNanNum v then { h with nanCount := move h.nanCount }
    else
      let b := bucketOfValue h v
      { h with counters := h.counters.zipIdx.map fun x => if x.2 = b then sat x.1 else x.1, population := move h.population }
where
  /-- NaN. -/
  isNanNum : Num → Bool
    | .nan _ => true
    | _ => false

/-- The stored pattern of lo or hi. -/
def patternOf (t : Nat) (v : Num) : BitVec 64 :=
  if t = 6 then BitVec.ofNat 64 (toF32 v).toNat
  else if t = 5 then BitVec.ofNat 64 (unsigned 32 v.val.m)
  else BitVec.ofNat 64 v.val.m.toNat

/-- Build the block of one field over attribute records (R194). -/
def buildHist (i : Nat) (f : AttrField) (recs : List Bytes) : Hist :=
  if !f.histogram || f.type = 0 then emptyHist
  else
    let vals := if f.type = 7 then [] else (recs.map (fieldValue f)).filter Num.finite
    let h : Hist := match vals with
      | [] => { emptyHist with valid := true, field := i, type := f.type }
      | a :: l =>
        let lo := l.foldl (fun m x => if m.leB x then m else x) a
        let hi := l.foldl (fun m x => if m.leB x then x else m) a
        { emptyHist with valid := true, field := i, type := f.type, lo := patternOf f.type lo, hi := patternOf f.type hi }
    recs.foldl (fun h r => countRecord f true r h) h

/-- Build every block of a collection, 16 of them. -/
def buildHists (schema : List AttrField) (recs : List Bytes) : List Hist :=
  (List.range 16).map fun i => match schema[i]? with | some f => buildHist i f recs | none => emptyHist

/-- Adjust the used blocks for one attribute record (R194). -/
def adjustHists (schema : List AttrField) (up : Bool) (attrs : Bytes) (hists : List Hist) : List Hist :=
  hists.zipIdx.map fun x =>
    match histUsed schema hists x.2, schema[x.2]? with
    | some _, some f => countRecord f up attrs x.1
    | _, _ => x.1

/-! ## Selectivity (R195, R196) -/

/-- A count as a fraction of a population. -/
def share (c p : Nat) : Frac := if p = 0 then ⟨0, 1⟩ else ⟨c, p⟩

/-- The EQ estimate on a used block. -/
def estEq (h : Hist) (a : Num) : Frac :=
  let lo := operand h.type h.lo.toNat
  let hi := operand h.type h.hi.toNat
  if !(lo.leB a && a.leB hi) then ⟨0, 1⟩
  else
    let c := (h.counters[bucketOfValue h a]?).getD 0
    if h.type = 6 then (if hi.leB lo then share c h.population else share c (256 * h.population))
    else share (256 * c) (h.population * max 256 (hi.val.m - lo.val.m + 1).toNat)

/-- The part of bucket `b` of an integer field inside [x, y], counted in values from lo. -/
def overlapInt (n b : Nat) (x y : Int) : Frac :=
  let s : Int := ((b * n + 255) / 256 : Nat)
  let e : Int := (((b + 1) * n + 255) / 256 : Nat) - 1
  let o := min e y - max s x + 1
  if e < s || o ≤ 0 then ⟨0, 1⟩ else ⟨o, (e - s + 1).toNat⟩

/-- The part of bucket `b` of an F32 field inside [x, y], in lengths of 256ths of the span from lo. -/
def overlapF32 (w : Dy) (b : Nat) (x y : Dy) : Frac :=
  let s := (w.mul ⟨b, 0⟩)
  let e := (w.mul ⟨b + 1, 0⟩)
  let lo := if s.lt (x.scale 8) then x.scale 8 else s
  let hi := if (y.scale 8).lt e then y.scale 8 else e
  if lo.lt hi then Frac.ofDy (hi.sub lo) w else ⟨0, 1⟩

/-- The RANGE estimate on a used block. -/
def estRange (h : Hist) (a b : Num) : Frac :=
  let lo := operand h.type h.lo.toNat
  let hi := operand h.type h.hi.toNat
  if !(a.leB b && a.leB hi && lo.leB b) then ⟨0, 1⟩
  else if h.type = 6 && hi.leB lo then share ((h.counters[0]?).getD 0) h.population
  else
    let x := (if a.leB lo then lo else a).val.sub lo.val
    let y := (if hi.leB b then hi else b).val.sub lo.val
    let n := (hi.val.m - lo.val.m + 1).toNat
    let sum := h.counters.zipIdx.foldl (fun (s : Frac) c =>
      if c.1 = 0 then s
      else
        let o := if h.type = 6 then overlapF32 (hi.val.sub lo.val) c.2 x y else overlapInt n c.2 x.m y.m
        s.add (o.mul ⟨c.1, 1⟩)) ⟨0, 1⟩
    if h.population = 0 then ⟨0, 1⟩ else sum.mul ⟨1, h.population⟩

/-- The estimate of a field operation. -/
def estLeaf (schema : List AttrField) (hists : List Hist) (o : FilterOp) : Frac :=
  match histUsed schema hists o.field with
  | none => if o.opcode = 1 then ⟨1, 100⟩ else if o.opcode = 2 then ⟨99, 100⟩ else if o.opcode = 3 then ⟨1, 4⟩ else ⟨1, 10⟩
  | some h =>
    if h.population = 0 then ⟨0, 1⟩
    else if o.opcode = 4 then share ((h.counters[o.a.toNat]?).getD 0) h.population
    else
      let a := operand h.type o.a.toNat
      let b := operand h.type o.b.toNat
      if o.opcode = 1 then estEq h a
      else if o.opcode = 2 then Frac.sub ⟨1, 1⟩ (estEq h a)
      else estRange h a b

/-- One operation of the estimate, on a stack. -/
def estStep (schema : List AttrField) (hists : List Hist) (st : List Frac) (o : FilterOp) : List Frac :=
  if o.opcode = 0x12 then (match st with | x :: r => (Frac.sub ⟨1, 1⟩ x) :: r | [] => [])
  else if o.opcode = 0x10 then (match st with | y :: x :: r => x.mul y :: r | r => r)
  else if o.opcode = 0x11 then (match st with | y :: x :: r => ((x.add y).sub (x.mul y)) :: r | r => r)
  else (estLeaf schema hists o).clamp :: st

/-- The selectivity of a filter, 0 to 1 (R195). -/
def selectivityOf (schema : List AttrField) (hists : List Hist) (ops : List FilterOp) : Nat × Nat :=
  match ops.foldl (estStep schema hists) [] with
  | s :: _ => let c := s.clamp; (c.n.toNat, c.d)
  | [] => (1, 1)

/-- The exhaustive pass is chosen (R196): s below the threshold, or a threshold of 1. -/
def choosesPass (s : Nat × Nat) (threshold : F32) : Bool :=
  let t := (f32 threshold).val
  one.le t || (Dy.ofInt s.1).lt (t.mul ⟨s.2, 0⟩)

/-- The widened beam of R196. -/
def widenedBeam (beam cap : Nat) (s : Nat × Nat) : Nat :=
  max beam (if s.1 = 0 then cap else min ((beam * s.2 + s.1 - 1) / s.1) cap)

end Sys2Proof.Machine
end

