-- ==== Sys2Proof/Machine/Lauter.lean ====
section
/-!
DEFINITION. Lauter's order, lists and finalisation (R179 to R189), and the result header and records (R170 to
R172). Functions of their arguments only.
-/

namespace Sys2Proof.Machine

/-! ## Order (R180) -/

/-- The 32-bit key of a distance. -/
def distKey (d : F32) : Nat :=
  let d := if d = 0x80000000 then 0 else d
  if f32Nan d then 0xFFFFFFFF
  else if d.getLsbD 31 then (~~~ d).toNat
  else (d ||| 0x80000000).toNat

/-- The order of list entries: key, then VID. -/
def LEntry.before (a b : LEntry) : Bool :=
  distKey a.dist < distKey b.dist || (distKey a.dist = distKey b.dist && a.vid.toNat < b.vid.toNat)

/-- +0 for −0 (R181). -/
def plusZero (d : F32) : F32 := if d = 0x80000000 then 0 else d

/-- +inf. -/
def infF32 : F32 := 0x7F800000

/-! ## Entries in bytes (R179) -/

/-- The flags of a list entry. -/
def LEntry.flags (e : LEntry) : Nat :=
  bitIf e.returnable 0 + bitIf e.filteredOut 1 + bitIf e.rerank 2 + bitIf e.baste 3 + bitIf e.listed 4 +
    bitIf e.expanded 5

/-- The 32 bytes of a list entry. -/
def LEntry.bytes (e : LEntry) : Bytes :=
  natLE 8 e.vid.toNat ++ natLE 4 e.dist.toNat ++ natLE 2 e.flags ++ natLE 2 e.shard ++ natLE 8 e.version ++
    natLE 4 e.codeDist.toNat ++ natLE 4 e.ref

/-- Read a list entry. -/
def readEntry (b : Bytes) : LEntry :=
  let f := field b 0xC 2
  { vid := BitVec.ofNat 64 (field b 0 8), dist := BitVec.ofNat 32 (field b 8 4), returnable := bit f 0,
    filteredOut := bit f 1, rerank := bit f 2, baste := bit f 3, listed := bit f 4, expanded := bit f 5,
    shard := field b 0xE 2, version := field b 0x10 6, codeDist := BitVec.ofNat 32 (field b 0x18 4),
    ref := field b 0x1C 4 }

/-! ## Lists (R182 to R184, R188) -/

/-- List modes of R182. -/
inductive ListMode where
  | resident | spilled | long
deriving DecidableEq, Repr

/-- The mode a capacity selects. -/
def listMode (c : Nat) : ListMode := if c ≤ 256 then .resident else if c ≤ 4096 then .spilled else .long

/-- The tie counter once a full list has discarded `x`; `z` is its c-th entry then (R188). -/
def tieAfter (z : Option LEntry) (x : LEntry) (tie : Nat) : Nat :=
  if !x.returnable then tie
  else match z with
    | some z => if distKey x.dist = distKey z.dist then min (tie + 1) 255 else 0
    | none => 0

/-- Insert an entry into an ordered list of capacity `c` with its tie counter (R188). -/
def insertEntry (c : Nat) (e : LEntry) (l : List LEntry) (tie : Nat) : List LEntry × Nat :=
  let m := insertBy LEntry.before e l
  match m[c]? with
  | none => (m, tie)
  | some x => (m.take c, tieAfter (m.take c).getLast? x tie)

/-- The entry orders after the bound τ of a LONG list, its key and VID (R184). -/
def LEntry.beyond (e : LEntry) (t : Nat × Nat) : Bool := t.1 < distKey e.dist || (t.1 = distKey e.dist && t.2 < e.vid.toNat)

/-- Insert an entry into a LONG list of capacity `c` (R184): it holds up to 2c entries, its pieces in one order, and is cut to c
each time it reaches 2c, which sets τ; an entry after τ is discarded on arrival. DESIGN CHOICE (log entry 21): the entries a
consolidation discards pass the tie counter furthest first. -/
def insertLong (c : Nat) (e : LEntry) (l : List LEntry) (tau : Option (Nat × Nat)) (tie : Nat) :
    List LEntry × Option (Nat × Nat) × Nat :=
  if tau.any e.beyond then (l, tau, tieAfter l[c - 1]? e tie)
  else
    let m := insertBy LEntry.before e l
    if m.length < 2 * c then (m, tau, tie)
    else
      let z := (m.take c).getLast?
      (m.take c, z.map fun z => (distKey z.dist, z.vid.toNat), (m.drop c).foldr (tieAfter z) tie)

/-- The key of the c-th entry of a full list. -/
def lastKey (c : Nat) (l : List LEntry) : Option Nat := l[c - 1]?.map fun e => distKey e.dist

/-! ## Finalisation (R185 to R189) -/

/-- The winner of two entries with one VID (R186). -/
def winner (a b : LEntry) : LEntry :=
  if a.version ≠ b.version then (if a.version > b.version then a else b)
  else if a.rerank ≠ b.rerank then (if a.rerank then a else b)
  else if distKey a.dist ≠ distKey b.dist then (if distKey a.dist < distKey b.dist then a else b)
  else if a.shard ≠ b.shard then (if a.shard < b.shard then a else b)
  else if b.ref < a.ref then b else a

/-- An entry that takes part in de-duplication (R185). -/
def LEntry.counts (e : LEntry) : Bool := (e.returnable || e.filteredOut) && distKey e.dist != 0xFFFFFFFF

/-- Join an entry into a set with one entry per VID; the number counts the losers. -/
def joinEntry (acc : List LEntry × Nat) (e : LEntry) : List LEntry × Nat :=
  if acc.1.any fun x => x.vid = e.vid then
    (acc.1.map fun x => if x.vid = e.vid then winner x e else x, acc.2 + 1)
  else (acc.1 ++ [e], acc.2)

/-- A visible delete hides an entry (R187). -/
def hiddenBy (dels : List (BitVec 64 × Nat)) (e : LEntry) : Bool :=
  dels.any fun d => d.1 = e.vid && (if e.baste then e.version < d.2 else e.version ≤ d.2)

/-- What finalisation gives; `asked` counts the baste entries whose filter was evaluated. -/
structure Final where
  entries : List LEntry
  n : Nat
  last : Nat
  tieBeyond : Nat
  dropped : Bool
  losers : Nat
  hidden : Nat
  saturated : Bool
  asked : Nat
deriving DecidableEq, Repr

/-- How many entries after place k − 1 share its key, up to place 2k. -/
def tieRun (k : Nat) (l : List LEntry) (key : Nat) : Nat :=
  (((l.drop k).take k).takeWhile fun e => distKey e.dist = key).length

/-- The steps of R185. `fails` says which baste entries fail the filter; `ties` lists the tie counters with the keys
of their lists' c-th entries. -/
def finalEntries (parts : List (List LEntry)) (k : Nat) (ties : Bool) (dels : List (BitVec 64 × Nat))
    (fails : LEntry → Bool) (sources : List (Nat × Nat)) : Final :=
  let joined := (parts.flatten.filter LEntry.counts).foldl joinEntry ([], 0)
  let shown := joined.1.filter fun e => !hiddenBy dels e
  let hid := joined.1.length - shown.length
  let asked := (shown.filter LEntry.baste).length
  let kept := shown.filter fun e => !((e.baste && fails e) || e.filteredOut)
  let out := (sortBy LEntry.before kept).map fun e => { e with dist := plusZero e.dist, codeDist := plusZero e.codeDist }
  let n := min k out.length
  match if n = k then out[k - 1]? else none with
  | none => ⟨out, n, n, 0, kept.length < shown.length, joined.2, hid, false, asked⟩
  | some z =>
    let key := distKey z.dist
    let last := k + (if ties then tieRun k out key else 0)
    let beyond := ((out.drop last).filter fun e => distKey e.dist = key).length +
      ((sources.filter fun s => s.1 = key).map Prod.snd).sum
    ⟨out, n, last, min beyond 255, kept.length < shown.length, joined.2, hid, 255 < beyond, asked⟩

/-! ## Records (R171, R172) -/

/-- The flags of a result record (R176). -/
def recordFlags (e : LEntry) (tie : Bool) : Nat := bitIf e.baste 1 + bitIf e.rerank 2 + bitIf tie 3 + bitIf e.listed 4

/-- A result record; compact records are the first 16 bytes. -/
def resultRecord (extended : Bool) (tie : Bool) (e : LEntry) : Bytes :=
  let b := natLE 8 e.vid.toNat ++ natLE 4 e.dist.toNat ++ natLE 2 (recordFlags e tie) ++ natLE 2 e.shard ++
    natLE 8 e.version ++ natLE 4 e.codeDist.toNat ++ natLE 1 (if e.rerank then 1 else 0) ++ zeros 3
  if extended then b else b.take 16

/-- A pad record. -/
def padRecord (extended : Bool) : Bytes :=
  let b := natLE 8 0xFFFFFFFFFFFFFFFF ++ natLE 4 infF32.toNat ++ natLE 2 1 ++ natLE 2 0xFFFF ++ zeros 8 ++
    natLE 4 infF32.toNat ++ [0xFF] ++ zeros 3
  if extended then b else b.take 16

/-- The records of a result: valid, then pads up to k. -/
def resultRecords (extended : Bool) (k : Nat) (f : Final) : Bytes :=
  ((f.entries.take f.last).zipIdx.flatMap fun x => resultRecord extended (k ≤ x.2) x.1) ++
    (List.replicate (k - f.last) (padRecord extended)).flatten

/-- The 32-byte result header (R170). -/
def resultHeader (status recSize flags count snapshot tie missing hops completed : Nat) : Bytes :=
  natLE 1 status ++ natLE 1 recSize ++ natLE 2 flags ++ natLE 4 count ++ natLE 8 (snapshot % 2 ^ 48) ++
    natLE 1 (min tie 255) ++ [0] ++ natLE 2 missing ++ natLE 4 hops ++ natLE 8 completed

end Sys2Proof.Machine
end

