-- ==== Sys2Proof/Machine/Operands.lean ====
section
/-!
DEFINITION. The operand forms: the structures that entries and commands carry, parsed from their bytes (R94, R145,
R200, R201, R244 to R247, R314, R344), and what is range-checked of each before it has any effect.
-/

namespace Sys2Proof.Machine

/-! ## Query entries (R144, R145) -/

/-- The opcodes of R144. -/
def isQueryOpcode (o : Nat) : Bool := 1 ≤ o && o ≤ 4

/-- A flag of a query entry. -/
def QueryDesc.flag (d : QueryDesc) (n : Nat) : Bool := bit d.flags.toNat n

/-- The entry is GRAPH_SEARCH or HYBRID. -/
def QueryDesc.graph (d : QueryDesc) : Bool := d.opcode = 1 || d.opcode = 4

/-- The entry carries a vector. -/
def QueryDesc.hasVector (d : QueryDesc) : Bool := d.opcode ≠ 3

/-- The entry is a fleet query: GET_BY_VID, whose answers are no list entries, does not use FLEET (log entry 21). -/
def QueryDesc.fleet (d : QueryDesc) : Bool := d.flag 6 && d.opcode ≠ 3

/-- The entry carries a filter. -/
def QueryDesc.filtered (d : QueryDesc) : Bool := d.hasVector && d.filter ≠ 0

/-- The entry carries a VID list. -/
def QueryDesc.hasList (d : QueryDesc) : Bool := d.opcode = 3 || d.opcode = 4

/-- The reserved fields of a query entry are zero (R145). -/
def queryReservedOk (b : Bytes) : Bool :=
  let f := field b 1 1
  let vec := field b 0 1 ≠ 3
  !bit f 7 && zeroAt b 0x1E 2 && zeroAt b 0x49 1 && (!vec || bit f 0 || zeroAt b 0x58 40)

/-- Parse a query entry. -/
def parseQuery (b : Bytes) : QueryDesc :=
  { opcode := field b 0 1, flags := BitVec.ofNat 8 (field b 1 1), coll := BitVec.ofNat 16 (field b 2 2),
    tag := BitVec.ofNat 32 (field b 4 4), deadline := field b 8 8, k := field b 0x10 4, beam := field b 0x14 2,
    maxHops := field b 0x16 2, rerankDepth := field b 0x18 2, prefetch := field b 0x1A 1, format := field b 0x1B 1,
    dim := field b 0x1C 2, dest := field b 0x20 8, capacity := field b 0x28 4, listCount := field b 0x2C 4,
    filter := field b 0x30 8, vidList := field b 0x38 8, mergeWindow := BitVec.ofNat 64 (field b 0x40 8),
    mergeGrid := field b 0x48 1, shards := field b 0x4A 2, queryId := BitVec.ofNat 32 (field b 0x4C 4),
    inline := sub b 0x50 48, raw := b, reservedOk := queryReservedOk b }

/-- Address of the vector where INLINE is clear. -/
def QueryDesc.vecAddr (d : QueryDesc) : Nat := field d.inline 0 8

/-- Bytes of the vector. -/
def QueryDesc.vecBytes (d : QueryDesc) : Nat := d.dim * elemBytes d.format

/-- Bytes of a result record (R170). -/
def QueryDesc.recordSize (d : QueryDesc) : Nat := if d.opcode = 3 then 64 else if d.flag 1 then 32 else 16

/-- Record slots the operation needs (R147). -/
def QueryDesc.slotsNeeded (d : QueryDesc) : Nat :=
  if d.opcode = 3 then d.listCount else if d.flag 2 then 2 * d.k else d.k

/-- An address is 64-byte aligned and not zero. -/
def addrOk (a : Nat) : Bool := a ≠ 0 && a % 64 = 0

/-- Addresses an entry names that the operation reads, with their lengths; `filterBytes` is the program's length. -/
def QueryDesc.reads (d : QueryDesc) (filterBytes : Nat) : List (Nat × Nat) :=
  (if d.hasVector && !d.flag 0 then [(d.vecAddr, d.vecBytes)] else []) ++
    (if d.opcode = 4 || (d.opcode = 3 && !d.flag 0) then [(d.vidList, 8 * d.listCount)] else []) ++
    (if d.hasVector && d.filter ≠ 0 then [(d.filter, filterBytes)] else [])

/-- The result area of an entry. -/
def QueryDesc.resultArea (d : QueryDesc) : Nat × Nat := (d.dest, 32 + d.capacity * d.recordSize)

/-- The ranges of R145 and R147 that need only the entry and the collection; `expert` is P5000.05, `peer` a shard's
own entry, whose result area is ignored. -/
def QueryDesc.rangesOk (d : QueryDesc) (c : CollDef) (expert peer : Bool) : Bool :=
  d.reservedOk && (c.graph || !d.graph) &&
    (!d.hasVector || (1 ≤ d.k && d.k ≤ 16777216 && (d.rerankDepth ≤ 4096 || d.rerankDepth = 0xFFFF))) &&
    (!d.graph || d.prefetch ≤ 8 || d.prefetch = 0xFF) &&
    (!d.hasVector || (isSourceFormat d.format && d.dim = c.dim)) &&
    (!d.hasVector || !d.flag 0 || d.vecBytes ≤ 48) &&
    (!d.hasList || (1 ≤ d.listCount && d.listCount ≤ (if d.opcode = 3 && d.flag 0 then 6 else 4096))) &&
    (!d.fleet || (1 ≤ d.shards && d.shards ≤ 4096)) &&
    ((!d.flag 2 && !d.flag 3) || expert) &&
    (!d.flag 5 || c.rerankFormat.isSome) &&
    (!(d.opcode = 2 && d.flag 5 && (c.distance = 0 || c.distance = 4)) || c.rerankHeaded) &&
    (peer || d.slotsNeeded ≤ d.capacity)

/-! ## Encode entries (R94) -/

/-- An encode entry; the references it makes are resolved by R95 (Machine/Encode.lean). -/
structure EncodeEntry where
  flags : Nat
  coll : Nat
  tag : Nat
  source : Nat
  codeDest : Nat
  blockDest : Nat
  vectorDest : Nat
  count : Nat
  dim : Nat
  stride : Nat
  sourceFormat : Nat
  codeFormat : Nat
  blockLog2 : Nat
  offsetMode : Nat
  scaleSource : Nat
  rotation : Nat
  seed : Nat
  table : Nat
  weights : Nat
  statsDest : Nat
  dimStatsDest : Nat
deriving DecidableEq, Repr

/-- Parse an encode entry. -/
def parseEncode (b : Bytes) : EncodeEntry :=
  { flags := field b 1 1, coll := field b 2 2, tag := field b 4 4, source := field b 8 8, codeDest := field b 0x10 8,
    blockDest := field b 0x18 8, vectorDest := field b 0x20 8, count := field b 0x28 4, dim := field b 0x2C 2,
    stride := field b 0x30 4, sourceFormat := field b 0x34 1, codeFormat := field b 0x35 1, blockLog2 := field b 0x36 1,
    offsetMode := field b 0x37 1, scaleSource := field b 0x38 1, rotation := field b 0x39 1, seed := field b 0x40 8,
    table := field b 0x48 8, weights := field b 0x50 8, statsDest := field b 0x58 8, dimStatsDest := field b 0x60 8 }

/-- COLUMN_SUMS, DIM_STATS and STATS_ONLY: bits 0, 1 and 2. -/
def EncodeEntry.flag (e : EncodeEntry) (n : Nat) : Bool := bit e.flags n

/-- The ranges of R94 and R95 that hold whatever the collection. -/
def EncodeEntry.rangesOk (e : EncodeEntry) : Bool :=
  1 ≤ e.count && e.count ≤ 16777216 && 1 ≤ e.dim && e.dim ≤ 4096 && isSourceFormat e.sourceFormat &&
    e.dim * elemBytes e.sourceFormat ≤ e.stride

/-- The fields that a collection replaces keep R94 and R95. -/
def EncodeEntry.ownOk (e : EncodeEntry) : Bool :=
  isCodeFormat e.codeFormat && (e.codeFormat = 0 || (4 ≤ e.blockLog2 && e.blockLog2 ≤ 6)) && e.offsetMode ≤ 1 &&
    offsetAllowed e.codeFormat e.offsetMode && e.scaleSource ≤ 1 && e.rotation ≤ 1 &&
    (e.rotation = 0 || (e.seed ≠ 0 && e.weights = 0)) && (e.scaleSource = 0 || e.table ≠ 0)

/-! ## Mutation entries and records (R200, R201) -/

/-- A mutation spool entry. -/
structure MutEntry where
  opcode : Nat
  flags : Nat
  coll : Nat
  tag : Nat
  address : Nat
  count : Nat
  length : Nat
  mode : Nat
  position : Nat
  capacity : Nat
deriving DecidableEq, Repr

/-- Parse a mutation spool entry. -/
def parseMutEntry (b : Bytes) : MutEntry :=
  { opcode := field b 0 1, flags := field b 1 1, coll := field b 2 2, tag := field b 4 4, address := field b 8 8,
    count := field b 0x10 4, length := field b 0x14 4, mode := field b 0x18 1, position := field b 0x20 8,
    capacity := field b 0x28 8 }

/-- Bytes of a record by its kind, dimension and element size (R201). -/
def mutRecordLen (kind fmt dim : Nat) : Nat := if kind = 2 then 32 else 64 + roundUp 32 (dim * elemBytes fmt)

/-- Parse a mutation record from its bytes. -/
def parseMutRecord (b : Bytes) : MutRecord :=
  let kind := field b 0 1
  let fmt := field b 1 1
  let dim := field b 2 2
  let v := dim * elemBytes fmt
  { kind := kind, format := fmt, dim := dim, vid := BitVec.ofNat 64 (field b 8 8),
    vec := if kind = 2 then [] else sub b 0x20 v,
    attrs := if kind = 2 then [] else sub b (0x20 + roundUp 32 v) 32, raw := b }

/-- A record keeps R201 for a collection of dimension `d`: its own fields, its reserved field and its length. -/
def MutRecord.ok (r : MutRecord) (d : Nat) : Bool :=
  let b := r.raw
  (r.kind = 1 || r.kind = 2 || r.kind = 3) && zeroAt b 0x18 8 && field b 4 4 = mutRecordLen r.kind r.format r.dim &&
    r.vid ≠ BitVec.allOnes 64 &&
    (if r.kind = 2 then r.format = 0 && r.dim = 0 else isSourceFormat r.format && r.dim = d)

/-! ## Recipes (R244, R246, R247) -/

/-- Parse a run descriptor. -/
def parseRun (p : Port) (b : Bytes) : RunDesc :=
  { port := p, recipe := field b 0 8, statusDest := field b 8 8, tag := BitVec.ofNat 32 (field b 0x10 4),
    msix := BitVec.ofNat 16 (field b 0x14 2), clusters := BitVec.ofNat 8 (field b 0x16 1),
    stopOnFlag := bit (field b 0x17 1) 0 }

/-- The reserved fields of a run descriptor are zero. -/
def runReservedOk (b : Bytes) : Bool := field b 0x17 1 < 2 && zeroAt b 0x18 8

/-! ## Spool definitions (R344) -/

/-- The input of Create spool. -/
structure SpoolDef where
  kind : Nat
  num : Nat
  location : Nat
  weight : Nat
  entries : Nat
  base : Nat
  completion : Nat
  tenant : Nat
  msix : Nat
  coalesceCount : Nat
  coalesceTime : Nat
  reservedOk : Bool
deriving DecidableEq, Repr

/-- Parse the input of Create spool. -/
def parseSpool (b : Bytes) : SpoolDef :=
  { kind := field b 0 1, num := field b 1 1, location := field b 2 1, weight := field b 3 1, entries := field b 4 4,
    base := field b 8 8, completion := field b 0x10 1, tenant := field b 0x12 2, msix := field b 0x14 2,
    coalesceCount := field b 0x16 2, coalesceTime := field b 0x18 4,
    reservedOk := zeroAt b 0x11 1 && zeroAt b 0x1C 36 }

/-- The ranges of R344 (cause FIELD), the ring's place apart. -/
def SpoolDef.rangesOk (d : SpoolDef) : Bool :=
  d.reservedOk && (d.kind = 1 || d.kind = 2 || d.kind = 3) &&
    (d.entries = 2 ^ d.entries.log2 && 16 ≤ d.entries && d.entries ≤ 65536) && d.base % 64 = 0 &&
    (if d.kind = 3 then
      d.location ≤ 1 && d.weight = 0 && d.completion = 0 && (d.msix ≤ 511 || d.msix = 0xFFFF) &&
        1 ≤ d.coalesceCount && d.coalesceCount ≤ 256 && d.coalesceTime ≤ 100000
     else d.location = 0 && 1 ≤ d.weight && d.weight ≤ 16)

/-- Bytes of the ring. -/
def SpoolDef.ringBytes (d : SpoolDef) : Nat := d.entries * (if d.kind = 3 then 32 else 128)

/-! ## Merge frames (R314) -/

/-- A merge header. -/
structure MergeHead where
  id : BitVec 32
  shard : Nat
  count : Nat
  status : Nat
  flags : Nat
  last : Bool
  late : Bool
  tieBeyond : Nat
  sequence : Nat
  expected : Nat
  total : Nat
  hops : Nat
  ok : Bool
deriving DecidableEq, Repr

/-- Parse a merge payload's header; `ok` says the payload holds exactly its entries and keeps its ranges. -/
def parseMerge (b : Bytes) : MergeHead :=
  { id := BitVec.ofNat 32 (field b 0 4), shard := field b 4 2, count := field b 6 1, status := field b 7 1,
    flags := field b 8 2, last := bit (field b 10 1) 0, late := bit (field b 10 1) 1, tieBeyond := field b 11 1,
    sequence := field b 12 2, expected := field b 0x10 8, total := field b 0x18 4, hops := field b 0x1C 4,
    ok := b.length = 32 + 32 * field b 6 1 && field b 6 1 ≤ 127 &&
      (!bit (field b 10 1) 1 || (field b 6 1 = 0 && !bit (field b 10 1) 0)) }

/-- The bytes of a merge header. -/
def MergeHead.bytes (h : MergeHead) : Bytes :=
  natLE 4 h.id.toNat ++ natLE 2 h.shard ++ natLE 1 h.count ++ natLE 1 h.status ++ natLE 2 h.flags ++
    natLE 1 (bitIf h.last 0 + bitIf h.late 1) ++ natLE 1 h.tieBeyond ++ natLE 2 h.sequence ++ [0, 0] ++
    natLE 8 h.expected ++ natLE 4 h.total ++ natLE 4 h.hops

end Sys2Proof.Machine
end

