-- ==== Sys2Proof/Machine/Shared.lean ====
section
/-!
DEFINITION. What several families share: host areas and tenant fences (R329, R424), Cask partitions (R279),
calendar arithmetic (R53, R55), units available (R34), and the baste list (R207 to R211).
-/

namespace Sys2Proof.Machine

/-! ## Host areas and tenants (R329, R424) -/

/-- Device-local base of a port's host area. -/
def State.hostBase (s : State) : Port → Nat
  | .a => s.chip.hostAreaA
  | .b => s.chip.hostAreaB

/-- Bytes of a port's host area. -/
def State.hostBytes (s : State) : Port → Nat
  | .a => gibBytes s.chip.hostGibA
  | .b => gibBytes s.chip.hostGibB

/-- `[a, a + n)` lies in `[b, b + m)`. -/
def inside (a n b m : Nat) : Bool := b ≤ a && a + n ≤ b + m

/-- A permitted tenant: its fence in MiB of the host area. -/
structure Permit where
  tenant : Nat
  ide : Bool
  base : Nat
  length : Nat
deriving DecidableEq, Repr

/-- The entry that holds a port's bindings. -/
def bindKey : Port → Nat
  | .a => 0xE02002
  | .b => 0xE02102

/-- Read one 16-byte permit. -/
def readPermit (b : Bytes) : Permit := ⟨field b 0 2, bit (field b 2 2) 0, field b 8 4, field b 12 4⟩

/-- The permits of a port; by default tenant 0 with the whole host area (R425). -/
def State.permits (s : State) (p : Port) : List Permit :=
  match s.blob (bindKey p) with
  | none => [⟨0, false, 0, s.hostBytes p / 2 ^ 20⟩]
  | some b => (chunks 16 (b.length / 16 + 1) b).map readPermit

/-- The port permits a tenant. -/
def State.permitted (s : State) (p : Port) (t : Nat) : Bool := (s.permits p).any fun x => x.tenant = t

/-- `[a, a + n)` lies in the tenant's fence on a port. -/
def State.fenceOk (s : State) (p : Port) (t a n : Nat) : Bool :=
  (s.permits p).any fun x => x.tenant = t && inside a n (s.hostBase p + x.base * 2 ^ 20) (x.length * 2 ^ 20) &&
    inside a n (s.hostBase p) (s.hostBytes p)

/-- A tenant with REQUIRE_IDE is served only while the port's IDE streams are up. -/
def State.ideOk (s : State) (p : Port) (t : Nat) : Bool :=
  (s.port p).ide || !(s.permits p).any fun x => x.tenant = t && x.ide

/-! ## Cask partitions (R279) -/

/-- The assignment of a slice after start-up (log entry 6, DESIGN CHOICE of the numbers): codes of P3210. -/
def sliceDefault (n : Nat) : Nat :=
  if n = 0 then 1
  else if n ≤ 6 || (16 ≤ n && n ≤ 21) then 2
  else if n = 7 || n = 8 || n = 22 || n = 23 then 3
  else if n = 9 || n = 24 then 4
  else if n = 10 then 5
  else if n = 25 then 6
  else 0

/-- What a slice is used for; 0xF for an offline one. -/
def State.sliceUse (s : State) (n : Nat) : Nat :=
  if bit s.units.slice.toNat n then 0xF else (look s.tiers.sliceMap n).getD (sliceDefault n)

/-- Online slices of a use, ascending. -/
def State.slicesOf (s : State) (c : Nat) : List Nat := (List.range 32).filter fun n => s.sliceUse n = c

/-- Bytes of a partition in effect. -/
def State.partition (s : State) (c : Nat) : Nat := (s.slicesOf c).length * 0x1000000

/-- Give a partition `n` slices (R279): the ones it has first, then cache slices, of which two stay; system and encode
staging prefer the west half, recipe staging the east half, and the others split equally (log entry 6). -/
def State.resize (code n : Nat) (s : State) : State :=
  let cur := s.slicesOf code
  let pool := cur ++ s.slicesOf 0
  let n := if n ≤ cur.length then n else min n (max cur.length (pool.length - 2))
  let w := pool.filter (· < 16)
  let e := pool.filter (16 ≤ ·)
  let a := if code = 1 || code = 5 then n else if code = 6 then n - min n e.length else (n + 1) / 2
  let e := e.take (n - min a w.length)
  let chosen := w.take (n - e.length) ++ e
  { s with tiers := ({ s.tiers with
    sliceMap := pool.foldl (fun m i => put i (if chosen.contains i then code else 0) m) s.tiers.sliceMap }).dropCache chosen.contains }

/-! ## Calendar arithmetic (R55, R59) -/

/-- An entry's switch index. -/
def calIndex (n : Nat) : Nat := 0x2100 + n

/-- Kind of an entry. -/
def State.calKind (s : State) (n : Nat) : Nat := s.num (key (calIndex n) 2)

/-- The running state of an entry. -/
def State.calEntry (s : State) (n : Nat) : CalEntry := lookDef {} s.cal n

/-- Replace the running state of an entry. -/
def State.setCal (n : Nat) (e : CalEntry) (s : State) : State := { s with cal := putDef {} n e s.cal }

/-- The latest occurrence of a schedule at or before `t`; none before the first. -/
def occBefore (phase period t : Nat) : Option Nat :=
  if period = 0 then none
  else
    let p := phase % period
    if t < p then none else some (t - (t - p) % period)

/-- The first occurrence strictly after `t`. -/
def occAfter (phase period t : Nat) : Nat :=
  let p := phase % max period 1
  if t < p then p else t - (t - p) % max period 1 + max period 1

/-- The first occurrence at or after `t`. -/
def occFrom (phase period t : Nat) : Nat :=
  match occBefore phase period t with
  | some o => if o = t then t else occAfter phase period t
  | none => occAfter phase period t

/-- Phiug runs the calendar: it is loaded, and the control cores have power (R58, R350, R407). -/
def State.calRuns (s : State) : Bool := s.running && s.dev.phiug && s.dev.power ≤ 3 && s.timeKnown

/-- The entry fires. -/
def State.calFires (s : State) (n : Nat) : Bool := s.calRuns && s.isOn (calIndex n)

/-- A calendar entry is a MERGE_BELL in state ON (R147). -/
def State.gridOn (s : State) (n : Nat) : Bool := n < 128 && s.calKind n = 2 && s.isOn (calIndex n)

/-- Settings of an entry. -/
def State.calPhase (s : State) (n : Nat) : Nat := s.num (key (calIndex n) 3)
/-- Period of an entry. -/
def State.calPeriod (s : State) (n : Nat) : Nat := s.num (key (calIndex n) 4)
/-- Length of an entry. -/
def State.calLength (s : State) (n : Nat) : Nat := s.num (key (calIndex n) 5)
/-- Target of an entry. -/
def State.calTarget (s : State) (n : Nat) : Nat := s.num (key (calIndex n) 6)

/-- Take the settings in the book as the schedule in force. -/
def State.adopt (n : Nat) (e : CalEntry) (s : State) : CalEntry :=
  { e with phase := s.calPhase n, period := s.calPeriod n, length := s.calLength n, switchAfter := none }

/-- The occurrences of an entry around `t`: those of the schedule in force, and, after the time at which a new schedule takes over, those
of the new one (R56). -/
def State.lastOcc (s : State) (n t : Nat) : Option (Nat × CalEntry) :=
  let e := s.calEntry n
  match e.switchAfter with
  | none => (occBefore e.phase e.period t).map fun o => (o, e)
  | some u =>
    let new := s.adopt n e
    match occBefore new.phase new.period t with
    | some o => if u < o then some (o, new) else (occBefore e.phase e.period (min t u)).map fun o => (o, e)
    | none => (occBefore e.phase e.period (min t u)).map fun o => (o, e)

/-- The merge bell of a cutoff on a grid (R53): its latest occurrence at or before the cutoff, of a new schedule where that has taken over by
then (R56). The cutoff itself where no occurrence precedes it. -/
def State.bellBefore (s : State) (grid cutoff : Nat) : Nat := ((s.lastOcc grid cutoff).map Prod.fst).getD cutoff

/-! ## Units (R14, R34, R36) -/

/-- Units of a half for a kind with `n` of them per half. -/
def halfUnits (n : Nat) (h : Half) : List Nat := (List.range n).map fun i => (match h with | .west => i | .east => n + i)

/-- Online Needles of a half. -/
def State.needlesUp (s : State) (h : Half) : List Nat := (halfUnits 32 h).filter fun n => !bit s.units.needle.toNat n

/-- Online Lauter units of a half. -/
def State.lautersUp (s : State) (h : Half) : List Nat := (halfUnits 8 h).filter fun n => !bit s.units.lauter.toNat n

/-- Online Tun clusters of a half. -/
def State.tunsUp (s : State) (h : Half) : List Nat := (halfUnits 4 h).filter fun n => !bit s.units.tun.toNat n

/-- A Tun cluster is online. -/
def State.anyTun (s : State) : Bool := s.units.tun != 0xFF

/-- Tun is powered: PS0 and PS1 (R350). -/
def State.tunPowered (s : State) : Bool := s.dev.power ≤ 1

/-- Online Kiln units of a half. -/
def State.kilnsUp (s : State) (h : Half) : List Nat := (halfUnits 2 h).filter fun n => !bit s.units.kiln.toNat n

/-- Online score units of a half. -/
def State.scoresUp (s : State) (h : Half) : List Nat := (halfUnits 96 h).filter fun n => !bit s.units.score.toNat n

/-- A Kiln unit is online. -/
def State.anyKiln (s : State) : Bool := s.units.kiln != 0xF

/-- A score unit is online. -/
def State.anyScore (s : State) : Bool := s.units.score != BitVec.allOnes 192

/-- A control core is online. -/
def State.anyCore (s : State) : Bool := s.units.core != 0xFFFF

/-- A Needle is online. -/
def State.anyNeedle (s : State) : Bool := s.units.needle != BitVec.allOnes 64

/-- A Lauter unit is online. -/
def State.anyLauter (s : State) : Bool := s.units.lauter != 0xFFFF

/-- A unit is offline, as P1002.03 shows (R32, R36). -/
def State.anyOffline (s : State) : Bool := s.degraded ≠ 0

/-- The half of a port: Port A west, Port B east (R14). -/
def portHalf : Port → Half
  | .a => .west
  | .b => .east

/-- The half of a link. -/
def halfOfLink (n : Nat) : Half := if n < 16 then .west else .east

/-- The other half. -/
def Half.other : Half → Half
  | .west => .east
  | .east => .west

/-! ## The baste list (R207 to R211) -/

/-- Bytes an entry takes in the partition (R207). -/
def BasteEntry.size (e : BasteEntry) : Nat := 32 + e.code.length

/-- Bytes an entry takes in the payload area: the attribute record and the rerank copy, in 64-byte units. -/
def BasteEntry.payload (e : BasteEntry) : Nat := if e.insert then roundUp 64 (e.attrs.length + e.rerank.length) else 0

/-- The 32-byte header of an entry (R207). -/
def BasteEntry.header (e : BasteEntry) : Bytes :=
  natLE 8 e.vid.toNat ++ natLE 6 e.version ++ natLE 2 e.coll.toNat ++ natLE 1 (if e.insert then 1 else 2) ++
    natLE 1 (bitIf e.retired.isSome 0 + bitIf e.nonfinite 1 + bitIf e.busy 2) ++ zeros 2 ++ natLE 4 e.payloadAt ++ natLE 8 (e.retired.getD 0)

/-- The bytes of an entry in the partition: its header, and the search code record of an insert. -/
def BasteEntry.bytes (e : BasteEntry) : Bytes := e.header ++ e.code

/-- The bytes of an insert's payload record: the attribute record and the rerank copy. -/
def BasteEntry.payloadBytes (e : BasteEntry) : Bytes := padTo e.payload (e.attrs ++ e.rerank)

/-- The entry covers a byte of the partition. -/
def BasteEntry.covers (e : BasteEntry) (o : Nat) : Bool := e.place ≤ o && o < e.place + e.size

/-- A byte of the baste partition: of the entry that lies there (R207). -/
def State.basteByte (s : State) (o : Nat) : Option Byte :=
  (s.muts.baste.find? fun e => e.covers o).map fun e => (e.bytes[o - e.place]?).getD 0

/-- The lowest place for `n` bytes among ranges taken, below a limit. -/
def firstFit (taken : List (Nat × Nat)) (n limit : Nat) : Option Nat :=
  ((0 :: taken.map fun x => x.1 + x.2).filter fun b => b + n ≤ limit && taken.all fun x => !overlaps b n x.1 x.2).min?

/-- Where an entry's payload record lies in the payload area, as a range of bytes. -/
def BasteEntry.payloadRange (e : BasteEntry) : Nat × Nat := (64 * e.payloadAt, e.payload)

/-- Entries one after another, with no gap between them. -/
def packBaste : Nat → Nat → List BasteEntry → List BasteEntry
  | _, _, [] => []
  | p, q, e :: r =>
    { e with place := p, payloadAt := if e.payload = 0 then 0xFFFFFFFF else q / 64 } :: packBaste (p + e.size) (q + e.payload) r

/-- A new entry takes its place, in the lowest gap of the partition, `cap` bytes, and of the payload area, `area` bytes, that
takes it; where gaps are too small the entries move together (log entry 6). -/
def layBaste (cap area : Nat) (e : BasteEntry) (l : List BasteEntry) : List BasteEntry :=
  match firstFit (l.map fun x => (x.place, x.size)) e.size cap,
    firstFit ((l.filter fun x => x.payload ≠ 0).map BasteEntry.payloadRange) e.payload area with
  | some p, some q => l ++ [{ e with place := p, payloadAt := if e.payload = 0 then 0xFFFFFFFF else q / 64 }]
  | _, _ => packBaste 0 0 (l ++ [e])

/-- Bytes of the partition in use: P4120.06. -/
def State.basteBytes (s : State) : Nat := (s.muts.baste.map BasteEntry.size).sum

/-- Bytes of the payload area in use. -/
def State.payloadBytes (s : State) : Nat := (s.muts.baste.map BasteEntry.payload).sum

/-- Unretired baste inserts of a VID. -/
def State.pendingInserts (s : State) (h : Handle) (vid : BitVec 64) : List BasteEntry :=
  s.muts.baste.filter fun e => e.coll = h && e.vid = vid && e.insert && e.retired.isNone

/-- Change the baste list. -/
def State.mapBaste (f : List BasteEntry → List BasteEntry) (s : State) : State :=
  { s with muts := { s.muts with baste := f s.muts.baste } }

/-- Snapshots in flight: queries, and SAVE entries (R228). -/
def State.snapshots (s : State) : List Nat :=
  s.search.queries.map Query.snapshot ++ s.muts.jobs.filterMap fun j => match j.work with
    | .save w => some w.snapshot
    | _ => none

/-- Arrivals of the queries, and SAVE entries, in flight. -/
def State.arrivals (s : State) : List Nat :=
  s.search.queries.map Query.arrival ++ s.muts.jobs.filterMap fun j => match j.work with
    | .save _ => some j.arrival
    | _ => none

/-- The payload area takes `gib` GiB of the bulk ring, or of HBM where that is absent or unused (R207). -/
def State.placePayload (gib : Nat) (s : State) : Option State :=
  let s := s.release ownerPayload
  let tier := if s.chip.bulkRing && !s.packagesUp.isEmpty then 1 else 0
  s.alloc ownerPayload tier (s.tierUnits tier) (gibBytes gib)

/-- Bytes of the payload area in effect. -/
def State.payloadArea (s : State) : Nat := s.heldBytes ownerPayload 0 + s.heldBytes ownerPayload 1

/-- The device-local address of a byte of the payload area: its extents one after another. -/
def State.payloadAddr (s : State) (o : Nat) : Option Nat :=
  (s.tiers.extents.filter fun e => e.owner = ownerPayload).foldl (fun (a : Nat × Option Nat) e =>
    (a.1 + e.size, if a.2.isNone && a.1 ≤ o && o < a.1 + e.size then some (e.base + (o - a.1)) else a.2)) (0, none) |>.2

/-- The slice that a byte of a partition lies on, of the slices the partition has. -/
def sliceAt (l : List Nat) (o : Nat) : Option Nat := l[o / 0x1000000]?

/-- A byte of a Cask slice as the device's own units find it: an entry of the baste list, or what memory holds. -/
def State.caskByte (s : State) (slice o : Nat) : Option Byte :=
  if s.sliceUse slice = 2 then some ((((s.slicesOf 2).idxOf? slice).bind fun i => s.basteByte (i * 0x1000000 + o)).getD 0) else none

/-- P4120.02 and P4120.03 take effect when the baste list is empty (R229). -/
def State.applyBaste (s : State) : State :=
  if !s.muts.baste.isEmpty then s
  else
    let s := if s.partition 2 = s.num 0x412002 * 2 ^ 20 then s else s.resize 2 (s.num 0x412002 / 16)
    if s.payloadArea = gibBytes (s.num 0x412003) then s else (s.placePayload (s.num 0x412003)).getD s

/-- Remove the retired entries that no query in flight holds (R209). -/
def State.trimBaste (s : State) : State :=
  let as_ := s.arrivals
  let keep (e : BasteEntry) : Bool := match e.retired with
    | none => true
    | some t => as_.any fun a => a ≤ t
  if s.muts.baste.all keep then s else (s.mapBaste fun l => l.filter keep).applyBaste

/-- An entry of the list is scanned for a query (R165): visible in its snapshot, and not retired before the
query arrived. -/
def BasteEntry.scanned (h : Handle) (snapshot arrival : Nat) (e : BasteEntry) : Bool :=
  e.coll = h && e.version ≤ snapshot && (match e.retired with | none => true | some t => if e.insert then arrival < t else arrival ≤ t)

/-- Baste deletes visible to a query, as VID and version (R187). -/
def State.basteDeletes (s : State) (h : Handle) (snapshot arrival : Nat) : List (BitVec 64 × Nat) :=
  (s.muts.baste.filter fun e => !e.insert && e.scanned h snapshot arrival).map fun e => (e.vid, e.version)

/-- Baste inserts a scan scores for a query: visible ones without NONFINITE (R203). -/
def State.basteInserts (s : State) (h : Handle) (snapshot arrival : Nat) : List BasteEntry :=
  s.muts.baste.filter fun e => e.insert && !e.nonfinite && e.scanned h snapshot arrival

/-- The collection a handle and tenant name; none where it is absent, deleting or another tenant's (R128, R149). -/
def State.collFor (s : State) (h : Handle) (tenant : Nat) : Option Coll :=
  match s.coll h with
  | some c => if c.st = .deleting || c.d.tenant.toNat ≠ tenant then none else some c
  | none => none

end Sys2Proof.Machine
end

