-- ==== Sys2Proof/Machine/Flags.lean ====
section
/-!
DEFINITION. The status of a query and its header flags (R174 to R176, R189, R197), and the counters of scores and
Tun tiles (R87, R88).
-/

namespace Sys2Proof.Machine

/-! ## Statuses (R174) -/

/-- OK. -/
def stOk : Nat := 0x00
/-- OK_PARTIAL_FILTER. -/
def stPartialFilter : Nat := 0x01
/-- OK_FEWER. -/
def stFewer : Nat := 0x02
/-- DEADLINE_PARTIAL. -/
def stDeadline : Nat := 0x03
/-- SHARD_MISSING. -/
def stMissing : Nat := 0x04
/-- EXPIRED_ON_ARRIVAL. -/
def stExpired : Nat := 0x10
/-- INVALID_INPUT. -/
def stInvalid : Nat := 0x11
/-- NO_COLLECTION. -/
def stNoColl : Nat := 0x12
/-- COLLECTION_OFFLINE. -/
def stOffline : Nat := 0x13
/-- RING_RESET. -/
def stReset : Nat := 0x14
/-- DEVICE_DEGRADED. -/
def stDegraded : Nat := 0x20
/-- INTERNAL. -/
def stInternal : Nat := 0x3F

/-- The statuses for which records are written (R172). -/
def writesRecords (st : Nat) : Bool := st ≤ 0x10

/-- What a completing query's status depends on (R175). -/
structure Conds where
  ring : Bool := false
  degraded : Bool := false
  poisoned : Bool := false
  offlined : Bool := false
  missing : Bool := false
  cut : Bool := false
  partialFilter : Bool := false
  fewer : Bool := false
deriving DecidableEq, Repr

/-- The first status in the order of R175 whose condition holds. -/
def statusOf (c : Conds) : Nat :=
  if c.ring then stReset
  else if c.degraded then stDegraded
  else if c.poisoned then stInternal
  else if c.offlined then stOffline
  else if c.missing then stMissing
  else if c.cut then stDeadline
  else if c.partialFilter then stPartialFilter
  else if c.fewer then stFewer
  else stOk

/-- The conditions that end a query without records. -/
def Query.fatal (q : Query) : Bool := q.ring || q.degraded || q.poisoned || q.offlined

/-- The conditions of a query that finalised `f` (R175, R189). -/
def Query.conds (q : Query) (f : Final) : Conds :=
  { ring := q.ring, degraded := q.degraded, poisoned := q.poisoned, offlined := q.offlined, cut := q.cut,
    partialFilter := q.d.filtered && f.n < q.d.k && f.dropped, fewer := f.n < q.d.k }

/-! ## Header flags (R176, R197) -/

/-- EXHAUSTIVE and BOUNDED of a query: exactly one where it carries a filter. -/
def filterFlags (filtered exhaustive : Bool) : Nat := bitIf (filtered && exhaustive) 0 + bitIf (filtered && !exhaustive) 1

/-- The filter was evaluated on every visible slot and on every baste entry of the baste scan (R197). -/
def Query.exhaustive (q : Query) : Bool := q.passDone && q.basteRan && !q.cut && !q.fatal

/-- The header flags of a query. -/
def Query.header (q : Query) : Nat :=
  filterFlags q.d.filtered q.exhaustive + bitIf q.widened 2 + bitIf q.hopLimit 3 + bitIf q.rerankCut 4 +
    bitIf q.basteCut 5 + bitIf q.nanMapped 6 + bitIf q.nonfinite 7 + bitIf (q.spill ≠ 0 || q.long) 8 + bitIf q.powerLimited 10

/-! ## Score and tile counters (R87, R88) -/

/-- Count a distance in P5010 (R76, R88). -/
def State.countScore (m : ConvMark) (s : State) : State :=
  match m with
  | .sat => s.bumpSat 0x501001 1
  | .nanPassed | .nanZero => s.bumpSat 0x501002 1
  | .under => s.bumpSat 0x501003 1
  | .plain => s

/-- Count a list of distances. -/
def State.countScores (ms : List ConvMark) (s : State) : State := ms.foldl (fun s m => s.countScore m) s

/-- Count a finished tile: each status bit it carries in P7010.05 to P7010.0B. -/
def State.countTile (status : Nat) (s : State) : State := (bitList 7 status).foldl (fun s b => s.bump (0x701005 + b)) s

/-- Add a count of Kiln conversions to P6010. -/
def State.countKiln (c : ConvCount) (s : State) : State :=
  (((s.bumpSat 0x601001 c.sat).bumpSat 0x601002 c.nanZero).bumpSat 0x601003 c.under).bumpSat 0x601005 c.passed

/-- Add a count of Tun conversions to P7010. -/
def State.countTun (c : ConvCount) (s : State) : State :=
  ((s.bumpSat 0x701001 c.sat).bumpSat 0x701002 c.nanZero).bumpSat 0x701003 c.under

end Sys2Proof.Machine
end

