-- ==== Sys2Proof/Machine/Score.lean ====
section
/-!
DEFINITION. Distances (R158 to R163, R167): the 96-bit register of a score unit, lookup and direct mode, compiled
programs, and what a Tun scan takes of a query. Functions of their arguments only; the counters they feed are returned
beside the value. Readings the words leave to inference are in log entry 19.
-/

namespace Sys2Proof.Machine

/-- Distance codes of R123. -/
def distL2 : Nat := 0
/-- Hamming. -/
def distHam : Nat := 5
/-- Compiled program. -/
def distProg : Nat := 0x80

/-- What a query is scored with: the collection's code parameters, distance and program, the query in the rotated
domain, and its squared norm (R111, R112). -/
structure Prep where
  p : EncP
  dist : Nat
  ops : List DistOp
  y : List Num
  qn : F32
deriving DecidableEq, Repr

/-- Coordinates that a sum runs over (R160). -/
def EncP.lim (p : EncP) : Nat := if p.rotate then p.n else p.d

/-- Prepare a query vector (R111). -/
def prepare (p : EncP) (dist : Nat) (ops : List DistOp) (x : List Num) : Prep :=
  let y := (rotateVec p.rotate p.seed p.n (padVec p.n p.d x)).1
  ⟨p, dist, ops, y, normSq p.weights p.n y⟩

/-- A format and distance scored by lookup (R158). -/
def lookupMode (f : Fmt) (dist : Nat) : Bool :=
  (f = .int4 || f = .bg4 || f = .e2m1) && (dist ≤ 2 || dist = 4)

/-- A format and distance for whose queries Kiln builds a lookup table (R111): a compiled program has one too, though its distances
are scored in direct mode (R158). -/
def tableMode (f : Fmt) (dist : Nat) : Bool := (f = .int4 || f = .bg4 || f = .e2m1) && dist ≠ 3 && dist ≠ distHam

/-! ## The register (R159) -/

/-- Round a finite term to units of 2^p (R69), with its sign. -/
def unitsOf (v : Dy) (p : Int) : Int :=
  let u := (Ratio.ofDy v).units p
  if v.m < 0 then -(u : Int) else u

/-- The exact sum of terms each rounded to the register's point, which puts the bound's top bit at bit 90. -/
def regSum (bound : Dy) (terms : List Num) : Num :=
  if terms.any fun t => !t.finite then sumNum terms
  else
    let b := if bound.m = 0 then maxAbs terms else bound
    if b.m = 0 then .fin false ⟨0, 0⟩
    else
      let p := (Ratio.ofDy b.abs).top - 90
      Num.ofDy ⟨(terms.map fun t => unitsOf t.val p).sum, p⟩

/-- The largest code magnitude of a format. -/
def codeMag (f : Fmt) : Dy :=
  match f with
  | .int4 => ⟨8, 0⟩
  | .int8 => ⟨128, 0⟩
  | f => maxMagnitude f

/-- The larger of two dyadics. -/
def Dy.max (a b : Dy) : Dy := if a.lt b then b else a

/-- The effective scale of block `b` of a record; none where it is invalid (R67, R68). -/
def Stored.scale (st : Stored) (b : Nat) : Option Dy :=
  match secondLevel st.s2, e8m0 ((st.exps[b]?).getD 0x7F) with
  | some s, some e => some (s.scale e)
  | _, _ => none

/-- The bound on a record's decoded elements (R159 step 3). -/
def recordBound (p : EncP) (st : Stored) : Dy :=
  if p.fmt = .b1 then one
  else
    let sc := ((List.range st.exps.length).filterMap st.scale).foldl Dy.max ⟨0, 0⟩
    let off := (st.offs.map fun o => (f32 o).val.abs).foldl Dy.max ⟨0, 0⟩
    (sc.mul (codeMag p.fmt)).add off

/-- The bound on a term from the query's magnitude and the record's: their product for a dot product, the square
of their sum for L2, their sum for L1, and 1 for Hamming (log entry 19). -/
def termBound (dist : Nat) (a x : Dy) : Dy :=
  if dist = distHam then one
  else if dist = 0 || dist = 4 then (a.add x).mul (a.add x)
  else if dist = 3 then a.add x
  else a.mul x

/-- Division by the gain g = 2^lg, exact (R159 step 4). -/
def Num.unscale (lg : Nat) : Num → Num
  | .fin s v => .fin s (v.scale (-(lg : Int)))
  | x => x

/-- Steps 4 and 5 of R159 on a dot product. -/
def dotForm (dist lg : Nat) (qn xn : F32) (d : Num) : Num :=
  let d := d.unscale lg
  if dist = 1 then d.neg
  else if dist = 2 then (Num.ofDy one).add d.neg
  else (((f32 qn).unscale lg).add (Num.mul (Num.ofDy ⟨-2, 0⟩) d)).add ((f32 xn).unscale lg)

/-- Step 6: one rounding, with what P5010 counts. -/
def scoreRound (x : Num) : F32 × ConvMark :=
  let r := convertNum .fp32 false x one
  (BitVec.ofNat 32 r.1, r.2)

/-! ## Lookup mode -/

/-- A lookup distance (R159 step 1). -/
def lookupDistance (q : Prep) (st : Stored) : F32 × ConvMark :=
  let p := q.p
  let wy := weighted p.weights q.y
  let vm := (lutVm p.fmt).getD one
  let e := lutExp vm wy
  let rs := rowSums p.k wy
  let blocks := (blocksOf p.k wy).zip (chunks p.k (st.codes.length + 1) st.codes)
  let entryMax := (wy.map fun a => ((List.range 16).map fun c => (lutEntry p.fmt e a c).natAbs).foldl Nat.max 0).foldl
    Nat.max 0
  let terms := blocks.zipIdx.flatMap fun x =>
    match st.scale x.2 with
    | none => [Num.nan false]
    | some s =>
      let sb : Int := if (st.consts[x.2]?).getD false then 0
        else ((x.1.1.zip x.1.2).map fun y => lutEntry p.fmt e y.1 y.2).sum
      [(f32 ((st.offs[x.2]?).getD 0)).mul (f32 ((rs[x.2]?).getD 0)), Num.ofDy (s.mul ⟨sb, e⟩)]
  let d := regSum (Dy.mul ⟨entryMax, e⟩ (recordBound p st)) terms
  scoreRound (dotForm q.dist (gainLog2 p.rotate p.n) q.qn st.norm d)

/-! ## Direct mode -/

/-- |x|. -/
def Num.abs : Num → Num
  | .fin _ v => .fin false v.abs
  | .inf _ => .inf false
  | .nan _ => .nan false

/-- Equal as numbers; NaN equals nothing. -/
def Num.eq : Num → Num → Bool
  | .fin _ a, .fin _ b => a.eq b
  | .inf g, .inf h => g = h
  | _, _ => false

/-- A term of a built-in distance (R163). -/
def directTerm (dist : Nat) (q x w : Num) : Num :=
  if dist = distHam then Num.ofDy ⟨if q.sign = x.sign then 0 else 1, 0⟩
  else if dist = 1 || dist = 2 then q.mul x
  else
    let d := q.add x.neg
    if dist = 3 then d.abs else if dist = 4 then w.mul (d.mul d) else d.mul d

/-- Coordinates a direct sum takes: all n for Hamming, else those of R160. -/
def directLim (p : EncP) (dist : Nat) : Nat := if dist = distHam then p.n else p.lim

/-- Steps 4 and 5 of R159 on a direct sum. -/
def directForm (dist lg : Nat) (s : Num) : Num :=
  let s := s.unscale lg
  if dist = 1 then s.neg else if dist = 2 then (Num.ofDy one).add s.neg else s

/-- A built-in distance in direct mode. -/
def directBuiltin (p : EncP) (dist : Nat) (y : List Num) (st : Stored) : F32 × ConvMark :=
  let lim := directLim p dist
  let wy := (weighted p.weights y).filter Num.finite
  let terms := ((y.take lim).zip (st.vals.take lim)).zipIdx.map fun a =>
    directTerm dist a.1.1 a.1.2 (weightAt p.weights a.2)
  scoreRound (directForm dist (gainLog2 p.rotate p.n)
    (regSum (termBound dist (maxAbs wy) (recordBound p st)) terms))

/-! ## Compiled programs (R161, R162) -/

/-- The smaller of two numbers, −0 equal to +0. -/
def Num.lt : Num → Num → Bool
  | .fin _ a, .fin _ b => a.lt b
  | .inf g, .inf h => g && !h
  | .inf g, .fin _ _ => g
  | .fin _ _, .inf h => !h
  | _, _ => false

/-- NaN. -/
def Num.isNan : Num → Bool
  | .nan _ => true
  | _ => false

/-- One rounding to FP32 of a number. -/
def Num.round (x : Num) : Num := f32 (toF32 x)

/-- The square root of a number (R162): of a negative number it is NaN (log entry 19). -/
def Num.sqrt : Num → Num
  | .fin _ v => if v.m < 0 then .nan false else f32 (sqrtF32 v)
  | .inf false => .inf false
  | _ => .nan false

/-- One operation of R161 on its sources, before its rounding. -/
def progExact (o : Nat) (a b : Num) : Num :=
  if a.isNan || b.isNan then .nan false
  else if o = 0x01 || o = 0x40 || o = 0x20 then a.add b
  else if o = 0x02 || o = 0x41 then a.add b.neg
  else if o = 0x03 || o = 0x42 then a.mul b
  else if o = 0x04 || o = 0x22 then (if b.lt a then b else a)
  else if o = 0x05 || o = 0x21 || o = 0x45 then (if a.lt b then b else a)
  else if o = 0x06 then a.abs
  else if o = 0x07 || o = 0x43 then a.neg
  else if o = 0x08 then Num.ofDy ⟨if a.eq b then 0 else 1, 0⟩
  else a.sqrt

/-- One operation, rounded once (R161). -/
def progOp (o : Nat) (a b : Num) : Num := (progExact o a b).round

/-- What a program reads. -/
structure ProgIn where
  q : List Num
  x : List Num
  w : List Num
  qn : Num
  xn : Num
deriving DecidableEq, Repr

/-- The registers of a program: element registers by code, scalar registers by code. -/
abbrev ProgRegs := List (Nat × List Num) × List (Nat × Num)

/-- An element source. -/
def elemSrc (i : ProgIn) (r : ProgRegs) (imm : Num) (c : Nat) : List Num :=
  if c = 0 then i.q else if c = 1 then i.x else if c = 2 then i.w
  else if c = 0x1F then i.q.map fun _ => imm else (look r.1 c).getD []

/-- A scalar source. -/
def scalarSrc (i : ProgIn) (r : ProgRegs) (imm : Num) (c : Nat) : Num :=
  if c = 0x18 then i.qn else if c = 0x19 then i.xn else if c = 0x1F then imm
  else (look r.2 c).getD (.fin false ⟨0, 0⟩)

/-- Run one operation. -/
def progStep (i : ProgIn) (r : ProgRegs) (o : DistOp) : ProgRegs :=
  let imm := f32 o.imm
  match opClass o.opcode with
  | some 0 =>
    let a := elemSrc i r imm o.srcA
    let b := if opUnary o.opcode then a else elemSrc i r imm o.srcB
    (put o.dst (List.zipWith (progOp o.opcode) a b) r.1, r.2)
  | some 1 =>
    let v := match elemSrc i r imm o.srcA with
      | [] => .fin false ⟨0, 0⟩
      | a :: l => l.foldl (progOp o.opcode) a
    (r.1, put o.dst v r.2)
  | _ =>
    let a := scalarSrc i r imm o.srcA
    let b := if opUnary o.opcode then a else scalarSrc i r imm o.srcB
    (r.1, put o.dst (progOp o.opcode a b) r.2)

/-- What the rounding of the value that an operation gives register A0 counts (R76); none where it writes another register. A reduction's is
that of its last step. -/
def progMark (i : ProgIn) (r : ProgRegs) (o : DistOp) : Option ConvMark :=
  if o.dst ≠ 0x10 then none
  else
    let imm := f32 o.imm
    match opClass o.opcode with
    | some 0 => none
    | some 1 =>
      match elemSrc i r imm o.srcA with
      | a :: b :: l => some (scoreRound (progExact o.opcode (((b :: l).dropLast).foldl (progOp o.opcode) a) ((b :: l).getLastD b))).2
      | _ => some .plain
    | _ =>
      let a := scalarSrc i r imm o.srcA
      let b := if opUnary o.opcode then a else scalarSrc i r imm o.srcB
      some (scoreRound (progExact o.opcode a b)).2

/-- Register A0 at the end of a program (R160): the distance, whose one conversion is the rounding of the operation that wrote it. -/
def runProgram (ops : List DistOp) (i : ProgIn) : F32 × ConvMark :=
  let r := ops.foldl (fun (x : ProgRegs × ConvMark) o => (progStep i x.1 o, (progMark i x.1 o).getD x.2)) (([], []), .plain)
  let v := scoreRound ((look r.1.2 0x10).getD (.fin false ⟨0, 0⟩))
  (v.1, if v.2 = .plain then r.2 else v.2)

/-! ## Distances of records -/

/-- A distance in direct mode with a record stored under `p` (R158). -/
def directDistance (q : Prep) (p : EncP) (st : Stored) : F32 × ConvMark :=
  if q.dist = distProg then
    runProgram q.ops ⟨q.y.take p.lim, st.vals.take p.lim, (List.range p.lim).map (weightAt p.weights), f32 q.qn, f32 st.norm⟩
  else directBuiltin p q.dist q.y st

/-- A code-level distance on a score unit. -/
def codeDistance (q : Prep) (headed : Bool) (b : Bytes) : F32 × ConvMark :=
  let st := readRecord q.p headed b
  if lookupMode q.p.fmt q.dist && q.y.all Num.finite then lookupDistance q st else directDistance q q.p st

/-- A rerank distance (R164). -/
def rerankDistance (q : Prep) (rp : EncP) (headed : Bool) (b : Bytes) : F32 × ConvMark :=
  directDistance q rp (readRecord rp headed b)

/-- The distance of two records of one collection, the first as the query (R214). -/
def recordDistance (p : EncP) (dist : Nat) (ops : List DistOp) (headed : Bool) (a b : Bytes) : F32 × ConvMark :=
  let x := readRecord p headed a
  directDistance ⟨p, dist, ops, x.vals, x.norm⟩ p (readRecord p headed b)

/-! ## Tun on scans (R84, R111, R167) -/

/-- Top-bit exponent of a format (R84). -/
def topBit : Fmt → Int
  | .b1 => 0 | .int4 => 3 | .bg4 => 0 | .e2m1 => 2 | .e3m2 => 4 | .e2m3 => 2 | .int8 => 7 | .uint8 => 7
  | .e4m3 => 8 | .e5m2 => 15 | .int16 => 15 | .fp16 => 15 | .bf16 => 127 | _ => 0

/-- The INT8 query encoding of R111: SYM with the collection's K over the rotated query, w_i y_i for weighted L2. -/
def queryInt8 (q : Prep) : Encoded :=
  let v := if q.dist = 4 then weighted q.p.weights q.y else q.y
  encodeVec { d := q.p.n, fmt := .int8, k := q.p.k, sym := true, rotate := false, seed := 0, carried := none, weights := [] }
    false v

/-- The engine of R167 is Tun. -/
def tunDistance (dist : Nat) : Bool := dist ≤ 2 || dist = 4 || dist = 5

/-- The larger of two optional integers. -/
def maxOpt (a b : Option Int) : Option Int :=
  match a, b with
  | some x, some y => some (max x y)
  | some x, none => some x
  | none, y => y

/-- Round to a binary point (R82): the integer N, and whether bits were lost. -/
def toPoint (b : Int) (v : Dy) : Int × Bool :=
  let n := unitsOf v (-b)
  (n, !(v.eq ⟨n, -b⟩))

/-- Saturate a WX integer: a magnitude that reaches 2^95 gives the largest value of its sign (R82), which by R81 lies below
2^95 in magnitude (log entry 25). -/
def wxClamp (n : Int) : Int × Bool :=
  if (2 : Int) ^ 95 ≤ n then (2 ^ 95 - 1, true) else if n ≤ -(2 ^ 95) then (-(2 ^ 95 - 1), true) else (n, false)

end Sys2Proof.Machine
end

