-- ==== Sys2Proof/Machine/Query.lean ====
section
/-!
DEFINITION. What every query shares: the arrival checks (R144 to R149), placement (R21, R148, R178), the space it
reserves (R153, R182, R183, R280), scoring contexts (R157), finalisation (R185 to R189) and its completion (R170 to
R176). The pipeline is in Machine/Search.lean and the fleet part in Machine/Fleet.lean.
-/

namespace Sys2Proof.Machine

/-! ## Merge windows (R301, R312) -/

/-- Base of merge window 0. -/
def mergeBase : Nat := 0x0D8000100000

/-- Address of the query window. -/
def queryWindow : Nat := 0x0D8000000000

/-- The merge window a device-local address is the base of. -/
def windowAt (a : Nat) : Option Nat :=
  if mergeBase ≤ a && a < mergeBase + 64 * 0x10000 && (a - mergeBase) % 0x10000 = 0 then some ((a - mergeBase) / 0x10000)
  else none

/-- The device number of a global address. -/
def addrDev (a : BitVec 64) : Nat := a.toNat / 2 ^ 52

/-- The device-local part of a global address. -/
def addrLocal (a : BitVec 64) : Nat := a.toNat % 2 ^ 52

/-- An open merge record. -/
def State.mergeRec (s : State) (w : Nat) (id : BitVec 32) : Option MergeRec :=
  s.fabric.records.find? fun r => r.window = w ∧ r.id = id

/-! ## Deadlines (R49 to R52) -/

/-- The completion cutoff of a deadline (R50). -/
def State.cutoffOf (s : State) (deadline : Nat) : Nat := deadline - s.num 0x200301

/-- A GENERATION_BELL is due at this time and has not been taken yet (R59). -/
def State.bellDue (s : State) : Bool := s.calFires 0 && (s.calEntry 0).next.any (· ≤ s.now)

/-- The generation that a query arriving now searches: a bell at its own time acts first (R61, R149). -/
def State.snapshotNow (s : State) : Nat := s.muts.generation + if s.bellDue then 1 else 0

/-- The longest time from a cutoff to its completion write (R52, P2003.02), at most the largest U32 (log entry 9). -/
def State.countFinalise (cutoff : Nat) (s : State) : State :=
  if cutoff ≤ s.now then s.raiseTo 0x200302 (min (s.now - cutoff) 0xFFFFFFFF) else s

/-- A completion is written: one after its deadline is counted, and the time since its cutoff is observed (R52). -/
def State.countWrite (cutoff deadline : Nat) (s : State) : State :=
  (if deadline < s.now then s.bump 0x200305 else s).countFinalise cutoff

/-- The counter of a header flag, by its bit (R177, R198). -/
def flagCounters : List (Nat × Nat) := [(0, 0x504003), (1, 0x504004), (2, 0x504005), (3, 0x502007), (6, 0x502008)]

/-- Count a query's status and the flags of its header (R62, R177, R198). -/
def State.countQuery (status flags : Nat) (s : State) : State :=
  let s := if status = stDeadline then s.bump 0x200304 else s
  let s := if status = stExpired then s.bump 0x200303 else s
  flagCounters.foldl (fun s x => if bit flags x.1 then s.bump x.2 else s) s

/-- What a query's completion, trace record and sample say (R334, R402). -/
structure Done where
  d : QueryDesc
  status : Nat
  count : Nat
  flags : Nat
  hops : Nat
  snapshot : Nat
  arrival : Nat
  needle : Nat
deriving DecidableEq, Repr

/-- The QUERY trace record (R402). -/
def Done.traceBytes (x : Done) (p : Port) (n : Byte) (now : Nat) : Bytes :=
  natLE 4 x.d.tag.toNat ++ natLE 2 x.d.coll.toNat ++ natLE 1 x.d.opcode ++ natLE 1 x.status ++ natLE 8 x.arrival ++
    natLE 8 now ++ natLE 8 x.d.deadline ++ natLE 4 (min x.hops 0xFFFFFFFF) ++ natLE 4 x.count ++ natLE 2 x.flags ++
    natLE 1 n.toNat ++ natLE 1 (Port.num p) ++ natLE 2 x.needle ++ [0, 0] ++ natLE 8 x.snapshot ++ zeros 8

/-- Write a query's completion entry, count it and trace it. -/
def State.endEntry (p : Port) (n : Byte) (head : Nat) (x : Done) (s : State) : State :=
  let s := (s.complete p n head x.d.tag.toNat x.count x.snapshot x.d.opcode x.status).bump 0x502001
  let b := min 31 ((s.now - x.arrival) / 25000)
  let k := s.tele.completions + 1
  let every := s.num 0xB03005
  let s := { s with tele := { s.tele with
    completions := k, latency := put b (lookDef 0 s.tele.latency b + 1) s.tele.latency } }
  if every ≠ 0 && k % every = 0 then s.holdTrace 1 (x.traceBytes p n s.now) else s

/-! ## Result areas (R170 to R173) -/

/-- The result area of an entry can be written: aligned, not zero, and inside the tenant's fence (R147, R424). -/
def State.destOk (s : State) (p : Port) (tenant : Nat) (d : QueryDesc) : Bool :=
  addrOk d.dest && s.fenceOk p tenant d.resultArea.1 d.resultArea.2

/-- Write the records and then the header. -/
def State.writeArea (d : QueryDesc) (records : Bytes) (x : Done) (tie missing : Nat) (s : State) : State :=
  (s.devWrite (d.dest + 0x20) records).devWrite d.dest
    (resultHeader x.status d.recordSize x.flags x.count x.snapshot tie missing (min x.hops 0xFFFFFFFF) s.stamp)

/-- The pad records of an entry that holds none: k of them; GET_BY_VID has no pad record (log entry 20). -/
def QueryDesc.pads (d : QueryDesc) : Bytes :=
  if d.opcode = 3 then [] else (List.replicate d.k (padRecord (d.flag 1))).flatten

/-- The bytes of the filter program an entry names. -/
def State.filterBytes (s : State) (d : QueryDesc) : Bytes :=
  if d.filtered && addrOk d.filter then s.mem.read d.filter (filterLen (s.mem.read d.filter 16)) else []

/-- What an entry names to be read lies inside the tenant's fence (R424). -/
def State.readsOk (s : State) (p : Port) (tenant : Nat) (d : QueryDesc) : Bool :=
  (d.reads (s.filterBytes d).length).all fun a => s.fenceOk p tenant a.1 a.2

/-- Complete an entry of a spool that holds no result: header, pads where the status has records, and the completion. -/
def State.endEmpty (p : Port) (n : Byte) (head tenant : Nat) (x : Done) (s : State) : State :=
  let x := { x with count := 0 }
  let s := if s.destOk p tenant x.d && s.readsOk p tenant x.d then s.writeArea x.d (if writesRecords x.status then x.d.pads else []) x 0 0 else s
  ((s.countWrite (s.cutoffOf x.d.deadline) x.d.deadline).countQuery x.status x.flags).endEntry p n head x

/-! ## The arrival checks (R147, R149) -/

/-- An entry keeps R147 and R424, the values of its vector apart. `who` is its spool's port and tenant; a shard's own
entry has none, and its result area is ignored. -/
def State.entryOk (s : State) (who : Option (Port × Nat)) (d : QueryDesc) (c : CollDef) : Bool :=
  let prog := s.filterBytes d
  d.rangesOk c (s.num 0x500005 ≠ 0) who.isNone &&
    (d.reads prog.length).all (fun a => addrOk a.1) &&
    (match who with
     | some (p, t) => s.destOk p t d && s.readsOk p t d
     | none => true) &&
    (!d.filtered || filterOk c.schema prog) &&
    (!d.fleet || s.gridOn d.mergeGrid)

/-- A Needle can walk: it is online, and so is one of its score units (R157). -/
def State.needleOk (s : State) (n : Nat) : Bool :=
  !bit s.units.needle.toNat n && [3 * n, 3 * n + 1, 3 * n + 2].any fun u => !bit s.units.score.toNat u

/-- Needles of a half that can walk. -/
def State.needlesOf (s : State) (h : Half) : List Nat := (halfUnits 32 h).filter s.needleOk

/-- A half takes queries: its own Lauter, its own Kiln and, for a graph search, a Needle of its own with a score unit are online
(R21, R178). -/
def State.halfServes (s : State) (graph : Bool) (h : Half) : Bool :=
  !(s.lautersUp h).isEmpty && !(s.kilnsUp h).isEmpty && (!graph || !(s.needlesOf h).isEmpty)

/-- A half can take a flat scan of a distance: one that Tun does not score needs a score unit of the half (R21, R167). -/
def State.halfScans (s : State) (dist : Nat) (h : Half) : Bool :=
  s.halfServes false h && (tunDistance dist || !(s.scoresUp h).isEmpty)

/-- Every kind of unit an operation needs has an instance, with Tun counted as powered (R34, R149, R243; log entry 21:
a flat scan needs a Tun cluster whatever its distance). -/
def State.unitsOnline (s : State) (op : Nat) (dist : Nat) : Bool :=
  if op = 3 then s.anyCore && s.anyLauter
  else if op = 2 then s.anyTun && (s.halfScans dist .west || s.halfScans dist .east)
  else s.halfServes true .west || s.halfServes true .east

/-- A unit the operation needs is online, but none is powered: POWER_LIMITED (R34). -/
def State.unitsPowered (s : State) (op : Nat) : Bool := op ≠ 2 || s.tunPowered

/-- The further cases of R312 for an entry that makes this device its lead. -/
def State.leadOk (d : QueryDesc) (c : Coll) (s : State) : Bool :=
  addrDev d.mergeWindow = s.devNum &&
    (match windowAt (addrLocal d.mergeWindow) with
     | some w => (s.mergeRec w d.queryId).isNone
     | none => false) &&
    !c.shardMap.isEmpty && d.shards = c.shardMap.length

/-- What the checks of R149 say before the vector is read: a status and its flags, or nothing. -/
def State.arrivalStatus (s : State) (who : Option (Port × Nat)) (d : QueryDesc) (c : Option Coll) : Option (Nat × Nat) :=
  match c with
  | none => some (stNoColl, 0)
  | some c =>
    if c.st ≠ .online then some (stOffline, 0)
    else if !s.entryOk who d c.d || (d.fleet && who.isSome && !s.leadOk d c) then some (stInvalid, 0)
    else if d.deadline ≤ s.now then some (stExpired, 0)
    else if s.cutoffOf d.deadline ≤ s.now then some (stDeadline, 0)
    else if !s.unitsOnline d.opcode c.d.distance then some (stDegraded, 0)
    else if !s.unitsPowered d.opcode then some (stDegraded, bitIf true 10)
    else none

/-- A half's free Needle contexts: 64 a Needle, less the queries that hold one (R23). -/
def State.freeContexts (s : State) (h : Half) : Nat :=
  ((s.needlesOf h).map fun n => 64 - (s.search.queries.filter fun q => q.d.graph && q.stage != .merging && q.needle = n).length).sum

/-- A Needle's free contexts. -/
def State.needleFree (s : State) (n : Nat) : Nat :=
  64 - (s.search.queries.filter fun q => q.d.graph && q.stage != .merging && q.needle = n).length

/-- A GRAPH_SEARCH or HYBRID entry can be read: a context is free on a half that serves, or no half serves (R148). -/
def State.contextReady (s : State) : Bool :=
  let hs := [Half.west, Half.east].filter (s.halfServes true)
  hs.isEmpty || hs.any fun h => 0 < s.freeContexts h

/-- The half a query goes to (R21): the one with more free contexts, the preferred one on a tie, among those that
serve it. -/
def State.chooseHalf (s : State) (serves : Half → Bool) (pref : Half) : Half :=
  if !serves pref then Half.other pref
  else if !serves (Half.other pref) then pref
  else if s.freeContexts pref < s.freeContexts (Half.other pref) then Half.other pref
  else pref

/-- The Needle of a query: the one asked for where it is in the half and free, else the lowest free one. -/
def State.chooseNeedle (s : State) (h : Half) (want : Nat) : Nat :=
  let ok := (s.needlesOf h).filter fun n => 0 < s.needleFree n
  if ok.contains want then want else (ok.head?).getD want

/-- Lists a Lauter unit holds: of the queries whose list space is reserved. -/
def State.listsOf (s : State) (u : Nat) : Nat := (s.search.queries.filter fun q => q.held && q.lauter = u).length

/-- The Lauter unit of a query (R178): its Needle's, or the lowest online one of the half where that is offline; for
the other queries the one that holds the fewest lists. -/
def State.chooseLauter (s : State) (graph : Bool) (h : Half) (needle : Nat) : Nat :=
  let up := s.lautersUp h
  if graph then (if up.contains (needle / 4) then needle / 4 else (up.head?).getD 0)
  else (up.foldl (fun (b : Option Nat) u => match b with
    | none => some u
    | some v => if s.listsOf u < s.listsOf v then some u else some v) none).getD 0

/-! ## Space (R153, R182, R183, R280) -/

/-- Bytes a query reserves in the spill partition and in the overflow area, and its working pages. -/
structure Space where
  spill : Nat
  overflow : Nat
  pages : Nat
  long : Bool
deriving DecidableEq, Repr

/-- Bytes of a list of capacity `cap`; one that wants a shared place is held as SPILLED where none is free (R182). -/
def listSpace (cap : Nat) (crowded : Bool) : Nat × Nat :=
  match listMode cap with
  | .resident => if crowded then (32 * cap, 0) else (0, 0)
  | .spilled => (32 * cap, 0)
  | .long => (0, 32 * cap)

/-- The list of the query has one of its unit's shared places: a flat scan's, or a merge window's (R182). -/
def Query.shared (q : Query) : Bool := !q.d.graph || q.lead.isSome

/-- The 64 shared RESIDENT lists of the query's unit are held by others (R182). -/
def State.crowded (s : State) (q : Query) : Bool :=
  q.shared && 64 ≤ (s.search.queries.filter fun x =>
    x.id ≠ q.id && x.held && x.shared && x.lauter = q.lauter && x.spill = 0 && !x.long).length

/-- Pages of the working partition (R280): the rotated query, its table and its INT8 encoding with row sums. -/
def workPages (p : EncP) (lookup : Bool) : Nat :=
  let n := p.n
  (4 * n + (if lookup then lutBytes n p.k else 0) + n + 4 * (n / p.k) + 4095) / 4096

/-- What a query reserves. -/
def Query.space (q : Query) (c : Coll) (crowded : Bool) : Space :=
  let l := listSpace q.cap crowded
  let walk := q.d.graph && q.lead.isNone && !q.pass
  let visits := c.entries.length + q.maxHops * c.d.degree
  ⟨l.1, l.2 + (if walk && 2048 < visits then 4 * (visits - 2048) else 0),
    if q.d.hasVector && q.lead.isNone then workPages c.codeP (tableMode c.codeP.fmt c.d.distance) else 0,
    listMode q.cap = .long⟩

/-- Free bytes of the spill partition. -/
def State.spillFree (s : State) : Nat := s.partition 4 - (s.search.queries.map Query.spill).sum

/-- Free bytes of the overflow area. -/
def State.overflowFree (s : State) : Nat := gibBytes (s.num 0x503004) - (s.search.queries.map Query.overflow).sum

/-- Free pages of the working partition. -/
def State.pagesFree (s : State) : Nat := s.partition 3 / 4096 - (s.search.queries.map Query.pages).sum

/-- A query's list space is free. -/
def State.listFits (s : State) (x : Space) : Bool :=
  (x.spill = 0 || x.spill ≤ s.spillFree) && (x.overflow = 0 || x.overflow ≤ s.overflowFree)

/-- Open merge records of a window. -/
def State.windowRecords (s : State) (w : Nat) : Nat := (s.fabric.records.filter fun r => r.window = w).length

/-- A Cask partition takes the size an entry gives, in MiB, when it is empty (R279). -/
def State.applySlices (code k : Nat) (empty : Bool) (s : State) : State :=
  if empty && s.partition code ≠ s.num k * 2 ^ 20 then s.resize code (s.num k / 16) else s

/-- The sizes of the working, spill and staging partitions and of the overflow area take effect when nothing occupies the area
(R198, R279). -/
def State.applyAreas (s : State) : State :=
  let s := s.applySlices 3 0x320001 (s.search.queries.all fun q => q.pages = 0)
  let s := s.applySlices 5 0x320002 s.encodes.isEmpty
  let s := s.applySlices 6 0x320003 s.tun.run.isNone
  let s := if s.num 0x503001 ≠ s.num 0x503003 && s.search.queries.all (fun q => q.spill = 0) then
      (s.resize 4 (s.num 0x503001 / 16)).setNum 0x503003 (s.num 0x503001)
    else s
  if s.num 0x503002 ≠ s.num 0x503004 && s.search.queries.all (fun q => q.overflow = 0) then
    let t := s.release ownerOverflow
    match t.alloc ownerOverflow 0 t.stacksUp (gibBytes (s.num 0x503002)) with
    | some t => t.setNum 0x503004 (s.num 0x503002)
    | none => s
  else s

/-! ## Score unit contexts (R157) -/

/-- Contexts a unit's resident tables take. -/
def State.unitContexts (s : State) (u : Nat) : Nat :=
  ((lookDef [] s.search.score u).map fun q => match s.query q with
    | some x => match s.coll x.d.coll with
      | some c => lutContexts c.codeP.n
      | none => 0
    | none => 0).sum

/-- Score units of a Needle that are online; a query without a Needle has none (R157). -/
def State.unitsOf (s : State) (needle : Nat) : List Nat :=
  [3 * needle, 3 * needle + 1, 3 * needle + 2].filter fun u => u < 192 && !bit s.units.score.toNat u

/-- Replace the resident tables of a unit. -/
def State.setTables (u : Nat) (l : List Nat) (s : State) : State :=
  { s with search := { s.search with score := putDef [] u l s.search.score } }

/-- Kiln puts a table of `n` contexts into the first unit with that many free ones; none is put where none has. -/
def State.placeTable (q : Nat) (needle n : Nat) (s : State) : State :=
  match (s.unitsOf needle).find? fun u => s.unitContexts u + n ≤ 4 with
  | some u => s.setTables u (q :: lookDef [] s.search.score u)
  | none => s

/-- Keep the most recently used tables that fit beside `n` contexts. -/
def State.keepTables (s : State) : Nat → List Nat → List Nat
  | _, [] => []
  | room, q :: r =>
    let n := match s.query q with
      | some x => (match s.coll x.d.coll with | some c => lutContexts c.codeP.n | none => 0)
      | none => 0
    if n ≤ room then q :: s.keepTables (room - n) r else []

/-- A unit scores lines of a query by lookup: its table is made resident, and a load is counted. -/
def State.residence (q u n : Nat) (s : State) : State :=
  let l := lookDef [] s.search.score u
  if l.contains q then s.setTables u (q :: l.filter (· ≠ q))
  else (s.setTables u (q :: s.keepTables (4 - n) l)).bump 0x502003

/-- A query's table leaves every unit. -/
def State.dropTables (q : Nat) (s : State) : State :=
  { s with search := { s.search with score := (s.search.score.map fun x => (x.1, x.2.filter (· ≠ q))).filter fun x => !x.2.isEmpty } }

/-! ## Leaving -/

/-- Lines of 64 bytes that a code record of the collection spans (R158). -/
def Coll.codeLines (c : Coll) : Nat := recordSize c.codeP c.d.codeHeaded / 64

/-- Lists and lines that a query asked for and did not use are discarded and counted (R154). -/
def State.dropPrefetch (qid : Nat) (s : State) : State :=
  match s.query qid with
  | none => s
  | some q =>
    let per := match s.coll q.d.coll with | some c => c.codeLines | none => 1
    (s.mapQuery qid fun q => { q with current := none, requested := [], lines := [] }).bumpBy 0x502004
      (q.requested.length + q.lines.length * per)

/-- A query leaves the device: its tables, its space and its place in a batch are released, and what waits for that
is done (R198, R209). -/
def State.leave (q : Nat) (s : State) : State :=
  let s := s.hostWork.dropTables q
  ({ s with search := { s.search with
      queries := s.search.queries.filter (fun x => x.id ≠ q),
      batches := s.search.batches.map (fun (b : Batch) => { b with members := b.members.filter (· ≠ q) }) } }).trimBaste.applyAreas

/-! ## Finalisation (R185 to R189) -/

/-- The tie counter of the query's list with the key of its c-th entry (R188). -/
def Query.tieSource (q : Query) : List (Nat × Nat) := ((lastKey q.cap q.list).map fun k => (k, q.tie)).toList

/-- What finalising a query's partial lists gives. -/
def State.finalOf (s : State) (q : Query) : Final :=
  let dels := if q.basteRan then q.basteDeletes else s.basteDeletes q.d.coll q.snapshot q.arrival
  finalEntries [q.list, q.basteEntries, q.listedEntries] q.d.k (q.d.flag 2) dels
    (fun e => q.d.filtered && q.basteFail.contains (e.vid, e.version)) q.tieSource

/-- Count what a finalisation discarded (R186 to R188, R198). -/
def State.countFinal (filtered : Bool) (f : Final) (s : State) : State :=
  let s := ((s.bumpBy 0x503006 f.losers).bumpBy 0x503007 f.hidden).bumpBy 0x503008 (if f.saturated then 1 else 0)
  if filtered then s.bumpBy 0x504006 f.asked else s

/-- Complete a query of a spool with the result `f` (R170 to R176). -/
def State.deliver (p : Port) (n : Byte) (head : Nat) (q : Query) (f : Final) (status flags missing hops : Nat) (s : State) : State :=
  let recs := writesRecords status
  let x : Done := { d := q.d, status := status, count := if recs then f.last else 0, flags := flags, hops := hops,
                    snapshot := q.snapshot, arrival := q.arrival, needle := if q.d.graph then q.needle else 0xFFFF }
  let s := s.writeArea q.d (if recs then resultRecords (q.d.flag 1) q.d.k f else []) x (if recs then f.tieBeyond else 0) missing
  ((s.countWrite q.cutoff q.d.deadline).countQuery status flags).endEntry p n head x

end Sys2Proof.Machine
end

