-- ==== Sys2Proof/Machine/Fleet.lean ====
section
/-!
DEFINITION. Fleet search (R310 to R320): what a shard sends to its lead, the merge records of a lead, the choice of
replicas, and the end of every query, whoever its client is.
-/

namespace Sys2Proof.Machine

/-! ## Shard maps (R310) -/

/-- The record of the map that lists a device. -/
def Coll.shardOf (c : Coll) (dev : Nat) : Option Nat := c.shardMap.findIdx? fun r => r.contains dev

/-- The replicas of a record. -/
def replicasOf (r : List Nat) : List Nat := r.filter (· ≤ 0xFFF)

/-! ## The shard's side (R311, R315, R316) -/

/-- The path allowance of a shard: 0 for the lead's own. -/
def State.allowance (s : State) (lead : Nat) : Nat := if lead = s.devNum then 0 else s.num 0x830004

/-- The device that leads a shard's query. -/
def QueryDesc.leadDev (d : QueryDesc) : Nat := addrDev d.mergeWindow

/-- The send-by time of a shard's query (R316). -/
def State.sendBy (s : State) (q : Query) : Nat :=
  (if q.lateSent then q.cutoff else s.bellBefore q.d.mergeGrid q.cutoff) - s.allowance q.d.leadDev

/-- The mean of a list of numbers; an open value where there is none (log entry 15). -/
def meanOf (which : Nat) (l : List Nat) : Nat := if l.isEmpty then Config.noMean which else l.sum / l.length

/-- When the shard's result will reach the lead, as R316 predicts it. -/
def State.predict (s : State) (q : Query) : Nat :=
  let c := s.coll q.d.coll
  let hops := meanOf 0 ((c.map Coll.recentHops).getD [])
  let hop := meanOf 1 ((s.search.hopLog.filter fun x => s.now < x.1 + 10000).map Prod.snd)
  let post := meanOf 2 s.search.recentPost
  s.now + (hops - q.hops) * hop + post + s.allowance q.d.leadDev

/-- The frames of a shard's result: at most 127 entries each (R314). -/
def resultFrames (h : MergeHead) (entries : List LEntry) : List Bytes :=
  let cs := if entries.isEmpty then [[]] else chunks 127 (entries.length + 1) entries
  cs.zipIdx.map fun x =>
    ({ h with count := x.1.length, last := x.2 + 1 = cs.length, sequence := x.2, total := entries.length } : MergeHead).bytes ++
      x.1.flatMap LEntry.bytes

/-- The header of a shard's frames. -/
def QueryDesc.mergeHead (d : QueryDesc) (shard status flags tie hops : Nat) : MergeHead :=
  { id := d.queryId, shard := shard, count := 0, status := status, flags := flags, last := false, late := false,
    tieBeyond := tie, sequence := 0, expected := 0, total := 0, hops := min hops 0xFFFFFFFF, ok := true }

/-- Send merge frames to a lead, in order; `last` says the result has been sent once already (R315). A frame that finds no route is
discarded and counted (R300). -/
def State.sendFrames (lead : Nat) (window : BitVec 64) (frames : List Bytes) (last : Bool) (s : State) : State :=
  frames.foldl (fun s f =>
    (s.issue opMerge true lead window 0 f (.mergeSend (BitVec.ofNat 12 lead) window frames last) f.length).getD
      (if s.numbered then s.bump 0x810006 else s)) s

/-! ## The lead's record (R312, R313, R317 to R319) -/

/-- Change a merge record. -/
def State.mapRecord (w : Nat) (id : BitVec 32) (f : MergeRec → MergeRec) (s : State) : State :=
  { s with fabric := { s.fabric with records := update (fun r => r.window = w ∧ r.id = id) f s.fabric.records } }

/-- Change one shard of a record. -/
def MergeRec.mapShard (i : Nat) (f : ShardState → ShardState) (r : MergeRec) : MergeRec :=
  { r with shards := r.shards.zipIdx.map fun x => if x.2 = i then f x.1 else x.1 }

/-- The Lauter unit that backs a merge window (R313). -/
def State.windowUnit (s : State) (w : Nat) : Nat :=
  let u := w % 16
  if !bit s.units.lauter.toNat u then u
  else ((s.lautersUp (if u < 8 then .west else .east)).head?).getD u

/-- The flags of a lead's result (R319). -/
def MergeRec.flags (r : MergeRec) (filtered : Bool) : Nat :=
  let done := r.shards.filterMap ShardState.result
  let any (n : Nat) : Bool := done.any fun x => bit x.flags n
  let every := done.length = r.shards.length && done.all fun x => bit x.flags 0
  filterFlags (filtered || any 0 || any 1) every +
    ([2, 3, 4, 5, 6, 7, 8, 10].map fun n => bitIf (any n) n).sum + bitIf r.lateAny 9

/-- The cut flags of R176 that a lead's header sets as well where its own cutoff falls with a shard missing (R175). -/
def leadCut (q : Query) : Nat := bitIf (0 < q.rerankDepth || q.d.opcode = 4) 4 + bitIf true 5

/-- Finalise a lead's record: the shard results are the partial lists (R319). -/
def State.finaliseLead (r : MergeRec) (q : Query) (s : State) : State :=
  let done := r.shards.filterMap ShardState.result
  let lists := done.map fun x => (x.seqs.map Prod.snd).flatten
  let sources := (done.zip lists).filterMap fun x => x.2.getLast?.map fun e => (distKey e.dist, x.1.tieBeyond)
  let f := finalEntries lists q.d.k (q.d.flag 2) [] (fun _ => false) sources
  let missing := r.shards.length - done.length
  let hops := min ((done.map ShardPart.hops).sum) 0xFFFFFFFF
  let c : Conds := { ring := q.ring, degraded := q.degraded, poisoned := q.poisoned, offlined := q.offlined,
                     missing := 0 < missing, cut := done.any fun x => x.status = stDeadline,
                     partialFilter := f.n < q.d.k && done.any fun x => x.status = stPartialFilter, fewer := f.n < q.d.k }
  let s := { s with fabric := { s.fabric with records := s.fabric.records.filter fun x => !(x.window = r.window && x.id = r.id) } }
  let s := (s.countFinal false f).bumpBy 0x830009 missing
  match q.client with
  | .spool p n head =>
    let cut := if 0 < missing && r.cutoff ≤ s.now then leadCut q else 0
    (s.deliver p n head q f (statusOf c) (r.flags q.d.filtered ||| cut) missing hops).leave q.id
  | .peer _ _ _ => s.leave q.id

/-- Evaluate a record (R317). -/
def State.checkRecord (w : Nat) (id : BitVec 32) (s : State) : State :=
  match s.mergeRec w id with
  | none => s
  | some r =>
    match s.query r.query with
    | none => s
    | some q =>
      let missing := r.shards.filter fun x => x.result.isNone
      let waiting := missing.any fun x => match x.late with | some t => t < r.cutoff | none => false
      if missing.isEmpty || r.cutoff ≤ s.now || (r.bell ≤ s.now && !waiting) then s.finaliseLead r q else s

/-- A replica is held off (R318). -/
def State.heldOff (s : State) (dev : Nat) : Bool := s.fabric.heldOff.any fun x => x.1 = dev && s.now < x.2

/-- Hold a replica off for P8300.06 ms. -/
def State.holdOff (dev : Nat) (s : State) : State :=
  { s with fabric := { s.fabric with heldOff := put dev (s.now + s.num 0x830006 * 1000000) s.fabric.heldOff } }

/-- The next replica of a shard (R312): this device first, then the first in map order that is not held off and has a
route; each is tried once. -/
def State.nextReplica (x : ShardState) (s : State) : Option Nat :=
  let left := (replicasOf x.replicas).filter fun d => !x.tried.contains d
  if left.contains s.devNum then some s.devNum
  else left.find? fun d => !s.heldOff d && (s.route d).isSome

/-- Dispatch a shard to its next replica; the fuel is the number of replicas. A local query queue that is full is
answered as a PUT to it would be. -/
def State.dispatchShard (w : Nat) (id : BitVec 32) (i : Nat) : Nat → State → State
  | 0, s => s
  | fuel + 1, s =>
    match s.mergeRec w id with
    | none => s
    | some r =>
      match r.shards[i]? with
      | none => s
      | some x =>
        match s.nextReplica x with
        | none => s.mapRecord w id (MergeRec.mapShard i fun x => { x with current := none })
        | some dev =>
          let t := s.mapRecord w id (MergeRec.mapShard i fun x =>
            { x with tried := x.tried ++ [dev], current := some dev, dispatched := s.now, heard := false })
          if dev = s.devNum then
            if t.fabric.queue.length < 8192 then
              { t with fabric := { t.fabric with queue := t.fabric.queue ++ [(r.descriptor, BitVec.ofNat 12 dev, 0xFF)] } }
            else State.dispatchShard w id i fuel t
          else
            (t.issue opPut true dev (BitVec.ofNat 64 (dev * 2 ^ 52 + queryWindow)) 0 r.descriptor (.descriptor w id i dev) 128).getD t

/-- Take the next replica of a shard that has no result, and evaluate the record. -/
def State.redispatch (w : Nat) (id : BitVec 32) (i : Nat) (s : State) : State :=
  match s.mergeRec w id with
  | none => s
  | some r =>
    match r.shards[i]? with
    | none => s
    | some x => if x.result.isSome then s else (s.dispatchShard w id i 5).checkRecord w id

/-- A complete result of a shard, or a status that sends the lead to the next replica (R318). -/
def State.shardDone (w : Nat) (id : BitVec 32) (i dev : Nat) (p : ShardPart) (s : State) : State :=
  if stInvalid ≤ p.status && p.status ≤ stInternal then
    (if dev = s.devNum then s else s.holdOff dev).redispatch w id i
  else
    ((s.mapRecord w id (MergeRec.mapShard i fun x => { x with result := some p })).bump 0x830008).checkRecord w id

/-- A LATE marker reaches the record. -/
def State.lateMark (w : Nat) (id : BitVec 32) (i expected : Nat) (s : State) : State :=
  ((s.mapRecord w id fun r => { (r.mapShard i fun x => { x with late := some (x.late.getD expected), heard := true }) with
    lateAny := true }).bump 0x83000B).checkRecord w id

/-- A shard's entries arrive in a frame from a replica (R313, R314). -/
def State.shardFrame (w : Nat) (i dev : Nat) (h : MergeHead) (entries : List LEntry) (s : State) : State :=
  match s.mergeRec w h.id with
  | none => s
  | some r =>
    let x := (r.shards[i]?).getD { replicas := [] }
    let p := (look x.parts dev).getD {}
    let p := if (look p.seqs h.sequence).isSome then p
      else
        let p := { p with seqs := put h.sequence entries p.seqs }
        if h.last then { p with last := some h.sequence, status := h.status, flags := h.flags, tieBeyond := h.tieBeyond, hops := h.hops }
        else p
    let s := s.mapRecord w h.id (MergeRec.mapShard i fun x => { x with parts := put dev p x.parts, heard := true })
    if stInvalid ≤ h.status then s.shardDone w h.id i dev { p with status := h.status }
    else
      match p.last with
      | some n => if (List.range (n + 1)).all fun k => (look p.seqs k).isSome then s.shardDone w h.id i dev p else s.checkRecord w h.id
      | none => s.checkRecord w h.id

/-- A record whose bell or cutoff is due is evaluated before what is stamped at that time or after (R59, R61, R317). -/
def State.evaluateDue (w : Nat) (id : BitVec 32) (s : State) : State :=
  match s.mergeRec w id with
  | some r => if r.bell ≤ s.now || r.cutoff ≤ s.now then s.checkRecord w id else s
  | none => s

/-- A MERGE reaches merge window w from a device; its status (R303, R313). -/
def State.mergeIn (w dev : Nat) (b : Bytes) (s : State) : State × Byte :=
  let h := parseMerge b
  if !h.ok then (s, 0x1A)
  else
    let s := s.evaluateDue w h.id
    match s.mergeRec w h.id with
    | none => (s.bump 0x83000D, 0x15)
    | some r =>
      match r.shards[h.shard]? with
      | none => (s, 0x1A)
      | some x =>
        if !(r.shards.any fun y => (replicasOf y.replicas).contains dev) || x.result.isSome then (s.bump 0x83000D, 0x15)
        else if h.late then (s.lateMark w h.id h.shard h.expected, 0)
        else (s.shardFrame w h.shard dev h ((chunks 32 (h.count + 1) (b.drop 32)).map readEntry), 0)

/-! ## Shard results and markers -/

/-- Send one frame list to the lead: through the fabric, or straight into this device's own record. -/
def State.toLead (d : QueryDesc) (frames : List Bytes) (s : State) : State :=
  if d.leadDev = s.devNum then
    match windowAt (addrLocal d.mergeWindow) with
    | some w => frames.foldl (fun s f => (s.mergeIn w s.devNum f).1) s
    | none => s
  else s.sendFrames d.leadDev d.mergeWindow frames false

/-- A frame with a status and no entries (R311). -/
def State.shardFails (d : QueryDesc) (shard status flags : Nat) (s : State) : State :=
  s.toLead d (resultFrames (d.mergeHead shard status flags 0 0) [])

/-- A shard's query ends (R311, R315): nothing after its cutoff (point 5 of R50) unless the status is 0x11 or above. A cutoff first
found here makes it DEADLINE_PARTIAL (R175). It writes no result header, so the counts of header flags leave it out: the lead's header
counts (R197, R198; log entry 21, DEDUCED). -/
def State.deliverShard (q : Query) (shard : Nat) (f : Final) (status flags : Nat) (s : State) : State :=
  let s := s.countQuery (if status < stInvalid && q.cutoff ≤ s.now then stDeadline else status) 0
  if stInvalid ≤ status then s.shardFails q.d shard status flags
  else if q.cutoff ≤ s.now then s
  else
    let s := s.mapColl q.d.coll fun c => { c with recentHops := (q.hops :: c.recentHops).take 1024 }
    let s := { s with search := { s.search with
      recentPost := ((q.traversed.map (s.now - ·)).toList ++ s.search.recentPost).take 1024 } }
    s.toLead q.d (resultFrames (q.d.mergeHead shard status flags f.tieBeyond q.hops) (f.entries.take (if q.d.flag 2 then 2 * q.d.k else q.d.k)))

/-- A shard predicts a late result at a check, and marks it once (R316). -/
def State.markLate (qid : Nat) (q : Query) (shard : Nat) (s : State) : State :=
  let p := s.predict q
  if !q.lateSent && s.bellBefore q.d.mergeGrid q.cutoff < p && p < q.cutoff then
    let s := (s.mapQuery qid fun q => { q with lateSent := true }).bump 0x83000A
    s.toLead q.d [({ q.d.mergeHead shard 0 0 0 q.hops with late := true, expected := p } : MergeHead).bytes]
  else s

/-- A cutoff check (R50, R316): true where the query stops here. A shard also stops at its send-by time, and else
predicts. -/
def State.checkpoint (qid : Nat) (s : State) : State × Bool :=
  match s.query qid with
  | none => (s, true)
  | some q =>
    match q.client with
    | .spool _ _ _ => (s, q.cutoff ≤ s.now)
    | .peer _ _ shard =>
      if q.cutoff ≤ s.now || s.sendBy q ≤ s.now then (s, true) else (s.markLate qid q shard, false)

/-! ## The end of a query -/

/-- A query leaves its last stage, or is ended: what prefetch left over is discarded (R154), and it is finalised and completed to
its client. -/
def State.finishQuery (qid : Nat) (s : State) : State :=
  let s := s.dropPrefetch qid
  match s.query qid with
  | none => s
  | some q =>
    match q.lead.bind fun l => s.mergeRec l.1 l.2 with
    | some r => s.finaliseLead r q
    | none =>
      let f := s.finalOf q
      let st := statusOf (q.conds f)
      let s := s.countFinal q.d.filtered f
      match q.client with
      | .spool p n head => (s.deliver p n head q f st q.header 0 q.hops).leave qid
      | .peer _ _ shard => (s.deliverShard q shard f st q.header).leave qid

/-- End a query with a condition of R175. -/
def State.endQuery (qid : Nat) (f : Query → Query) (s : State) : State := (s.mapQuery qid f).finishQuery qid

end Sys2Proof.Machine
end

