-- ==== Sys2Proof/Machine/TunArray.lean ====
section
/-!
DEFINITION. The Tun array: operand classes and DPU lengths (R77), accumulators allowed (R78), shapes (R233,
R236), the limits of the Collector (R237), and the order in which an output element is summed (R235) in INT32,
FP32 and WX (R79 to R85, R239), with the distances that Tun gives a scan (R83, R86, R167). Readings the words leave to inference are
in log entry 25.
-/

namespace Sys2Proof.Machine

/-! ## Operand pairs (R77, R78) -/

/-- The class of a Tun operand: 0 binary, 1 4-bit, 2 6- and 8-bit, 3 16-bit; none for FP32 and INT32. -/
def operandClass : Fmt → Option Nat
  | .b1 => some 0
  | .int4 | .bg4 | .e2m1 => some 1
  | .e3m2 | .e2m3 | .int8 | .uint8 | .e4m3 | .e5m2 => some 2
  | .int16 | .fp16 | .bf16 => some 3
  | .fp32 | .int32 => none

/-- DPU length of a pair; none where R77 pairs the formats with nothing. -/
def dpuLength (a b : Fmt) : Option Nat :=
  match operandClass a, operandClass b with
  | some 0, some 0 => some 256
  | some 1, some 1 => some 64
  | some 3, some 3 => some 16
  | some x, some y => if (x = 1 || x = 2) && (y = 1 || y = 2) then some 32 else none
  | _, _ => none

/-- Accumulator codes of R247. -/
inductive Acc where
  | int32 | fp32 | wx
deriving DecidableEq, Repr

/-- An accumulator code. -/
def accOf : Nat → Option Acc
  | 0 => some .int32 | 1 => some .fp32 | 2 => some .wx | _ => none

/-- The accumulators R78 allows for a pair; `scaled` where either operand carries scales. -/
def accAllowed (a b : Fmt) (scaled : Bool) (c : Acc) : Bool :=
  match c with
  | .int32 => (a = .b1 && b = .b1) || (a.intRange.isSome && b.intRange.isSome && !scaled)
  | _ => !(a = .b1 && b = .b1)

/-! ## Shapes (R233, R236) -/

/-- Row groups, lanes and rows per lane of a shape code. -/
def shapeOf : Nat → Nat × Nat × Nat
  | 1 => (2, 2, 8) | 2 => (4, 4, 2) | 3 => (4, 8, 1) | _ => (1, 1, 32)

/-- K pass of a shape at a DPU length. -/
def passLen (shape l : Nat) : Nat := let g := shapeOf shape; g.1 * g.2.2 * l

/-- The shape a scan chooses: the first of T8, T4 and T2 whose K pass is at least n, else T1. -/
def scanShape (l n : Nat) : Nat :=
  if n ≤ passLen 3 l then 3 else if n ≤ passLen 2 l then 2 else if n ≤ passLen 1 l then 1 else 0

/-- Array steps that `cols` logical columns over `k` elements take: stationary blocks, one a pass (R232). -/
def arraySteps (shape l cols k : Nat) : Nat :=
  let w := 32 * (shapeOf shape).2.1
  ((cols + w - 1) / w) * ((k + passLen shape l - 1) / passLen shape l)

/-- Largest M of a multi-pass step (R237): the tile sets the Collector holds, 32 rows each. -/
def multiPassRows (shape : Nat) (wx second : Bool) : Nat :=
  32 * ((if wx then 21 else 64) / (if second then 2 else 1) / (shapeOf shape).2.1)

/-- Idle cycles that pacing inserts before issue units, counted in P7000.07: their number is the pacing loop's own, a free value
(R18, R242; log entry 25). -/
def State.paceCycles (s : State) : State :=
  if s.dev.pacing then (s.bumpBy 0x700007 (s.fresh.toNat % 2 ^ 32)).spend else s

/-- Count array steps of `rows` streamed rows in an issue-unit counter and in P7000.06 (R231). -/
def State.countUnits (k steps rows : Nat) (s : State) : State :=
  ((s.bumpBy k steps).bumpBy 0x700006 (steps * max rows 32)).paceCycles

/-- Count issue units whose number the manual does not give: of seam scoring and of Kiln statistics (R242, R254; log entry
25). -/
def State.openUnits (k : Nat) (s : State) : State := (s.countUnits k (s.fresh.toNat % 2 ^ 32) 32).spend

/-! ## Operands -/

/-- One K element range's operand as staged: per element its code value and its E8M0 exponent, offset and second-level
scale; `k` is its block size, 0 for none (R67, R68). -/
structure Operand where
  fmt : Fmt
  k : Nat
  second : Bool
  vals : List Num
  exps : List Int
  offs : List Dy
  s2 : List Dy
  bad : List Bool
deriving DecidableEq, Repr

/-- The elements `[i, i + w)` of an operand, a K pass of whole blocks inside one super-block (R232). -/
def Operand.slice (i w : Nat) (o : Operand) : Operand :=
  let o := { o with vals := (o.vals.drop i).take w }
  if o.k = 0 then o
  else
    let cut {α : Type} (l : List α) : List α := (l.drop (i / o.k)).take ((w + o.k - 1) / o.k)
    { o with exps := cut o.exps, offs := cut o.offs, bad := cut o.bad, s2 := (o.s2.drop (i / o.k / 256)).take 1 }

/-- The value list entry, +0 past the extent (R232). -/
def Operand.at (o : Operand) (i : Nat) : Num := (o.vals[i]?).getD (.fin false ⟨0, 0⟩)

/-- The block of an element. -/
def Operand.block (o : Operand) (i : Nat) : Nat := if o.k = 0 then 0 else i / o.k

/-- E8M0 exponent of an element's block; 0 where unscaled. -/
def Operand.exp (o : Operand) (i : Nat) : Int := if o.k = 0 then 0 else (o.exps[o.block i]?).getD 0

/-- Offset of an element's block. -/
def Operand.off (o : Operand) (i : Nat) : Dy := if o.k = 0 then ⟨0, 0⟩ else (o.offs[o.block i]?).getD ⟨0, 0⟩

/-- Second-level scale of an element's super-block; 1 where there is none. -/
def Operand.scale2 (o : Operand) (i : Nat) : Dy := if o.k = 0 || !o.second then one else (o.s2[o.block i / 256]?).getD one

/-- An element's block or super-block is invalid: it reads as NaN (R67, R68). -/
def Operand.invalid (o : Operand) (i : Nat) : Bool := o.k ≠ 0 && ((o.bad[o.block i]?).getD false)

/-- An element is finite. -/
def Operand.fin (o : Operand) (i : Nat) : Bool := (o.at i).finite && !o.invalid i

/-- The decoded value of an element (R68). -/
def Operand.decode (o : Operand) (i : Nat) : Num :=
  if o.invalid i then .nan false
  else if o.k = 0 then o.at i
  else
    match o.at i with
    | .fin g v =>
      let x := ((o.scale2 i).mul v).scale (o.exp i)
      if (o.off i).m = 0 then .fin g x else Num.ofDy ((o.off i).add x)
    | x => x

/-- Every element decoded. -/
def Operand.decoded (o : Operand) : List Num := (List.range o.vals.length).map o.decode

/-- Top-bit exponent that AUTO takes for an operand: the format's, or for FP16 and BF16 the largest present (R83). DESIGN CHOICE
(log entry 25): where no element is finite and non-zero no exponent is present, and -15 or -127 stands in. -/
def presentTop (f : Fmt) (os : List Operand) : Int :=
  if f = .fp16 || f = .bf16 then
    ((os.flatMap fun o => o.vals.filterMap fun v =>
      if v.finite && v.val.m ≠ 0 then some (Ratio.ofDy v.val.abs).top else none).foldl (fun m t => maxOpt m (some t)) none).getD
      (topBit f - 2 * topBit f)
  else topBit f

/-- The combined exponents of effective scales, the largest over the rows of a tile at one element. -/
def topScale (os : List Operand) (i : Nat) : Int :=
  ((os.map fun o => (Ratio.ofDy (o.scale2 i)).top + o.exp i).foldl (fun m t => maxOpt m (some t)) none).getD 0

/-- The binary point of a tile in AUTO mode and whether it was clamped (R83). -/
def autoPoint (as_ bs : List Operand) (k : Nat) : Int × Bool :=
  match as_, bs with
  | a :: _, b :: _ =>
    let starts := (List.range k).filter fun i => i = 0 || (a.k ≠ 0 && i % a.k = 0) || (b.k ≠ 0 && i % b.k = 0)
    let c := ((starts.map fun i => topScale as_ i + topScale bs i).foldl (fun m t => maxOpt m (some t)) none).getD 0
    let p := 70 - (presentTop a.fmt as_ + presentTop b.fmt bs + 1 + c + (if a.second || b.second then 1 else 0))
    if p < -512 then (-512, true) else if 511 < p then (511, true) else (p, false)
  | _, _ => (0, false)

/-! ## Summation (R79 to R85, R235, R239) -/

/-- The status bits of R87 a sum has set. -/
structure TileBits where
  inexact : Bool := false
  overflow : Bool := false
  special : Bool := false
  intSat : Bool := false
  fpSat : Bool := false
  convSat : Bool := false
  convNan : Bool := false
deriving DecidableEq, Repr

/-- The byte. -/
def TileBits.byte (t : TileBits) : Nat :=
  bitIf t.inexact 0 + bitIf t.overflow 1 + bitIf t.special 2 + bitIf t.intSat 3 + bitIf t.fpSat 4 + bitIf t.convSat 5 +
    bitIf t.convNan 6

/-- The bits of a byte. -/
def TileBits.ofByte (n : Nat) : TileBits :=
  { inexact := bit n 0, overflow := bit n 1, special := bit n 2, intSat := bit n 3, fpSat := bit n 4, convSat := bit n 5,
    convNan := bit n 6 }

/-- The bits of either. -/
def TileBits.join (a b : TileBits) : TileBits := TileBits.ofByte (a.byte ||| b.byte)

/-- A partial sum: its value on the accumulator's grid. -/
structure Part where
  v : Dy
  bits : TileBits
deriving DecidableEq, Repr

/-- FP32 rounding of v / s in the accumulator: saturation sets FP_SAT (R80). -/
def fpPart (v s : Dy) (b : TileBits) : Part :=
  let r := convertNum .fp32 false (Num.ofDy v) s
  ⟨(decodeNum .fp32 r.1).val, { b with fpSat := b.fpSat || r.2 == .sat }⟩

/-- INT32 saturation in the accumulator (R79); a value that is no integer enters under R75. -/
def intPart (v : Dy) (b : TileBits) : Part :=
  let r := convertNum .int32 false (Num.ofDy v) one
  ⟨(decodeNum .int32 r.1).val, { b with intSat := b.intSat || r.2 == .sat }⟩

/-- WX at point p: rounded to a multiple of 2^(−p), saturated (R82). -/
def wxPart (p : Int) (v : Dy) (b : TileBits) : Part :=
  let n := toPoint p v
  let c := wxClamp n.1
  ⟨⟨c.1, -p⟩, { b with inexact := b.inexact || n.2, overflow := b.overflow || c.2 }⟩

/-- A ratio rounded to a multiple of 2^(−p), with whether bits were lost. -/
def Ratio.toPoint (p : Int) (r : Ratio) : Int × Bool :=
  let n : Int := if r.neg then -(r.units (-p) : Int) else r.units (-p)
  (n, !((Dy.mk r.n r.e).eq ⟨n.natAbs * r.d, -p⟩))

/-- Take a value into the accumulator. -/
def takePart (acc : Acc) (p : Int) (v : Dy) (b : TileBits) : Part :=
  match acc with
  | .int32 => intPart v b
  | .fp32 => fpPart v one b
  | .wx => wxPart p v b

/-- Add two partial sums in the accumulator. -/
def addPart (acc : Acc) (p : Int) (x y : Part) : Part :=
  takePart acc p (x.v.add y.v)
    { inexact := x.bits.inexact || y.bits.inexact, overflow := x.bits.overflow || y.bits.overflow,
      special := x.bits.special || y.bits.special, intSat := x.bits.intSat || y.bits.intSat,
      fpSat := x.bits.fpSat || y.bits.fpSat }

/-- The products of the elements `[i, i + n)`, with their E8M0 scales. B1 multiplies signs. -/
def products (a b : Operand) (i n : Nat) : List Dy :=
  (List.range n).filterMap fun j =>
    if i + j < a.vals.length then some (((a.at (i + j)).val.mul (b.at (i + j)).val).scale (a.exp (i + j) + b.exp (i + j))) else none

/-- Elements of one run within one block of each operand, for the terms T_b. -/
def pieceLen (a b : Operand) (l : Nat) : Nat :=
  let l := if a.k = 0 then l else min l a.k
  if b.k = 0 then l else min l b.k

/-- T_b of R239 over a run of elements in one block: K z o + z s C + t o U, z and t of the streamed operand `a`. -/
def offsetTerm (a b : Operand) (i n : Nat) : Dy :=
  let n := min n (a.vals.length - i)
  let z := a.off i
  let o := b.off i
  let s := (b.scale2 i).scale (b.exp i)
  let t := (a.scale2 i).scale (a.exp i)
  let c := Dy.sum ((List.range n).map fun j => (b.at (i + j)).val)
  let u := Dy.sum ((List.range n).map fun j => (a.at (i + j)).val)
  (((Dy.ofInt n).mul (z.mul o)).add ((z.mul s).mul c)).add ((t.mul o).mul u)

/-- The terms T_b over `[i, i + n)`. -/
def offsetTerms (a b : Operand) (i n : Nat) : List Dy :=
  let g := max 1 (pieceLen a b n)
  if a.offs.isEmpty && b.offs.isEmpty then []
  else (List.range ((n + g - 1) / g)).filterMap fun j =>
    if i + g * j < a.vals.length then some (offsetTerm a b (i + g * j) g) else none

/-- The product of the second-level scales at an element: what stage 5 multiplies its super-block's partial by. -/
def pairScale (a b : Operand) (i : Nat) : Dy := (a.scale2 i).mul (b.scale2 i)

/-- Stage 1: what one DPU gives for elements `[i, i + l)` (R80, R82, R239). The products leave the second-level scales to stage 5;
the terms T_b, which hold them, enter divided by them, so that stage 5 gives each its value (log entry 25). DEDUCED (log entry 25): WX too
holds the products at the point b without those scales until stage 5, as R235 has it, so a scale far from 1 can round or saturate a sum
that R83 and R84 call exact. DEDUCED (log entry 25): in WX each product is rounded to the point, and the sum of a DPU, within which R235
gives no order, is held to the range as a whole. -/
def dpuSum (acc : Acc) (p : Int) (a b : Operand) (i l : Nat) : Part :=
  let ps := products a b i l
  let ts := offsetTerms a b i l
  let s := pairScale a b i
  match acc with
  | .wx =>
    let xs := ps.map (toPoint p) ++ ts.map fun v => (Ratio.div v s).toPoint p
    let c := wxClamp (xs.foldl (fun n x => n + x.1) 0)
    ⟨⟨c.1, -p⟩, { inexact := xs.any Prod.snd, overflow := c.2 }⟩
  | .fp32 => fpPart (((Dy.sum ps).mul s).add (Dy.sum ts)) s {}
  | .int32 => intPart (Dy.sum ps) {}

/-- A value of the accumulator as the word that the Collector holds: an INT32 or FP32 code, or the integer N of R81 at point p. -/
def accWord (acc : Acc) (p : Int) (v : Dy) : BitVec 96 :=
  match acc with
  | .wx => BitVec.ofInt 96 (unitsOf v (-p))
  | .fp32 => BitVec.ofNat 96 (convertNum .fp32 false (Num.ofDy v) one).1
  | .int32 => BitVec.ofNat 96 (convertNum .int32 false (Num.ofDy v) one).1

/-- The value of such a word. -/
def accValue (acc : Acc) (p : Int) (w : BitVec 96) : Dy :=
  match acc with
  | .wx => ⟨w.toInt, -p⟩
  | .fp32 => (decodeNum .fp32 w.toNat).val
  | .int32 => (decodeNum .int32 w.toNat).val

/-- Sum of a list of partial sums, the first taken as it stands. -/
def sumParts (acc : Acc) (p : Int) : List Part → Part
  | [] => ⟨⟨0, 0⟩, {}⟩
  | x :: r => r.foldl (addPart acc p) x

/-- pass_sum of R235 for the pass that begins at element `i`. -/
def passSum (acc : Acc) (p : Int) (shape l : Nat) (a b : Operand) (i : Nat) : Part :=
  let g := shapeOf shape
  let group (n : Nat) : Part :=
    sumParts acc p ((List.range g.2.2).map fun r => dpuSum acc p a b (i + l * (g.2.2 * n + r)) l)
  if g.1 = 4 then addPart acc p (addPart acc p (group 0) (group 1)) (addPart acc p (group 2) (group 3))
  else sumParts acc p ((List.range g.1).map group)

/-- Elements of a super-block of a pair: the smaller of those of the operands that carry second-level scales. -/
def superLen (a b : Operand) (k : Nat) : Nat :=
  let x := if a.second then 256 * a.k else k
  if b.second then min x (256 * b.k) else x

/-- Stage 5 for the super-block at `i`: its partial times the product of the two second-level scales, rounded (R80, R82). -/
def superPart (acc : Acc) (p : Int) (a b : Operand) (i : Nat) (x : Part) : Part := takePart acc p (x.v.mul (pairScale a b i)) x.bits

/-- A pair of operand rows holds a NaN or an infinity (R85). -/
def specialPair (a b : Operand) : Bool := (List.range a.vals.length).any fun i => !a.fin i || !b.fin i

/-- An output element in the Collector: its entry, the partial of its super-block, and the status bits set so far (R235, R237). -/
structure Elem where
  entry : Option Dy := none
  part : Option Dy := none
  bits : TileBits := {}
deriving DecidableEq, Repr

/-- A value added to what is held, which it begins where nothing is. -/
def addTo (acc : Acc) (p : Int) (x : Option Dy) (y : Part) : Part :=
  match x with
  | some v => addPart acc p ⟨v, {}⟩ y
  | none => y

/-- One pass of accumulate (R235, stages 4 and 5), over the slices of the operands that it covers; `ends` says that its super-block ends
with it. A pass with a NaN or an infinity sets SPECIAL, and the element is then summed no further (R85). -/
def Elem.pass (acc : Acc) (p : Int) (shape l : Nat) (ends : Bool) (a b : Operand) (x : Elem) : Elem :=
  if x.bits.special || specialPair a b then { x with bits := { x.bits with special := true } }
  else
    let y := passSum acc p shape l a b 0
    if !(a.second || b.second) then
      let e := addTo acc p x.entry y
      { x with entry := some e.v, bits := x.bits.join e.bits }
    else
      let z := addTo acc p x.part y
      if ends then
        let e := addTo acc p x.entry (superPart acc p a b 0 z)
        { entry := some e.v, part := none, bits := x.bits.join e.bits }
      else { x with part := some z.v, bits := x.bits.join z.bits }

/-- The super-block of a pair ends with the pass that ends at element `i` of `k`. -/
def superEnds (a b : Operand) (k i : Nat) : Bool := k ≤ i || i % max 1 (superLen a b k) = 0

/-- accumulate of R235 for one output element, from what its preload gives. -/
def accumulate (acc : Acc) (p : Int) (shape l : Nat) (pre : Elem) (a b : Operand) : Elem :=
  let k := a.vals.length
  let w := passLen shape l
  (List.range ((k + w - 1) / w)).foldl (fun x j =>
    x.pass acc p shape l (superEnds a b k (w * (j + 1))) (a.slice (w * j) w) (b.slice (w * j) w)) pre

/-! ## What a cluster holds (R230, R231, R241) -/

/-- An element as the Collector holds it. -/
def Elem.held (acc : Acc) (p : Int) (x : Elem) : CollEntry :=
  ⟨x.entry.map (accWord acc p), x.part.map (accWord acc p), x.bits.byte⟩

/-- An element that the Collector holds. -/
def CollEntry.elem (acc : Acc) (p : Int) (x : CollEntry) : Elem :=
  ⟨x.entry.map (accValue acc p), x.part.map (accValue acc p), TileBits.ofByte x.status⟩

/-- What a cluster holds. -/
def State.cluster (s : State) (n : Nat) : Cluster := (look s.tun.clusters n).getD {}

/-- Set what a cluster holds. -/
def State.setCluster (n : Nat) (f : Cluster → Cluster) (s : State) : State :=
  { s with tun := { s.tun with clusters := put n (f (s.cluster n)) s.tun.clusters } }

/-- Bytes of the Grist buffer (R230). -/
def gristBytes : Nat := 0x800000

/-- The codes of a stationary block of a scan: its last K pass, by logical column (R234). -/
def lastPass (w : Nat) (xs : List (List Nat)) : List (List Nat) := xs.map fun c => c.drop ((c.length - 1) / w * w)

/-- A scan's stationary loads go to the clusters in ascending order, one each in turn (R243). Each that took one is left with the last pass
of its last load in the active registers, that load and the one before in the scan region, and the query rows behind them (R241; log
entry 25); its multi-pass sums have left the Collector. -/
def State.loadScan (clusters : List Nat) (f : Fmt) (w cols : Nat) (queries : Bytes) (xs : List (List Nat)) (s : State) : State :=
  let loads := chunks cols (xs.length + 1) xs
  let bytes (l : List (List Nat)) : Bytes := l.flatMap (packCodes f.bits)
  clusters.zipIdx.foldl (fun (s : State) c =>
    let mine := (loads.zipIdx.filter fun x => x.2 % max 1 clusters.length = c.2).map Prod.fst
    match mine.reverse with
    | [] => s
    | a :: r => s.setCluster c.1 fun x => { x with
        active := lastPass w a, shadow := [], collector := [], scan := bytes a ++ bytes (r.headD []) ++ queries }) s

/-! ## Scans (R83, R86, R167, R236, R239) -/

/-- Exponents of the effective scales of a query encoding's blocks; none for a CONSTANT block. -/
def queryExps (e : Encoded) : List (Option Int) :=
  e.blocks.map fun b => if b.constant then none else some (Ratio.ofDy (effScale e.s2 b.exponent)).top

/-- Exponents of the effective scales of a record's blocks; none for a CONSTANT or invalid block. -/
def storedExps (st : Stored) : List (Option Int) :=
  (List.range st.exps.length).map fun b =>
    if (st.consts[b]?).getD false then none else (st.scale b).map fun s => (Ratio.ofDy s).top

/-- The largest combined exponent of a query block and the stored block at its place. -/
def pairExp (a b : List (Option Int)) : Option Int :=
  (List.zipWith (fun x y => match x, y with | some u, some v => some (u + v) | _, _ => none) a b).foldl maxOpt none

/-- The binary point of a scan tile, and whether it was clamped (R83). -/
def tilePoint (auto : Bool) (fixed : Int) (fmt : Fmt) (qs xs : List (List (Option Int))) : Int × Bool :=
  if !auto then (fixed, false)
  else
    let c := ((qs.flatMap fun q => xs.map (pairExp q)).foldl maxOpt none).getD 0
    let b := 70 - (topBit .int8 + topBit fmt + 1 + c + 1)
    if b < -512 then (-512, true) else if 511 < b then (511, true) else (b, false)

/-- A query encoding as the streamed operand: a CONSTANT block's codes count as 0, and z_b is 0 (R110, R239). -/
def scanQuery (k : Nat) (e : Encoded) : Operand :=
  { fmt := .int8, k := k, second := true,
    vals := ((chunks k (e.codes.length + 1) e.codes).zip e.blocks).flatMap fun x =>
      x.1.map fun c => if x.2.constant then Num.ofDy ⟨0, 0⟩ else decodeNum .int8 c,
    exps := e.blocks.map fun b => (b.exponent : Int) - 127, offs := [], s2 := [(decodeNum .fp16 e.s2).val],
    bad := [] }

/-- A record as the stationary operand: a CONSTANT block enters with its scale, and so its code term, 0 (R239). -/
def scanStored (fmt : Fmt) (k : Nat) (st : Stored) : Operand :=
  { fmt := fmt, k := k, second := true,
    vals := ((chunks k (st.codes.length + 1) st.codes).zip st.consts).flatMap fun x =>
      x.1.map fun c => if x.2 then Num.ofDy ⟨0, 0⟩ else decodeNum fmt c,
    exps := st.exps.map fun e => (e : Int) - 127, offs := st.offs.map fun o => (f32 o).val,
    s2 := [(decodeNum .fp16 st.s2).val], bad := [] }

/-- A Tun scan distance: the value with what P5010 counts, the tile status bits it sets, and its output conversion (R86). -/
structure ScanCell where
  score : F32 × ConvMark
  status : Nat := 0
  out : ConvMark := .plain
deriving DecidableEq, Repr

/-- The WX dot product of a query encoding and a record at point `b` (R82, R86, R235, R239). -/
def wxDot (fmt : Fmt) (k n : Nat) (b : Int) (q : Encoded) (st : Stored) : F32 × Nat × ConvMark :=
  let x := scanQuery k q
  let y := scanStored fmt k st
  let r := accumulate .wx b (scanShape 32 n) 32 {} x y
  if r.bits.special || !(q.decoded ++ st.vals).all Num.finite then (0x7FC00000, TileBits.byte { special := true }, .nanPassed)
  else
    let out := convertNum .fp32 false (Num.ofDy (r.entry.getD ⟨0, 0⟩)) one
    (BitVec.ofNat 32 out.1, TileBits.byte { r.bits with convSat := out.2 == .sat }, out.2)

/-- A Tun scan distance at a tile's point. -/
def scanDistance (q : Prep) (enc : Encoded) (p : EncP) (b : Int) (st : Stored) : ScanCell :=
  if q.dist = distHam then
    { score := scoreRound (Num.ofDy ⟨((List.zipWith (fun (y x : Num) => if y.sign = x.sign then 0 else 1) q.y st.vals).sum : Nat), 0⟩) }
  else
    let d := wxDot p.fmt p.k p.n b enc st
    { score := scoreRound (dotForm q.dist (gainLog2 p.rotate p.n) q.qn st.norm (f32 d.1)), status := d.2.1, out := d.2.2 }

end Sys2Proof.Machine
end

