-- ==== Sys2Proof/Machine/Search.lean ====
section
/-!
DEFINITION. The search pipeline: arrival, traversal (R153 to R155), scans (R165 to R167, R196), rerank (R164), HYBRID
and GET_BY_VID (R168, R169), and the waits for space (R183, R280, R312).
-/

namespace Sys2Proof.Machine

/-! ## Preparing a query (R111, R112, R146) -/

/-- The prepared query of a search on its collection. -/
def Query.prep (q : Query) (c : Coll) : Prep :=
  let y := q.rotated.map f32
  ⟨c.codeP, c.d.distance, c.program, y, normSq c.weights c.codeP.n y⟩

/-- The conversions of a lookup table (R74, R112). -/
def lutCount (f : Fmt) (wy : List Num) : ConvCount :=
  match lutVm f with
  | none => {}
  | some vm =>
    let e := lutExp vm wy
    wy.foldl (fun k y => (List.range 16).foldl (fun k c =>
      k.add (convertNum .int16 false (y.mul (decodeNum f c)) ⟨1, e⟩).2) k) {}

/-- An encode batch pauses for a build where every online Kiln unit of the query's half runs one (R21, R24, R91; log entry 22); a half with
none online pauses none. -/
def State.yields (s : State) (h : Half) : Nat :=
  if !(s.kilnsUp h).isEmpty && (s.kilnsUp h).all fun u => s.encodes.any fun j => j.unit = u then 1 else 0

/-- The bytes of a lookup table: header, entries by coordinate and code, row sums (R112). -/
def Prep.table (p : Prep) (code : Nat) : Bytes :=
  let wy := weighted p.p.weights p.y
  let e := match lutVm p.p.fmt with | some vm => lutExp vm wy | none => 0
  lutHeader p.p code false e p.qn (lutContexts p.p.n) ++
    (wy.flatMap fun y => (List.range 16).flatMap fun c => natLE 2 (unsigned 16 (lutEntry p.p.fmt e y c))) ++
    (rowSums p.p.k wy).flatMap fun r => natLE 4 r.toNat

/-- The bytes of the INT8 encoding of a query with the row sums U_b of its blocks, INT32 (R110, R111). -/
def int8Bytes (k : Nat) (e : Encoded) : Bytes :=
  packCodes 8 e.codes ++ (chunks k (e.codes.length / max k 1 + 1) e.codes).flatMap fun b =>
    natLE 4 (unsigned 32 ((b.map (signed 8)).sum))

/-- Kiln builds the rotated query, the table and the INT8 encoding (R111, R157), in the query's working area; the table also goes
into a context of one of its Needle's score units. DESIGN CHOICE (log entry 21): the plan of every query whose distance Tun scores counts as
one with a Tun scan, in PS2 too, where its baste scan runs on score units (R167), so the INT8 encoding is written in every power state; and
P6000.03 counts the CONSTANT blocks of batches and inserts (R120), not those of this encoding. -/
def State.buildTable (q : Query) (c : Coll) (s : State) : State :=
  let p := q.prep c
  let lut := tableMode p.p.fmt p.dist
  let scan := tunDistance p.dist && p.dist ≠ distHam
  let s := s.mapQuery q.id fun q => { q with work :=
    ⟨q.rotated.flatMap fun y => natLE 4 y.toNat, if lut then p.table c.d.codeFormat else [],
     if scan then int8Bytes p.p.k (queryInt8 p) else []⟩ }
  let s := if lut then
      ((((s.countKiln (lutCount p.p.fmt (weighted p.p.weights p.y))).placeTable q.id q.needle (lutContexts p.p.n)).bump 0x600002).bumpBy
        0x600006 (s.yields q.half))
    else s
  if scan then s.countKiln (queryInt8 p).count else s

/-- Kiln writes only the header of a table for a query vector that holds an infinity, NONFINITE set (R114). -/
def State.refuseTable (q : Query) (c : Coll) (s : State) : State :=
  if tableMode c.codeP.fmt c.d.distance then
    s.mapQuery q.id fun q => { q with work := { table := lutHeader c.codeP c.d.codeFormat true 0 0 (lutContexts c.codeP.n) } }
  else s

/-! ## Considering a slot (R152, R153) -/

/-- A slot that classify gives as visible. -/
def Slot.searchable (g : Nat) (x : Slot) : Bool := x.visible g && !x.nonfinite

/-- What considering slots gives: the query, the distances to count, the attribute records evaluated, and the slots
born after the snapshot. -/
structure Walk where
  q : Query
  marks : List ConvMark := []
  evals : Nat := 0
  skips : Nat := 0
deriving DecidableEq, Repr

/-- The distance would enter the first l places. -/
def Query.enters (q : Query) (dist : F32) : Bool :=
  match q.list[q.beam - 1]? with
  | some e => distKey dist ≤ distKey e.dist
  | none => true

/-- Insert a scored slot into the query's list, in its mode (R182, R184, R188). -/
def Query.insert (q : Query) (e : LEntry) : Query :=
  if q.long then
    let r := insertLong q.cap e q.list q.tau q.tie
    { q with list := r.1, tau := r.2.1, tie := r.2.2 }
  else
    let r := insertEntry q.cap e q.list q.tie
    { q with list := r.1, tie := r.2 }

/-- A list entry of a slot at code level. -/
def slotEntry (dev w : Nat) (x : Slot) (dist : F32) (shown fails : Bool) : LEntry :=
  { vid := x.vid, dist := dist, returnable := shown && !fails && !f32Nan dist, filteredOut := shown && fails && !f32Nan dist,
    rerank := false, baste := false, listed := false, expanded := false, shard := dev, version := x.birth,
    codeDist := dist, ref := w }

/-- consider(w) of R153. -/
def considerSlot (c : Coll) (p : Prep) (dev : Nat) (a : Walk) (w : Nat) : Walk :=
  if a.q.visited.contains w then a
  else
    let x := c.slot w
    let r := codeDistance p c.d.codeHeaded x.code
    let a := { a with q := { a.q with visited := w :: a.q.visited }, marks := r.2 :: a.marks }
    if !a.q.enters r.1 then a
    else if x.st = .free then a
    else if a.q.snapshot < x.birth then { a with skips := a.skips + 1 }
    else if x.nonfinite then a
    else
      let shown := x.visible a.q.snapshot
      if !shown && a.q.d.flag 4 then a
      else
        let asks := a.q.d.filtered && shown
        let fails := asks && !passes c.d.schema a.q.filter x.attrs
        { a with q := a.q.insert (slotEntry dev w x r.1 shown fails), evals := a.evals + if asks then 1 else 0 }

/-- Consider slots in order, and count. -/
def State.considerAll (qid : Nat) (ws : List Nat) (s : State) : State :=
  match s.query qid with
  | none => s
  | some q =>
    match s.coll q.d.coll with
    | none => s
    | some c =>
      let a := ws.foldl (considerSlot c (q.prep c) s.devNum) { q := q }
      (((s.mapQuery qid fun _ => a.q).countScores a.marks).bumpBy 0x504006 a.evals).bumpBy 0x502006 a.skips

/-- The unit that scores the lines of a query where the command names none: one that holds its table, else the first. -/
def State.scoreUnit (s : State) (q : Query) : Nat :=
  let us := s.unitsOf q.needle
  ((us.find? fun u => (lookDef [] s.search.score u).contains q.id).orElse fun _ => us.head?).getD (3 * q.needle)

/-- Score lines of a query on a unit. -/
def State.useUnit (q : Query) (u : Nat) (s : State) : State :=
  match s.coll q.d.coll with
  | some c => if lookupMode c.codeP.fmt c.d.distance then s.residence q.id u (lutContexts c.codeP.n) else s
  | none => s

/-- Score the lines of slots that were not met before and whose lines no unit has scored ahead; without any, no unit is used
(R154, R157). -/
def State.scoreSlots (q : Query) (ws : List Nat) (s : State) : State :=
  if ws.all fun w => q.visited.contains w || q.lines.contains w then s else s.useUnit q (s.scoreUnit q)

/-! ## Ends of stages -/

/-- A cutoff check stops the query (R50, R175, R176). -/
def State.cutQuery (qid : Nat) (s : State) : State :=
  s.endQuery qid fun q =>
    let left := match q.stage with | .waiting | .hops | .pass | .flatWait | .flat | .rerank => true | _ => false
    { q with cut := true, rerankCut := left && (0 < q.rerankDepth || q.d.opcode = 4), basteCut := !q.basteRan,
             traversed := some (q.traversed.getD s.now) }

/-- A query has done its rerank, and joins a baste batch, unless its cutoff is reached (R165, R176). -/
def State.joinBaste (qid : Nat) (s : State) : State :=
  let r := s.checkpoint qid
  let s := r.1.mapQuery qid fun q => { q with stage := .basteWait, joinedAt := s.now }
  if r.2 then s.cutQuery qid else s

/-- Places in the list of the candidates to rerank: the first rerank_depth returnable ones (R164). -/
def Query.rerankPlaces (q : Query) : List Nat :=
  ((q.list.zipIdx.filter fun x => x.1.returnable).map Prod.snd).take q.rerankDepth

/-- Traversal or a scan of codes has ended: rerank starts, or the query goes on to the baste scan. -/
def State.startRerank (qid : Nat) (s : State) : State :=
  match s.query qid with
  | none => s
  | some q =>
    if q.rerankPlaces.isEmpty && q.listedVids.isEmpty then s.joinBaste qid
    else
      let r := s.checkpoint qid
      if r.2 then r.1.cutQuery qid else r.1.mapQuery qid fun q => { q with stage := .rerank }

/-- Traversal ends (R155): prefetched lists and lines that nothing used are discarded (R154). -/
def State.endTraversal (qid : Nat) (s : State) : State :=
  ((s.dropPrefetch qid).mapQuery qid fun q => { q with traversed := some s.now }).startRerank qid

/-- The next hop of R153: the best candidate not yet expanded, with its prefetch, or the end of the traversal. -/
def State.nextHop (qid : Nat) (s : State) : State :=
  match s.query qid with
  | none => s
  | some q =>
    let open_ := (q.list.take q.beam).filter fun e => !e.expanded
    match open_ with
    | [] => s.endTraversal qid
    | u :: rest =>
      if q.hops = q.maxHops then (s.mapQuery qid fun q => { q with hopLimit := true }).endTraversal qid
      else
        let r := s.checkpoint qid
        if r.2 then r.1.cutQuery qid
        else
          r.1.mapQuery qid fun q =>
            { q with current := some u.ref, lastHop := s.now,
                     requested := (((rest.take q.prefetch).map LEntry.ref) ++ [u.ref]).foldl
                       (fun l v => if l.contains v then l else l ++ [v]) q.requested }

/-! ## Launch (point 1 of R50) -/

/-- A query with its space begins: the check of point 1, Kiln's outputs, and its first stage. -/
def State.begin (qid : Nat) (s : State) : State :=
  let r := s.checkpoint qid
  if r.2 then r.1.cutQuery qid
  else
    match r.1.query qid with
    | none => r.1
    | some q =>
      match r.1.coll q.d.coll with
      | none => r.1
      | some c =>
        let s := r.1.buildTable q c
        if q.d.opcode = 2 then
          if s.tunPowered && s.anyTun then s.mapQuery qid fun q => { q with stage := .flatWait, joinedAt := s.now }
          else s.endQuery qid fun q => { q with degraded := true, powerLimited := !s.tunPowered }
        else if q.pass then
          if c.highWater = 0 then
            (s.mapQuery qid fun q => { q with stage := .pass, passDone := true, traversed := some s.now }).startRerank qid
          else s.mapQuery qid fun q => { q with stage := .pass }
        else (((s.mapQuery qid fun q => { q with stage := .hops }).scoreSlots q c.entries).considerAll qid c.entries).nextHop qid

/-- Open a lead's merge record and dispatch every shard (R312). -/
def State.openRecord (q : Query) (w : Nat) (c : Coll) (s : State) : State :=
  let r : MergeRec := { window := w, id := q.d.queryId, query := q.id, k := q.d.k, cutoff := q.cutoff,
                        bell := s.bellBefore q.d.mergeGrid q.cutoff, grid := q.d.mergeGrid, descriptor := q.d.raw,
                        shards := c.shardMap.map fun l => { replicas := l } }
  let s := ({ s with fabric := { s.fabric with records := s.fabric.records ++ [r] } }).bump 0x830007
  let s := s.mapQuery q.id fun q => { q with stage := .merging }
  ((List.range r.shards.length).foldl (fun s i => s.dispatchShard w q.d.queryId i 5) s).checkRecord w q.d.queryId

/-- A waiting query that holds no list yet moves to an online Lauter unit of its half where its own is gone (R178). -/
def State.rehome (q : Query) (s : State) : Nat :=
  match q.lead with
  | some l => s.windowUnit l.1
  | none => if q.held || !bit s.units.lauter.toNat q.lauter then q.lauter else s.chooseLauter q.d.graph q.half q.needle

/-- Reserve the query's list space, or wait for it: each wait is counted once (R182, R183). -/
def State.takeList (q : Query) (c : Coll) (s : State) : State :=
  let x := q.space c (s.crowded q)
  if q.held then s
  else if s.listFits x then
    ((s.mapQuery q.id fun q => { q with held := true, spill := x.spill, overflow := x.overflow, long := x.long }).bumpBy 0x503009
      (if x.spill ≠ 0 then 1 else 0)).bumpBy 0x50300A (if x.long then 1 else 0)
  else (if q.waited then s else s.bump 0x503005).mapQuery q.id fun q => { q with waited := true }

/-- Reserve the query's working pages, or wait for them (R280). -/
def State.takePages (q : Query) (c : Coll) (s : State) : State :=
  let n := (q.space c false).pages
  if n ≤ q.pages then s
  else if n ≤ s.pagesFree then s.mapQuery q.id fun q => { q with pages := n }
  else (if q.pageWait then s else s.bump 0x320007).mapQuery q.id fun q => { q with pageWait := true }

/-- Try to start a query that has passed its arrival checks: its list space and its working pages, and for a lead a merge record,
are each taken or waited for (R183, R280, R312), and with all of them it begins. -/
def State.launch (qid : Nat) (s : State) : State :=
  match s.query qid with
  | none => s
  | some q =>
    match s.coll q.d.coll with
    | none => s
    | some c =>
      let s := s.mapQuery qid fun q => { q with lauter := s.rehome q }
      let q := { q with lauter := s.rehome q }
      let s := (s.takeList q c).takePages q c
      match s.query qid with
      | none => s
      | some q =>
        if !q.held || q.pages < (q.space c false).pages then s
        else
          match q.lead with
          | some l =>
            if 64 ≤ s.windowRecords l.1 then
              (if q.recordWait then s else s.bump 0x83000E).mapQuery qid fun q => { q with recordWait := true }
            else s.openRecord q l.1 c
          | none => s.begin qid

/-! ## Arrival (R149, R151, R311, R312) -/

/-- Who reads an entry: its client, its port and tenant (none for a shard), and the half preferred on a tie. -/
structure Asker where
  client : Client
  who : Option (Port × Nat)
  pref : Half
deriving DecidableEq, Repr

/-- Complete an entry at its arrival. -/
def State.endEarly (r : Asker) (d : QueryDesc) (status flags snapshot : Nat) (s : State) : State :=
  let f := filterFlags d.filtered false + flags
  match r.client with
  | .spool p n head =>
    s.endEmpty p n head ((r.who.map Prod.snd).getD 0)
      { d := d, status := status, count := 0, flags := f, hops := 0, snapshot := snapshot, arrival := s.now, needle := 0xFFFF }
  | .peer _ _ shard =>
    let s := s.countQuery status f
    if stInvalid ≤ status then s.shardFails d shard status f else s

/-- The VIDs an entry lists. -/
def State.listedVids (s : State) (d : QueryDesc) : List (BitVec 64) :=
  if !d.hasList then []
  else
    let b := if d.opcode = 3 && d.flag 0 then d.inline else s.mem.read d.vidList (8 * d.listCount)
    (List.range d.listCount).map fun i => BitVec.ofNat 64 (field b (8 * i) 8)

/-- The query of an entry that passed its checks, with the defaults in force at its arrival (R146, R182, R195, R196). DESIGN CHOICE (log
entry 21): P6000.04 counts encoded vectors (R100, R120), and a query, which has no vector record, is none of them. -/
def State.makeQuery (r : Asker) (d : QueryDesc) (c : Coll) (needle : Nat) (vec : List Num) (nanMapped : Bool) (s : State) : Query :=
  let beam0 := if d.beam = 0 then s.num 0x500001 else d.beam
  let depth := if d.rerankDepth = 0 then s.num 0x500003 else if d.rerankDepth = 0xFFFF then 0 else d.rerankDepth
  let due := c.d.rerankFormat.isSome && !(d.opcode = 2 && d.flag 5)
  let ops := if d.filtered then readFilter (s.filterBytes d) else []
  let sel := if d.filtered then selectivityOf c.d.schema c.hists ops else (1, 1)
  let pass := d.graph && d.filtered && choosesPass sel (BitVec.ofNat 32 (s.num 0x504001))
  let eff := max beam0 d.k
  let wide := if d.graph && d.filtered && !pass then widenedBeam eff (s.num 0x504002) sel else eff
  let kk := if d.flag 2 then 2 * d.k else d.k
  let lead := if d.fleet && r.who.isSome then (windowAt (addrLocal d.mergeWindow)).map fun w => (w, d.queryId) else none
  let half := s.chooseHalf (fun h => if d.opcode = 2 then s.halfScans c.d.distance h else s.halfServes (d.graph && lead.isNone) h) r.pref
  let n := if d.graph && lead.isNone then s.chooseNeedle half needle else 0xFFFF
  let rot := (rotateVec c.codeP.rotate c.codeP.seed c.codeP.n (padVec c.codeP.n c.codeP.d vec)).1
  { id := s.search.nextId, client := r.client, d := d, arrival := s.now, cutoff := s.cutoffOf d.deadline,
    snapshot := s.snapshotNow, stage := .waiting, half := half, needle := n,
    lauter := match lead with | some l => s.windowUnit l.1 | none => s.chooseLauter d.graph half n,
    beam := wide, cap := if d.graph && !pass && lead.isNone then max wide kk else kk,
    maxHops := if d.maxHops = 0 then s.num 0x500002 else d.maxHops,
    rerankDepth := if due then depth else 0, prefetch := if d.prefetch = 0xFF then s.num 0x500004 else d.prefetch,
    vec := vec.map elementF32, rotated := rot.map elementF32, finite := vec.all Num.finite, filter := ops, selectivity := sel, pass := pass,
    listedVids := if d.opcode = 4 then s.listedVids d else [], nanMapped := nanMapped,
    nonfinite := !(vec.all Num.finite) && c.d.distance ≠ distHam, widened := eff < wide, lead := lead }

/-- The versions of a VID that a snapshot sees: the slot or the baste entry with the highest, unless a visible delete is
higher (R168). -/
def State.findVid (s : State) (c : Coll) (vid : BitVec 64) (g arrival : Nat) : Option (Nat × Sum Nat BasteEntry) :=
  let slots : List (Nat × Sum Nat BasteEntry) := (c.lookupVid vid).filterMap fun n =>
    if (c.slot n).visible g then some ((c.slot n).birth, Sum.inl n) else none
  let bs : List (Nat × Sum Nat BasteEntry) := (s.muts.baste.filter fun e => e.vid = vid && e.insert && e.scanned c.d.handle g arrival).map
    fun e => (e.version, Sum.inr e)
  let best := (slots ++ bs).foldl (fun (b : Option (Nat × Sum Nat BasteEntry)) x => match b with
    | none => some x
    | some y => if y.1 < x.1 then some x else some y) none
  match best with
  | some x => if (s.basteDeletes c.d.handle g arrival).any fun d => d.1 = vid && x.1 < d.2 then none else some x
  | none => none

/-- One 64-byte record of GET_BY_VID (R168). -/
def State.getRecord (s : State) (c : Coll) (vid : BitVec 64) (g : Nat) : Bytes × Bool :=
  let rec_ (v slot flags : Nat) (attrs : Bytes) : Bytes :=
    natLE 8 vid.toNat ++ natLE 8 v ++ natLE 4 slot ++ natLE 2 flags ++ natLE 2 s.devNum ++ zeros 8 ++
      padTo 32 (if c.d.attrFields = 0 then [] else attrs)
  match s.findVid c vid g s.now with
  | some (v, .inl n) => (rec_ v n 0 (c.slot n).attrs, true)
  | some (v, .inr e) => (rec_ v 0xFFFFFFFF 2 e.attrs, true)
  | none => (rec_ 0 0xFFFFFFFF 1 [], false)

/-- Answer a GET_BY_VID. -/
def State.answerGet (r : Asker) (d : QueryDesc) (c : Coll) (s : State) : State :=
  let g := s.snapshotNow
  let rs := (s.listedVids d).map fun v => s.getRecord c v g
  let n := (rs.filter Prod.snd).length
  let st := if n = rs.length then stOk else stFewer
  match r.client with
  | .spool p m head =>
    let x : Done := { d := d, status := st, count := n, flags := 0, hops := 0, snapshot := g, arrival := s.now, needle := 0xFFFF }
    (((s.writeArea d (rs.map Prod.fst).flatten x 0 0).countWrite (s.cutoffOf d.deadline) d.deadline).countQuery st 0).endEntry p m head x
  | .peer _ _ _ => s

/-- The arrival of a query entry (R149). -/
def State.arrive (r : Asker) (d : QueryDesc) (c : Option Coll) (needle : Nat) (s : State) : State :=
  match s.arrivalStatus r.who d c, c with
  | some (st, fl), _ => s.endEarly r d st fl 0
  | none, none => s
  | none, some c =>
    if d.opcode = 3 then s.answerGet r d c
    else
      let v := sourceVec d.format d.dim (if d.flag 0 then d.inline else s.mem.read d.vecAddr d.vecBytes)
      let bad := v.any Num.isNan
      if bad && !d.flag 3 then s.endEarly r d stInvalid 0 s.snapshotNow
      else
        let v := v.map fun x => if x.isNan then .inf false else x
        let q := s.makeQuery r d c needle v bad
        let s := { s with search := { s.search with nextId := s.search.nextId + 1, queries := s.search.queries ++ [q] } }
        if q.nonfinite && q.lead.isNone then (s.refuseTable q c).finishQuery q.id else s.launch q.id

/-! ## Reading entries (R144, R148, R311, R333) -/

/-- The spool's entries can be read: R333, and its tenant's IDE rule (R424). -/
def State.readable (s : State) (x : SubSpool) : Bool := s.canRead x && s.ideOk x.port x.tenant.toNat

/-- A replay of the collection runs, so MUTATE entries for it wait (R227). -/
def State.replaying (s : State) (h : Nat) : Bool :=
  s.muts.jobs.any fun j => j.coll = some (BitVec.ofNat 16 h) && j.status.isNone && match j.work with | .replay _ => true | _ => false

/-- Records have been accepted at this fleet time for a spool that comes later in the order of R204: Port A first, then ascending spool
number. DESIGN CHOICE (log entry 23): a mutation entry of an earlier spool is then read at a later fleet time, so that the records accepted
at one fleet time stand in that order. -/
def State.outOfOrder (s : State) (x : SubSpool) : Bool :=
  s.muts.lastPlace.1 = s.stamp && intakePlace (.spool x.port x.num) < s.muts.lastPlace.2

/-- The entry at the head of a spool does not wait: a graph search for a Needle context (R148), a mutation behind a record that waits
(R208) or for its turn in the order of R204, or a MUTATE behind a replay of its collection (R227). -/
def State.headReady (s : State) (x : SubSpool) : Bool :=
  let b := s.headEntry x
  let o := field b 0 1
  if x.mutation then !s.muts.jobs.any MutJob.waiting && !s.outOfOrder x && !(o = 0x20 && s.replaying (field b 2 2))
  else !(o = 1 || o = 4) || s.contextReady

/-- The fleet query window has an entry that can be read. -/
def State.fleetReady (s : State) : Bool :=
  match s.fabric.queue with
  | [] => false
  | (b, _, _) :: _ => s.intake && (!(field b 0 1 = 1 || field b 0 1 = 4) || s.contextReady)

/-- The places of the intakes whose next entry can be read (R333). -/
def State.readyPlaces (s : State) : List Nat :=
  (s.spools.sub.filter fun x => s.readable x && s.headReady x).map (fun x => intakePlace (.spool x.port x.num)) ++
    if s.fleetReady then [intakePlace .fleet] else []

/-- The place whose turn it is (R333): the one whose turn goes on, else the next in the round of those with an entry to read. -/
def State.turnOf (s : State) : Option Nat :=
  let l := s.readyPlaces
  let t := s.spools.turn
  if 0 < t.2 && l.contains t.1 then some t.1
  else match (l.filter (t.1 < ·)).min? with
    | some n => some n
    | none => l.min?

/-- It is an intake's turn, and its next entry can be read. -/
def State.hasTurn (s : State) (i : Intake) : Bool := s.turnOf = some (intakePlace i)

/-- A control core reads the entry at the head of a query spool, where it is one of the row's opcode; an entry of no
known opcode completes with INVALID_INPUT whichever row reads it (R144, log entry 21). -/
def State.readQuery (p : Port) (n : Byte) (op needle : Nat) (s : State) : State :=
  match s.subSpool p n with
  | none => s
  | some x =>
    if x.mutation || !s.hasTurn (.spool p n) then s
    else
      let b := s.headEntry x
      let o := field b 0 1
      let head := (x.head + 1).toNat
      let take : State := (s.takeTurn (intakePlace (.spool p n)) x.weight).takeEntry p n
      if !isQueryOpcode o && o ≠ 0x40 then (take.complete p n head (field b 4 4) 0 0 o stInvalid).bump 0x502001
      else if o ≠ op then s
      else
        let d := parseQuery b
        take.arrive ⟨.spool p n head, some (p, x.tenant.toNat), portHalf p⟩ d (s.collFor d.coll x.tenant.toNat) needle

/-- The shard a peer answers as: the record that lists its own number, and where none does an open value, for which the manual
gives no shard index (R311; log entry 21). -/
def State.ownShard (s : State) (c : Option Coll) : Nat := (c.bind fun c => c.shardOf s.devNum).getD (s.fresh.toNat % 2 ^ 16)

/-- A control core reads the descriptor at the head of the fleet query queue and makes the arrival checks, with the source device
in place of the tenant (R311). -/
def State.readFleet (op needle : Nat) (s : State) : State :=
  match s.fabric.queue with
  | [] => s
  | (b, dev, link) :: rest =>
    let o := field b 0 1
    if !s.hasTurn .fleet || (isQueryOpcode o && o ≠ op) then s
    else
      let d := parseQuery b
      let c := s.coll d.coll
      let r : Asker := ⟨.peer dev link (s.ownShard c), none, halfOfLink link⟩
      let t := { (s.takeTurn (intakePlace .fleet) 1).hostWork with fabric := { s.fabric with queue := rest } }
      let t := if (c.bind fun c => c.shardOf s.devNum).isNone then t.spend else t
      if !isQueryOpcode o then t.endEarly r d stInvalid 0 0
      else match c.filter fun c => c.st ≠ .deleting && (c.shardOf s.devNum).isSome && (c.shardOf dev.toNat).isSome with
        | none => t.endEarly r d stNoColl 0 0
        | some c => if d.fleet then t.arrive r d (some c) needle else t.endEarly r d stInvalid 0 0

/-- Read a query entry. -/
def State.readEntryOf (i : Intake) (op needle : Nat) (s : State) : State :=
  match i with
  | .spool p n => s.readQuery p n op needle
  | .fleet => s.readFleet op needle

/-- GRAPH_SEARCH (R153). -/
def execGraphSearch (i : Intake) (needle : Fin 64) (s : State) : Result := .next (s.readEntryOf i 1 needle.val)

/-- FLAT_SCAN (R166). -/
def execFlatScan (i : Intake) (s : State) : Result := .next (s.readEntryOf i 2 0)

/-- GET_BY_VID (R168). -/
def execGetByVid (i : Intake) (s : State) : Result := .next (s.readEntryOf i 3 0)

/-- HYBRID (R169). -/
def execHybrid (i : Intake) (needle : Fin 64) (s : State) : Result := .next (s.readEntryOf i 4 needle.val)

/-! ## Traversal events -/

/-- A hop ends: its time, and what it expanded, are counted. -/
def State.countHop (q : Query) (u : Nat) (s : State) : State :=
  let s := { s with search := { s.search with
    hopLog := (s.now, s.now - q.lastHop) :: s.search.hopLog.filter fun x => s.now < x.1 + 10000 } }
  let route := q.list.any fun e => e.ref = u && !e.returnable
  (s.bump 0x502002).bumpBy 0x502005 (if route then 1 else 0)

/-- NEIGHBOUR_LIST_ARRIVAL (R153): the hop completes, its neighbours are considered, and the next one starts. -/
def execNeighbourListArrival (qid : Nat) (s : State) : Result :=
  match s.query qid with
  | none => .next s
  | some q =>
    match q.stage, q.current, s.coll q.d.coll with
    | .hops, some u, some c =>
      let ws := (c.slot u).nbrs
      let s := (s.countHop q u).mapQuery qid fun q =>
        { q with hops := q.hops + 1, current := none, requested := q.requested.filter (· ≠ u),
                 lines := q.lines.filter fun l => !ws.contains l,
                 list := update (fun e => e.ref = u) (fun e => { e with expanded := true }) q.list }
      .next (((s.scoreSlots q ws).considerAll qid ws).nextHop qid)
    | _, _, _ => .next s

/-- CODE_LINES_ARRIVAL (R154): prefetched lines of a slot in a requested list arrive and are scored on a unit. -/
def execCodeLinesArrival (qid slot : Nat) (unit : Fin 3) (s : State) : Result :=
  match s.query qid with
  | none => .next s
  | some q =>
    match q.stage, s.coll q.d.coll with
    | .hops, some c =>
      let asked := q.requested.any fun v => (c.slot v).nbrs.contains slot
      if !asked || q.visited.contains slot || q.lines.contains slot then .next s
      else
        let u := 3 * q.needle + unit.val
        let u := if (s.unitsOf q.needle).contains u then u else s.scoreUnit q
        .next ((s.useUnit q u).mapQuery qid fun q => { q with lines := q.lines ++ [slot] })
    | _, _ => .next s

/-! ## Rerank and listed VIDs (R164, R169) -/

/-- Rerank the entries at the given places of a list. -/
def rerankList (c : Coll) (p : Prep) (places : List Nat) (l : List LEntry) : List LEntry × List ConvMark :=
  l.zipIdx.foldr (fun x (a : List LEntry × List ConvMark) =>
    if places.contains x.2 then
      let r := rerankDistance p c.rerankP c.d.rerankHeaded (c.slot x.1.ref).rerank
      ({ x.1 with dist := r.1, rerank := true } :: a.1, r.2 :: a.2)
    else (x.1 :: a.1, a.2)) ([], [])

/-- What looking up one listed VID of a HYBRID gives: its entry with the conversions of its distances, and whether its attribute
record was evaluated (R169). -/
structure Listed where
  entry : Option (LEntry × List ConvMark) := none
  asked : Bool := false
deriving DecidableEq, Repr

/-- Score one listed VID of a HYBRID. DESIGN CHOICE (log entry 21): the manual does not say how the code_distance of an entry at rerank level is
come by that was never scored from its codes, a listed one or one of a scan under SCAN_RERANK; it is the distance of its codes, and its
rounding, which gives no distance that the search goes by, does not count in P5010 (R76). -/
def State.listEntry (s : State) (c : Coll) (q : Query) (p : Prep) (vid : BitVec 64) : Listed :=
  match s.findVid c vid q.snapshot q.arrival with
  | none => {}
  | some (v, x) =>
    let (code, rr, attrs, nonf, ref) := match x with
      | .inl n => ((c.slot n).code, (c.slot n).rerank, (c.slot n).attrs, (c.slot n).nonfinite, n)
      | .inr e => (e.code, e.rerank, e.attrs, e.nonfinite, 0xFFFFFFFF)
    let asks := q.d.filtered && !nonf
    if nonf then {}
    else if asks && !passes c.d.schema q.filter attrs then { asked := true }
    else
      let a := codeDistance p c.d.codeHeaded code
      let b := if c.d.rerankFormat.isSome then rerankDistance p c.rerankP c.d.rerankHeaded rr else a
      let e : LEntry := {
        vid := vid, dist := b.1, returnable := true, filteredOut := false, rerank := c.d.rerankFormat.isSome,
        baste := match x with | .inl _ => false | .inr _ => true, listed := true, expanded := false,
        shard := s.devNum, version := v, codeDist := a.1, ref := ref }
      { asked := asks, entry := some (e, [b.2]) }

/-- RERANK_BATCH_COMPLETE (R164): up to 16 candidates and listed VIDs carry their rerank distance. -/
def execRerankBatchComplete (qid : Nat) (s : State) : Result :=
  match s.query qid with
  | none => .next s
  | some q =>
    match q.stage, s.coll q.d.coll with
    | .rerank, some c =>
      let p := q.prep c
      let all_ := q.rerankPlaces
      let now_ := (all_.drop q.reranked).take 16
      let vids := (q.listedVids.drop q.listedDone).take (16 - now_.length)
      let r := rerankList c p now_ q.list
      let ls := vids.map (s.listEntry c q p)
      let q' := { q with list := r.1, reranked := q.reranked + now_.length, listedDone := q.listedDone + vids.length,
                         listedEntries := q.listedEntries ++ ls.filterMap fun x => x.entry.map Prod.fst }
      let s := if ls.any fun x => x.entry.isSome then s.useUnit q (s.scoreUnit q) else s
      let s := ((s.mapQuery qid fun _ => q').countScores (r.2 ++ ls.flatMap fun x => (x.entry.map Prod.snd).getD [])).bumpBy
        0x504006 (ls.filter Listed.asked).length
      if all_.length ≤ q'.reranked && q'.listedVids.length ≤ q'.listedDone then
        .next ((s.mapQuery qid fun q => { q with list := sortBy LEntry.before q.list }).joinBaste qid)
      else
        let r := s.checkpoint qid
        .next (if r.2 then r.1.cutQuery qid else r.1)
    | _, _ => .next s

/-! ## Scan engines (R167, R236, R243) -/

/-- Tun serves scans: powered, with a cluster online. -/
def State.tunScans (s : State) : Bool := s.tunPowered && s.anyTun

/-- Distances of queries, in rows, with stored records, in columns; the status of each tile of 32 by 32; and what the output
conversions counted. -/
structure Matrix where
  rows : List (List (F32 × ConvMark)) := []
  tiles : List Nat := []
  count : ConvCount := {}
deriving DecidableEq, Repr

/-- One tile on Tun at its binary point. -/
def tileScores (auto : Bool) (fixed : Int) (p : EncP) (qs : List (Prep × Encoded)) (xs : List Stored) : Matrix :=
  let b := tilePoint auto fixed p.fmt (qs.map fun q => queryExps q.2) (xs.map storedExps)
  let cells := qs.map fun q => xs.map fun x => scanDistance q.1 q.2 p b.1 x
  let ham := qs.any fun q => q.1.dist = distHam
  { rows := cells.map fun r => r.map ScanCell.score,
    tiles := [((cells.flatten.map ScanCell.status).foldl Nat.lor 0) ||| (if b.2 && !ham then 1 else 0)],
    count := (cells.flatten.map ScanCell.out).foldl ConvCount.add {} }

/-- Join two blocks of columns. -/
def Matrix.beside (a b : Matrix) : Matrix :=
  ⟨if a.rows.isEmpty then b.rows else List.zipWith (· ++ ·) a.rows b.rows, a.tiles ++ b.tiles, a.count.join b.count⟩

/-- Join two blocks of rows. -/
def Matrix.above (a b : Matrix) : Matrix := ⟨a.rows ++ b.rows, a.tiles ++ b.tiles, a.count.join b.count⟩

/-- A scan's distances on its engine: tiles of 32 stored entries by 32 queries on Tun, else direct mode. -/
def scanMatrix (tun auto : Bool) (fixed : Int) (p : EncP) (qs : List Prep) (xs : List Stored) : Matrix :=
  if tun then
    (chunks 32 (qs.length + 1) (qs.map fun q => (q, queryInt8 q))).foldl (fun m qg =>
      m.above ((chunks 32 (xs.length + 1) xs).foldl (fun m xg => m.beside (tileScores auto fixed p qg xg)) {})) {}
  else { rows := qs.map fun q => xs.map fun x => directDistance q p x }

/-- Queries that one step of a scan streams: a multi-pass step is bound by the tile sets in the Collector (R237). -/
def scanLimit (dist : Nat) (p : EncP) : Nat :=
  let l := if p.fmt = .b1 then 256 else 32
  let sh := scanShape l p.n
  if p.n ≤ passLen sh l then 2048 else multiPassRows sh (dist ≠ distHam) (dist ≠ distHam)

/-- Run a scan of records with parameters `p` on clusters and count it, its issue units in entry `unitKey`; gives the rows and the status
of all its tiles. -/
def State.scanRows (unitKey : Nat) (clusters : List Nat) (p : EncP) (dist : Nat) (qs : List Prep) (xs : List Stored) (s : State) :
    State × List (List (F32 × ConvMark)) × Nat :=
  let tun := tunDistance dist && s.tunScans
  let m := scanMatrix tun (s.num 0x701101 = 0) (signed 32 (s.num 0x701102)) p qs xs
  let s := (m.tiles.foldl (fun s t => s.countTile t) s).countTun m.count
  let l := if p.fmt = .b1 then 256 else 32
  let s := if tun && !xs.isEmpty then
      (chunks (scanLimit dist p) (qs.length + 1) qs).foldl
        (fun s g => s.countUnits unitKey (arraySteps (scanShape l p.n) l xs.length p.n) g.length)
        (s.loadScan clusters p.fmt (passLen (scanShape l p.n) l) (32 * (shapeOf (scanShape l p.n)).2.1)
          (qs.flatMap fun q => packCodes 8 (queryInt8 q).codes) (xs.map Stored.codes))
    else s
  (s, m.rows, m.tiles.foldl Nat.lor 0)

/-- P7000.09 takes effect where no scan batch runs (R254): a batch that starts alone takes the value that stands. -/
def State.latchGrist (s : State) : State :=
  if s.search.batches.isEmpty then { s with tun := { s.tun with gristMib := s.num 0x700009 } } else s

/-- Online Tun clusters. -/
def State.upClusters (s : State) : List Nat := (List.range 8).filter fun n => !bit s.units.tun.toNat n

/-- A baste batch has work for a cluster: one that is on Tun, of its half or of a half with no cluster online (R22, R243). -/
def State.basteOn (s : State) (cluster : Nat) : Bool :=
  s.search.batches.any fun b => !b.flat && b.tun &&
    (b.half = (if cluster < 4 then Half.west else .east) || (s.tunsUp b.half).isEmpty)

/-- A flat batch has work for every online cluster (R22, R243). -/
def State.flatOn (s : State) : Bool := s.search.batches.any fun b => b.flat && b.tun

/-- A scan batch is done: P7000.08. -/
def State.scanDone (b : Batch) (s : State) : State := { s with tun := { s.tun with lastScanStatus := b.status } }

/-! ## Baste batches (R165) -/

/-- Queries of a half that have joined the next baste batch, the first to join first. -/
def State.basteWaiting (s : State) (h : Half) : List Query :=
  sortBy (fun a b => a.joinedAt < b.joinedAt) (s.search.queries.filter fun q => q.stage == .basteWait && q.half = h)

/-- The clusters of a half's baste batch: its own online ones, or those of the other half where it has none (R243). -/
def State.basteClusters (s : State) (h : Half) : List Nat := if (s.tunsUp h).isEmpty then s.tunsUp (Half.other h) else s.tunsUp h

/-- The scan of one collection's baste entries for its members of a batch, with the status of its tiles. -/
def State.scanBaste (h : Half) (c : Coll) (qs : List Query) (s : State) : State × Nat :=
  let clusters := s.basteClusters h
  let h := c.d.handle
  let es := (s.muts.baste.filter fun e => e.insert && !e.nonfinite && e.coll = h).filter fun e =>
    qs.any fun q => e.scanned h q.snapshot q.arrival
  let r := s.scanRows 0x700002 clusters c.codeP c.d.distance (qs.map fun q => q.prep c) (es.map fun e => readRecord c.codeP c.d.codeHeaded e.code)
  ((qs.zip (r.2.1 ++ List.replicate qs.length [])).foldl (fun (s : State) x =>
    let got := (es.zip x.2).filter fun y => y.1.scanned h x.1.snapshot x.1.arrival
    let entries := got.map fun y : BasteEntry × F32 × ConvMark =>
      ({ vid := y.1.vid, dist := y.2.1, returnable := true, filteredOut := false, rerank := false, baste := true, listed := false,
         expanded := false, shard := s.devNum, version := y.1.version, codeDist := y.2.1, ref := 0xFFFFFFFF } : LEntry)
    let fails := (got.filter fun y => x.1.d.filtered && !passes c.d.schema x.1.filter y.1.attrs).map fun y => (y.1.vid, y.1.version)
    (s.countScores (got.map fun y => y.2.2)).mapQuery x.1.id fun q =>
      { q with basteEntries := entries, basteFail := fails, basteDeletes := s.basteDeletes h q.snapshot q.arrival }) r.1, r.2.2)

/-- A batch's baste scans, one over each collection that its members ask, with the status of all their tiles. -/
def State.scanMembers (h : Half) (ms : List Query) (s : State) : State × Nat :=
  s.colls.foldl (fun (r : State × Nat) c =>
    let qs := ms.filter fun q => q.d.coll = c.d.handle
    if qs.isEmpty then r else let x := r.1.scanBaste h c qs; (x.1, r.2 ||| x.2)) (s, 0)

/-- A batch of queries enters the scan engines: it takes the next number, and its members are in its stage. -/
def State.openBatch (b : Batch) (x : Stage) (s : State) : State :=
  { s with search := { s.search with
    nextId := s.search.nextId + 1, batches := s.search.batches ++ [b],
    queries := update (fun q => b.members.contains q.id) (fun q => { q with stage := x }) s.search.queries } }

/-- Members of a batch have a baste scan that runs on Tun (R22). -/
def State.scansOnTun (s : State) (ms : List Query) : Bool :=
  s.tunScans && s.colls.any fun c => tunDistance c.d.distance && ms.any fun q => q.d.coll = c.d.handle

/-- BASTE_BATCH_START (R165): enough queries have joined, or the first has waited long enough. -/
def execBasteBatchStart (h : Half) (s : State) : Result :=
  let w := s.basteWaiting h
  match w with
  | [] => .next s
  | a :: _ =>
    if w.length < s.num 0x500006 && s.now < a.joinedAt + s.num 0x500007 then .next s
    else
      let ms := w.take (s.num 0x500006)
      let r := (s.bump 0x502009).latchGrist.scanMembers h ms
      let b : Batch := { id := s.search.nextId, flat := false, half := h, coll := 0, rerank := false, members := ms.map Query.id,
                         entries := [], status := BitVec.ofNat 8 r.2, tun := s.scansOnTun ms }
      .next (r.1.openBatch b .baste)

/-- BASTE_BATCH_COMPLETE (R165): each query has its baste partial list, and is finalised. -/
def execBasteBatchComplete (id : Nat) (s : State) : Result :=
  match s.search.batches.find? fun b => b.id = id && !b.flat with
  | none => .next s
  | some b =>
    let s := ({ s with search := { s.search with batches := s.search.batches.filter fun x => x.id ≠ id } }).scanDone b
    .next (b.members.foldl (fun s q => s.endQuery q fun q => { q with basteRan := true }) s)

/-! ## Flat scans and the exhaustive pass (R166, R196) -/

/-- Slots of a chunk. -/
def scanChunk : Nat := 65536

/-- A slot takes part in a query's scan: visible, and passing its filter (R166, R196). -/
def Query.takes (c : Coll) (q : Query) (n : Nat) : Bool :=
  (c.slot n).searchable q.snapshot && (!q.d.filtered || passes c.d.schema q.filter (c.slot n).attrs)

/-- A query moves past a chunk's slots: what it evaluated and what it skipped. DEDUCED (log entry 20): a slot that fails the filter takes no
part in the scan (R166, R196), so it is no entry that R189 drops. -/
def Query.passSlots (c : Coll) (slots : List Nat) (q : Query) : Walk :=
  let seen := slots.filter fun n => (c.slot n).searchable q.snapshot
  { q := { q with nextSlot := q.nextSlot + scanChunk },
    evals := if q.d.filtered then seen.length else 0,
    skips := (slots.filter fun n => (c.slot n).st ≠ .free && q.snapshot < (c.slot n).birth).length }

/-- Insert the slots of a chunk that take part in a query's scan; `row` gives the distances of `slots` in order. -/
def scanInsert (c : Coll) (dev : Nat) (level : Bool) (codes : Prep → Slot → F32) (p : Prep) (slots : List Nat)
    (row : List (F32 × ConvMark)) (a : Walk) : Walk :=
  (slots.zip row).foldl (fun (a : Walk) x =>
    if !a.q.takes c x.1 then a
    else
      let sl := c.slot x.1
      let e := { slotEntry dev x.1 sl x.2.1 true false with rerank := level, codeDist := if level then codes p sl else x.2.1 }
      { a with q := a.q.insert e, marks := x.2.2 :: a.marks }) a

/-- Store what a scan did to a query. -/
def State.keepWalk (a : Walk) (s : State) : State :=
  (((s.mapQuery a.q.id fun _ => a.q).countScores a.marks).bumpBy 0x504006 a.evals).bumpBy 0x502006 a.skips

/-- Slots of the chunk at `n` that exist. -/
def Coll.chunkSlots (c : Coll) (n : Nat) : List Nat := (List.range (min scanChunk (c.highWater - n))).map (· + n)

/-- Queries waiting for a flat batch on a collection with one SCAN_RERANK setting, the first to join first. -/
def State.flatWaiting (s : State) (h : Handle) (rerank : Bool) : List Query :=
  sortBy (fun a b => a.joinedAt < b.joinedAt)
    (s.search.queries.filter fun q => q.stage == .flatWait && q.d.coll = h && q.d.flag 5 == rerank)

/-- Queries whose INT8 rows fit in a cluster's scan region (R241). -/
def State.gristCap (s : State) (n : Nat) : Nat := (s.tun.gristMib * 2 ^ 20 - 2 * 32768 - 131072) / max n 1

/-- A flat batch's query has scanned every slot: rerank follows a scan of codes, the baste scan one of rerank copies. -/
def State.flatDone (qid : Nat) (rerank : Bool) (s : State) : State :=
  let s := s.mapQuery qid fun q => { q with passDone := true, traversed := some s.now }
  if rerank then s.joinBaste qid else s.startRerank qid

/-- Before each chunk, a query whose cutoff is reached leaves the batch; one with no slot left has done its scan. -/
def State.flatStep (highWater : Nat) (rerank : Bool) (qid : Nat) (s : State) : State :=
  match s.query qid with
  | none => s
  | some q =>
    if highWater ≤ q.nextSlot then s.flatDone qid rerank
    else
      let r := s.checkpoint qid
      if r.2 then r.1.cutQuery qid else r.1

/-- Members of a batch still scanning; an empty batch is removed. -/
def State.settleBatch (id : Nat) (s : State) : State :=
  let flat (q : Nat) : Bool := match s.query q with | some x => x.stage == .flat | none => false
  let s := match s.search.batches.find? fun b => b.id = id && !b.members.any flat with
    | some b => s.scanDone b
    | none => s
  { s with search := { s.search with
    batches := (s.search.batches.map fun b => if b.id = id then { b with members := b.members.filter flat } else b).filter fun b =>
      b.id ≠ id || !b.members.isEmpty } }

/-- FLAT_BATCH_START (R166). -/
def execFlatBatchStart (h : Handle) (rerank : Bool) (s : State) : Result :=
  match s.coll h, s.flatWaiting h rerank with
  | some c, a :: r =>
    if !s.tunScans || ((a :: r).length < s.num 0x500008 && s.now < a.joinedAt + s.num 0x500009) then .next s
    else
      let s := s.latchGrist
      let ids := ((a :: r).take (min (s.num 0x500008) (max 1 (s.gristCap c.codeP.n)))).map Query.id
      let b : Batch := { id := s.search.nextId, flat := true, half := a.half, coll := h, rerank := rerank, members := ids, entries := [],
                         tun := tunDistance c.d.distance }
      let s := (s.bump 0x50200A).openBatch b .flat
      .next ((ids.foldl (fun s q => s.flatStep c.highWater rerank q) s).settleBatch b.id)
  | _, _ => .next s

/-- A chunk of a flat batch completes. -/
def State.flatChunk (b : Batch) (c : Coll) (s : State) : State :=
  let qs := b.members.filterMap s.query
  match qs with
  | [] => s.settleBatch b.id
  | a :: _ =>
    let all_ := c.chunkSlots a.nextSlot
    let slots := all_.filter fun n => qs.any fun q => q.takes c n
    let p := if b.rerank then c.rerankP else c.codeP
    let hd := if b.rerank then c.d.rerankHeaded else c.d.codeHeaded
    let xs := slots.map fun n => readRecord p hd (if b.rerank then (c.slot n).rerank else (c.slot n).code)
    let r := s.scanRows 0x700003 s.upClusters p c.d.distance (qs.map fun q => q.prep c) xs
    let codes (q : Prep) (x : Slot) : F32 := (codeDistance q c.d.codeHeaded x.code).1
    let s := (qs.zip (r.2.1 ++ List.replicate qs.length [])).foldl (fun (s : State) x =>
      s.keepWalk (scanInsert c s.devNum b.rerank codes (x.1.prep c) slots x.2 (x.1.passSlots c all_))) r.1
    let s := { s with search := { s.search with
      batches := update (fun x => x.id = b.id) (fun x => { x with status := x.status ||| BitVec.ofNat 8 r.2.2 }) s.search.batches } }
    ((qs.map Query.id).foldl (fun s q => s.flatStep c.highWater b.rerank q) s).settleBatch b.id

/-- A chunk of a query's exhaustive pass completes: matching slots are scored from their code lines (R196). -/
def State.passChunk (q : Query) (c : Coll) (s : State) : State :=
  let p := q.prep c
  let all_ := c.chunkSlots q.nextSlot
  let slots := all_.filter (q.takes c)
  let row := slots.map fun n => codeDistance p c.d.codeHeaded (c.slot n).code
  let a := scanInsert c s.devNum false (fun _ _ => 0) p slots row (q.passSlots c all_)
  let s := (if slots.isEmpty then s else s.useUnit q (s.scoreUnit q)).keepWalk a
  if c.highWater ≤ q.nextSlot + scanChunk then
    (s.mapQuery q.id fun q => { q with passDone := true, traversed := some s.now }).startRerank q.id
  else
    let r := s.checkpoint q.id
    if r.2 then r.1.cutQuery q.id else r.1

/-- SCAN_CHUNK_COMPLETE (R166, R196). -/
def execScanChunkComplete (r : ScanRef) (s : State) : Result :=
  match r with
  | .flat id =>
    match s.search.batches.find? fun b => b.id = id && b.flat with
    | none => .next s
    | some b =>
      match s.coll b.coll with
      | none => .next s
      | some c => .next (if s.tunScans && !(s.upClusters.all s.basteOn) then s.flatChunk b c else s)
  | .pass qid =>
    match s.query qid with
    | none => .next s
    | some q =>
      match q.stage, s.coll q.d.coll with
      | .pass, some c => .next (s.passChunk q c)
      | _, _ => .next s

/-! ## Waits (R183, R280, R312) -/

/-- LIST_SPACE_RELEASED (R183): a waiting query makes its check again. -/
def execListSpaceReleased (qid : Nat) (s : State) : Result :=
  match s.query qid with
  | none => .next s
  | some q =>
    if q.stage != .waiting then .next s
    else if q.cutoff ≤ s.now then .next (s.cutQuery qid)
    else .next (s.launch qid)

/-- QUERY_WAIT_CUTOFF (R183): the cutoff of a waiting query is reached. -/
def execQueryWaitCutoff (qid : Nat) (s : State) : Result :=
  match s.query qid with
  | none => .next s
  | some q => .next (if q.stage == .waiting && q.cutoff ≤ s.now then s.cutQuery qid else s)

end Sys2Proof.Machine
end

