-- ==== Sys2Proof/Machine/Encode.lean ====
section
/-!
DEFINITION. Encode batches (R94 to R96, R116) and drift (R117).
-/

namespace Sys2Proof.Machine

/-! ## Drift (R117) -/

/-- The quotient of two FP32 sums; 0 where the divisor is 0 (R115). -/
def f32Quot (a b : F32) : F32 :=
  match f32 a, f32 b with
  | .nan _, _ | _, .nan _ | .inf _, .inf _ => toF32 (.nan false)
  | .inf n, _ => toF32 (.inf n)
  | _, .inf _ => 0
  | .fin _ _, .fin _ y => if y.m = 0 then 0 else f32Div a b

/-- Add one encoded vector to the window in progress; `size` is P6020.01. A full window waits to be judged. -/
def Drift.add (size : Nat) (e : Encoded) (r : Drift) : Drift :=
  let w := if r.count = 0 then size else r.window
  let r := { r with window := w, count := r.count + 1, err := f32Add r.err e.sqErr, signal := f32Add r.signal e.signal,
                    saturated := r.saturated + e.count.sat, elements := r.elements + e.codes.length }
  if r.count < w then r
  else
    { r with count := 0, err := 0, signal := 0, saturated := 0, elements := 0,
             ready := r.ready ++ [(f32Quot r.err r.signal, ratioF32 ⟨false, r.saturated, max r.elements 1, 0⟩)] }

/-- A vector encoded for a collection; one that Kiln does not encode (R105) is left out. -/
def State.addDrift (h : Handle) (p : EncP) (e : Encoded) (s : State) : State :=
  if p.rotate && e.nonfinite then s
  else s.mapColl h fun c => { c with drift := c.drift.add (s.num 0x602001) e }

/-- A window is above a threshold (R117). DESIGN CHOICE (log 22): whether P6020.02 times the baseline is compared as it is or
rounded is left open; the product is rounded to FP32 before the comparison. -/
def State.overLimit (s : State) (baseline : F32) (w : F32 × F32) : Bool :=
  f32Lt (toF32 ((f32 (BitVec.ofNat 32 (s.num 0x602002))).mul (f32 baseline))) w.1 ||
    f32Lt (BitVec.ofNat 32 (s.num 0x602003)) w.2

/-- Judge a full window: it sets the baseline, or it is compared with it. -/
def State.judgeWindow (h : Handle) (s : State) : State :=
  match s.coll h with
  | none => s
  | some c =>
    match c.drift.ready with
    | [] => s
    | w :: r =>
      match c.drift.baseline with
      | none => s.mapColl h fun c => { c with drift := { c.drift with ready := r, lastNmse := w.1, lastSat := w.2, baseline := some w.1 } }
      | some b =>
        let above := s.overLimit b w
        let t := s.mapColl h fun c => { c with drift := { c.drift with
          ready := r, lastNmse := w.1, lastSat := w.2, windows := min (c.drift.windows + 1) 0xFFFFFFFF,
          flag := c.drift.flag || above } }
        if !above then t
        else
          let t := t.bump 0x602004
          if c.drift.flag then t else t.event 0x4D h.toNat 0

/-- DRIFT_WINDOW (R117): the oldest full window of the collection is judged. -/
def execDriftWindow (h : Handle) (s : State) : Result := .next (s.judgeWindow h)

/-! ## Counting encoded vectors (R120) -/

/-- Count the flags of one encoded vector, and its conversions. -/
def State.countEncoded (e : Encoded) (s : State) : State :=
  (((s.bumpBy 0x600003 e.constants).bumpBy 0x600004 (if e.inexact then 1 else 0)).bumpBy 0x600005
    (if e.nonfinite then 1 else 0)).countKiln e.count

/-- P6010.04: conversions to FP8 E5M2 overflow to infinity (R71). -/
def State.kilnOvf (s : State) : Bool := s.num 0x601004 ≠ 0

/-! ## The entry (R94, R95) -/

/-- What Kiln encodes by in a batch without a collection, its table and weights read from memory; none where the carried
table is invalid (R106). -/
def State.ownParams (s : State) (e : EncodeEntry) : Option EncP :=
  let w := if e.weights = 0 then [] else
    (List.range (padDim (e.rotation = 1) e.dim)).map fun i => BitVec.ofNat 32 (field (s.mem.read (e.weights + 4 * i) 4) 0 4)
  let p : EncP := { d := e.dim, fmt := (fmtOfCode e.codeFormat).getD .b1, k := 2 ^ e.blockLog2, sym := e.offsetMode = 0,
                    rotate := e.rotation = 1, seed := BitVec.ofNat 64 e.seed, carried := none, weights := w }
  if e.scaleSource = 0 || e.codeFormat = 0 then some p
  else (parseCarried p (s.mem.read e.table (carriedSize p))).map fun t => { p with carried := some t }

/-- The addresses an entry names, with their lengths (R95, R424). -/
def EncodeEntry.areas (e : EncodeEntry) (p : EncP) (own : Bool) : List (Nat × Nat) :=
  let out := if e.flag 2 then 0 else e.count
  [(e.source, (e.count - 1) * e.stride + e.dim * elemBytes e.sourceFormat),
   (e.codeDest, out * roundUp 64 (codeLen p)),
   (e.blockDest, if p.fmt = .b1 then 0 else out * (p.n / p.k) * 8), (e.vectorDest, out * 16), (e.statsDest, 64)] ++
    (if e.flag 1 then [(e.dimStatsDest, 8 * p.n)] else []) ++
    (if own && e.scaleSource = 1 then [(e.table, if e.codeFormat = 0 then 0 else carriedSize p)] else []) ++
    (if own && e.weights ≠ 0 then [(e.weights, 4 * p.n)] else [])

/-- The addresses are aligned and, where an access is made, inside the tenant's fence. -/
def State.areasOk (s : State) (port : Port) (tenant : Nat) (l : List (Nat × Nat)) : Bool :=
  l.all fun a => a.1 % 64 = 0 && (a.2 = 0 || s.fenceOk port tenant a.1 a.2)

/-- The parameters of an entry that keeps R95; none for INVALID_INPUT. -/
def State.encodeParams (s : State) (port : Port) (tenant : Nat) (e : EncodeEntry) (c : Option Coll) : Option EncP :=
  if !e.rangesOk then none
  else
    let p := match c with
      | some c => if c.d.dim = e.dim then some c.codeP else none
      | none => if e.ownOk && (e.weights % 64 = 0 && e.table % 64 = 0) then s.ownParams e else none
    match p with
    | some p => if s.areasOk port tenant (e.areas p c.isNone) then some p else none
    | none => none

/-! ## Results (R107 to R109, R115, R116) -/

/-- What a batch accumulates. -/
structure BatchSum where
  vectors : Nat := 0
  constants : Nat := 0
  count : ConvCount := {}
  err : F32 := 0
  signal : F32 := 0
  inexact : Nat := 0
  nonfinite : Nat := 0
  encoded : Nat := 0
deriving DecidableEq, Repr

/-- Add a vector (R115, R116). -/
def BatchSum.add (p : EncP) (e : Encoded) (a : BatchSum) : BatchSum :=
  let skip := p.rotate && e.nonfinite
  { vectors := a.vectors + 1, constants := a.constants + e.constants, count := a.count.join e.count,
    err := if skip then a.err else f32Add a.err e.sqErr, signal := if skip then a.signal else f32Add a.signal e.signal,
    inexact := a.inexact + (if e.inexact then 1 else 0), nonfinite := a.nonfinite + (if e.nonfinite then 1 else 0),
    encoded := a.encoded + (if skip then 0 else 1) }

/-- The mean squared error per source dimension; `open_` where no vector is encoded, for which R115 gives no value (log
entry 22). -/
def BatchSum.mse (p : EncP) (open_ : BitVec 64) (a : BatchSum) : F32 :=
  if a.encoded = 0 then open_.setWidth 32
  else match f32 a.err with
    | .fin _ v => ratioF32 (Ratio.div v ⟨2 ^ gainLog2 p.rotate p.n * a.encoded * p.d, 0⟩)
    | x => toF32 x

/-- The statistics record (R116). -/
def statsRecord (p : EncP) (only : Bool) (open_ : BitVec 64) (status : Nat) (a : BatchSum) : Bytes :=
  let c : ConvCount := if only then {} else a.count
  let none_ := only || p.fmt = .b1
  natLE 4 a.vectors ++ natLE 4 a.constants ++ natLE 8 c.sat ++ natLE 8 c.nanZero ++ natLE 8 c.under ++
    natLE 4 (if none_ then 0 else (a.mse p open_).toNat) ++ natLE 4 (if none_ then 0 else (f32Quot a.err a.signal).toNat) ++
    natLE 4 (if only then 0 else a.err.toNat) ++ natLE 4 a.signal.toNat ++ natLE 4 a.inexact ++ natLE 4 a.nonfinite ++
    natLE 1 status ++ zeros 7

/-- Write the record and then the completion. -/
def State.endEncode (j : EncodeJob) (p : EncP) (status : Nat) (a : BatchSum) (s : State) : State :=
  (((s.devWrite j.statsDest (statsRecord p (bit j.flags.toNat 2) s.fresh status a)).spend).complete j.port j.spool j.head
    j.tag.toNat a.vectors 0 0x40 status).applyAreas

/-- The encoding parameters of a batch. -/
def EncodeJob.params (j : EncodeJob) : EncP :=
  { d := j.dim, fmt := (fmtOfCode j.codeFormat).getD .b1, k := 2 ^ j.blockLog2, sym := j.offsetMode = 0, rotate := j.rotation,
    seed := j.seed, carried := j.carried, weights := j.weights }

/-- A batch of an entry. -/
def EncodeEntry.job (e : EncodeEntry) (id : Nat) (port : Port) (spool : Byte) (head : Nat) (c : Option Coll) (p : EncP) : EncodeJob :=
  { id := id, port := port, spool := spool, head := head, tag := BitVec.ofNat 32 e.tag, flags := BitVec.ofNat 8 e.flags,
    coll := c.map fun c => c.d.handle, source := e.source, codeDest := e.codeDest, blockDest := e.blockDest,
    vectorDest := e.vectorDest, count := e.count, dim := e.dim, stride := e.stride, sourceFormat := e.sourceFormat,
    codeFormat := match c with | some c => c.d.codeFormat | none => e.codeFormat, blockLog2 := p.k.log2,
    offsetMode := if p.sym then 0 else 1, carried := p.carried, rotation := p.rotate, seed := p.seed, weights := p.weights,
    statsDest := e.statsDest, dimStatsDest := e.dimStatsDest }

/-! ## ENCODE and ENCODE_BATCH_COMPLETE -/

/-- The Kiln unit of a batch: the online one with the fewest batches, the lowest of those (DESIGN CHOICE, log entry 22). -/
def State.encodeUnit (s : State) : Nat :=
  let load (u : Nat) : Nat := (s.encodes.filter fun j => j.unit = u).length
  (((s.kilnsUp .west) ++ (s.kilnsUp .east)).foldl (fun (b : Option Nat) u => match b with
    | none => some u
    | some v => if load u < load v then some u else some v) none).getD 0

/-- An entry is carried out: refused, completed at once where a unit it needs is absent (R34, R96), or started. -/
def State.startEncode (port : Port) (spool : Byte) (head tenant : Nat) (e : EncodeEntry) (s : State) : State :=
  let c := if e.coll = 0xFFFF then none else s.collFor (BitVec.ofNat 16 e.coll) tenant
  let refuse (st : Nat) : State := s.complete port spool head e.tag 0 0 0x40 st
  if e.coll ≠ 0xFFFF && c.isNone then refuse stNoColl
  else match s.encodeParams port tenant e c with
    | none => refuse stInvalid
    | some p =>
      let j := e.job s.search.nextId port spool head c p
      if !s.anyKiln || (e.flag 1 && !s.tunScans) then s.endEncode j p stDegraded {}
      else { s with search := { s.search with nextId := s.search.nextId + 1 }, encodes := s.encodes ++ [{ j with unit := s.encodeUnit }] }

/-- ENCODE (R96): a control core reads the entry at the head of a query spool. -/
def execEncode (port : Port) (spool : Byte) (s : State) : Result :=
  match s.subSpool port spool with
  | none => .next s
  | some x =>
    let b := s.headEntry x
    if x.mutation || !s.hasTurn (.spool port spool) || field b 0 1 ≠ 0x40 then .next s
    else .next (((s.takeTurn (intakePlace (.spool port spool)) x.weight).takeEntry port spool).startEncode port spool (x.head + 1).toNat x.tenant.toNat (parseEncode b))

/-- The element values of vector `v` of a batch. -/
def EncodeJob.vector (j : EncodeJob) (m : Memory) (v : Nat) : List Num :=
  sourceVec j.sourceFormat j.dim (m.read (j.source + v * j.stride) (j.dim * elemBytes j.sourceFormat))

/-- Write the codes, block records and vector record of vector `v`. -/
def State.writeVector (j : EncodeJob) (p : EncP) (v : Nat) (e : Encoded) (s : State) : State :=
  let blocks := (e.blocks.map (BlockRec.bytes (bit j.flags.toNat 0) p.fmt)).flatten
  (((s.devWrite (j.codeDest + v * roundUp 64 (codeLen p)) (codeBytes p.fmt e)).devWrite
    (j.blockDest + v * blocks.length) blocks).devWrite (j.vectorDest + 16 * v) (vectorRecord e)).bump 0x600001

/-- Add a vector's values to the sums of DIM_STATS; one that was not rotated has none. DESIGN CHOICE (log entry 22): Tun accumulates
them in WX, of whose binary point the manual says nothing, so the sums are exact and are rounded once; a NaN or an infinity of an
unrotated vector carries into the sums of its coordinate. -/
def dimAdd (p : EncP) (e : Encoded) (a : List (Num × Num)) : List (Num × Num) :=
  if p.rotate && e.nonfinite then a else (a.zip e.y).map fun x => (x.1.1.add x.2, x.1.2.add (x.2.mul x.2))

/-- Encode vectors 0 to n − 1 of a batch. -/
def State.encodeMany (j : EncodeJob) (p : EncP) : Nat → State × BatchSum × List (Num × Num) → State × BatchSum × List (Num × Num)
  | 0, r => r
  | n + 1, r =>
    let (s, a, d) := State.encodeMany j p n r
    let e := encodeVec p s.kilnOvf (j.vector s.mem n)
    let only := bit j.flags.toNat 2
    let s := s.countEncoded (if only then { e with count := {} } else e)
    let s := if only then s
      else
        let s := s.writeVector j p n e
        match j.coll with
        | some h => s.addDrift h p e
        | none => s
    (s, a.add p e, if bit j.flags.toNat 1 then dimAdd p e d else d)

/-- A sum as it leaves the Collector: a column that received a NaN or an infinity gives the canonical NaN and sets SPECIAL (R85), any other
is converted once (R86). -/
def dimCell (x : Num) : Nat × TileBits × ConvMark :=
  if x.finite then
    let r := convertNum .fp32 false x one
    (r.1, { convSat := r.2 == .sat }, r.2)
  else (0x7FC00000, { special := true }, .nanPassed)

/-- The n pairs of DIM_STATS as written, what their conversions to FP32 count in P7010 (R76, R116), and the status of each tile (R87).
DESIGN CHOICE (log entry 22): the manual does not say which tiles make up the reduction; each is the sums of one kind over 32
coordinates, one stationary block. -/
def dimStats (d : List (Num × Num)) : Bytes × ConvCount × List Nat :=
  let x := d.map fun r => dimCell r.1
  let y := d.map fun r => dimCell r.2
  let tiles (l : List (Nat × TileBits × ConvMark)) : List Nat :=
    (chunks 32 (l.length + 1) l).map fun c => (c.map fun v => v.2.1.byte).foldl Nat.lor 0
  ((x.zip y).flatMap fun v => natLE 4 v.1.1 ++ natLE 4 v.2.1, ((x ++ y).map fun v => v.2.2).foldl ConvCount.add {}, tiles x ++ tiles y)

/-- The batch runs to its end, or to where it was cut: how many vectors were written by then is open (log entry 22). -/
def State.runEncode (j : EncodeJob) (s : State) : State :=
  let p := j.params
  let n := if j.cut.isSome then s.fresh.toNat % (j.count + 1) else j.count
  let s := if j.cut.isSome then s.spend else s
  let z : Num := .fin false ⟨0, 0⟩
  let r := State.encodeMany j p n (s, {}, List.replicate p.n (z, z))
  let s := if bit j.flags.toNat 1 then
      let t := dimStats r.2.2
      ((t.2.2.foldl (fun s x => s.countTile x) (r.1.openUnits 0x700005)).countTun t.2.1).devWrite j.dimStatsDest t.1
    else r.1
  s.endEncode j p ((j.cut.map BitVec.toNat).getD stOk) r.2.1

/-- ENCODE_BATCH_COMPLETE (R116). -/
def execEncodeBatchComplete (job : Nat) (s : State) : Result :=
  match s.encodes.find? fun j => j.id = job with
  | none => .next s
  | some j => .next (({ s with encodes := s.encodes.filter fun x => x.id ≠ job }).runEncode j)

/-- Cut the batches for which `f` holds: each finishes its vector in progress and completes with the status (R96). -/
def State.cutEncodes (f : EncodeJob → Bool) (status : Nat) (s : State) : State :=
  { s with encodes := update (fun j => f j && j.cut.isNone) (fun j => { j with cut := some (BitVec.ofNat 8 status) }) s.encodes }

end Sys2Proof.Machine
end

