-- ==== Sys2Proof/Machine/Image.lean ====
section
/-!
DEFINITION. Index images (R139 to R141, R228): the checks of a load, the parts of a collection as sections, and the
image that SAVE writes.
-/

namespace Sys2Proof.Machine

/-! ## Sections (R139) -/

/-- Bytes of one histogram block, and of the sixteen of a section (R193). -/
def histBytes : Nat := 16 * 1088

/-- The length of a section type for a collection with `n` slots; none for a type R139 does not give it. -/
def sectionLength (d : CollDef) (n : Nat) : Nat → Option Nat
  | 0x01 => some (16 * n)
  | 0x02 => some (8 * n)
  | 0x03 => some (recordSize (codeParams d none []) d.codeHeaded * n)
  | 0x04 => if d.graph then some (4 * d.degree * n) else none
  | 0x05 => if d.rerankFormat.isSome then some (recordSize (rerankParams d none []) d.rerankHeaded * n) else none
  | 0x06 => if d.attrFields ≠ 0 then some (32 * n) else none
  | 0x07 => some (64 * 2 ^ vidLog2 d)
  | 0x08 => if d.graph then some 32 else none
  | 0x0B => some histBytes
  | _ => none

/-- The section types an image of a collection must hold. -/
def requiredSections (d : CollDef) : List Nat :=
  [1, 2, 3] ++ (if d.graph then [4, 8] else []) ++ (if d.rerankFormat.isSome then [5] else []) ++
    (if d.attrFields ≠ 0 then [6] else [])

/-- The section table of an image's first bytes. -/
def readSections (b : Bytes) : List Section :=
  (List.range (field b 6 2)).map fun i =>
    let o := 0x140 + 32 * i
    ⟨field b o 1, field b (o + 8) 8, field b (o + 16) 8, BitVec.ofNat 32 (field b (o + 24) 4)⟩

/-- The checks of load begin (R140 step 1): nothing, IMAGE_CRC or IMAGE_FORMAT. -/
def prefixCause (d : CollDef) (b : Bytes) : Cause :=
  let n := field b 6 2
  let end_ := 0x140 + 32 * n
  let slots := field b 0x10 4
  let total := field b 0x18 8
  let secs := readSections b
  if b.length < 0x140 || n = 0 || 12 < n || b.length < end_ then .imageFormat
  else if crc32c (sub b 0 0x28 ++ sub b 0x40 (end_ - 0x40)) ≠ BitVec.ofNat 32 (field b 0x28 4) then .imageCrc
  else if field b 0 4 = 0x58494B5A && field b 4 2 = 1 && field b 0xE 2 = 0 && slots ≤ d.maxVectors && end_ ≤ total &&
      sub b 0x42 254 = d.raw.drop 2 &&
      secs.all (fun x => sectionLength d slots x.type = some x.length && x.offset % 64 = 0 && end_ ≤ x.offset &&
        x.offset + x.length ≤ total && (secs.filter fun y => y.type = x.type).length = 1) &&
      (requiredSections d).all (fun t => secs.any fun x => x.type = t) &&
      pairwiseB (fun (x y : Section) => x.length = 0 || y.length = 0 || !overlaps x.offset x.length y.offset y.length) secs then .none
  else .imageFormat

/-- The load an accepted begin opens. -/
def openLoad (p : Port) (base : Nat) (b : Bytes) : Load :=
  { port := p, base := base, total := field b 0x18 8, generation := field b 8 6, position := field b 0x20 8,
    slots := field b 0x10 4, sections := readSections b, bytes := [] }

/-- The bytes of a section as written; bytes never written read as memory does. -/
def Load.sectionBytes (l : Load) (t : Nat) : Option Bytes :=
  (l.sections.find? fun x => x.type = t).map fun x => l.bytes.read x.offset x.length

/-! ## Filling a collection (R140 step 4, R141) -/

/-- A collection with every slot FREE. DESIGN CHOICE (log entry 26): R129 and R134 do not say what a load begin, a load abort or a failed load
does to the reuse counts; they are 0 again. -/
def Coll.emptied (c : Coll) : Coll :=
  { c with slots := [], vidMap := [], entries := [], hists := [] }

/-- The slot that an image gives at a position, rebased to generation `g` (R141). A loaded TOMBSTONE counts as repaired
(log entry 24). -/
def loadSlot (c : Coll) (g : Nat) (sec : Nat → Bytes) (i : Nat) : Slot :=
  let fl := field (sec 2) (8 * i) 2
  let st : SlotState := if fl % 4 = 1 then .live else if fl % 4 = 2 then .tombstone else .free
  let cs := recordSize c.codeP c.d.codeHeaded
  let rs := recordSize c.rerankP c.d.rerankHeaded
  { vid := BitVec.ofNat 64 (field (sec 1) (16 * i) 8), birth := if st = .free then 0 else g,
    reuse := field (sec 1) (16 * i + 14) 2, st := st, nonfinite := bit fl 2, death := if st = .tombstone then g else 0,
    code := sub (sec 3) (cs * i) cs, nbrs := readNbrs c.d.degree (sub (sec 4) (4 * c.d.degree * i) (4 * c.d.degree)),
    rerank := sub (sec 5) (rs * i) rs, attrs := padTo 32 (sub (sec 6) (32 * i) 32), repaired := st = .tombstone, freeGen := none }

/-- The VID map of a section. -/
def readVidMap (d : CollDef) (b : Bytes) : List (Nat × VidEntry) :=
  (List.range (4 * 2 ^ vidLog2 d)).filterMap fun i =>
    let e : VidEntry := ⟨BitVec.ofNat 64 (field b (16 * i) 8), BitVec.ofNat 32 (field b (16 * i + 8) 4)⟩
    if e.slot = 0xFFFFFFFF then none else some (i, e)

/-- The collection that a load's sections give; the flag says the histograms were rebuilt (R194). -/
def Coll.loaded (c : Coll) (l : Load) (g : Nat) : Coll × Bool :=
  let sec (t : Nat) : Bytes := (l.sectionBytes t).getD []
  let c := (List.range l.slots).foldl (fun (c : Coll) i => c.setSlot i (loadSlot c g sec i)) c.emptied
  let fill (c : Coll) (x : Nat × Slot) : Coll := if x.2.st = .free then c else c.insertVid x.2.vid x.1
  let c : Coll := match l.sectionBytes 7 with
    | some b => { c with vidMap := readVidMap c.d b }
    | none => c.slots.foldl fill c
  let live := (c.slots.filter fun (x : Nat × Slot) => x.2.st = .live).map fun (x : Nat × Slot) => x.2.attrs
  let c : Coll := { c with entries := ((List.range 8).map fun i => field (padTo 32 (sec 8)) (4 * i) 4).filter fun e =>
    c.d.graph && e ≠ 0xFFFFFFFF }
  match l.sectionBytes 0x0B with
  | some b => ({ c with hists := (List.range 16).map fun i => readHist (sub b (1088 * i) 1088) }, false)
  | none => ({ c with hists := buildHists c.d.schema live }, true)

/-- What fails a load at its end (R140 step 4): a section CRC, or a slot state 3. -/
def Load.endCause (l : Load) : Cause :=
  if l.sections.any fun x => crc32c (l.bytes.read x.offset x.length) ≠ x.crc then .imageCrc
  else
    let st := (l.sectionBytes 2).getD []
    if (List.range l.slots).any fun i => field st (8 * i) 1 % 4 = 3 then .imageFormat else .none

/-! ## Saving (R228) -/

/-- A slot as the image of snapshot `g` writes it. -/
def Slot.saved (g : Nat) (x : Slot) : Slot :=
  if x.st = .free then x
  else if g < x.birth then { x with st := .free, nonfinite := false }
  else if x.st = .tombstone && g < x.death then { x with st := .live }
  else x

/-- The slot table record of an image; the VID of a FREE slot is open (R134, log entry 1). -/
def Slot.savedTable (open_ : BitVec 64) (x : Slot) : Bytes :=
  natLE 8 (if x.st = .free then open_ else x.vid).toNat ++ natLE 6 x.birth ++ natLE 2 x.reuse

/-- The sections of an image of `n` slots, by type. -/
def Coll.sections (c : Coll) (g n : Nat) (open_ : Nat → BitVec 64) : List (Nat × Bytes) :=
  let xs := (List.range n).map fun i => (c.slot i).saved g
  let cs := recordSize c.codeP c.d.codeHeaded
  let rs := recordSize c.rerankP c.d.rerankHeaded
  [(1, (xs.zipIdx.map fun x => x.1.savedTable (open_ x.2)).flatten), (2, (xs.map Slot.stateBytes).flatten),
   (3, (xs.map fun x => padTo cs x.code).flatten)] ++
    (if c.d.graph then [(4, (xs.map fun x => nbrBytes c.d.degree x.nbrs).flatten)] else []) ++
    (if c.d.rerankFormat.isSome then [(5, (xs.map fun x => padTo rs x.rerank).flatten)] else []) ++
    (if c.d.attrFields ≠ 0 then [(6, (xs.map fun x => padTo 32 x.attrs).flatten)] else []) ++
    (if c.d.graph then [(8, ((List.range 8).map fun i => natLE 4 ((c.entries[i]?).getD 0xFFFFFFFF)).flatten)] else []) ++
    [(0x0B, ((List.range 16).map fun i => ((c.hists[i]?).getD emptyHist).bytes).flatten)]

/-- Place sections from an offset: the table's records and the bytes. -/
def placeSections : Nat → List (Nat × Bytes) → Bytes × Bytes
  | _, [] => ([], [])
  | o, (t, b) :: r =>
    let len := if r.isEmpty then b.length else roundUp 64 b.length
    let x := placeSections (o + len) r
    (natLE 1 t ++ zeros 7 ++ natLE 8 o ++ natLE 8 b.length ++ natLE 4 (crc32c b).toNat ++ zeros 4 ++ x.1, padTo len b ++ x.2)

/-- The image of a snapshot, and its live vectors. -/
def Coll.image (c : Coll) (g position : Nat) (open_ : Nat → BitVec 64) : Bytes × Nat :=
  let n := c.highWater
  let secs := c.sections g n open_
  let live := ((List.range n).filter fun i => ((c.slot i).saved g).st = .live).length
  let start := roundUp 64 (0x140 + 32 * secs.length)
  let x := placeSections start secs
  let head := natLE 4 0x58494B5A ++ natLE 2 1 ++ natLE 2 secs.length ++ natLE 8 g ++ natLE 4 n ++ natLE 4 live ++
    natLE 8 (start + x.2.length) ++ natLE 8 position
  let crc := crc32c (head ++ c.d.raw ++ x.1)
  (padTo start (head ++ natLE 4 crc.toNat ++ zeros 20 ++ c.d.raw ++ x.1) ++ x.2, live)

end Sys2Proof.Machine
end

