-- ==== Sys2Proof/Machine/Journal.lean ====
section
/-!
DEFINITION. The journal: blocks and the window (R219 to R221), acknowledgement and the completion of mutation entries
(R222, R223), the closing on loss of power (R225) and the start that reads the stream (R226).
-/

namespace Sys2Proof.Machine

/-- The journal's index: P4100. -/
def journalIndex : Nat := 0x4100

/-- Change the journal. -/
def State.mapJournal (f : Journal → Journal) (s : State) : State :=
  { s with muts := { s.muts with journal := f s.muts.journal } }

/-! ## Jobs -/

/-- Change a mutation job. -/
def State.mapJob (id : Nat) (f : MutJob → MutJob) (s : State) : State :=
  { s with muts := { s.muts with jobs := update (fun j => j.id = id) f s.muts.jobs } }

/-- A mutation job. -/
def State.job (s : State) (id : Nat) : Option MutJob := s.muts.jobs.find? fun j => j.id = id

/-- Two jobs come from one spool. -/
def MutClient.sameSpool : MutClient → MutClient → Bool
  | .spool p n _ _, .spool q m _ _ => p = q && n = m
  | _, _ => false

/-- The oldest job that can complete: its outcome is known, its records are acknowledged (R222), and no earlier entry of
its spool is outstanding (R333). -/
def settled : List MutJob → List MutJob → Option MutJob
  | _, [] => none
  | before, j :: r =>
    if j.status.isSome && j.unacked = 0 && !before.any (fun x => x.client.sameSpool j.client) then some j
    else settled (j :: before) r

/-- Write a job's completion. A SAVE gives back the snapshot it held (R209, R228). -/
def State.endJob (j : MutJob) (s : State) : State :=
  let s := { s with muts := { s.muts with jobs := s.muts.jobs.filter fun x => x.id ≠ j.id } }
  let s := match j.work with
    | .save _ => s.trimBaste
    | _ => s
  match j.client with
  | .spool p n tag head => s.complete p n head tag.toNat j.accepted j.aux j.opcode (j.status.getD stOk)
  | .mailbox p => s.endBg p 0xC030 .success 0

/-- Complete every job that can. -/
def State.settleJobs (s : State) : State := go s.muts.jobs.length s
where
  /-- At most as many as there are jobs. -/
  go : Nat → State → State
    | 0, s => s
    | n + 1, s => match settled [] s.muts.jobs with
      | some j => go n (s.endJob j)
      | none => s

/-! ## Records and blocks (R220) -/

/-- Bytes of a journal record. -/
def JRecord.size (r : JRecord) : Nat := 32 + r.body.length

/-- A journal record. -/
def JRecord.bytes (r : JRecord) : Bytes :=
  natLE 1 r.type ++ [0] ++ natLE 2 r.coll.toNat ++ natLE 4 r.size ++ natLE 8 r.version ++ natLE 8 r.stamp ++ zeros 8 ++ r.body

/-- Bytes the records of a block may take. -/
def blockBody : Nat := 65536 - 96

/-- Bytes of a block whose records take `n`. -/
def blockLength (n : Nat) : Nat := max 128 (roundUp 64 (96 + n))

/-- Bytes of a block's records. -/
def JBlock.body (b : JBlock) : Nat := (b.records.map JRecord.size).sum

/-- Bytes of a block. -/
def JBlock.length (b : JBlock) : Nat := blockLength b.body

/-- Version of a block's last record. -/
def JBlock.lastGeneration (b : JBlock) : Nat := (b.records.getLast?.map JRecord.version).getD 0

/-- The bytes of a block. -/
def JBlock.bytes (b : JBlock) : Bytes :=
  let magic := natLE 4 0x424A4B5A
  let h := magic ++ natLE 2 1 ++ natLE 2 b.flags ++ natLE 8 b.sequence ++ natLE 8 b.position ++ natLE 4 b.length ++
    natLE 4 b.records.length ++ natLE 8 ((b.records.head?.map JRecord.version).getD 0) ++ natLE 8 b.lastGeneration ++
    natLE 8 b.opened
  let h := h ++ natLE 4 (crc32c h).toNat ++ zeros 4
  let all := padTo (b.length - 32) (h ++ (b.records.map JRecord.bytes).flatten)
  all ++ magic ++ zeros 4 ++ natLE 8 b.sequence ++ natLE 8 b.lastGeneration ++ natLE 4 (crc32c all).toNat ++ zeros 4

/-! ## The window (R219) -/

/-- Window address, location and length. -/
def State.windowBase (s : State) : Nat := s.num 0x410002
/-- The window lies behind Port B. -/
def State.windowFar (s : State) : Bool := s.num 0x410003 = 1
/-- Bytes of the window. -/
def State.windowLength (s : State) : Nat := s.num 0x410004

/-- Where a block of `len` bytes goes: at `p`, or at the next window start where it would cross the end. -/
def placeBlock (w p len : Nat) : Nat := if w < p % w + len then (p / w + 1) * w else p

/-- Read the window at a position. -/
def State.windowRead (s : State) (p n : Nat) : Bytes :=
  (if s.windowFar then s.mem else s.hostMem).read (s.windowBase + p % s.windowLength) n

/-- Write the window at a position. -/
def State.windowWrite (p : Nat) (b : Bytes) (s : State) : State :=
  let a := s.windowBase + p % s.windowLength
  if s.windowFar then s.devWrite a b else { s with hostMem := s.hostMem.write a b }

/-- The device address of the release word: the last 64 bytes of Port A's host area (log entry 8). -/
def State.releaseWord (s : State) : Nat := s.hostBase .a + s.hostBytes .a - 64

/-- Read the release word (P4100.0A). -/
def State.readRelease (s : State) : State :=
  s.mapJournal fun j => { j with release := leNat (s.mem.read s.releaseWord 8) }

/-- The window holds every block up to `end_` without reaching the release position. -/
def State.windowFits (s : State) (end_ : Nat) : Bool := end_ ≤ s.muts.journal.release + s.windowLength

/-! ## Closing and opening blocks (R220, R222) -/

/-- Close the open block with a flag of R220: it takes the next sequence and its position. -/
def State.closeBlock (flag : Nat) (s : State) : State :=
  let j := s.muts.journal
  match j.current with
  | none => s
  | some b =>
    let p := placeBlock s.windowLength j.append b.length
    let b := { b with flags := b.flags + flag, sequence := j.nextSequence, position := p }
    s.mapJournal fun j => { j with
      current := none, unwritten := j.unwritten ++ [b], append := p + b.length, lastClosed := p,
      nextSequence := j.nextSequence + 1, written := j.written ++ [(p, b.lastGeneration)] }

/-- CLOSED_FULL, CLOSED_TIMER, CLOSED_FLUSH and CLOSED_POWER. -/
def closedFull : Nat := 1
/-- CLOSED_TIMER. -/
def closedTimer : Nat := 2
/-- CLOSED_FLUSH. -/
def closedFlush : Nat := 4
/-- CLOSED_POWER. -/
def closedPower : Nat := 8

/-- A record of `size` bytes does not fit in the open block. -/
def Journal.overflows (j : Journal) (size : Nat) : Bool :=
  match j.current with
  | some b => blockBody < b.body + size
  | none => false

/-- Add a record: a block it does not fit in closes, and a new one opens. -/
def State.addRecord (r : JRecord) (s : State) : State :=
  let s := if s.muts.journal.overflows r.size then s.closeBlock closedFull else s
  s.mapJournal fun j => { j with current := some (match j.current with
    | some b => { b with records := b.records ++ [r] }
    | none => { sequence := 0, position := 0, flags := 0, opened := r.stamp, records := [r] }) }

/-- A marker (R220), while the journal is ON; it never waits (log entry 23). -/
def State.journalMarker (type : Nat) (h : Handle) (s : State) : State :=
  if s.isOn journalIndex then
    s.addRecord { type := type, coll := h, version := s.muts.generation, stamp := s.stamp, body := [], job := none, durable := false }
  else s

/-- There is window space for a record of `size` bytes. -/
def State.spaceFor (s : State) (size : Nat) : Bool :=
  let j := s.muts.journal
  let w := s.windowLength
  match j.current with
  | none => let n := blockLength size; s.windowFits (placeBlock w j.append n + n)
  | some b =>
    if j.overflows size then
      let p := placeBlock w j.append b.length + b.length
      let n := blockLength size
      s.windowFits (placeBlock w p n + n)
    else let n := blockLength (b.body + size); s.windowFits (placeBlock w j.append n + n)

/-- A FAST record is accepted now (R222): it opens no third block that is not durable, and no unwritten record is more
than 200 µs old. -/
def State.fastFits (s : State) (size : Nat) : Bool :=
  let j := s.muts.journal
  let opens := j.current.isNone || j.overflows size
  let blocks := j.unwritten.length + (if j.current.isSome then 1 else 0) + (if opens then 1 else 0)
  (!opens || blocks ≤ 2) && (j.unwritten ++ j.current.toList).all fun b => s.now ≤ b.opened + 200000

/-- The timer of the open block has run out (R222): P4100.06 where it holds a DURABLE record or a marker, 100 µs where it
holds a FAST record. -/
def State.blockDue (s : State) (b : JBlock) : Bool :=
  (b.records.any (fun r => r.durable || r.type ≠ 1) && b.opened + s.num 0x410006 ≤ s.now) ||
    (b.records.any (fun r => !r.durable && r.type = 1) && b.opened + 100000 ≤ s.now)

/-- JOURNAL_BLOCK_TIMER (R222). -/
def execJournalBlockTimer (s : State) : Result :=
  match s.muts.journal.current with
  | none => .next s
  | some b => .next (if s.blockDue b then s.closeBlock closedTimer else s)

/-! ## Writes and acknowledgement (R222, R223) -/

/-- A pending journal flush waits for a record. -/
def MutJob.awaits (j : MutJob) (r : JRecord) : Bool :=
  match j.work with
  | .flushJournal _ => (j.coll.isNone || j.coll = some r.coll) && r.stamp ≤ j.arrival
  | _ => false

/-- Records that are not durable. -/
def Journal.pendingRecords (j : Journal) : List JRecord := (j.unwritten ++ j.current.toList).flatMap JBlock.records

/-- Acknowledge the DURABLE records of a block that is durable. -/
def State.ackBlock (b : JBlock) (s : State) : State :=
  b.records.foldl (fun s r => match r.job with
    | some id => if r.durable then s.mapJob id fun j => { j with unacked := j.unacked - 1, aux := b.position } else s
    | none => s) s

/-- The oldest unwritten block is written and read back. -/
def State.blockWritten (s : State) : State :=
  match s.muts.journal.unwritten with
  | [] => s
  | b :: r =>
    let s := (s.windowWrite b.position b.bytes).mapJournal fun j => { j with unwritten := r, durable := b.position + b.length }
    (((s.bump 0x41000C).setNum 0x41000E b.sequence).ackBlock b).settleJobs

/-- A second failure (R223): C3, the journal OFF, and the records of unwritten blocks stay unacknowledged. -/
def State.journalFail (s : State) : State :=
  let lost := s.muts.journal.pendingRecords
  let mark (j : MutJob) : MutJob := match j.work with
    | .flushJournal l => { j with work := .flushJournal (l || lost.any j.awaits) }
    | _ => j
  let s := { s with muts := { s.muts with jobs := s.muts.jobs.map mark } }
  (((s.mapJournal fun j => { j with current := none, unwritten := [] }).release ownerJournal).setSw journalIndex ⟨.off, none⟩).event 0x60 0xFFFF 0

/-- The outcome of the oldest write: a first failure is retried. A block that would run over the release position is not
written (log entry 23). -/
def State.blockOutcome (ok : Bool) (s : State) : State :=
  match s.muts.journal.unwritten with
  | [] => s
  | b :: r =>
    if !s.windowFits (b.position + b.length) then s
    else if ok then s.blockWritten
    else if b.retried then s.journalFail
    else s.mapJournal fun j => { j with unwritten := { b with retried := true } :: r }

/-- A flush's condition holds (R222): its records are durable, or retired, removed and repaired. -/
def State.flushDone (s : State) (j : MutJob) : Bool :=
  match j.work with
  | .flushJournal lost => !lost && !(s.muts.journal.pendingRecords.any j.awaits)
  | .flushSeam => !(s.muts.baste.any fun e => (j.coll.isNone || j.coll = some e.coll) && e.stamp ≤ j.arrival && e.retired.isNone)
  | _ => false

/-- FLUSH_SATISFIED (R222): the pending flush completes. -/
def execFlushSatisfied (job : Nat) (s : State) : Result :=
  match s.job job with
  | none => .next s
  | some j =>
    .next (if j.status.isNone && s.flushDone j then (s.mapJob job fun j => { j with status := some stOk }).settleJobs else s)

/-! ## Loss of power (R225) -/

/-- The closing of R225: 0 PWR_FAIL_N, 1 GPF, 2 FENCED; intake stays stopped for the highest of those that have happened. The event is part of the reaction of the event that fences. -/
def State.powerClose (cause : Nat) (s : State) : State :=
  let s := (s.mapJournal fun j => { j with intakeStopped := some (max (j.intakeStopped.getD 0) cause) }).closeBlock closedPower
  (s.bump 0x41000F).record 0x0C (BitVec.ofNat 16 cause) 0 false (if cause = 2 then s.thimble.fencer else none)

/-! ## Starting (R221, R226) -/

/-- A journal block as read back. -/
structure ReadBlock where
  sequence : Nat
  position : Nat
  length : Nat
  count : Nat
  lastGeneration : Nat
  body : Bytes
deriving DecidableEq, Repr

/-- The window holds a valid block header for position `p`. -/
def State.headerAt (s : State) (p : Nat) : Bool :=
  let h := s.windowRead p 64
  field h 0 4 = 0x424A4B5A && BitVec.ofNat 32 (field h 0x38 4) = crc32c (h.take 0x38) && field h 0x10 8 = p &&
    128 ≤ field h 0x18 4 && field h 0x18 4 ≤ 65536 && p % s.windowLength + field h 0x18 4 ≤ s.windowLength

/-- The valid block at a position (R221). -/
def State.blockAt (s : State) (p : Nat) : Option ReadBlock :=
  if !s.headerAt p then none
  else
    let n := field (s.windowRead p 64) 0x18 4
    let b := s.windowRead p n
    let t := b.drop (n - 32)
    if field t 0 4 = 0x424A4B5A && field t 8 8 = field b 8 8 && field t 0x10 8 = field b 0x28 8 &&
        BitVec.ofNat 32 (field t 0x18 4) = crc32c (b.take (n - 32)) then
      some ⟨field b 8 8, p, n, field b 0x1C 4, field b 0x28 6, sub b 64 (n - 96)⟩
    else none

/-- The block that follows one: where it ended, or at the next window start, with the next sequence (log entry 23). -/
def State.blockAfter (s : State) (b : ReadBlock) : Option ReadBlock :=
  let p := b.position + b.length
  let w := s.windowLength
  let good (x : Option ReadBlock) : Option ReadBlock := x.filter fun y => y.sequence = b.sequence + 1
  (good (s.blockAt p)).orElse fun _ => if p % w = 0 then none else good (s.blockAt ((p / w + 1) * w))

/-- Valid blocks from one on. -/
def State.followBlocks (s : State) : Nat → Option ReadBlock → List ReadBlock
  | _, none => []
  | 0, _ => []
  | f + 1, some b => b :: s.followBlocks f (s.blockAfter b)

/-- Every valid block of the stream from a position. -/
def State.stream (s : State) (p : Nat) : List ReadBlock := s.followBlocks (s.windowLength / 128 + 1) (s.blockAt p)

/-- The slices a window behind Port B covers: their base and bytes. -/
def State.windowSlices (s : State) : Nat × Nat :=
  (s.windowBase / sliceBytes * sliceBytes, roundUp sliceBytes (s.windowBase % sliceBytes + s.windowLength))

/-- The lowest expander of persistent memory with the free slices the window takes (R265). -/
def State.journalExpander (s : State) : Option Nat :=
  s.expandersUp.find? fun n => (lookDef {} s.tiers.expanders n).persistent ≠ 0 &&
    s.windowSlices.2 / sliceBytes ≤ s.freeSlices 2 n

/-- The journal can be turned ON (R219, R265): the window's shape, and behind Port B its slices, below the measured capacity (R255). -/
def State.journalReady (s : State) : Bool :=
  let w := s.windowLength
  let x := s.windowSlices
  w % 65536 = 0 && 0x1000000 ≤ w && s.windowBase % 65536 = 0 &&
    (!s.windowFar || (s.backedRange x.1 x.2 && regionOf x.1 = .cxl && s.journalExpander.isSome &&
      !(s.tiers.extents.any fun e => e.owner ≠ ownerJournal && e.tier = 2 && overlaps e.base e.size x.1 x.2)))

/-- Take the lowest free slices of a unit, `n` of them. -/
def State.lowSlices (s : State) (tier unit : Nat) : Nat → Nat → List Nat
  | 0, _ => []
  | f + 1, n =>
    if n = 0 then []
    else
      let i := s.unitSlices tier unit - (f + 1)
      if s.sliceTaken tier unit i then s.lowSlices tier unit f n else i :: s.lowSlices tier unit f (n - 1)

/-- Reserve the window's slices behind Port B as the journal turns ON (R265). -/
def State.reserveWindow (s : State) : State :=
  match s.windowFar, s.journalExpander with
  | true, some n =>
    let x := s.windowSlices
    let l := (s.lowSlices 2 n (s.unitSlices 2 n) (x.2 / sliceBytes)).map fun i => (n, i)
    { s with tiers := { s.tiers with extents := s.tiers.extents ++ [⟨ownerJournal, 2, x.1, l⟩] } }
  | _, _ => s

/-! ## Generations (R194, R210) -/

/-- A mutation becomes visible: its attribute record adjusts the histograms (R194). -/
def State.adjustFor (e : BasteEntry) (s : State) : State :=
  if !e.insert && e.attrs.isEmpty then s
  else s.mapColl e.coll fun c => { c with hists := adjustHists c.d.schema e.insert e.attrs c.hists }

/-- The generation counter takes a higher value; every mutation up to it is visible. -/
def State.openGeneration (g : Nat) (s : State) : State :=
  let new := s.muts.baste.filter fun e => s.muts.generation < e.version && e.version ≤ g
  let s := { s with muts := { s.muts with generation := g, lastBell := 0 } }
  new.foldl (fun s e => s.adjustFor e) s

/-- A generation bell at `t` (R210). -/
def State.ringGeneration (t : Time) (s : State) : State :=
  let s := (s.openGeneration ((s.muts.generation + 1) % 2 ^ 48)).bump 0x411004
  { s with muts := { s.muts with lastBell := t } }

/-- The journal starts: behind Port B it reserves its window, and the position to read is the one accepted now (R362). -/
def State.journalStart (s : State) : State :=
  let s := s.reserveWindow
  s.mapJournal fun j => { j with resume := s.num 0x410007 }

/-- The start of the journal completes (R226): the stream is read, the generation raised, and the replay end recorded. -/
def State.journalStarted (s : State) : State :=
  let p := s.muts.journal.resume
  let bs := s.stream p
  let end_ := (bs.getLast?.map fun b => b.position + b.length).getD p
  let s := s.mapJournal fun j => { j with
    append := end_, durable := end_, replayEnd := end_, lastClosed := (bs.getLast?.map ReadBlock.position).getD 0,
    nextSequence := (bs.getLast?.map fun b => b.sequence + 1).getD 1, current := none, unwritten := [],
    written := bs.map fun b => (b.position, b.lastGeneration), fullEpisode := false }
  let g := (bs.map ReadBlock.lastGeneration).foldl max 0
  let s := s.readRelease
  if bs.isEmpty || g + 1 ≤ s.muts.generation then s else s.openGeneration (g + 1)

/-- Turning the journal OFF closes the open block (R223); no flag of R220 is named for it, and CLOSED_FLUSH is set (log
entry 23). -/
def State.journalStop (s : State) : State := s.closeBlock closedFlush

/-- Every block is durable, so the state may read OFF. -/
def State.journalIdle (s : State) : Bool := s.muts.journal.current.isNone && s.muts.journal.unwritten.isEmpty

end Sys2Proof.Machine
end

