-- ==== Sys2Proof/Machine/Calendar.lean ====
section
/-!
DEFINITION. The event calendar (R54 to R61): occurrences, windows, bells, the start and stop of an entry, and what a step of
fleet time does to it (R41, R42).
-/

namespace Sys2Proof.Machine

/-! ## Entries -/

/-- SEAM_WINDOW, RETRAIN_WINDOW and SCRUB_WINDOW. -/
def isWindow (kind : Nat) : Bool := 3 ≤ kind && kind ≤ 5

/-- The entry is a window. -/
def State.windowEntry (s : State) (n : Nat) : Bool := isWindow (s.calKind n)

/-! ## Windows -/

/-- A window opens until `t`; a RETRAIN_WINDOW's occurrence begins with no stack retrained (R272). -/
def State.openWindow (n t : Nat) (s : State) : State :=
  let s := (s.setCal n { s.calEntry n with openUntil := some t, openedAt := s.now, instant := none, retrained := [] }).bump
    (key (calIndex n) 8)
  if s.calKind n = 3 then { s with muts := { s.muts with seamWindow := s.muts.seamWindow + 1 } } else s

/-- The latest merge bell in state ON that rings in `[t, t + 2.1 ms)`, or none (R60). -/
def State.bellWithin (s : State) (t : Nat) : Option Nat :=
  ((List.range 128).filterMap fun n =>
    if s.gridOn n && s.calRuns then
      match s.lastOcc n (t + 2099999) with
      | some (o, _) => if t ≤ o then some o else none
      | none => none
    else none).max?

/-- No merge bell in state ON rings in `[t, t + 2.1 ms)`. -/
def State.bellFree (s : State) (t : Nat) : Bool := (s.bellWithin t).isNone

/-- A whole microsecond from `t` on and before `e` starts a span with no merge bell in it (R60, R272). -/
def State.freeInstant (s : State) (e : Nat) : Nat → Nat → Bool
  | 0, _ => false
  | fuel + 1, t =>
    let i := roundUp 1000 t
    if e ≤ i then false
    else
      match s.bellWithin i with
      | none => true
      | some o => State.freeInstant s e fuel (o + 1)

/-- Some instant of an occurrence `[a, b)` is one; a grid that rings every 2.1 ms or more often leaves none. -/
def State.anyInstant (s : State) (a b : Nat) : Bool :=
  !((List.range 128).any fun n => s.gridOn n && s.calRuns && (s.calEntry n).switchAfter.isNone && 0 < (s.calEntry n).period &&
      (s.calEntry n).period ≤ 2100000) &&
    s.freeInstant b ((b - a) / 1000 + 2) a

/-- A stack's planned retrain moves to the next occurrence. -/
def State.deferStack (n : Nat) (s : State) : State := s.setStack n { s.stack n with deferrals := (s.stack n).deferrals + 1 }

/-- The stacks of a RETRAIN_WINDOW's occurrence whose planned retrain no instant of it allowed: those of its mask, present and online,
that have not had it, and that the deferrals so far do not let start without regard to merge bells (R60). -/
def State.unserved (s : State) (n : Nat) : List Nat :=
  s.stacksUp.filter fun k => bit (s.calTarget n) k && !(s.calEntry n).retrained.contains k && (s.stack k).deferrals < s.num 0x200403

/-- A window closes. A RETRAIN_WINDOW whose occurrence held no instant for a planned retrain is a deferral (R60). -/
def State.closeWindow (n : Nat) (s : State) : State :=
  let e := s.calEntry n
  let late := match e.openUntil with
    | some t => if s.calKind n = 4 && !s.anyInstant e.openedAt t then s.unserved n else []
    | none => []
  let s := s.setCal n { e with openUntil := none, instant := none, retrained := [] }
  if late.isEmpty then s else (late.foldl (fun s k => s.deferStack k) s).bump 0x200402

/-- The end of the occurrence of a schedule that holds `t`. -/
def CalEntry.holding (e : CalEntry) (t : Nat) : Option Nat :=
  match occBefore e.phase e.period t with
  | some o => if t < o + e.length then some (o + e.length) else none
  | none => none

/-- The next occurrence of an entry from `now`: a window's is the one after any that holds `now`. -/
def CalEntry.nextFrom (e : CalEntry) (window : Bool) (now : Nat) : Time :=
  if window then
    match occBefore e.phase e.period now with
    | some o => if now < o + e.length then occAfter e.phase e.period now else occFrom e.phase e.period now
    | none => occFrom e.phase e.period now
  else occFrom e.phase e.period now

/-! ## Start and stop (R55, R57) -/

/-- An entry comes into service: the schedule in the book is in force, and a window opens inside its occurrence. -/
def State.calArm (n : Nat) (s : State) : State :=
  let w := s.windowEntry n
  let e := s.adopt n { s.calEntry n with openUntil := none }
  let s := s.setCal n { e with next := some (e.nextFrom w s.now) }
  match if w then e.holding s.now else none with
  | some t => s.openWindow n t
  | none => s

/-- Every entry that is ON comes into service. -/
def State.calArmAll (s : State) : State :=
  (List.range 128).foldl (fun s n => if s.calFires n then s.calArm n else s) s

/-- An entry that reads OFF has no schedule in force. -/
def State.calDisarm (n : Nat) (s : State) : State := s.setCal n {}

/-! ## Firing (R55, R56, R59) -/

/-- The class of an entry's occurrences in the order of R59, after the ends of windows: generation bells, merge bells, starts of windows,
samples. -/
def kindRank (kind : Nat) : Nat := if kind = 1 then 1 else if kind = 2 then 2 else if isWindow kind then 3 else 4

/-- What of an entry has come due and not happened: its time and class, its window's end and its next occurrence. -/
def State.dueOf (s : State) (n : Nat) : List (List Nat) :=
  let e := s.calEntry n
  (match e.openUntil with
   | some t => if t ≤ s.now && s.calRuns then [[t, 0, n]] else []
   | none => []) ++
  (match e.next with
   | some t => if t ≤ s.now && s.calFires n && s.calKind n ≠ 0 then [[t, kindRank (s.calKind n), n]] else []
   | none => [])

/-- Nothing that comes before it is due: what falls on one fleet time happens in the order of R59, each entry in ascending number. -/
def State.inTurn (s : State) (t rank n : Nat) : Bool := (List.range 128).all fun k => (s.dueOf k).all fun x => !(x < [t, rank, n])

/-- The next occurrence of an entry fires, if its time has come and it is its turn (R59): its time, and the state after. -/
def State.fire (n : Nat) (s : State) : Option (Time × State) :=
  let e := s.calEntry n
  match e.next with
  | none => none
  | some t =>
    if !s.calFires n || s.now < t || !s.inTurn t (kindRank (s.calKind n)) n then none
    else
      let e := match e.switchAfter with
        | some u => if u ≤ t then s.adopt n e else e
        | none => e
      let s := s.setCal n { e with next := some (occAfter e.phase e.period t) }
      some (t, if t + 200 < s.now then (s.bump (key (calIndex n) 9)).bump 0x200404 else s)

/-- The lead evaluates its records on a grid (R317). -/
def State.ringMerge (n : Nat) (s : State) : State :=
  (s.fabric.records.filter fun r => r.grid = n).foldl (fun s r => s.checkRecord r.window r.id) s

/-- An entry's new schedule fields: entries 0x00 to 0x0F that are in service take them after their next occurrence (R56). -/
def State.calChanged (n : Nat) (s : State) : State :=
  let e := s.calEntry n
  match e.next, e.switchAfter with
  | some t, none => s.setCal n { e with switchAfter := some t }
  | _, _ => s

/-! ## Steps of fleet time (R41, R42) -/

/-- A bell's occurrences skipped by a forward step from `old` fire once, with the time of the latest (R42). DESIGN CHOICE (log entry 29):
this firing, at the step instant, is no late fire of P21nn.09, and neither is a window that opens part-way through its occurrence. -/
def State.skipBell (n old : Nat) (s : State) : State :=
  let e := s.calEntry n
  match e.next with
  | none => s
  | some t =>
    if !s.calFires n || s.now ≤ t || s.now ≤ old then s
    else
      let last := max t (((s.lastOcc n (s.now - 1)).map Prod.fst).getD t)
      let s := s.bump (key (calIndex n) 8)
      if s.calKind n = 1 then s.ringGeneration last else s.ringMerge n

/-- After a step the schedule follows the new time. -/
def State.rearm (n : Nat) (s : State) : State :=
  let e := s.calEntry n
  match e.next with
  | none => s
  | some _ =>
    let e := match e.switchAfter with
      | some u => if u < s.now then s.adopt n e else e
      | none => e
    s.setCal n { e with next := some (e.nextFrom (s.windowEntry n) s.now) }

/-- The end of a window's occurrence that holds the new time, where the entry is in service: ON, or STOPPING until its occurrence ends
(R57). -/
def State.heldWindow (s : State) (n : Nat) : Option Nat :=
  if s.windowEntry n && s.calRuns && (s.sw (calIndex n)).st != .off && (s.calEntry n).next.isSome then
    match s.lastOcc n s.now with
    | some (o, e) => if s.now < o + e.length then some (o + e.length) else none
    | none => none
  else none

/-- What a step of fleet time from `old` does to the calendar, in the order of R59. DESIGN CHOICE (log entry 29): the occurrences of a
TELEMETRY_SAMPLE that a forward step skips do not fire, since R42 fires bells only. -/
def State.stepCalendar (old : Nat) (s : State) : State :=
  let all := List.range 128
  let s := all.foldl (fun s n =>
    if (s.calEntry n).openUntil.isSome && (s.calEntry n).openUntil ≠ s.heldWindow n then s.closeWindow n else s) s
  let s := all.foldl (fun s n => if s.calKind n = 1 then s.skipBell n old else s) s
  let s := all.foldl (fun s n => if s.calKind n = 2 then s.skipBell n old else s) s
  let s := all.foldl (fun s n =>
    match if s.calFires n then s.heldWindow n else none with
    | some t => if (s.calEntry n).openUntil.isSome then s else s.openWindow n t
    | none => s) s
  all.foldl (fun s n => s.rearm n) s

/-! ## The commands -/

/-- GENERATION_BELL (R210): only entry 0x00 advances the generation. -/
def execGenerationBell (s : State) : Result :=
  match if s.calKind 0 = 1 then s.fire 0 else none with
  | some (t, s) => .next ((s.bump (key (calIndex 0) 8)).ringGeneration t)
  | none => .next s

/-- MERGE_BELL (R53, R317). -/
def execMergeBell (entry : Fin 128) (s : State) : Result :=
  match if s.calKind entry = 2 then s.fire entry else none with
  | some (_, s) => .next ((s.bump (key (calIndex entry) 8)).ringMerge entry)
  | none => .next s

/-- WINDOW_START (R55). A window that ends exactly where this one starts has closed before (R59). -/
def execWindowStart (entry : Fin 128) (s : State) : Result :=
  let len := (s.calEntry entry).length
  match if s.windowEntry entry then s.fire entry else none with
  | some (t, s) =>
    let s := if (s.calEntry entry).openUntil.isSome then s.closeWindow entry else s
    if t + len ≤ s.now then .next (s.bump (key (calIndex entry) 8)) else .next (s.openWindow entry (t + len))
  | none => .next s

/-- WINDOW_END (R55). -/
def execWindowEnd (entry : Fin 128) (s : State) : Result :=
  match (s.calEntry entry).openUntil with
  | some t => if t ≤ s.now && s.calRuns && s.inTurn t 0 entry then .next (s.closeWindow entry) else .next s
  | none => .next s

end Sys2Proof.Machine
end

