-- ==== Sys2Proof/Machine/Mutate.lean ====
section
/-!
DEFINITION. Mutation spools (R199 to R203), acceptance (R204 to R208), flushes (R222), REPLAY (R227) and SAVE (R228).
-/

namespace Sys2Proof.Machine

/-! ## Acceptance (R202 to R206) -/

/-- The version of a stamp (R204): the generation that the earliest bell at or after it opens. -/
def State.versionAt (s : State) (stamp : Time) : Nat :=
  if s.muts.lastBell = stamp && stamp ≠ 0 then s.muts.generation
  else (s.muts.generation + if s.bellDue && (s.calEntry 0).next ≠ some stamp then 2 else 1) % 2 ^ 48

/-- A VID is visible in the current generation, or has an unretired baste insert (R206). -/
def State.holdsVid (s : State) (c : Coll) (vid : BitVec 64) : Bool :=
  !(s.pendingInserts c.d.handle vid).isEmpty || (s.findVid c vid s.muts.generation s.now).isSome

/-- The attribute record of the vector that a delete takes away: the newest baste insert's, or the LIVE slot's; empty where
there is none. -/
def State.oldAttrs (s : State) (c : Coll) (vid : BitVec 64) : Bytes :=
  match (s.pendingInserts c.d.handle vid).getLast? with
  | some e => e.attrs
  | none => (((c.lookupVid vid).find? fun n => (c.slot n).st = .live).map fun n => (c.slot n).attrs).getD []

/-- An INSERT that is treated as an UPDATE, or an UPDATE (R206). -/
def State.isUpdate (s : State) (c : Coll) (r : MutRecord) : Bool := r.kind = 3 || (r.kind = 1 && s.holdsVid c r.vid)

/-- LIVE slots. -/
def Coll.live (c : Coll) : Nat := (c.slots.filter fun x => x.2.st = .live).length

/-- TOMBSTONE slots. -/
def Coll.tombstones (c : Coll) : Nat := (c.slots.filter fun x => x.2.st = .tombstone).length

/-- Unretired baste inserts of a collection. -/
def State.unretiredInserts (s : State) (h : Handle) : Nat :=
  (s.muts.baste.filter fun e => e.coll = h && e.insert && e.retired.isNone).length

/-- The elements of a record's vector. -/
def MutRecord.values (r : MutRecord) : List Num := sourceVec r.format r.dim r.vec

/-- The checks of R202. -/
def State.recordOk (s : State) (c : Coll) (r : MutRecord) : Bool :=
  r.ok c.d.dim &&
    (r.kind = 2 || (c.live + s.unretiredInserts c.d.handle < c.d.maxVectors &&
      (s.num 0x41200C = 0 || r.values.all Num.finite)))

/-- Bytes of the partition and of the payload area that a record takes (R207). -/
def State.needs (s : State) (c : Coll) (r : MutRecord) : Nat × Nat × Nat :=
  let del := if r.kind = 2 || s.isUpdate c r then 1 else 0
  if r.kind = 2 then (1, 32, 0)
  else
    let rr := if c.d.rerankFormat.isSome then recordSize c.rerankP c.d.rerankHeaded else 0
    (1 + del, 32 * del + 32 + recordSize c.codeP c.d.codeHeaded, roundUp 64 (32 + rr))

/-- There is room for a record in the baste list, its partition and the payload area (R208). -/
def State.roomFor (s : State) (c : Coll) (r : MutRecord) : Bool :=
  let x := s.needs c r
  s.muts.baste.length + x.1 ≤ s.num 0x412001 && s.basteBytes + x.2.1 ≤ s.partition 2 && s.payloadBytes + x.2.2 ≤ s.payloadArea

/-- Append a baste entry; one that is visible already adjusts the histograms at once (R194, R204). -/
def State.appendBaste (e : BasteEntry) (s : State) : State :=
  let s := { s with muts := { s.muts with
    nextId := s.muts.nextId + 1, baste := layBaste (s.partition 2) s.payloadArea { e with id := s.muts.nextId } s.muts.baste } }
  if e.version ≤ s.muts.generation then s.adjustFor e else s

/-- A DELETE or UPDATE removes the unretired inserts of its VID with a lower version (R206). -/
def State.removeInserts (h : Handle) (vid : BitVec 64) (version : Nat) (s : State) : State :=
  let gone (e : BasteEntry) : Bool := e.coll = h && e.vid = vid && e.insert && e.retired.isNone && e.version < version
  (s.mapBaste fun l => l.filter fun e => !gone e).bumpBy 0x41200B (s.muts.baste.filter gone).length

/-- Kiln encodes a record's vector under the class MUTATE (R24, R204 step 2). -/
def State.encodeRecord (c : Coll) (r : MutRecord) (s : State) : State × BasteEntry :=
  let e := encodeVec c.codeP s.kilnOvf r.values
  let s := ((s.countEncoded e).bump 0x600001).addDrift c.d.handle c.codeP e
  let b : BasteEntry := { id := 0, coll := c.d.handle, vid := r.vid, version := 0, stamp := 0, insert := true, nonfinite := e.nonfinite,
                          code := recordBytes c.codeP c.d.codeHeaded e, attrs := r.attrs }
  if c.d.rerankFormat.isNone then (s, b)
  else
    let x := encodeVec c.rerankP s.kilnOvf r.values
    ((s.countKiln x.count).bumpBy 0x600003 x.constants, { b with rerank := recordBytes c.rerankP c.d.rerankHeaded x })

/-- The place of a job's spool in the order of R204: Port A first, then ascending spool number. -/
def State.jobSource (s : State) (job : Nat) : Nat :=
  match (s.job job).map MutJob.client with
  | some (.spool p n _ _) => intakePlace (.spool p n)
  | _ => 0

/-- Accept a record of a job (R204, R206): mode 0 DURABLE, 1 FAST, 2 VOLATILE; a replayed one is VOLATILE (R227). -/
def State.acceptRecord (job : Nat) (c : Coll) (r : MutRecord) (mode : Nat) (s : State) : State :=
  let h := c.d.handle
  let stamp := s.stamp
  let v := s.versionAt stamp
  let upd := s.isUpdate c r
  let old := s.oldAttrs c r.vid
  let s := s.bump (if r.kind = 2 then 0x412009 else if upd then 0x41200A else 0x412008)
  let s := if r.kind = 2 || upd then
      (s.removeInserts h r.vid v).appendBaste
        { id := 0, coll := h, vid := r.vid, version := v, stamp := stamp, insert := false, attrs := old }
    else s
  let s := if r.kind = 2 then s
    else
      let x := s.encodeRecord c r
      x.1.appendBaste { x.2 with version := v, stamp := stamp }
  let s := if mode = 2 then s
    else s.addRecord { type := 1, coll := h, version := v, stamp := stamp, body := r.raw, job := some job, durable := mode = 0 }
  let s := { s with muts := { s.muts with lastPlace := (stamp, s.jobSource job) } }
  s.mapJob job fun j => { j with accepted := j.accepted + 1, unacked := j.unacked + (if mode = 0 then 1 else 0),
                                 waiting := false, capCounted := false }

/-! ## Waits (R208, R222, R223, R225) -/

/-- Why a record waits. -/
inductive Hold where
  | none | intake | room | journal | full
deriving DecidableEq, Repr

/-- What holds a record back now. -/
def State.holds (s : State) (c : Coll) (r : MutRecord) (mode : Nat) : Hold :=
  let size := 32 + r.raw.length
  if s.muts.journal.intakeStopped.isSome || (r.kind ≠ 2 && !s.anyKiln) then .intake
  else if !s.roomFor c r then .room
  else if mode = 2 then .none
  else if !s.isOn journalIndex || (mode = 1 && !s.fastFits size) then .journal
  else if !s.spaceFor size then .full
  else .none

/-- A record begins to wait, or goes on waiting. -/
def State.holdRecord (job : Nat) (w : Hold) (s : State) : State :=
  let s := match w with
    | .room => match s.job job with
      | some j => if j.capCounted then s else (s.bump 0x412007).mapJob job fun j => { j with capCounted := true }
      | none => s
    | .full =>
      if s.muts.journal.fullEpisode then s
      else ((s.mapJournal fun j => { j with fullEpisode := true }).bump 0x41000D).event 0x61 0xFFFF 0
    | _ => s
  s.mapJob job fun j => { j with waiting := true }

/-- Try a record of a job: accepted, refused (INVALID_INPUT) or held; `true` where it was accepted. -/
def State.tryRecord (job : Nat) (c : Coll) (r : MutRecord) (mode : Nat) (s : State) : State × Bool :=
  let s := s.readRelease
  match s.holds c r mode with
  | .none =>
    let s := if mode = 2 then s else s.mapJournal fun j => { j with fullEpisode := false }
    (s.acceptRecord job c r mode, true)
  | w => (s.holdRecord job w, false)

/-- A job's outcome is known. -/
def State.finishJob (job : Nat) (status : Nat) (s : State) : State :=
  s.mapJob job fun j => { j with status := some status, waiting := false }

/-! ## MUTATE (R202) -/

/-- The position reported for a FAST entry is open: its block is not placed when it completes (R334, log entry 23). -/
def State.fastAux (job : Nat) (s : State) : State :=
  (s.mapJob job fun j => { j with aux := if j.accepted = 0 then 0 else s.fresh.toNat }).spend

/-- Close a MUTATE entry's reading with a status. -/
def State.endMutate (job mode status : Nat) (s : State) : State :=
  (if mode = 1 then s.fastAux job else s).finishJob job status

/-- Take the next record of a MUTATE entry. -/
def State.mutateStep (j : MutJob) (w : MutateWork) (c : Coll) (s : State) : State :=
  if w.count ≤ j.accepted then s.endMutate j.id w.mode stOk
  else
    let len := field (s.mem.read (w.addr + w.offset) 8) 4 4
    if w.length < w.offset + 32 || len < 32 || w.length < w.offset + len then s.endMutate j.id w.mode stInvalid
    else
      let r := parseMutRecord (s.mem.read (w.addr + w.offset) len)
      if !s.recordOk c r then s.endMutate j.id w.mode stInvalid
      else
        let x := s.tryRecord j.id c r w.mode
        if x.2 then x.1.mapJob j.id fun j => { j with work := .mutate { w with offset := w.offset + len } } else x.1

/-- Carry on with a MUTATE entry until it ends or waits. -/
def State.mutateRun (job : Nat) : Nat → State → State
  | 0, s => s
  | f + 1, s =>
    match s.job job with
    | none => s
    | some j =>
      match j.work, j.status, j.coll.bind s.coll with
      | .mutate w, none, some c =>
        if c.st ≠ .created && c.st ≠ .online then s.endMutate job w.mode stOffline
        else
          let t := s.mutateStep j w c
          match t.job job with
          | some k => if k.waiting then t else State.mutateRun job f t
          | none => t
      | _, _, _ => s

/-! ## REPLAY (R227) -/

/-- A journal record as read: its offset in the body, type, collection, version, and its mutation record. -/
structure ReadRecord where
  offset : Nat
  type : Nat
  coll : Handle
  version : Nat
  raw : Bytes
deriving DecidableEq, Repr

/-- The records of a block's body, from an offset. -/
def readRecords : Nat → Nat → Bytes → List ReadRecord
  | 0, _, _ => []
  | n + 1, o, b =>
    let len := field b 4 4
    if len < 32 || b.length < len then []
    else ⟨o, field b 0 1, BitVec.ofNat 16 (field b 2 2), field b 8 6, sub b 32 (len - 32)⟩ :: readRecords n (o + len) (b.drop len)

/-- Store where a replay stands. -/
def State.setReplay (job : Nat) (w : ReplayWork) (s : State) : State := s.mapJob job fun j => { j with work := .replay w }

/-- One record of a replay: the work after it, and whether the replay goes on. A record that R202 refuses now is passed
over (log entry 23). -/
def State.replayRecord (job : Nat) (h : Handle) (w : ReplayWork) (r : ReadRecord) (s : State) : State × Bool :=
  let pass (w : ReplayWork) : State × Bool := (s.setReplay job { w with index := w.index + 1 }, true)
  if r.coll ≠ h then pass w
  else if r.type = 2 then pass { w with started := true }
  else if r.type = 3 && w.started then (s.setReplay job { w with deleted := w.position + 64 + r.offset, ended := true }, false)
  else if r.type ≠ 1 || !w.started then pass w
  else
    let w := { w with high := max w.high r.version }
    match s.coll h with
    | none => (s, false)
    | some c =>
      let x := parseMutRecord r.raw
      if r.version ≤ c.imageGeneration then pass { w with skipped := w.skipped + 1 }
      else if !s.recordOk c x then pass w
      else
        let t := s.tryRecord job c x 2
        if t.2 then (t.1.setReplay job { w with index := w.index + 1 }, true) else (t.1.setReplay job w, false)

/-- The records of a block, from the one a replay stands at. -/
def State.replayBlock (job : Nat) (h : Handle) : List ReadRecord → State → State × Bool
  | [], s => (s, true)
  | r :: l, s =>
    match (s.job job).map MutJob.work with
    | some (.replay w) =>
      let x := s.replayRecord job h w r
      if x.2 then State.replayBlock job h l x.1 else x
    | _ => (s, false)

/-- Carry on with a replay, block by block, until it ends or waits. -/
def State.replayRun (job : Nat) : Nat → State → State
  | 0, s => s
  | f + 1, s =>
    match s.job job with
    | none => s
    | some j =>
      match j.work, j.status, j.coll.bind s.coll with
      | .replay w, none, some c =>
        if w.ended then s
        else if c.st ≠ .created && c.st ≠ .offline then s.finishJob job stInvalid
        else
          match s.blockAt w.position with
          | none => s.setReplay job { w with ended := true }
          | some b =>
            if s.muts.journal.replayEnd ≤ w.position then s.setReplay job { w with ended := true }
            else
              let x := s.replayBlock job c.d.handle ((readRecords b.count 0 b.body).drop w.index)
              let t := x.1
              let at_ (g : ReplayWork → ReplayWork) : State := match (t.job job).map MutJob.work with
                | some (.replay w) => t.setReplay job (g w)
                | _ => t
              if x.2 then
                match t.blockAfter b with
                | some n => State.replayRun job f (at_ fun w => { w with position := n.position, index := 0, last := some (b.position + b.length) })
                | none => at_ fun w => { w with last := some (b.position + b.length), ended := true }
              else at_ fun w => if w.ended then { w with last := some (b.position + b.length) } else w
      | _, _, _ => s
/-- The report of a replay. -/
def replayReport (applied start : Nat) (w : ReplayWork) : Bytes :=
  natLE 8 applied ++ natLE 8 w.skipped ++ natLE 8 (w.last.getD start) ++ natLE 8 w.deleted ++ natLE 8 w.high ++ zeros 24

/-! ## Resuming -/

/-- Carry on with a job that waits. -/
def State.resumeJob (job : Nat) (s : State) : State :=
  match s.job job with
  | none => s
  | some j =>
    if !j.waiting then s
    else
      match j.work with
      | .mutate w => (s.mutateRun job (w.count + 2)).settleJobs
      | .replay _ => s.replayRun job (s.windowLength / 128 + 2)
      | _ => s

/-- Every waiting job tries again, in order. -/
def State.resumeJobs (s : State) : State := (s.muts.jobs.map MutJob.id).foldl (fun s i => s.resumeJob i) s

/-- BASTE_ROOM (R208). -/
def execBasteRoom (job : Nat) (s : State) : Result := .next (s.resumeJob job)

/-- JOURNAL_BLOCK_WRITE_COMPLETE (R223); records that waited for it try again. -/
def execJournalBlockWriteComplete (ok : Bool) (s : State) : Result := .next (s.readRelease.blockOutcome ok).resumeJobs

/-- JOURNAL_SPACE_RELEASED (R223). -/
def execJournalSpaceReleased (s : State) : Result := .next s.readRelease.resumeJobs

/-! ## Reading mutation entries (R199, R200, R333) -/

/-- Add a job for an entry; its outcome may be known already. -/
def State.addJob (j : MutJob) (s : State) : State :=
  { s with muts := { s.muts with nextId := s.muts.nextId + 1, jobs := s.muts.jobs ++ [{ j with id := s.muts.nextId }] } }

/-- The job of an entry. -/
def MutEntry.job (e : MutEntry) (p : Port) (n : Byte) (head : Nat) (work : MutWork) (status : Option Nat) (now : Time) : MutJob :=
  { id := 0, client := .spool p n (BitVec.ofNat 32 e.tag) head, opcode := e.opcode,
    coll := if e.coll = 0xFFFF then none else some (BitVec.ofNat 16 e.coll), work := work, status := status, arrival := now }

/-- A control core reads the entry at the head of a mutation spool, where it is one of the row's opcode; an entry of no
opcode of R199 completes with INVALID_INPUT whichever row reads it. `f` gives an entry's work, or the status it completes with. -/
def State.readMutation (p : Port) (n : Byte) (op : Nat) (f : State → Nat → MutEntry → Except Nat MutWork) (s : State) : State :=
  match s.subSpool p n with
  | none => s
  | some x =>
    if !x.mutation || !s.hasTurn (.spool p n) then s
    else
      let e := parseMutEntry (s.headEntry x)
      let head := (x.head + 1).toNat
      let add (w : MutWork) (st : Option Nat) : State := ((s.takeTurn (intakePlace (.spool p n)) x.weight).takeEntry p n).addJob (e.job p n head w st s.now)
      if e.opcode < 0x20 || 0x24 < e.opcode then (add .refused (some stInvalid)).settleJobs
      else if e.opcode ≠ op then s
      else match f s x.tenant.toNat e with
        | .error st => (add .refused (some st)).settleJobs
        | .ok w => add w none

/-- The checks of MUTATE before its records (R202). -/
def mutateWork (p : Port) (s : State) (tenant : Nat) (e : MutEntry) : Except Nat MutWork :=
  match s.collFor (BitVec.ofNat 16 e.coll) tenant with
  | none => .error stNoColl
  | some c =>
    if c.st ≠ .created && c.st ≠ .online then .error stOffline
    else if e.count < 1 || 65536 < e.count || !(e.mode ≤ 2 || e.mode = 0xFF) || !addrOk e.address ||
        !s.fenceOk p tenant e.address e.length then .error stInvalid
    else .ok (.mutate { addr := e.address, count := e.count, length := e.length,
                        mode := if e.mode = 0xFF then s.num 0x410005 else e.mode })

/-- The job of a spool read last. -/
def State.lastJob (s : State) : Nat := s.muts.nextId - 1

/-- MUTATE (R202): the entry is read and its records are accepted until one is refused or waits. -/
def execMutate (p : Port) (n : Byte) (s : State) : Result :=
  let t := s.readMutation p n 0x20 (mutateWork p)
  .next (if t.muts.nextId = s.muts.nextId then t else (t.mutateRun t.lastJob 65540).settleJobs)

/-- FLUSH_JOURNAL (R222): it closes the open block, and waits. -/
def execFlushJournal (p : Port) (n : Byte) (s : State) : Result :=
  let t := s.readMutation p n 0x21 fun _ _ _ => .ok (.flushJournal false)
  .next (if t.muts.nextId = s.muts.nextId || !(t.job t.lastJob).any (fun j => j.status.isNone) then t
    else
      let u := t.closeBlock closedFlush
      u.mapJob u.lastJob fun j => { j with aux := u.muts.journal.lastClosed })

/-- FLUSH_SEAM (R222). -/
def execFlushSeam (p : Port) (n : Byte) (s : State) : Result := .next (s.readMutation p n 0x22 fun _ _ _ => .ok .flushSeam)

/-- The checks of REPLAY (R227). -/
def replayWork (p : Port) (s : State) (tenant : Nat) (e : MutEntry) : Except Nat MutWork :=
  match s.collFor (BitVec.ofNat 16 e.coll) tenant with
  | none => .error stNoColl
  | some c =>
    if (c.st ≠ .created && c.st ≠ .offline) || !s.isOn journalIndex || !addrOk e.address ||
        !s.fenceOk p tenant e.address 64 || !s.headerAt e.position then .error stInvalid
    else .ok (.replay { report := e.address, position := e.position, started := !bit e.flags 0 })

/-- REPLAY (R227): the entry is read and records are applied until the replay ends or one waits. -/
def execReplay (p : Port) (n : Byte) (s : State) : Result :=
  let t := s.readMutation p n 0x23 (replayWork p)
  .next (if t.muts.nextId = s.muts.nextId then t else (t.replayRun t.lastJob (t.windowLength / 128 + 2)).settleJobs)

/-- REPLAY_COMPLETE (R227): a replay that has ended writes its report and completes. -/
def execReplayComplete (job : Nat) (s : State) : Result :=
  match s.job job with
  | none => .next s
  | some j =>
    match j.work, j.status with
    | .replay w, none =>
      .next (if !w.ended then s
        else ((s.devWrite w.report (replayReport j.accepted w.position w)).finishJob job stOk).settleJobs)
    | _, _ => .next s

/-! ## SAVE (R228) -/

/-- The checks of SAVE (R128, R200; log entry 23). -/
def saveWork (p : Port) (s : State) (tenant : Nat) (e : MutEntry) : Except Nat MutWork :=
  match s.collFor (BitVec.ofNat 16 e.coll) tenant with
  | none => .error stNoColl
  | some c =>
    if c.st = .loading || c.dataLost then .error stOffline
    else if !addrOk e.address || !s.fenceOk p tenant e.address e.capacity then .error stInvalid
    else .ok (.save ⟨e.address, e.capacity, s.muts.generation⟩)

/-- SAVE (R228): the snapshot is taken and held. -/
def execSave (p : Port) (n : Byte) (s : State) : Result := .next (s.readMutation p n 0x24 (saveWork p))

/-- Every record of the collection up to a snapshot is retired or removed. -/
def State.saveReady (s : State) (h : Handle) (g : Nat) : Bool :=
  !(s.muts.baste.any fun e => e.coll = h && e.version ≤ g && e.retired.isNone)

/-- The journal position an image of snapshot `g` holds. -/
def State.savePosition (s : State) (g : Nat) : Nat :=
  ((s.muts.journal.written.find? fun x => g < x.2).map Prod.fst).getD s.muts.journal.append

/-- SAVE_COMPLETE (R228). -/
def execSaveComplete (job : Nat) (s : State) : Result :=
  match s.job job with
  | none => .next s
  | some j =>
    match j.work, j.status, j.coll.bind s.coll with
    | .save w, none, some c =>
      if !s.saveReady c.d.handle w.snapshot then .next s
      else
        let open_ (i : Nat) : BitVec 64 := Config.freeValue (s.free + i)
        let x := c.image w.snapshot (s.savePosition w.snapshot) open_
        let s := { s with free := s.free + c.highWater }
        if w.capacity < x.1.length then .next ((s.finishJob job stInvalid).settleJobs).trimBaste
        else
          let s := (s.devWrite w.dest x.1).mapJob job fun j => { j with accepted := x.2 }
          .next ((s.finishJob job stOk).settleJobs).trimBaste
    | _, _, _ => .next s

/-! ## Abandoned entries (R130, R224) -/

/-- Mutations of a collection not yet acknowledged complete with NO_COLLECTION (R130 step 2). -/
def State.dropJobs (h : Handle) (s : State) : State :=
  let mine (j : MutJob) : Bool := j.coll = some h && (j.status.isNone || j.unacked ≠ 0) && match j.work with
    | .flushJournal _ | .flushSeam | .refused => false
    | _ => true
  ({ s with muts := { s.muts with jobs := update mine (fun j =>
      { j with status := some stNoColl, unacked := 0, waiting := false }) s.muts.jobs } }).settleJobs.trimBaste

/-- The entries of a spool that is reset complete with RING_RESET and their count (R224). -/
def State.resetJobs (p : Port) (n : Byte) (s : State) : State :=
  let mine (j : MutJob) : Bool := match j.client with
    | .spool q m _ _ => q = p && m = n
    | .mailbox _ => false
  (({ s with muts := { s.muts with jobs := update mine (fun j =>
      { j with status := some stReset, unacked := 0, waiting := false }) s.muts.jobs } }).settleJobs).trimBaste

end Sys2Proof.Machine
end

