-- ==== Sys2Proof/Machine/Seam.lean ====
section
/-!
DEFINITION. Seam (R213 to R218): folding the baste list into the graph. Each of its steps is whole (the table of
operations), so no entry is seen SEAM_BUSY and no context is held between steps (log entry 24).
-/

namespace Sys2Proof.Machine

/-! ## When seam works (R23, R213, R218) -/

/-- Bulk build mode (R218). -/
def State.bulkBuild (s : State) : Bool := s.num 0x413005 = 1 && s.colls.all fun c => c.st != .online

/-- A seam window that selects the collection is open (R58, R213). -/
def State.seamWindowOpen (s : State) (h : Handle) : Bool :=
  (List.range 128).any fun n => s.calKind n = 3 && (s.calEntry n).openUntil.any (s.now < ·) &&
    (s.num (key (calIndex n) 6) = 0 || s.num (key (calIndex n) 6) = 0x10000 + h.toNat)

/-- Seam takes new work on a collection. -/
def State.seamWorks (s : State) (h : Handle) : Bool :=
  s.isOn 0x4130 && s.serves && s.dev.power ≤ 1 &&
    (s.bulkBuild || (0 < 64 * s.num 0x413002 / 100 && s.seamWindowOpen h)) &&
    (match s.coll h with
     | some c => (c.st = .created || c.st = .online || c.st = .offline) && !c.dataLost
     | none => false)

/-- An online Needle has a context free for seam work on a graph (R23); the step gives it back as it ends, so seam holds one at most,
and a FLAT collection has no graph to work on. -/
def State.seamContext (s : State) (h : Handle) : Bool :=
  match s.coll h with
  | some c => !c.d.graph || (List.range 64).any fun n => s.needleOk n && 0 < s.needleFree n
  | none => false

/-- Seam's work on a collection scores on Tun: its distances are ones that Tun forms, and Tun serves scans (R20, R22). -/
def State.seamTun (s : State) (h : Handle) : Bool :=
  s.tunScans && (match s.coll h with | some c => c.d.graph && tunDistance c.d.distance | none => false)

/-- The scoring of seam's entry has run: its tiles are those that TUN_STEP gave seam within its share (R22, R242). DESIGN CHOICE (log entry
24): the manual does not say how many an entry takes; it is done after any number of them, one at the least. -/
def State.seamScored (s : State) (h : Handle) : Bool := !s.seamTun h || 0 < s.tun.seamTiles

/-- The tiles of the entry that seam has done are used up. -/
def State.takeTiles (h : Handle) (s : State) : State := if s.seamTun h then { s with tun := { s.tun with seamTiles := 0 } } else s

/-- Visible, unretired entries of a collection, in version and journal order (R214). -/
def State.seamEntries (s : State) (h : Handle) : List BasteEntry :=
  s.muts.baste.filter fun e => e.coll = h && e.version ≤ s.muts.generation && e.retired.isNone

/-- The first entry of a kind that no earlier entry of its VID stands before. -/
def firstOf (insert : Bool) : List (BitVec 64) → List BasteEntry → Option BasteEntry
  | _, [] => none
  | seen, e :: r => if e.insert = insert && !seen.contains e.vid then some e else firstOf insert (e.vid :: seen) r

/-! ## Distances and the beam search (R214) -/

/-- The distance of two records at code level, the first in the role of the query (R214). DESIGN CHOICE (log entry 24): R76 gives P5010 the
distances of the search path, so its rounding counts nowhere; nor do the tiles of seam scoring carry a status that P7010 counts (R87), since
R214 gives its distances by the arithmetic of the score units. -/
def Coll.pair (c : Coll) (a b : Bytes) : F32 := (recordDistance c.codeP c.d.distance c.program c.d.codeHeaded a b).1

/-- A candidate: a slot and its distance. -/
structure Cand where
  slot : Nat
  dist : F32
deriving DecidableEq, Repr

/-- Nearest first; equal distances by slot (log entry 24). -/
def Cand.before (a b : Cand) : Bool := distKey a.dist < distKey b.dist || (distKey a.dist = distKey b.dist && a.slot < b.slot)

/-- A beam search in progress: its list, nearest first, the slots met and those expanded. -/
structure Beam where
  list : List Cand := []
  met : List Nat := []
  done : List Nat := []
deriving DecidableEq, Repr

/-- Consider a slot, by the classes of R152; a tombstone is a candidate to route through. -/
def beamConsider (c : Coll) (code : Bytes) (width g : Nat) (b : Beam) (w : Nat) : Beam :=
  let x := c.slot w
  if b.met.contains w then b
  else if x.st = .free || g < x.birth || x.nonfinite then { b with met := w :: b.met }
  else { b with met := w :: b.met, list := (insertBy Cand.before ⟨w, c.pair code x.code⟩ b.list).take width }

/-- Expand candidates, nearest first, until every one in the list is expanded. -/
def beamRun (c : Coll) (code : Bytes) (width g : Nat) : Nat → Beam → Beam
  | 0, b => b
  | f + 1, b =>
    match b.list.find? fun x => !b.done.contains x.slot with
    | none => b
    | some x => beamRun c code width g f
        ((c.slot x.slot).nbrs.foldl (beamConsider c code width g) { b with done := x.slot :: b.done })

/-- Beam search for a record's codes in generation `g`. -/
def Coll.near (c : Coll) (code : Bytes) (width g : Nat) : List Cand :=
  (beamRun c code width g (c.slots.length + 1) (c.entries.foldl (beamConsider c code width g) {})).list

/-- Keep a candidate unless a kept one is nearer to it, by the factor α, than the new node is (R214). -/
def pruneKeep (c : Coll) (alpha : F32) (m : Nat) : List Cand → List Nat → List Nat
  | [], keep => keep
  | y :: r, keep =>
    if m ≤ keep.length then keep
    else if keep.any fun z => ((f32 alpha).mul (f32 (c.pair (c.slot z).code (c.slot y.slot).code))).leB (f32 y.dist) then
      pruneKeep c alpha m r keep
    else pruneKeep c alpha m r (keep ++ [y.slot])

/-- prune for a node of code `x` over slots, at most the degree. -/
def Coll.prune (c : Coll) (alpha : F32) (x : Bytes) (slots : List Nat) : List Nat :=
  pruneKeep c alpha c.d.degree (sortBy Cand.before (slots.eraseDups.map fun y => ⟨y, c.pair x (c.slot y).code⟩)) []

/-- Replace a slot's neighbour list. -/
def Coll.setNbrs (n : Nat) (l : List Nat) (c : Coll) : Coll := { c with slots := put n { c.slot n with nbrs := l } c.slots }

/-- Add `w` to a list; one that overflows is pruned. -/
def Coll.link (alpha : F32) (w p : Nat) (c : Coll) : Coll :=
  let l := (c.slot p).nbrs
  if l.contains w || p = w then c
  else if l.length < c.d.degree then c.setNbrs p (l ++ [w])
  else c.setNbrs p (c.prune alpha (c.slot p).code (l ++ [w]))

/-! ## Entry points (R136) -/

/-- At least one entry point is LIVE whenever a slot is (log entry 24: the lowest LIVE slot steps in). -/
def Coll.fixEntries (c : Coll) : Coll :=
  let live (n : Nat) : Bool := (c.slot n).st = .live
  if !c.d.graph || c.entries.any live then c
  else match c.slots.find? fun x => x.2.st = .live with
    | none => c
    | some x => { c with entries := if c.entries.length < c.d.entryPoints then c.entries ++ [x.1] else x.1 :: c.entries.drop 1 }

/-- A new slot fills an unused entry point. -/
def Coll.addEntry (w : Nat) (c : Coll) : Coll :=
  if c.d.graph && c.entries.length < c.d.entryPoints && !c.entries.contains w then { c with entries := c.entries ++ [w] } else c

/-! ## Slots (R214, R216, R217) -/

/-- A slot has held a vector before. -/
def Slot.used (x : Slot) : Bool := x.st ≠ .free || x.freeGen.isSome || x.reuse ≠ 0

/-- The lowest slot never used, given the slots in order from `n`. -/
def firstGap : Nat → List (Nat × Slot) → Nat
  | n, [] => n
  | n, (k, x) :: r => if k = n && x.used then firstGap (n + 1) r else n

/-- Every query in flight, and every SAVE, holds a snapshot above the slot's free generation (R217); a slot an image gave
has none. -/
def State.slotFree (s : State) (x : Slot) : Bool :=
  x.st = .free && x.used && x.reuse < 0xFFFF && (match x.freeGen with | some f => s.snapshots.all (f < ·) | none => true)

/-- A FREE slot that only R217 holds back. -/
def State.slotHeld (s : State) (x : Slot) : Bool :=
  x.st = .free && x.used && x.reuse < 0xFFFF && (match x.freeGen with | some f => !s.snapshots.all (f < ·) | none => false)

/-- Count slots held back, each once in a seam window (R217). -/
def State.countHeld (h : Handle) (held : Nat → Slot → Bool) (s : State) : State :=
  let w := s.muts.seamWindow
  let new (x : Nat × Slot) : Bool := held x.1 x.2 && x.2.countedIn ≠ some w
  match s.coll h with
  | none => s
  | some c =>
    (s.mapColl h fun c => { c with slots := c.slots.map fun x => if new x then (x.1, { x.2 with countedIn := some w }) else x }).bumpBy
      0x41300C (c.slots.filter new).length

/-- The slot of a new vector (R214): the one asked for where it may be reused, else the lowest never used, else the lowest
that may be reused. -/
def State.chooseSlot (s : State) (c : Coll) (want : Option Nat) : Option Nat :=
  let gap := firstGap 0 c.slots
  let low := (c.slots.find? fun x => s.slotFree x.2).map Prod.fst
  match want with
  | some n => if s.slotFree (c.slot n) then some n else if gap < c.d.maxVectors then some gap else low
  | none => if gap < c.d.maxVectors then some gap else low

/-! ## SEAM_INSERT (R214) -/

/-- prune_alpha. -/
def State.alpha (s : State) : F32 := BitVec.ofNat 32 (s.num 0x413004)

/-- Place an entry in a slot and link it into the graph. -/
def Coll.place (alpha : F32) (width g : Nat) (e : BasteEntry) (w : Nat) (c : Coll) : Coll :=
  let old := c.slot w
  let x : Slot := { vid := e.vid, birth := e.version, reuse := if old.used then old.reuse + 1 else old.reuse, st := .live,
                    nonfinite := e.nonfinite, death := 0, code := e.code, nbrs := [], rerank := e.rerank, attrs := e.attrs,
                    repaired := false, freeGen := none }
  let l := if c.d.graph then c.prune alpha e.code ((c.near e.code width g).map Cand.slot) else []
  let c := c.setSlot w { x with nbrs := l }
  (((l.foldl (fun c p => c.link alpha w p) c).insertVid e.vid w).addEntry w).fixEntries

/-- An entry is retired now (R209). -/
def State.retire (id : Nat) (s : State) : State :=
  let s := { s with tele := { s.tele with retired := s.tele.retired + 1 } }
  (s.mapBaste fun l => update (fun e => e.id = id) (fun e => { e with retired := some s.now, busy := false }) l).trimBaste

/-- Seam takes the next insert entry of a collection. -/
def State.seamInsert (h : Handle) (want : Option Nat) (s : State) : State :=
  match s.coll h, firstOf true [] (s.seamEntries h) with
  | some c, some e =>
    let s := s.countHeld h fun _ x => s.slotHeld x
    match s.chooseSlot c want with
    | none =>
      if e.held then s
      else (s.mapBaste fun l => update (fun x => x.id = e.id) (fun x => { x with held := true, busy := true }) l).bump 0x41300C
    | some w =>
      let s := s.bumpBy 0x41300A (if (c.slot w).used then 1 else 0)
      let s := s.mapColl h fun c => c.place s.alpha (s.num 0x413003) s.muts.generation e w
      (s.bump 0x413006).retire e.id
  | _, _ => s

/-- SEAM_INSERT (R214). -/
def execSeamInsert (h : Handle) (slot : Option Nat) (s : State) : Result :=
  .next (if s.seamWorks h && s.seamContext h && s.seamScored h then (s.seamInsert h slot).takeTiles h else s)

/-! ## SEAM_DELETE (R215) -/

/-- Repair a tombstoned slot. -/
def Coll.repair (alpha : F32) (width g u : Nat) (c : Coll) : Coll :=
  let mine := (c.slot u).nbrs
  let cands := if c.d.graph then (c.near (c.slot u).code width g).map Cand.slot else []
  let fix (c : Coll) (p : Nat) : Coll :=
    let l := (c.slot p).nbrs
    if l.contains u then c.setNbrs p (c.prune alpha (c.slot p).code ((l ++ mine).filter fun x => x ≠ u && x ≠ p)) else c
  let c := cands.foldl fix c
  let c := if c.entries.contains u then
      match cands.find? fun p => (c.slot p).st = .live with
      | some p => { c with entries := c.entries.map fun x => if x = u then p else x }
      | none => c
    else c
  Coll.fixEntries { c with slots := put u { c.slot u with repaired := true } c.slots }

/-- The slots a delete tombstones: LIVE ones of its VID, born at its version or before. -/
def Coll.victims (c : Coll) (e : BasteEntry) : List Nat :=
  (c.lookupVid e.vid).filter fun u => (c.slot u).st = .live && (c.slot u).birth ≤ e.version

/-- Tombstone a slot and repair it. -/
def State.tombstone (h : Handle) (version u : Nat) (s : State) : State :=
  let s := (s.mapColl h fun c => { c with slots := put u { c.slot u with st := .tombstone, death := version } c.slots }).bump 0x413007
  (s.mapColl h fun c => c.repair s.alpha (s.num 0x413003) s.muts.generation u).bump 0x413008

/-- Seam takes the next delete entry of a collection. -/
def State.seamDelete (h : Handle) (s : State) : State :=
  match s.coll h, firstOf false [] (s.seamEntries h) with
  | some c, some e => ((c.victims e).foldl (fun s u => s.tombstone h e.version u) s).retire e.id
  | _, _ => s

/-- SEAM_DELETE (R215). -/
def execSeamDelete (h : Handle) (s : State) : Result :=
  .next (if s.seamWorks h && s.seamContext h && s.seamScored h then (s.seamDelete h).takeTiles h else s)

/-! ## SLOT_FREE (R216) -/

/-- The conditions of R216 hold for a tombstone. -/
def State.mayFree (s : State) (x : Slot) : Bool :=
  x.repaired && x.death + 1 ≤ s.muts.generation && s.snapshots.all fun g => x.death ≤ g

/-- SLOT_FREE (R216): a tombstone is freed, or is held back and counted. -/
def execSlotFree (h : Handle) (slot : Nat) (s : State) : Result :=
  match s.coll h with
  | none => .next s
  | some c =>
    if !s.seamWorks h || (c.slot slot).st ≠ .tombstone then .next s
    else if !s.mayFree (c.slot slot) then .next (s.countHeld h fun n _ => n = slot)
    else
      let g := s.muts.generation
      .next ((s.mapColl h fun c => { (c.removeVid slot) with
        slots := put slot { c.slot slot with st := .free, freeGen := some g } c.slots }).bump 0x413009)

end Sys2Proof.Machine
end

