-- ==== Sys2Proof/Machine/Collections.lean ====
section
/-!
DEFINITION. The life of collections (R125, R128 to R132, R139 to R141, R345): the collection commands, the drain of a
deleted one, image windows, and what losing a unit does to a collection. Readings the words leave to inference are in log
entry 26.
-/

namespace Sys2Proof.Machine

/-! ## Answers (R340, R345) -/

/-- Output of a collection command: cause, flags, six reserved bytes. -/
def collOut (c : Cause) (deferred : Bool) : Bytes := natLE 1 c.code ++ natLE 1 (bitIf deferred 0) ++ zeros 6

/-- Answer a collection command. -/
def State.collReply (p : Port) (c : Cause) (deferred : Bool) (s : State) : State :=
  if c = .none then s.reply p .success (if deferred then 1 else 0) (collOut c deferred)
  else s.reply p .invalidInput (0x100 + c.code) (collOut c false)

/-- A command on a handle: refused with STATE where the port does not permit its tenant (R345), or where it is ABSENT. -/
def State.onColl (p : Port) (h : Handle) (f : Coll → State → State) (s : State) : State :=
  match s.coll h with
  | some c => if s.permitted p c.d.tenant.toNat then f c s else s.collReply p .state false
  | none => s.collReply p .state false

/-- A collection command whose input is a handle and six reserved bytes (R340, R345). -/
def State.onHandle (p : Port) (h : Padded Handle) (f : Handle → State → State) (s : State) : Result :=
  s.onMailbox p false fun s => if h.reserved.any (· ≠ 0) then s.deny p .field else f h.val s.loadAppears

/-! ## Device states (R32) -/

/-- The first collection leaves READY-EMPTY; without any the device returns to it. -/
def State.countColls (s : State) : State :=
  if s.colls.isEmpty then
    (if s.dev.st == .loading || s.dev.st == .serving || s.dev.st == .degraded then s.setDevState .readyEmpty else s)
  else if s.dev.st == .readyEmpty then s.setDevState .loading else s

/-- A collection came online. -/
def State.firstOnline (s : State) : State :=
  if s.dev.st == .loading then s.setDevState (if s.anyOffline then .degraded else .serving) else s

/-! ## CREATE_COLLECTION (R123, R125) -/

/-- The tables a definition points to. -/
def State.defTables (s : State) (d : CollDef) : DefTables :=
  let table (p : EncP) (a : Nat) : Option ScaleTable :=
    if a = 0 || p.fmt = .b1 then none else parseCarried p (s.mem.read a (carriedSize p))
  let n := padDim d.rotation d.dim
  { code := table (codeParams d none []) d.codeTable, rerank := table (rerankParams d none []) d.rerankTable,
    weights := if d.weights = 0 then []
      else (List.range n).map fun i => BitVec.ofNat 32 (leNat (s.mem.read (d.weights + 4 * i) 4)),
    program := if d.program = 0 then [] else s.mem.read d.program 144 }

/-- The collection a create makes: every slot FREE (R129). -/
def newColl (d : CollDef) (t : DefTables) : Coll :=
  { d := d, st := .created, codeScales := if d.codeHeaded then none else t.code,
    rerankScales := if d.rerankHeaded then none else t.rerank, weights := t.weights, program := readOps t.program }

/-- The first condition of R125, but for LIMIT and CAPACITY, that a create breaks. -/
def State.createCause (p : Port) (d : CollDef) (t : DefTables) (s : State) : Cause :=
  if !s.permitted p d.tenant.toNat then .tenant
  else if s.colls.any fun c => c.d.handle = d.handle && c.st ≠ .deleting then .handleLive
  else if s.deferred.any fun x => x.coll.d.handle = d.handle then .deferPending
  else if !defRangeOk d t.program then .fieldRange
  else if badCombination d t then .combination
  else if s.badTier d then .tierAbsent
  else .none

/-- A create runs: its parts are allocated, and the journal has a marker; none where a tier cannot hold them. -/
def State.addColl (c : Coll) (s : State) : Option State :=
  (s.allocColl c.d).map fun t =>
    let t := { t with colls := t.colls ++ [c] }
    (((t.logChange 3 0 CollState.created.code c.d.handle.toNat).journalMarker 2 c.d.handle).bump 0x400006).countColls

/-- CREATE_COLLECTION. -/
def execCreateCollection (p : Port) (definition : Bytes) (s : State) : Result :=
  if definition.length ≠ 256 then .fault .illFormed
  else s.onWork p fun s =>
    let d := parseDef definition
    let t := s.defTables d
    let c := s.createCause p d t
    if c ≠ .none then s.collReply p c false
    else if s.colls.any fun c => c.d.handle = d.handle then
      let x : Deferred := { coll := newColl d t, port := p }
      (State.bump 0x400008 { s with deferred := s.deferred ++ [x] }).collReply p .none true
    else if 1024 ≤ s.colls.length then s.collReply p .limit false
    else
      match s.addColl (newColl d t) with
      | some s => s.collReply p .none false
      | none => s.collReply p .capacity false

/-! ## DELETE_COLLECTION and COLLECTION_DRAINED (R130, R131) -/

/-- An open load ends (R140): its window is released. A load end that runs ends too, with the cause given. -/
def State.closeLoad (h : Handle) (cause : Cause) (s : State) : State :=
  match (s.coll h).bind Coll.load with
  | none => s
  | some l =>
    let s := s.mapColl h fun c => { c with load := none }
    if !l.checking then s
    else [Port.a, .b].foldl (fun (s : State) q =>
      match (s.port q).bg with
      | some b => if b.opcode = 0xC023 && b.arg = h.toNat then s.endBg q 0xC023 .invalidInput (0x100 + cause.code) else s
      | none => s) s

/-- A delete is accepted: DELETING, and the steps of R130. -/
def State.startDelete (h : Handle) (s : State) : State :=
  let s := ((s.closeLoad h .state).setCollState h .deleting).journalMarker 3 h
  let s := (s.mapBaste fun l => l.filter fun e => e.coll ≠ h).applyBaste
  (s.dropJobs h).cutEncodes (fun j => j.coll = some h) stNoColl

/-- DELETE_COLLECTION. One that names a collection that is DELETING already, with no create held for it, is refused with STATE: R129
gives no answer there, and this one is the model's (log entry 26). -/
def execDeleteCollection (p : Port) (h : Padded Handle) (s : State) : Result :=
  s.onHandle p h fun h s =>
    match s.deferred.find? fun x => x.coll.d.handle = h with
    | some x =>
      if !s.permitted p x.coll.d.tenant.toNat then s.collReply p .state false
      else
        ({ s with deferred := update (fun y => y.coll.d.handle = h) (fun y => { y with thenDelete := true }) s.deferred }).collReply
          p .none true
    | none => s.onColl p h fun c s =>
      if c.st = .deleting then s.collReply p .state false else (s.startDelete h).collReply p .none false

/-- Nothing in flight refers to a collection. -/
def State.drained (s : State) (h : Handle) : Bool :=
  (s.search.queries.all fun q => q.d.coll ≠ h) && s.encodes.all fun j => j.coll ≠ some h

/-- DEFERRED_CREATE (R131): the handle is ABSENT, and the create held for it runs. -/
def State.runDeferred (x : Deferred) (s : State) : State :=
  let h := x.coll.d.handle
  let s := { s with deferred := s.deferred.filter fun y => y.coll.d.handle ≠ h }
  match s.addColl x.coll with
  | none => (s.event 0x62 h.toNat 0).bump 0x400009
  | some s => if x.thenDelete then s.startDelete h else s

/-- COLLECTION_DRAINED (R130): the collection becomes ABSENT, and its memory free. -/
def execCollectionDrained (h : Handle) (s : State) : Result :=
  match s.coll h with
  | none => .next s
  | some c =>
    if c.st ≠ .deleting || !s.drained h then .next s
    else
      let s := (s.logChange 3 c.st.code 0 h.toNat).release h.toNat
      let s := ({ s with colls := s.colls.filter fun c => c.d.handle ≠ h }).bump 0x400007
      let s := s.countColls
      match s.deferred.find? fun x => x.coll.d.handle = h with
      | some x => .next (s.runDeferred x).countColls
      | none => .next s

/-! ## Loads (R140, R141, R345) -/

/-- Loads open on the device. -/
def State.openLoads (s : State) : List Load := s.colls.filterMap Coll.load

/-- Where a window of `n` bytes goes in a port's IMAGE window: first-fit, aligned to 1 GiB; none where it does not fit. -/
def State.imageBase (s : State) (p : Port) (n : Nat) : Option Nat :=
  let ls := s.openLoads.filter fun l => l.port = p
  let ends := 0 :: ls.map fun l => roundUp (2 ^ 30) (l.base + l.total)
  let ok := ends.filter fun b => ls.all (fun l => !overlaps b n l.base l.total) && b + n ≤ 2 ^ 42
  match ok with
  | [] => none
  | a :: r => some (r.foldl min a)

/-- LOAD_BEGIN. -/
def execLoadBegin (p : Port) (h : Padded Handle) (pre : Bytes) (s : State) : Result :=
  s.onHandle p h fun h s => s.onColl p h fun c s =>
    if c.st ≠ .created && c.st ≠ .offline then s.collReply p .state false
    else
      match prefixCause c.d pre with
      | .none =>
        if 16 ≤ s.openLoads.length then s.collReply p .capacity false
        else
          match s.imageBase p (field pre 0x18 8) with
          | none => s.collReply p .capacity false
          | some b =>
            let s := s.mapColl h fun c => { c.emptied with load := some (openLoad p b pre) }
            (s.setCollState h .loading).reply p .success 0 (collOut .none false ++ natLE 8 b)
      | x => s.collReply p x false

/-- The bytes of a write that lie inside sections, as (offset in the image, byte). -/
def Load.kept (l : Load) (off : Nat) (data : Bytes) : List (Nat × Byte) :=
  (data.zipIdx.map fun x => (off + x.2, x.1)).filter fun x => l.sections.any fun y => y.offset ≤ x.1 && x.1 < y.offset + y.length

/-- The collection whose image window a port's IMAGE offset lies in. -/
def State.imageAt (s : State) (p : Port) (off : Nat) : Option (Handle × Load) :=
  (s.colls.filterMap fun c => c.load.map fun l => (c.d.handle, l)).find? fun x =>
    x.2.port = p && x.2.base ≤ off && off < x.2.base + x.2.total

/-- A host write at an offset of a port's IMAGE window (R140 step 3): the bytes inside sections are kept. -/
def State.imageWrite (p : Port) (off : Nat) (data : Bytes) (s : State) : State :=
  match s.imageAt p off with
  | none => s.unbacked
  | some (h, l) =>
    let k := l.kept (off - l.base) data
    let s := s.mapColl h fun c => { c with load := c.load.map fun l => { l with bytes := k.foldl (fun m x => m.setByte x.1 x.2) l.bytes } }
    if k.length < data.length then s.bump 0x40000B else s

/-- A host read of a port's IMAGE window: what was written; none where no window backs it. -/
def State.imageRead (s : State) (p : Port) (off n : Nat) : Option Bytes :=
  (s.imageAt p off).map fun x => x.2.bytes.read (off - x.2.base) n

/-- The IMAGE window is reachable: the port has one, and the power state backs it (R350). -/
def State.windowsBacked (s : State) : Bool := s.dev.power ≤ 2

/-- IMAGE_WINDOW_WRITE. -/
def execImageWindowWrite (p : Port) (offset : Nat) (data : Bytes) (s : State) : Result :=
  if !s.upstream.contains p then .fault .absentUnit
  else if !s.running then .next s
  else .next (if s.windowsBacked then s.imageWrite p offset data else s.unbacked)

/-- LOAD_END: the checks run in the background. -/
def execLoadEnd (p : Port) (h : Padded Handle) (s : State) : Result :=
  s.onHandle p h fun h s =>
    match s.coll h with
    | none => s.reply p .invalidInput (0x100 + Cause.state.code) []
    | some c =>
      match c.load with
      | none => s.reply p .invalidInput (0x100 + Cause.state.code) []
      | some l =>
        if !s.permitted p c.d.tenant.toNat || c.st ≠ .loading || l.checking then s.reply p .invalidInput (0x100 + Cause.state.code) []
        else s.startBg p 0xC023 h.toNat fun s =>
          s.mapColl h fun c => { c with load := some { l with checking := true } }

/-- A load ends with a failed check, or is aborted: CREATED and empty, IMAGE_LOADED clear (R129). -/
def State.failLoad (h : Handle) (cause : Cause) (s : State) : State :=
  (((s.closeLoad h cause).mapColl h fun c => { c.emptied with imageLoaded := false }).setCollState h .created)

/-- LOAD_END_COMPLETE (R140 step 4, R141). -/
def execLoadEndComplete (h : Handle) (s : State) : Result :=
  match s.coll h with
  | none => .next s
  | some c =>
    match c.load with
    | none => .next s
    | some l =>
      if !l.checking || c.st ≠ .loading then .next s
      else if l.endCause ≠ .none then .next ((s.failLoad h l.endCause).bump 0x40000A)
      else
        let r := c.loaded l s.muts.generation
        let s := s.mapColl h fun _ => { r.1 with load := none, imageLoaded := true, dataLost := false, imageGeneration := l.generation,
                                                 journalPosition := l.position }
        let s := (if r.2 then s.bump 0x504007 else s).setCollState h .created
        .next ([Port.a, .b].foldl (fun (s : State) q =>
          match (s.port q).bg with
          | some b => if b.opcode = 0xC023 && b.arg = h.toNat then s.endBg q 0xC023 .success 0 else s
          | none => s) s)

/-- LOAD_ABORT. -/
def execLoadAbort (p : Port) (h : Padded Handle) (s : State) : Result :=
  s.onHandle p h fun h s => s.onColl p h fun c s =>
    if c.st ≠ .loading then s.collReply p .state false else (s.failLoad h .state).collReply p .none false

/-! ## Online and offline (R129) -/

/-- COLLECTION_ONLINE. -/
def execCollectionOnline (p : Port) (h : Padded Handle) (s : State) : Result :=
  s.onHandle p h fun h s => s.onColl p h fun c s =>
    if (c.st ≠ .created && c.st ≠ .offline) || c.dataLost then s.collReply p .state false
    else ((s.setCollState h .online).firstOnline).collReply p .none false

/-- Queries in flight on a collection that goes offline complete with COLLECTION_OFFLINE (R174). -/
def State.endOffline (h : Handle) (s : State) : State :=
  ((s.search.queries.filter fun q => q.d.coll = h).map Query.id).foldl
    (fun s q => s.endQuery q fun q => { q with offlined := true }) s

/-- COLLECTION_OFFLINE. -/
def execCollectionOffline (p : Port) (h : Padded Handle) (s : State) : Result :=
  s.onHandle p h fun h s => s.onColl p h fun c s =>
    if c.st ≠ .online then s.collReply p .state false
    else ((s.setCollState h .offline).endOffline h).collReply p .none false

/-- A unit that holds part of a collection is offline (R129): OFFLINE with DATA_LOST; a load in progress fails. -/
def State.loseColl (h : Handle) (s : State) : State :=
  match s.coll h with
  | none => s
  | some c =>
    if c.st = .deleting then s
    else if c.st = .loading then ((s.failLoad h .imageCrc).mapColl h fun c => { c with dataLost := true }).bump 0x40000A
    else (((s.mapColl h fun c => { c with dataLost := true }).setCollState h .offline).endOffline h)

end Sys2Proof.Machine
end

