-- ==== Sys2Proof/Machine/Chain.lean ====
section
/-!
DEFINITION. The freeze readout (R442 to R446): the chains, their lengths, and the bytes they shift. The model holds the
freeze record, what Thimble keeps, the hold buffers and the scratchpad; the bytes of the other units' memories are open values (log
entry 14).
-/

namespace Sys2Proof.Machine

/-- Bytes of a chain (R444); a number that no chain has has none. -/
def chainLength : Nat → Nat
  | 0 => 64
  | 1 => 10240
  | 2 => 8192
  | 3 => 262144
  | 4 => 33554432
  | 5 => 28311552
  | 6 => 42205184
  | 7 => 69206016
  | 8 => 25165824
  | 9 => 536870912
  | _ => 0

/-- The policy in effect shows a chain (R442). -/
def chainShown (policy c : Nat) : Bool := policy = 2 || (policy = 1 && c ≤ 3)

/-- Records of Thimble's queues, zero filled to 32 (chain 1). -/
def eventTable (l : List Event) : Bytes := padTo 1024 (l.flatMap Event.bytes)

/-- The 256 alarm slots: PA030.01. -/
def State.alarmTable (s : State) : Bytes := (List.range 256).flatMap fun n => (s.alarm n).bytes

/-- The unit whose memory a byte of a chain belongs to is offline, and its section reads zeros. -/
def State.chainDead (s : State) (c off : Nat) : Bool :=
  match c with
  | 3 => bit s.units.core.toNat (off / 16384)
  | 4 => bit s.units.needle.toNat (off / 524288)
  | 5 => bit s.units.score.toNat (off / 147456)
  | 6 => bit s.units.lauter.toNat (off / 2637824)
  | 7 => bit s.units.tun.toNat (off / 8650752)
  | 8 => bit s.units.stack.toNat (off / 2097152) || !s.stackPresent (off / 2097152)
  | 9 => bit s.units.slice.toNat (off / 16777216)
  | _ => false

/-- A byte of a hold buffer (chain 8): 32 buffers of 64 KiB for each stack, each with its lines in the order in which they came (log
entry 14); a place with no line is open. -/
def State.holdByte (s : State) (off : Nat) : Option Byte :=
  let x := s.channel (off / 2097152) (off / 65536 % 32)
  (x.hold[off % 65536 / 64]?).bind fun l => l.2[off % 64]?

/-- A byte of Cask (chain 9): of the baste list, or one that memory lists; any other byte is open, since units keep there what the
model does not lay out. -/
def State.sliceByte (s : State) (off : Nat) : Option Byte :=
  match s.caskByte (off / 16777216) (off % 16777216) with
  | some b => some b
  | none => if s.mem.byte (caskBase + off) = 0 then none else some (s.mem.byte (caskBase + off))

/-- The bytes of the Collector's words: 12 for one of WX, else 4; with second-level scales each element holds an entry and a partial (R237). -/
def Cluster.collectorBytes (c : Cluster) : Bytes :=
  let word (w : BitVec 96) : Bytes := natLE (if c.acc = 2 then 12 else 4) w.toNat
  c.collector.flatten.flatMap fun x => (x.entry.map word).getD [] ++ (x.part.map word).getD []

/-- A byte of a cluster's Grist buffer, its scan region first, then of its Collector (chain 7); where a cluster holds nothing it is open (log
entry 14). -/
def State.tunByte (s : State) (off : Nat) : Option Byte :=
  let c := s.cluster (off / 8650752)
  let o := off % 8650752
  let scan := s.tun.gristMib * 2 ^ 20
  if o < scan then c.scan[o]? else if o < gristBytes then c.cache[o - scan]? else c.collectorBytes[o - gristBytes]?

/-- One byte of a chain. The Fleet Time Unit runs on while frozen, so an open byte of its chain belongs to a cycle. -/
def State.chainByte (s : State) (c off : Nat) : Byte :=
  if !s.dev.frozen || !chainShown s.test.freezePolicy.toNat c || chainLength c ≤ off then 0
  else if c = 0 then (s.test.freezeRecord[off]?).getD 0
  else if c = 1 then
    if off < 1024 then ((eventTable s.thimble.history)[off]?).getD 0
    else if off < 2048 then ((eventTable s.thimble.opened)[off - 1024]?).getD 0
    else ((s.alarm ((off - 2048) / 32)).bytes[(off - 2048) % 32]?).getD 0
  else if s.chainDead c off then 0
  else
    let held := if c = 7 then s.tunByte off else if c = 8 then s.holdByte off else if c = 9 then s.sliceByte off else none
    held.getD (Config.chainByte (if c = 2 then s.ftu.aon else s.test.freezes) c off)

/-- `n` bytes of a chain from an offset. -/
def State.chainRead (s : State) (c off n : Nat) : Bytes := (List.range n).map fun i => s.chainByte c (off + i)

/-- The bits CHAIN_READ shifts: bit 0 of byte 0 first (R444). -/
def State.chainBits (s : State) (c n : Nat) : List Bool := ((s.chainRead c 0 ((n + 7) / 8)).flatMap fun b => bitsOf 8 b.toNat).take n

end Sys2Proof.Machine
end

