-- ==== Sys2Proof/Machine/Links.lean ====
section
/-!
DEFINITION. Shuttle links: training and its states (R290 to R295), replay (R296), credit (R298, R300), what a link that goes
down does (R307, R315), and link encryption (R321).
-/

namespace Sys2Proof.Machine

/-! ## Completing requests without a response (R303, R307, R308, R315, R318) -/

/-- LINK_LOST. -/
def rsLost : Byte := 0x18
/-- TIMEOUT. -/
def rsTimeout : Byte := 0x19

/-- A request completes at its initiator with LINK_LOST or TIMEOUT: a slot is written, a lead takes its next replica, and a
shard's result is sent again, once. -/
def State.settleRequest (r : Req) (status : Byte) (s : State) : State :=
  let s := (s.dropRequest r.tag).bump (if status = rsLost then 0x840005 else 0x840004)
  match r.forWhat with
  | .hostSlot j q => s.finishSlot j q status 0 []
  | .descriptor w id i dev => (s.holdOff dev).redispatch w id i
  | .mergeSend dest window frames last =>
    if last then s
    else
      let s := { s with fabric := { s.fabric with outstanding := s.fabric.outstanding.map fun (x : Req) =>
        if x.forWhat = (ReqFor.mergeSend dest window frames false) then { x with forWhat := .mergeSend dest window frames true } else x } }
      s.sendFrames dest.toNat window frames true
  | .probe => s.probed none

/-- A link stops carrying frames and takes a new training state: what it held is dropped, and the requests that were on it
complete with LINK_LOST. -/
def State.linkDown (n : Nat) (next : LinkState) (s : State) : State :=
  let lost := s.fabric.outstanding.filter fun (r : Req) => r.link = n
  let s := (s.mapLink n fun l =>
    { l with st := next, since := s.aonNs, partner := none, lanes := 0, seqOut := 0, seqIn := 0, replay := [], credits := [], replays := [],
             opened := false, session := false, encrypted := false, secret := 0, frameCounter := 0, counterIn := 0, keyEpoch := 0,
             keyEpochIn := 0, beaconOut := 0, beaconIn := none, beaconSent := [], fenced := false, invalidSince := none, waiting := [] }).setNum (key (linkIndex n) 5) 0
  lost.foldl (fun s r => match s.request r.tag with
    | some r => s.settleRequest r rsLost
    | none => s) s

/-! ## Frames that arrive (R296, R297, R298, R321) -/

/-- A replay on a link is counted; more than 1,000 within one second retrain the link from DETECT (R296), and the result says whether
the link stays UP. -/
def State.countReplay (n : Nat) (s : State) : State × Bool :=
  let s := (s.mapLink n fun l => { l with replays := s.aonNs :: l.replays.filter fun t => s.aonNs < t + 1000000000 }).bump (key (linkIndex n) 0xB)
  if 1000 < (s.link n).replays.length && (s.link n).st == .up then
    ((((s.linkDown n .detect).bump (key (linkIndex n) 0xC)).event 0x59 n (s.link n).cause.toNat), false)
  else (s, true)

/-- Ask the partner for a replay from the last good sequence (R296). -/
def State.askReplay (n : Nat) (s : State) : State :=
  let r := s.countReplay n
  if r.2 then r.1.control n 3 (((r.1.link n).seqIn - 1).zeroExtend 64) [] else r.1

/-- The FEC codewords that the receiver reports with a frame (R296). -/
def State.countFec (n : Nat) (r : Rx) (s : State) : State :=
  (s.bumpBy (key (linkIndex n) 9) r.fec.corrected).bumpBy (key (linkIndex n) 0xA) r.fec.uncorrected

/-- Acknowledge a frame, and give back its credit (R296, R298). -/
def State.accepted (n : Nat) (q : BitVec 32) (credit : Option Nat) (s : State) : State :=
  let s := s.control n 2 (q.zeroExtend 64) []
  match credit with
  | some vc => s.giveCredit n vc
  | none => s

/-- A good frame that no row takes in the state of its link (log entry 28): its type is reserved, link control has no op of R297, the
capability word comes again once the link is UP, or the link does not carry frames of its kind yet. -/
def Link.stray (l : Link) : Option Frame → Bool
  | none => true
  | some f =>
    if f.kind == .control then f.op = 0 || 5 < f.op || (f.op = 4 && l.st == .up) else l.st != .up

/-- The credit that a frame which has been taken gives back: of its own channel, where its type is known. -/
def creditOf : Option Frame → Option Nat := Option.map Frame.vc

/-- The receiver has taken a frame: its sequence, and the frame counter of an encrypted link. -/
def Link.took (l : Link) : Link := { l with seqIn := l.seqIn + 1, counterIn := if l.encrypted then l.counterIn + 1 else l.counterIn }

/-- A frame reaches a link's receiver. One that fails its CRC or its tag is discarded, and a replay asked for; one out of sequence is
discarded (R296, R321). `want` says that the frame is one of the command's row; a frame that no row takes is dropped once its sequence
is taken, and one of another row leaves the state as it was. -/
def State.receive (n : Nat) (r : Rx) (want : Frame → Bool) (take : Frame → BitVec 32 → State → State) (s : State) : State :=
  let l := s.link n
  let t := s.countFec n r
  if !l.whole r.wire then t.askReplay n
  else
    let f := l.frameOf r.wire
    if !l.stray f && !f.any want then s
    else if wireSeq r.wire ≠ l.seqIn then t
    else if !l.tagOk r.wire then t.askReplay n
    else
      match f.filter fun _ => !l.stray f with
      | some f => take f l.seqIn (t.mapLink n Link.took)
      | none => (t.mapLink n Link.took).accepted n l.seqIn (creditOf f)

/-- Link control of an op (R297). -/
def isControl (op : Byte) (f : Frame) : Bool := f.kind == .control && f.op = op

/-! ## Training -/

/-- A link enters a training state (R290). -/
def State.enterLink (n : Nat) (st : LinkState) (s : State) : State := s.mapLink n fun l => { l with st := st, since := s.aonNs }

/-- The own link at the other end of a cable from a link of this device; none for a plug or another device (R429). -/
def State.ownCable (s : State) (n : Nat) : Option Nat :=
  s.chip.cables.findSome? fun c => if c.1 = n then some c.2 else if c.2 = n then some c.1 else none

/-- A loop-back of depth 4 trains the link, or its cable ends at the link that it works on (R429). -/
def State.cableLoop (s : State) (n : Nat) : Bool :=
  s.test.loop.isSome && s.num 0xD10002 = 1 && s.num 0xD10004 = 4 && (s.num 0xD10003 = n || s.ownCable (s.num 0xD10003) = some n)

/-- The link may leave DISABLED: it is ON, or a loop-back trains it (R290, R429), and the fabric is powered (R306). -/
def State.linkRuns (s : State) (n : Nat) : Bool :=
  s.running && s.dev.st != .boot && s.dev.power ≤ 2 && !bit s.units.transport.toNat (linkHalf n) &&
    (s.isOn (linkIndex n) || s.cableLoop n)

/-- A link enters FAULT, which raises LINK_FAULT (R290, R292). -/
def State.linkFault (n cause : Nat) (s : State) : State :=
  let s := (s.linkDown n .fault).mapLink n fun l =>
    { l with cause := BitVec.ofNat 8 cause, faultAt := s.aonNs, timeouts := 0 }
  s.event 0x58 n cause

/-- A link that is ON leaves DISABLED (R290). -/
def State.linkStart (n : Nat) (s : State) : State :=
  if s.linkPresent n && s.linkRuns n && (s.link n).st == .disabled then
    (s.enterLink n .detect).mapLink n fun l => { l with timeouts := 0 }
  else s

/-- Every link that is ON tries to come up. -/
def State.linksStart (s : State) : State := (List.range 32).foldl (fun s n => s.linkStart n) s

/-- Every link goes down and idles its lanes (R306). -/
def State.linksStop (s : State) : State :=
  (List.range 32).foldl (fun s n => if (s.link n).st == .disabled then s else s.linkDown n .disabled) s

/-- The capability word this device sends on a link (R291). -/
def State.capWord (s : State) (n : Nat) : BitVec 64 :=
  BitVec.ofNat 64 (bitIf s.numbered 63 + (s.devNum % 4096) * 2 ^ 51 + n * 2 ^ 46 + 1 * 2 ^ 42 + bitIf true 41 +
    bitIf (s.num 0x800003 = 2) 40 + bitIf true 39 + bitIf (s.num 0x200109 = 1) 38 + (s.chip.variant.toNat % 4) * 2 ^ 36 +
    s.num 0x800002 * 2 ^ 16)

/-- Bits [hi:lo] of a word. -/
def capField (w : BitVec 64) (lo n : Nat) : Nat := w.toNat / 2 ^ lo % 2 ^ n

/-- Another UP link reaches a different device that claims the number (R292): which device lies at a link's end comes with ALIGN (log
entry 28). -/
def State.duplicate (s : State) (n : Nat) (w : BitVec 64) : Bool :=
  (List.range 32).any fun m => m ≠ n && s.linkUp m && (s.link m).partnerDev == some (partnerNum w) && (s.link m).device ≠ (s.link n).device

/-- The link is to be encrypted (R321); with both sides at 0x01 or 0x00 the word does not show the partner's choice, which is
an open value (log entry 28). -/
def State.wantsSession (s : State) (w : BitVec 64) : Bool :=
  let p := s.num 0x800003
  p = 2 || bit w.toNat 40 || (p = 1 && bit w.toNat 41 && Config.partnerEncrypts w)

/-- The first check of R292 that fails, in order; NUMBER_INVALID has its own command. A device whose identity is not in order cannot
encrypt a link that must be encrypted (R417). -/
def State.connectCause (s : State) (n : Nat) (w : BitVec 64) : Option Nat :=
  let p := s.num 0x800003
  if capField w 42 4 ≠ 1 then some 2
  else if capField w 16 16 ≠ s.num 0x800002 then some 3
  else if !bit w.toNat 63 then none
  else if partnerNum w = s.devNum && !s.cableLoop n then some 5
  else if s.duplicate n w then some 6
  else if (p = 2 && !bit w.toNat 41) || (p = 0 && bit w.toNat 40) || (s.wantsSession w && s.sec.identity ≠ 0) then some 7
  else none

/-- Device states in which a link can be UP (R306). -/
def State.linksAllowed (s : State) : Bool := s.running && (s.dev.st.ready || s.dev.st == .fenced) && s.dev.power ≤ 2

/-- A link comes UP: its first CREDIT frames tell the partner what this side has room for (R298). -/
def State.linkOpen (n : Nat) (s : State) : State :=
  let s := ((s.enterLink n .up).mapLink n fun l =>
    { l with cause := 0, timeouts := 0, encrypted := l.session, replays := [], invalidSince := none }).setNum
      (key (linkIndex n) 5) (s.link n).lanes
  [0, 1, 2].foldl (fun s vc => s.control n 1 (BitVec.ofNat 64 (vc + 256 * (Config.linkCredits vc).toNat)) []) s

/-- The link has not trained: back to DETECT, and after the third time in a row into FAULT (R290). -/
def State.linkFailed (n : Nat) (s : State) : State :=
  if 2 ≤ (s.link n).timeouts then s.linkFault n 1
  else (s.linkDown n .detect).mapLink n fun l => { l with timeouts := l.timeouts + 1 }

/-- This side opens the SPDM exchange of CONNECT, once: the security core is a requester towards Shuttle peers (R321, R423). -/
def State.openSession (n : Nat) (s : State) : State :=
  if (s.link n).opened then s
  else ((s.mapLink n fun l => { l with opened := true }).control n 5 0 (Config.spdmBytes s.free)).spend

/-- What CONNECT does with the partner's word: a fault, waiting, or UP. Two lanes are a link only where the partner, too, offers
DEGRADE_X2 (R289); another one has not trained. -/
def State.tryConnect (n : Nat) (s : State) : State :=
  let l := s.link n
  match l.partner with
  | none => s
  | some w =>
    if l.st != .connect || !s.linkRuns n || !s.numbered then s
    else
      match s.connectCause n w with
      | some c => s.linkFault n c
      | none =>
        if !bit w.toNat 63 || !s.linksAllowed then s
        else if s.wantsSession w && !l.session then s.openSession n
        else if l.lanes = 2 && !bit w.toNat 39 then s.linkFailed n
        else s.linkOpen n

/-- The partner's word arrives (R291). -/
def State.setPartner (n : Nat) (w : BitVec 64) (s : State) : State :=
  (s.mapLink n fun l => { l with
    partner := some w
    invalidSince := if bit w.toNat 63 then none else some (l.invalidSince.getD s.aonNs) }).setNum (key (linkIndex n) 4) w.toNat

/-- Guard of a command about one link: the part has it, and it is in the state the command is about. -/
def State.onLink (s : State) (n : Nat) (st : LinkState) (f : State → State) : Result :=
  if !s.linkPresent n then .fault .absentUnit
  else if (s.link n).st == st && s.linkRuns n then .next (f s)
  else .next s

/-- Guard of a command about a link that is UP; a link that is being turned OFF still does (R290). -/
def State.onUp (s : State) (n : Nat) (f : State → State) : Result :=
  if !s.linkPresent n then .fault .absentUnit
  else if s.running && s.linkUp n then .next (f s)
  else .next s

/-- Guard of a command that brings a frame: a link in CONNECT or UP. -/
def State.onFrames (s : State) (n : Nat) (f : State → State) : Result :=
  if (s.link n).st == .connect then s.onLink n .connect f else s.onUp n f

/-! ## The commands -/

/-- DETECT (R290, R294, R295). No link leaves DETECT without the fabric's reference clock (R409). -/
def execDetect (link : Fin 32) (r : DetectResult) (s : State) : Result :=
  s.onLink link .detect fun s =>
    if !s.dev.refclk.getLsbD 1 then s
    else
      match r with
      | .copper => (s.enterLink link .measure).mapLink link fun l => { l with optical := false }
      | .optical info fault =>
        let s := s.mapLink link fun l => { l with optical := true }
        if fault then s.linkFault link 8
        else (((s.setBlob (key (linkIndex link) 0xE) (info.take 256)).setNum (key (linkIndex link) 6) 0xFFFF).setNum
          (key (linkIndex link) 7) 0).enterLink link .train

/-- The pages the device sends in AUTONEG (R291): the base page, its identifier, and the two halves of its word. -/
def State.pages (s : State) (n : Nat) : List Out :=
  [.page n .base, .page n (.message s.chip.vendorOui), .page n (.unformatted ((s.capWord n).truncate 32)),
   .page n (.unformatted ((s.capWord n).extractLsb' 32 32))]

/-- MEASURE (R294): AUTONEG begins, and its pages leave (R291). -/
def execMeasure (link : Fin 32) (cm : BitVec 16) (s : State) : Result :=
  s.onLink link .measure fun s =>
    ((s.setNum (key (linkIndex link) 6) cm.toNat).enterLink link .autoneg).emitAll (s.pages link)

/-- AUTONEG (R291): a partner with another identifier is foreign. -/
def execAutoneg (link : Fin 32) (oui : BitVec 24) (word : BitVec 64) (s : State) : Result :=
  s.onLink link .autoneg fun s =>
    if oui ≠ s.chip.vendorOui then s.linkFault link 2
    else ((s.setPartner link word).enterLink link .train).mapLink link fun l => { l with invalidSince := none }

/-- LINK_TRAINING_COMPLETE (R289, R290, R294): four lanes, or two adjacent ones with DEGRADE_X2 on both sides, which an optical link
finds out in CONNECT; any other set of lanes has not trained the link. -/
def execLinkTrainingComplete (link : Fin 32) (lanes : BitVec 4) (loss : F32) (s : State) : Result :=
  s.onLink link .train fun s =>
    let l := s.link link
    let x2 := match l.partner with
      | some w => bit w.toNat 39
      | none => true
    let width := if lanes = 0xF then 4 else if (lanes = 0x3 || lanes = 0xC) && x2 then 2 else 0
    if width = 0 then s
    else ((if l.optical then s else s.setNum (key (linkIndex link) 7) loss.toNat).enterLink link .align).mapLink link fun l =>
      { l with lanes := width }

/-- ALIGN (R290, R291): the first link-control frame carries the capability word, for which the third channel has a credit (log
entry 28). -/
def execAlign (e : LinkEnd) (s : State) : Result :=
  s.onLink e.link .align fun s =>
    ((s.enterLink e.link .connect).mapLink e.link fun l => { l with
      device := e.device
      credits := [0, 0, 1]
      timeouts := if l.lanes = 2 && l.optical then l.timeouts else 0
      invalidSince := match l.partner with
        | some w => if bit w.toNat 63 then none else some s.aonNs
        | none => none }).control e.link 4 (s.capWord e.link) []

/-- CONNECT (R292). -/
def execConnect (link : Fin 32) (s : State) : Result := s.onLink link .connect (State.tryConnect link)

/-- The time limit of a training state, ns (R290). -/
def LinkState.limit : LinkState → Option Nat
  | .autoneg => some 500000000
  | .train => some 3000000000
  | .align => some 100000000
  | _ => none

/-- LINK_TIMEOUT (R290): a training state that has lasted its time limit; the third in a row ends in FAULT. -/
def execLinkTimeout (link : Fin 32) (s : State) : Result :=
  if !s.linkPresent link then .fault .absentUnit
  else
    match (s.link link).st.limit with
    | none => .next s
    | some t => .next (if s.linkRuns link && (s.link link).since + t ≤ s.aonNs then s.linkFailed link else s)

/-- FAULT_RETRY (R290). -/
def execFaultRetry (link : Fin 32) (s : State) : Result :=
  s.onLink link .fault fun s =>
    if s.aonNs < (s.link link).faultAt + 1000000000 then s else s.enterLink link .detect

/-- ALIGNMENT_LOST (R290, R307). -/
def execAlignmentLost (link : Fin 32) (s : State) : Result :=
  if !s.linkPresent link then .fault .absentUnit
  else if (s.link link).st == .up && s.running then .next (s.linkDown link .detect)
  else .next s

/-- MODULE_POLL (R295). -/
def execModulePoll (link : Fin 32) (celsius : Int) (alarm fault : Bool) (s : State) : Result :=
  if !s.linkPresent link then .fault .absentUnit
  else if !(s.link link).optical || !s.running then .next s
  else
    let s := s.setNum (key (linkIndex link) 0xF) (BitVec.ofInt 32 celsius).toNat
    let s := if alarm then s.event 0x5A link (s.link link).cause.toNat else s
    if fault && (s.link link).st != .disabled && (s.link link).st != .fault then .next (s.linkFault link 8) else .next s

/-- KEY_UPDATE (R321): a new key starts a new frame counter, so that no nonce repeats. -/
def execKeyUpdate (link : Fin 32) (s : State) : Result :=
  s.onUp link fun s => if (s.link link).encrypted then s.rekey link else s

/-- NUMBER_INVALID (R292). -/
def execNumberInvalid (link : Fin 32) (s : State) : Result :=
  s.onLink link .connect fun s =>
    match (s.link link).invalidSince with
    | some t => if s.numbered && t + 10000000000 < s.aonNs then s.linkFault link 4 else s
    | none => s

/-- CAPABILITY (R291): the word of the first link-control frame; an optical link learns its partner here. -/
def execCapability (link : Fin 32) (r : Rx) (s : State) : Result :=
  s.onLink link .connect fun s =>
    s.receive link r (isControl 4) fun f q s => (s.setPartner link f.operand).accepted link q (some 2)

/-- An answer of the security core to an SPDM message of a link's partner. -/
def State.answerSpdm (n : Nat) (q : BitVec 32) (s : State) : State :=
  ((s.accepted n q (some 2)).control n 5 0 (Config.spdmBytes s.free)).spend

/-- An SPDM session of CONNECT is under way: the link must be encrypted and is not yet. -/
def State.inSession (s : State) (n : Nat) : Bool :=
  (s.link n).st == .connect && !(s.link n).session && (s.link n).partner.any s.wantsSession

/-- LINK_SPDM (R321): in CONNECT the security core answers a message; once the link is UP a message is the partner's answer to a
KEY_UPDATE, and the partner's own KEY_UPDATE changes the key of what it sends and is answered. The session that a link must have ends
the wait of CONNECT, and one that cannot complete is a fault. The bytes, and the secrets they agree on, are SPDM's (log entry 12). -/
def execLinkSpdm (link : Fin 32) (x : SessionStep) (s : State) : Result :=
  s.onFrames link fun s =>
    match x with
    | .message r => s.receive link r (isControl 5) fun _ q s =>
        if (s.link link).st == .connect then s.answerSpdm link q else s.accepted link q (some 2)
    | .keyUpdate r => s.receive link r (isControl 5) fun _ q s =>
        if (s.link link).encrypted then (s.mapLink link Link.rekeyIn).answerSpdm link q else s.accepted link q (some 2)
    | .established =>
      if s.inSession link then
        ((s.mapLink link fun l => { l with
          session := true, secret := s.fresh, keyEpoch := 0, keyEpochIn := 0, frameCounter := 0, counterIn := 0 }).spend).tryConnect link
      else s
    | .failed => if s.inSession link then s.linkFault link 7 else s

/-- CREDIT (R298): the channel in bits [7:0] of the operand and the number of frames above them (log entry 28). -/
def execCredit (link : Fin 32) (wire : Bytes) (fec : Fec) (s : State) : Result :=
  s.onFrames link fun s =>
    s.receive link ⟨wire, fec⟩ (isControl 1) fun f _ s =>
      let vc := f.operand.toNat % 256
      (s.mapLink link fun l => { l with credits := l.credits.set vc (((l.credits[vc]?).getD 0) + f.operand.toNat / 256) }).drainWaiting link

/-- Release the replay buffer up to a sequence that it holds (R296). -/
def Link.release (q : BitVec 32) (l : Link) : Link :=
  if l.replay.any fun x => x.1 = q then { l with replay := (l.replay.dropWhile fun x => x.1 ≠ q).drop 1 } else l

/-- ACK (R296): the frames up to a sequence are no longer kept. -/
def execAck (link : Fin 32) (r : Rx) (s : State) : Result :=
  s.onFrames link fun s =>
    s.receive link r (isControl 2) fun f _ s =>
      ((s.mapLink link (Link.release (f.operand.truncate 32))).drainWaiting link).giveCredit link 2

/-- LINK_REPLAY (R296): the frames after the last good sequence leave again, in order, as they were sent. -/
def execLinkReplay (link : Fin 32) (r : Rx) (s : State) : Result :=
  s.onFrames link fun s =>
    s.receive link r (isControl 3) fun f _ s =>
      let x := (s.mapLink link (Link.release (f.operand.truncate 32))).countReplay link
      if x.2 then (x.1.emitAll ((x.1.link link).replay.map fun y => .frame link y.2)).giveCredit link 2 else x.1

/-- REQUEST_TIMEOUT (R303). -/
def execRequestTimeout (tag : BitVec 32) (s : State) : Result :=
  match s.request tag with
  | some r => if s.running && r.issued + s.num 0x810003 ≤ s.aonNs then .next (s.settleRequest r rsTimeout) else .next s
  | none => .next s

/-- CREDIT_STALL (R300): frames that have waited too long are discarded, and a request of this device among them completes with
TIMEOUT. -/
def execCreditStall (link : Fin 32) (s : State) : Result :=
  s.onFrames link fun s =>
    let late := (s.link link).waiting.filter fun x => x.since + s.num 0x810004 < s.aonNs
    let s := (s.mapLink link fun l =>
      { l with waiting := l.waiting.filter fun x => s.aonNs ≤ x.since + s.num 0x810004 }).bumpBy 0x810007 late.length
    late.foldl (fun s x =>
      if x.frame.kind != .request || x.frame.src.toNat ≠ s.devNum then s
      else
        match s.request x.frame.tag with
        | some r => s.settleRequest r rsTimeout
        | none => s) s

end Sys2Proof.Machine
end

