-- ==== Sys2Proof/Machine/Time.lean ====
section
/-!
DEFINITION. The Fleet Time Unit: corrections (R41, R42, R62), the sources (R43 to R45, R309), and their qualification (R46, R47).
-/

namespace Sys2Proof.Machine

/-! ## The counter -/

/-- Change the FTU. -/
def State.mapFtu (f : Ftu → Ftu) (s : State) : State := { s with ftu := f s.ftu }

/-- What the FTU's timestamps read: fleet time, or the always-on clock while there is no fleet time (log entry 3). -/
def State.ftuNs (s : State) : Nat := if s.timeKnown then s.now else s.aonNs

/-- A time moved by an offset; fleet time has no value below 0. -/
def moved (t : Nat) (d : Int) : Nat := ((t : Int) + d).toNat

/-- Forget the round trips in progress: their stamps are of the time before. -/
def State.clearTrips (s : State) : State :=
  let s := s.mapFtu fun f => { f with exchange := { f.exchange with requested := false, awaiting := false } }
  { s with fabric := { s.fabric with links := s.fabric.links.map fun x =>
    (x.1, { x.2 with beaconSent := [], beaconIn := none }) } }

/-- The first time of day (R39): no correction, and the calendar starts (R58). -/
def State.firstTime (t : Nat) (st : TimeState) (s : State) : State :=
  let s := (s.mapFtu fun f => { f with now := t, frac := 0, slew := 0 }).clearTrips
  let s := { s with tele := { s.tele with snap := s.sampleCounts, past := [], powerPeak := 0 } }
  (s.setTimeState st).calArmAll

/-- An offset of a source after fleet time moved by `d`. -/
def SourceRec.shift (d : Int) (r : SourceRec) : SourceRec := { r with offset := r.offset - d }

/-- Fleet time moves by `d`, at once: nothing is left to slew, the offsets of the sources are of the new time, and the step is counted
(R41, R62). -/
def State.moveTime (d : Int) (s : State) : State :=
  (s.keepCounts.mapFtu fun f => { f with
    now := moved f.now d, slew := 0, ptp := f.ptp.shift d, pps := f.pps.shift d
    beacons := f.beacons.map fun x => (x.1, x.2.shift d) }).clearTrips.bump 0x200207

/-- Fleet time steps by `d` (R41, R42): queries whose cutoff it reaches finalise, and the calendar follows. -/
def State.stepTime (d : Int) (s : State) : State :=
  let old := s.now
  let s := s.moveTime d
  let due := if 0 < d then s.search.queries.filter fun q => old < q.cutoff && q.cutoff ≤ s.now else []
  (due.foldl (fun s q => s.endQuery q.id fun q => { q with cut := true }) s).stepCalendar old

/-- States in which a larger backward offset is stepped at once (R41). -/
def State.stepsBack (s : State) : Bool :=
  match s.dev.st with
  | .loading | .serving | .degraded => false
  | _ => true

/-- A correction of R41: none where it is a backward step that has to be accepted. -/
def State.correct (d : Int) (s : State) : Option State :=
  if 0 ≤ d then
    some (if d ≤ (s.num 0x200202 : Int) then s.mapFtu fun f => { f with slew := d * 2 ^ 32 } else s.stepTime d)
  else if -d ≤ (s.num 0x200203 : Int) then some (s.mapFtu fun f => { f with slew := d * 2 ^ 32 })
  else if s.stepsBack then some (s.stepTime d)
  else none

/-- Hold a backward step (R41); a later one replaces it. -/
def State.holdStep (d : Int) (s : State) : State := s.mapFtu fun f => { f with pending := some d }

/-- Apply the pending step. -/
def State.applyPending (s : State) : State :=
  match s.ftu.pending with
  | some d => (s.stepTime d).mapFtu fun f => { f with pending := none }
  | none => s

/-! ## Writes (R41, R62) -/

/-- The host is the source of fleet time. -/
def State.byHost (s : State) : State :=
  s.mapFtu fun f => { f with source := .host, sourceLink := 0xFF, lockRun := 0, hostSecs := true }

/-- A write of P2000.0A; none where it is refused. -/
def State.setFleetTime (t : Nat) (s : State) : Option State :=
  let early := s.dev.st == .boot || s.dev.st == .train || s.dev.st == .readyEmpty
  if !(early || s.ftu.st == .unset || s.ftu.st == .hostset) then none
  else
    if s.ftu.st == .unset then some (s.byHost.firstTime t .hostset)
    else
      let s := s.byHost.setTimeState .hostset
      let d := (t : Int) - s.now
      if early then some (if d = 0 then s else s.stepTime d)
      else
        match s.correct d with
        | some s => some s
        | none => some (s.holdStep d)

/-- Nothing that a backward step could disturb is under way (R41). -/
def State.idleForStep (s : State) : Bool :=
  s.search.queries.isEmpty && s.spools.sub.all (fun x => x.unread = 0) && s.fabric.queue.isEmpty &&
    s.muts.jobs.all fun j => j.unacked = 0

/-- A write of 1 to P2002.06; none where it is refused. -/
def State.acceptStep (s : State) : Option State :=
  if s.ftu.pending.isSome && s.idleForStep then some s.applyPending else none

/-! ## The sources (R43 to R45, R309) -/

/-- A source updates. -/
def updated (aon interval : Nat) (offset : Int) (err hops : Nat) (r : SourceRec) : SourceRec :=
  { seen := true, last := aon, interval := interval, offset := offset, err := err, hops := hops, bad := r.bad, fresh := true }

/-- A source's updates arrive (R46): the last one lies within three of its intervals. -/
def SourceRec.timely (aon : Nat) (r : SourceRec) : Bool := r.seen && aon ≤ r.last + 3 * r.interval

/-- PTP reaches the device: the management port is up, and no loop-back holds it (R378, R429). -/
def State.ptpUp (s : State) : Bool := s.dev.st != .off && s.dev.mgmtUp && !(s.test.loop.isSome && s.num 0xD10002 = 5)

/-- A PTP message came over the transport that P2001.03 selects (R43, R62). -/
def State.ptpHeard (s : State) (ethernet : Bool) : Bool := s.ptpUp && (ethernet == (s.num 0x200103 == 1))

/-- Change the PTP exchange. -/
def State.mapPtp (f : Ptp → Ptp) (s : State) : State := s.mapFtu fun x => { x with exchange := f x.exchange }

/-- The identity of the selected grandmaster. -/
def Ptp.gmId (x : Ptp) : BitVec 64 := (x.gm.map PtpAnnounce.gm).getD 0

/-- Bytes of a delay request of IEEE 1588 in the transmit queue: Pdelay_Req or Delay_Req (log entry 10). -/
def delayRequestBytes (peer : Bool) : Nat := if peer then 54 else 44

/-- A Sync's origin time is known: the offset is measured, and the next delay request leaves (R43). -/
def State.ptpMeasure (origin : Nat) (correction : Int) (s : State) : State :=
  let x := s.ftu.exchange
  let t1 := moved origin correction
  let off : Int := (t1 : Int) + x.pathDelay - x.t2
  let s := (s.mapFtu fun f => { f with ptp := updated s.aonNs x.interval off (Config.ptpPathError x.gmId + 50) 0 f.ptp }).mapPtp
    fun x => { x with t1 := t1, awaiting := false, requested := true, reqSeq := x.reqSeq + 1, t3 := s.ftuNs + s.num 0x200106 }
  let peer : Bool := s.num 0x200104 = 1
  (s.portSend (delayRequestBytes peer)).emit (.delayRequest s.ftu.exchange.reqSeq peer (s.num 0x200103 = 1))

/-- A PTP message of the transport, the domain and the selected grandmaster. -/
def State.fromGm (s : State) (ethernet : Bool) (domain : Byte) (gm : BitVec 64) : Bool :=
  s.ptpHeard ethernet && domain.toNat = s.num 0x200102 && match s.ftu.exchange.gm with
    | some g => g.gm = gm
    | none => false

/-- SYNC (R43); the correction of a two-step Sync is added to its Follow_Up's. -/
def execSync (m : PtpSync) (s : State) : Result :=
  if !s.fromGm m.ethernet m.domain m.gm then .next s
  else
    let s := s.mapPtp fun x => { x with
      syncSeq := m.seq, t2 := s.ftuNs - s.num 0x200105, awaiting := m.twoStep, interval := m.interval
      syncCorrection := m.correction }
    .next (if m.twoStep then s else s.ptpMeasure m.origin m.correction)

/-- FOLLOW_UP (R43). -/
def execFollowUp (m : PtpSync) (s : State) : Result :=
  let x := s.ftu.exchange
  if s.fromGm m.ethernet m.domain m.gm && x.awaiting && x.syncSeq = m.seq then .next (s.ptpMeasure m.origin (x.syncCorrection + m.correction))
  else .next s

/-- DELAY_RESPONSE (R43): the mean of the two directions, end to end or between peers. -/
def execDelayResponse (m : PtpDelay) (s : State) : Result :=
  let x := s.ftu.exchange
  if !s.ptpHeard m.ethernet || !x.requested || x.reqSeq ≠ m.seq || m.peer ≠ (s.num 0x200104 == 1) then .next s
  else
    let d : Int :=
      if m.peer then (((s.ftuNs - s.num 0x200105 : Nat) : Int) - x.t3 - (m.sent - m.received : Int) - m.correction) / 2
      else ((x.t2 : Int) - x.t1 + ((m.received : Int) - x.t3 - m.correction)) / 2
    .next (s.mapPtp fun x => { x with requested := false, pathDelay := d })

/-- The first master is better (R43: the default algorithm of IEEE 1588-2019). -/
def betterMaster (a b : PtpAnnounce) : Bool :=
  let k (m : PtpAnnounce) : List Nat := [m.priority1.toNat, m.clockClass.toNat, m.accuracy.toNat, m.variance.toNat,
    m.priority2.toNat, m.gm.toNat, m.steps.toNat]
  k a < k b

/-- ANNOUNCE (R43): a better master, one heard again, or any when the selected one has gone silent, is selected. -/
def execAnnounce (m : PtpAnnounce) (s : State) : Result :=
  if !s.ptpHeard m.ethernet || m.domain.toNat ≠ s.num 0x200102 then .next s
  else
    let take := match s.ftu.exchange.gm with
      | none => true
      | some g => g.gm = m.gm || betterMaster m g || (s.ftu.ptp.seen && !s.ftu.ptp.timely s.aonNs)
    if !take then .next s
    else
      let changed := s.ftu.exchange.gmId ≠ m.gm
      let s := s.mapPtp fun x => if changed then { gm := some m, reqSeq := x.reqSeq } else { x with gm := some m }
      let s := if changed then s.mapFtu fun f => { f with ptp := {} } else s
      .next (((s.setNum 0x200006 m.gm.toNat).setNum 0x200007 m.clockClass.toNat).setNum 0x200008 m.accuracy.toNat)

/-- PTP is qualified (R46): its updates arrive, and its offset agrees with fleet time within P2002.03. -/
def State.ptpQualified (s : State) : Bool :=
  s.ftu.ptp.timely s.aonNs && !s.ftu.ptp.bad && s.ftu.ptp.offset.natAbs ≤ s.num 0x200203

/-- FT_PPS_IN (R44): the edge lags the whole second by the cable delay; the second is the nearest, where PTP or the host has
given one. -/
def execFtPpsIn (s : State) : Result :=
  if s.dev.st == .off || !s.timeKnown then .next s
  else
    let at_ := s.now - s.num 0x200107
    let second := (at_ + 500000000) / 1000000000 * 1000000000
    let off : Int := (second : Int) - at_
    if 100000 < off.natAbs then .next (s.bump 0x200108)
    else if !(s.ftu.hostSecs || s.ptpQualified) then .next s
    else .next (s.mapFtu fun f => { f with pps := updated s.aonNs 1000000000 off (Config.ppsSourceError + 10) 0 f.pps })

/-- FT_PPS_OUT (R44). -/
def execFtPpsOut (s : State) : Result :=
  let high := s.ftu.st.drives && s.now % 1000000000 < 100000 && s.dev.st != .off
  .next { s with dev := { s.dev with ppsOut := high } }

/-- The estimate of P2000.03 (R39, R47). -/
def State.errorEstimate (s : State) : Nat :=
  match s.ftu.st with
  | .unset | .hostset => 0xFFFFFFFF
  | .holdover | .freerun => min 0xFFFFFFFF (s.ftu.lossErr + s.num 0x200204 * (s.aonNs - s.ftu.lossAt) / 1000000000)
  | _ => min 0xFFFFFFFF s.ftu.estimate

/-- Hops of the selected source: 0 for PTP and PPS (R309). -/
def State.sourceHops (s : State) : Nat :=
  match s.ftu.source with
  | .beacon => (lookDef {} s.ftu.beacons s.ftu.sourceLink).hops
  | _ => 0

/-- The 48 bytes of a beacon's payload (R309). -/
def Beacon.bytes (b : Beacon) : Bytes :=
  natLE 8 b.tSend ++ natLE 4 b.tSendFrac.toNat ++ natLE 4 b.sequence.toNat ++ natLE 8 b.tRecv ++ natLE 4 b.tRecvFrac.toNat ++
    natLE 4 b.echo.toNat ++ natLE 4 b.err.toNat ++ natLE 1 b.state.toNat ++ natLE 1 b.hops.toNat ++ zeros 10

/-- A beacon's payload as read. -/
def parseBeacon (b : Bytes) : Beacon :=
  { tSend := field b 0 8, tSendFrac := BitVec.ofNat 32 (field b 8 4), sequence := BitVec.ofNat 32 (field b 0xC 4), tRecv := field b 0x10 8,
    tRecvFrac := BitVec.ofNat 32 (field b 0x18 4), echo := BitVec.ofNat 32 (field b 0x1C 4), err := BitVec.ofNat 32 (field b 0x20 4),
    state := BitVec.ofNat 8 (field b 0x24 1), hops := BitVec.ofNat 8 (field b 0x25 1) }

/-- The beacon this device sends next on a link. -/
def State.beaconFor (s : State) (n : Nat) : Beacon :=
  let l := s.link n
  { tSend := s.stamp, tSendFrac := s.ftu.frac, sequence := l.beaconOut,
    tRecv := (l.beaconIn.map fun x => x.2.1).getD 0, tRecvFrac := (l.beaconIn.map fun x => x.2.2).getD 0,
    echo := (l.beaconIn.map Prod.fst).getD 0xFFFFFFFF, err := BitVec.ofNat 32 s.errorEstimate,
    state := BitVec.ofNat 8 s.ftu.st.code, hops := BitVec.ofNat 8 s.sourceHops }

/-- The frame of a beacon: to the link partner, one hop (R309). -/
def State.beaconFrame (s : State) (n : Nat) : Frame :=
  { kind := .beacon, dest := BitVec.ofNat 12 ((s.link n).partnerDev.getD 0), src := BitVec.ofNat 12 s.devNum, hopsLeft := 1,
    payload := (s.beaconFor n).bytes }

/-- Send a link's beacon, where its channel has a credit for it (R298): a stamp is of the moment it leaves, so none waits (log entry 28). -/
def State.sendBeacon (n : Nat) (s : State) : State :=
  let f := s.beaconFrame n
  if !(s.link n).canSend f then s
  else (s.mapLink n fun l => { l with
    beaconOut := l.beaconOut + 1, beaconSent := ((l.beaconOut, s.ftuNs, s.ftu.frac) :: l.beaconSent).take 16 }).transmit n f

/-- BEACON_SEND (R45, R309): a beacon on each trained link. -/
def execBeaconSend (s : State) : Result :=
  if !s.running then .next s else .next (((List.range 32).filter s.linkUp).foldl (fun s n => s.sendBeacon n) s)

/-- A time with its fraction, in units of 2^-32 ns. -/
def fine (t : Nat) (frac : BitVec 32) : Int := 2 ^ 32 * (t : Int) + frac.toNat

/-- A beacon arrives (R45, R309): the round trip gives the one-way delay, and a beacon of a LOCKED sender is a source. -/
def State.beaconIn (n : Nat) (b : Beacon) (s : State) : State :=
  let l := s.link n
  let s := s.mapLink n fun l => { l with beaconIn := some (b.sequence, s.stamp, s.ftu.frac) }
  match (l.beaconSent.find? fun x => x.1 = b.echo).map Prod.snd with
  | none => s
  | some t1 =>
    let t4 := fine s.ftuNs s.ftu.frac
    let cm := s.num (key (linkIndex n) 6)
    let asym := if cm = 0xFFFF then 0 else Config.cableAsymmetry cm
    let d : Int := (t4 - fine t1.1 t1.2 - (fine b.tSend b.tSendFrac - fine b.tRecv b.tRecvFrac)) / 2 + 2 ^ 32 * asym
    let s := s.setNum (key (linkIndex n) 8) (min (d / 2 ^ 32).toNat 0xFFFFFFFF)
    if b.state = 2 && s.num 0x200109 = 1 then
      let off : Int := (fine b.tSend b.tSendFrac + d - t4) / 2 ^ 32
      let upd (r : SourceRec) : SourceRec := updated s.aonNs 1000000 off (b.err.toNat + 5) (b.hops.toNat + 1) r
      s.mapFtu fun f => { f with beacons := put n (upd (lookDef {} f.beacons n)) f.beacons }
    else s

/-- TIME_BEACON (R45, R309). -/
def execTimeBeacon (link : Fin 32) (r : Rx) (s : State) : Result :=
  s.onFrames link fun s =>
    s.receive link r (fun f => f.kind == .beacon && f.payload.length = 48) fun f q s =>
      (s.accepted link q (some 2)).beaconIn link (parseBeacon f.payload)

/-! ## Qualification (R46, R47) -/

/-- A source the FTU can follow: its code, the link of a beacon, and its record. -/
structure Candidate where
  src : TimeSource
  link : Nat
  r : SourceRec
deriving DecidableEq, Repr

/-- Every source that is heard and that P2001.01 permits. -/
def State.candidates (s : State) : List Candidate :=
  let ok (r : SourceRec) : Bool := r.timely s.aonNs && !r.bad
  let ptp := ok s.ftu.ptp
  let seconds := s.ptpQualified
  let m := s.num 0x200101
  let pps : List Candidate :=
    if !ok s.ftu.pps then []
    else if seconds && (m = 0 || m = 2) then [⟨.ppsPtp, 0xFF, s.ftu.pps⟩]
    else if s.ftu.hostSecs && m = 0 then [⟨.ppsHost, 0xFF, s.ftu.pps⟩] else []
  pps ++ (if ptp && (m = 0 || m = 1) then [⟨.ptp, 0xFF, s.ftu.ptp⟩] else []) ++
    (if (m = 0 || m = 3) && s.num 0x200109 = 1 then
      (s.ftu.beacons.filter fun x => ok x.2).map fun x => ⟨.beacon, x.1, x.2⟩ else [])

/-- Order of choice (R46): error, then PPS with PTP, PTP, the fewest hops, the lowest link. -/
def Candidate.before (a b : Candidate) : Bool :=
  let rank : TimeSource → Nat
    | .ppsPtp => 0 | .ptp => 1 | .ppsHost => 2 | _ => 3
  let k (c : Candidate) : List Nat := [c.r.err, rank c.src, c.r.hops, c.link]
  k a < k b

/-- The first in that order. -/
def bestOf (l : List Candidate) : Option Candidate :=
  l.foldl (fun b c => match b with
    | none => some c
    | some (x : Candidate) => if c.before x then some c else some x) none

/-- Change the record of a source. -/
def State.mapSource (c : Candidate) (f : SourceRec → SourceRec) (s : State) : State :=
  s.mapFtu fun x => match c.src with
    | .ptp => { x with ptp := f x.ptp }
    | .ppsPtp | .ppsHost => { x with pps := f x.pps }
    | .beacon => { x with beacons := put c.link (f (lookDef {} x.beacons c.link)) x.beacons }
    | _ => x

/-- The source's offset agrees with fleet time (R46). -/
def State.agrees (s : State) (c : Candidate) : Bool := c.r.offset.natAbs ≤ s.num 0x200203

/-- Every source is lost (R47): HOLDOVER where lock was held, else FREERUN. DESIGN CHOICE (log entry 29): ACQUIRING holds no lock, so it
goes to FREERUN whether or not LOCKED came before it. -/
def State.timeLost (s : State) : State :=
  let e := s.errorEstimate
  let s := s.mapFtu fun f => { f with source := if f.st == .hostset then .host else .none, sourceLink := 0xFF }
  let lose (st : TimeState) (code : Nat) (s : State) : State :=
    ((s.mapFtu fun f => { f with lossAt := s.aonNs, lossErr := e, lockRun := 0 }).setTimeState st).event code 0xFFFF 0
  match s.ftu.st with
  | .locked => lose .holdover 0x00 s
  | .acquiring => lose .freerun 0x01 s
  | _ => s

/-- Follow a source: its update counts toward lock (R39), and its offset is corrected (R41). The learned frequency is an open
value (log entry 2). -/
def State.follow (c : Candidate) (s : State) : State :=
  let changed := s.ftu.source ≠ c.src || s.ftu.sourceLink ≠ c.link
  let s := s.mapFtu fun f => { f with source := c.src, sourceLink := c.link, estimate := c.r.err }
  if s.ftu.st == .unset then
    ((s.firstTime (moved s.ftuNs c.r.offset) .acquiring).mapSource c fun r => { r with fresh := false, offset := 0 }).mapFtu fun f =>
      { f with lockRun := if c.r.err ≤ 1000 then 1 else 0 }
  else
    let s := match s.ftu.st with
      | .holdover | .freerun | .hostset => (s.mapFtu fun f => { f with lockRun := 0 }).setTimeState .acquiring
      | _ => s
    let s := if !c.r.fresh then s
      else
        let run := if c.r.err ≤ 1000 then s.ftu.lockRun + 1 else 0
        let s := s.mapFtu fun f => { f with lockRun := min run 16 }
        if 16 ≤ run && s.dev.refclk.getLsbD 2 then s.setTimeState .locked
        else if 1000 < c.r.err then s.setTimeState .acquiring else s
    if !c.r.fresh && !changed then s
    else
      let off := max (-(2 ^ 31 : Int)) (min (2 ^ 31 - 1) c.r.offset)
      let s := ((s.setNum 0x200004 (BitVec.ofInt 32 off).toNat).setNum 0x200005 (s.fresh.toNat % 2 ^ 32)).spend
      ((s.correct c.r.offset).getD s).mapSource c fun r => { r with fresh := false }

/-- Choose among the candidates, of which R46 qualifies those whose offset agrees with fleet time. While fleet time is not known any is
followed, and so is, in a state that steps back at once, one that demands a backward step and that no agreeing source contradicts; in
the others it is disqualified and its step held (R41). One farther ahead than P2002.03 is not qualified (log entry 29). -/
def State.selectSource : Nat → List Candidate → State → State
  | 0, _, s => s.timeLost
  | fuel + 1, l, s =>
    match bestOf l with
    | none => s.timeLost
    | some c =>
      if s.ftu.st == .unset || s.agrees c then s.follow c
      else
        let rest := l.filter fun x => x ≠ c
        if c.r.offset < 0 && !s.stepsBack then
          ((((s.mapSource c fun r => { r with bad := true }).holdStep c.r.offset).event 0x02 c.src.code 0)).selectSource fuel rest
        else if c.r.offset < 0 && !rest.any s.agrees then s.follow c
        else s.selectSource fuel rest

/-- A disqualified source whose offset agrees again is heard again. -/
def SourceRec.heal (limit : Nat) (r : SourceRec) : SourceRec := if r.bad && r.offset.natAbs ≤ limit then { r with bad := false } else r

/-- SOURCE_QUALIFICATION (R46). -/
def execSourceQualification (s : State) : Result :=
  if s.dev.st == .off || s.num 0x200101 = 4 then .next (if s.dev.st == .off then s else s.timeLost)
  else
    let lim := s.num 0x200203
    let s := s.mapFtu fun f => { f with ptp := f.ptp.heal lim, pps := f.pps.heal lim, beacons := f.beacons.map fun x => (x.1, x.2.heal lim) }
    .next (s.selectSource (s.candidates.length + 1) s.candidates)

/-- HOLDOVER_ERROR_LIMIT (R47). -/
def execHoldoverErrorLimit (s : State) : Result :=
  if s.ftu.st == .holdover && s.num 0x200205 < s.errorEstimate then .next ((s.setTimeState .freerun).event 0x01 0xFFFF 0) else .next s

end Sys2Proof.Machine
end

