-- ==== Sys2Proof/Machine/Dict.lean ====
section
/-!
DEFINITION. Reading the Pattern book (R354 to R360, R369): which entries a part has, what each reads, and which transports
reach it.
-/

namespace Sys2Proof.Machine

/-! ## Result codes (R358) -/

/-- OK. -/
def rOk : Nat := 0x00
/-- DEFERRED. -/
def rDeferred : Nat := 0x01
/-- NO_ENTRY. -/
def rNoEntry : Nat := 0x10
/-- READ_ONLY. -/
def rReadOnly : Nat := 0x11
/-- WRITE_ONLY. -/
def rWriteOnly : Nat := 0x12
/-- LENGTH. -/
def rLength : Nat := 0x13
/-- RANGE. -/
def rRange : Nat := 0x14
/-- STATE. -/
def rState : Nat := 0x15
/-- LEVEL. -/
def rLevel : Nat := 0x16
/-- PERMISSION. -/
def rPermission : Nat := 0x17
/-- NOT_READY. -/
def rNotReady : Nat := 0x18

/-! ## Which entries there are (R354) -/

/-- The index is present on this part: an index of a unit only where the unit is. -/
def State.indexPresent (s : State) (i : Nat) : Bool :=
  (highestSub i).isSome &&
    (if 0x3010 ≤ i && i ≤ 0x301B then s.stackPresent (i - 0x3010)
     else if 0x8010 ≤ i && i ≤ 0x802F then s.linkPresent (i - 0x8010)
     else if 0x9200 ≤ i && i ≤ 0x9203 then (lookDef {} s.tiers.expanders (i - 0x9200)).st != 0
     else true)

/-- The indices whose sub-index 0x00 has level Expert in the manual's tables; that of the others is Basic. -/
def expertFirst : List Nat :=
  [0x2001, 0x2002, 0x2004, 0x2100, 0x3100, 0x3101, 0x3200, 0x3210, 0x3300, 0x4010, 0x5010, 0x5020, 0x5030, 0x5040, 0x6010, 0x6020,
   0x6030, 0x7010, 0x7011, 0x8100, 0x8200, 0x8400, 0x9200, 0xD100, 0xD200, 0xD400, 0xE010]

/-- The row of an entry that is present; sub-index 0x00 holds the highest sub-index. -/
def State.row (s : State) (k : Nat) : Option Row :=
  if !s.indexPresent (k / 256) then none
  else if k % 256 = 0 then some ⟨0, .u8, .ro, expertFirst.contains (baseIndex (k / 256)), (highestSub (k / 256)).getD 0, 0, 255⟩
  else rowOf k

/-- Every index of the manual, ascending. -/
def allIndices : List Nat :=
  (rowTable.map Prod.fst).flatMap fun i =>
    if i = 0x2100 then (List.range 128).map (0x2100 + ·)
    else if i = 0x3010 then (List.range 12).map (0x3010 + ·)
    else if i = 0x8010 then (List.range 32).map (0x8010 + ·)
    else if i = 0x8200 then (List.range 16).map (0x8200 + ·)
    else if i = 0x9200 then (List.range 4).map (0x9200 + ·)
    else if i = 0xE020 then [0xE020, 0xE021]
    else [i]

/-- P1004.07. -/
def State.indexList (s : State) : Bytes := (allIndices.filter s.indexPresent).flatMap (natLE 2)

/-- The indices whose sub-index 0x01 is a switchable function's state (R361). -/
def switchable (i : Nat) : Bool :=
  (0x2100 ≤ i && i ≤ 0x217F) || (0x8010 ≤ i && i ≤ 0x802F) ||
    [0x3400, 0x4100, 0x4130, 0x7020, 0xB030, 0xD100, 0xD200].contains i

/-! ## Computed entries -/

/-- Codes of R290. -/
def LinkState.code : LinkState → Nat
  | .disabled => 0 | .detect => 1 | .measure => 2 | .autoneg => 3 | .train => 4 | .align => 5
  | .connect => 6 | .up => 7 | .fault => 8

/-- A two's-complement reading in 32 bits. -/
def i32 (x : Int) : Nat := (BitVec.ofInt 32 x).toNat

/-! ## The retained copies in flash (R364) -/

/-- Where copy A, or copy B, lies: the flash, and the offset in it. With one flash present both copies lie in that one. -/
def State.copyPlace (s : State) (a : Bool) : Bool × Nat :=
  (if a then s.chip.flashA else !s.chip.flashB, if a || s.chip.flashA = s.chip.flashB then 0x03F00000 else 0x03E00000)

/-- The contents of SPI_RET_A, or of SPI_RET_B. -/
def Retention.flash (r : Retention) (a : Bool) : Memory := if a then r.flashA else r.flashB

/-- The records of a body, each padded to 8 bytes; none where they do not fill it exactly. -/
def parseRecords : Nat → Bytes → Option (List RetRecord)
  | _, [] => some []
  | 0, _ :: _ => none
  | f + 1, b =>
    let n := field b 4 2
    if b.length < 8 + roundUp 8 n then none
    else (parseRecords f (b.drop (8 + roundUp 8 n))).map fun l =>
      ⟨256 * field b 0 2 + field b 2 1, BitVec.ofNat 8 (field b 3 1), sub b 8 n⟩ :: l

/-- The copy that lies at an offset of a flash, where it is valid: magic, version and both CRCs are right, and its records fill
exactly its body. -/
def parseCopy (m : Memory) (off : Nat) : Option RetCopy :=
  let h := m.read off 64
  let n := field h 0x10 4
  if field h 0 4 ≠ 0x52544B5A || field h 4 2 ≠ 1 || 1048512 < n || field h 0x3C 4 ≠ (crc32c (h.take 0x3C)).toNat then none
  else
    let b := m.read (off + 64) n
    if field h 0x14 4 ≠ (crc32c b).toNat then none
    else
      match parseRecords (n / 8 + 1) b with
      | some l => if l.length = field h 0xC 4 then some ⟨field h 8 4, field h 0x18 8, BitVec.ofNat 32 (field h 0x20 4), l⟩ else none
      | none => none

/-- A retention flash answers. -/
def State.hasFlash (s : State) : Bool := s.chip.flashA || s.chip.flashB

/-- Copy A, or copy B, where it is valid. -/
def State.retCopy (s : State) (a : Bool) : Option RetCopy :=
  if s.hasFlash then parseCopy (s.ret.flash (s.copyPlace a).1) (s.copyPlace a).2 else none

/-- The newer valid copy is copy B: where the sequences are equal, copy A is the newer. -/
def State.newerB (s : State) : Bool :=
  match s.retCopy true, s.retCopy false with
  | some a, some b => a.sequence < b.sequence
  | none, some _ => true
  | _, none => false

/-- The newer valid copy. -/
def State.newerCopy (s : State) : Option RetCopy := s.retCopy (!s.newerB)

/-- P1003.05. -/
def Retention.state (r : Retention) : Nat :=
  if r.writing.isSome then (if r.pending.isSome then 2 else 1) else if r.failed then 3 else 0

/-- P1003.08. -/
def State.copyStatus (s : State) : Nat :=
  bitIf (s.retCopy true).isSome 0 + bitIf (s.retCopy false).isSome 1 + bitIf s.newerB 2 + bitIf (s.chip.flashA != s.chip.flashB) 3

/-- P1000 to P1006. -/
def State.num1 (s : State) (k : Nat) : Option Nat :=
  match k with
  | 0x100001 => some s.chip.variant.toNat
  | 0x100003 => some s.chip.stackMask.toNat
  | 0x100004 => some s.chip.linkMask.toNat
  | 0x100005 => some (bitIf s.chip.bulkRing 0)
  | 0x100006 => some s.chip.fitted.toNat
  | 0x100007 => some s.sec.firmware.toNat
  | 0x100201 => some s.dev.st.code
  | 0x100202 => some s.dev.since
  | 0x100203 => some s.degraded
  | 0x100204 => some s.dev.fenceCause.toNat
  | 0x100301 => some (bitIf s.ret.defaults 0)
  | 0x100302 => some s.ret.restored
  | 0x100305 => some s.ret.state
  | 0x100306 => some s.ret.lastSequence
  | 0x100308 => some s.copyStatus
  | 0x10030A => some (s.switches.filter fun x => x.2.pend.isSome).length
  | 0x10030B => some s.dev.epoch
  | 0x10030C => some s.chip.enterprise.toNat
  | 0x100601 => some s.sec.mac.toNat
  | 0x100606 => some (bitIf s.papUp 0)
  | _ => none

/-- P2000 to P2004. Fleet time reads 0 while it is not known (log entry 29). -/
def State.num2 (s : State) (k : Nat) : Option Nat :=
  match k with
  | 0x200001 => some s.ftu.st.code
  | 0x200002 => some s.ftu.source.code
  | 0x200003 => some s.errorEstimate
  | 0x200009 => some s.ftu.sourceLink
  | 0x20000B => some s.stamp
  | 0x200401 => some ((List.range 128).filter fun n => s.calKind n ≠ 0).length
  | _ => if 0x2100 ≤ k / 256 && k % 256 = 7 then some ((s.calEntry (k / 256 - 0x2100)).next.getD 0) else none

/-- Channels of a stack for which `p` holds, as a mask. -/
def State.channelMask (s : State) (n : Nat) (p : Channel → Bool) : Nat :=
  maskOf ((List.range 32).filter fun c => p (s.channel n c))

/-- P3000 to P3400. -/
def State.num3 (s : State) (k : Nat) : Option Nat :=
  match k with
  | 0x300005 => some s.chip.inUse.toNat
  | 0x300006 => some s.chip.density
  | 0x320004 => some (s.slicesOf 0).length
  | _ =>
    if k / 256 = 0x3210 then some (s.sliceUse (k % 256 - 1))
    else if 0x3010 ≤ k / 256 && k / 256 ≤ 0x301B then
      let n := k / 256 - 0x3010
      match k % 256 with
      | 1 => some (match (s.stack n).tier with | .normal => 0 | .warm => 1 | .hot => 2 | .critical => 3)
      | 2 => some (i32 ((s.stack n).celsius.getD 0))
      | 3 => some (s.channelMask n fun c => c.st != .online)
      | 4 => some (s.channelMask n fun c => c.st == .offline)
      | _ => none
    else none

/-- The collection a selector names (R119, R143). -/
def State.selected (s : State) (sel : Nat) : Option Coll :=
  if s.num sel = 0xFFFF then none else s.coll (BitVec.ofNat 16 (s.num sel))

/-- P4010.03 of a handle. -/
def State.collFlags (s : State) (h : Nat) : Nat :=
  let c := s.coll (BitVec.ofNat 16 h)
  let d := s.deferred.find? fun x => x.coll.d.handle.toNat = h
  bitIf (c.any Coll.imageLoaded) 0 + bitIf (c.any Coll.dataLost) 1 + bitIf d.isSome 2 + bitIf (d.any Deferred.thenDelete) 3

/-- P4010.02 to P4010.0D. -/
def State.num401 (s : State) (sub : Nat) : Nat :=
  let h := s.num 0x401001
  if h = 0xFFFF then 0
  else if sub = 3 then s.collFlags h
  else
    match s.selected 0x401001 with
    | none => 0
    | some c =>
      match sub with
      | 2 => c.st.code
      | 4 => c.d.maxVectors
      | 5 => c.highWater
      | 6 => c.live
      | 7 => c.tombstones
      | 8 => c.imageGeneration
      | 9 => s.heldBytes h 0
      | 10 => s.heldBytes h 1
      | 11 => s.heldBytes h 2
      | 12 => (s.search.queries.filter fun q => q.d.coll = c.d.handle).length
      | 13 => c.journalPosition
      | _ => 0

/-- P4110.02: the lowest snapshot held in flight, or the current generation. -/
def State.oldestSnapshot (s : State) : Nat := s.snapshots.foldl min s.muts.generation

/-- P4130.0B: time since the stamp of the oldest visible unretired entry. -/
def State.seamLag (s : State) : Nat :=
  let l := (s.muts.baste.filter fun e => e.version ≤ s.muts.generation && e.retired.isNone).map BasteEntry.stamp
  match l with
  | [] => 0
  | t :: r => s.now - r.foldl min t

/-- P4000 to P4130. -/
def State.num4 (s : State) (k : Nat) : Option Nat :=
  match k with
  | 0x400001 => some s.colls.length
  | 0x400003 => some (s.freeBytes 0)
  | 0x400004 => some (s.freeBytes 1)
  | 0x400005 => some (s.freeBytes 2)
  | 0x410008 => some s.muts.journal.append
  | 0x410009 => some s.muts.journal.durable
  | 0x41000A => some s.muts.journal.release
  | 0x41000B => some s.releaseWord
  | 0x411001 => some s.muts.generation
  | 0x411002 => some s.oldestSnapshot
  | 0x412004 => some s.muts.baste.length
  | 0x412005 => some (s.muts.baste.filter fun e => e.retired.isSome).length
  | 0x412006 => some s.basteBytes
  | 0x41300B => some s.seamLag
  | _ => if k / 256 = 0x4010 && 2 ≤ k % 256 then some (s.num401 (k % 256)) else none

/-- P5030, P6000, P6030 and P7000. -/
def State.num567 (s : State) (k : Nat) : Option Nat :=
  let drift := ((s.selected 0x603001).map Coll.drift).getD {}
  match k with
  | 0x50300B => some (~~~ s.units.lauter).toNat
  | 0x600007 => some (~~~ s.units.kiln).toNat
  | 0x603002 => some (drift.baseline.getD 0).toNat
  | 0x603003 => some drift.lastNmse.toNat
  | 0x603004 => some drift.lastSat.toNat
  | 0x603005 => some drift.windows
  | 0x603006 => some (bitIf drift.flag 0)
  | 0x700001 => some (~~~ s.units.tun).toNat
  | 0x700008 => some s.tun.lastScanStatus.toNat
  | 0x702002 => some s.tun.queue.length
  | 0x702009 => some s.chip.arenaBase
  | _ => none

/-- P8000 to P8400. -/
def State.num8 (s : State) (k : Nat) : Option Nat :=
  match k with
  | 0x800005 => some (maskOf ((List.range 32).filter s.linkUp))
  | 0x800006 => some (~~~ s.units.transport).toNat
  | 0x800007 => some s.chip.vendorOui.toNat
  | 0x830003 => some (((s.selected 0x830001).map fun c => c.shardMap.length).getD 0)
  | _ =>
    if 0x8010 ≤ k / 256 && k / 256 ≤ 0x802F then
      let l := s.link (k / 256 - 0x8010)
      match k % 256 with
      | 2 => some l.st.code
      | 3 => some l.cause.toNat
      | 13 => some (bitIf l.encrypted 0)
      | _ => none
    else none

/-! ## Windows and decoders (R326, R327, R353) -/

/-- The windows of R327: their bases and spans, in table order. -/
def windowSpans : List (Nat × Nat) :=
  [(0, 2 ^ 30), (0x1000000000, 2 ^ 36), (0x2000000000, 2 ^ 36), (0x10000000000, 2 ^ 43), (0x90000000000, 2 ^ 42)]

/-- Bit w: a decoder committed with back-invalidate maps a part of window w. -/
def PortState.biWindows (x : PortState) : Nat :=
  maskOf ((List.range windowSpans.length).filter fun w =>
    let v := (windowSpans[w]?).getD (0, 0)
    x.decoders.any fun d => d.2.backInvalidate && overlaps d.2.dpa d.2.size v.1 v.2)

/-- P9000 to P9203. -/
def State.num9 (s : State) (k : Nat) : Option Nat :=
  let a := s.ports.a
  let up (x : Nat) : Option Nat := some (if s.chip.portBRoot then 0 else x)
  match k with
  | 0x900001 => some a.linkState.toNat
  | 0x900002 => some a.speed.toNat
  | 0x900003 => some a.width.toNat
  | 0x900004 => some (bitIf a.flit 0)
  | 0x900005 => some (bitIf a.ide 0)
  | 0x900007 => some s.chip.hostAreaA
  | 0x900008 => some a.biWindows
  | 0x910004 => some (bitIf s.chip.portBRoot 0)
  | 0x910005 => up s.ports.b.linkState.toNat
  | 0x910006 => up s.ports.b.speed.toNat
  | 0x910007 => up s.ports.b.width.toNat
  | 0x910009 => up s.chip.hostAreaB
  | 0x91000A => some (maskOf ((List.range 4).filter fun n => (lookDef {} s.tiers.expanders n).st == 2))
  | _ =>
    if 0x9200 ≤ k / 256 && k / 256 ≤ 0x9203 then
      let e := lookDef {} s.tiers.expanders (k / 256 - 0x9200)
      match k % 256 with
      | 1 => some e.st.toNat
      | 2 => some e.vendorDevice.toNat
      | 3 => some e.capacity
      | 4 => some e.persistent
      | 5 => some e.width.toNat
      | 6 => some e.speed.toNat
      | 7 => some e.cause.toNat
      | _ => none
    else none

/-- PA000 to PC000. -/
def State.numABC (s : State) (k : Nat) : Option Nat :=
  match k with
  | 0xA00001 => some s.thimble.opened.length
  | 0xA00005 => some s.thimble.sequence
  | 0xA03004 => some s.unacked
  | 0xA05001 => some s.units.needle.toNat
  | 0xA05003 => some s.units.core.toNat
  | 0xA05004 => some s.units.slice.toNat
  | 0xA05005 => some s.units.package.toNat
  | 0xA05006 => some s.units.stack.toNat
  | 0xA05007 => some s.units.lane.toNat
  | 0xB02003 => some ((s.thimble.log.head?.map LogRec.sequence).getD 0)
  | 0xB02004 => some s.thimble.logNext
  | 0xB00009 => some s.dev.refclk.toNat
  | 0xC00001 => some s.dev.power
  | 0xC00002 => some s.dev.target
  | _ => (look s.tele.readings k).map BitVec.toNat

/-- How many of `n` units are online. -/
def onlineOf (n m : Nat) : Nat := n - popcount n m

/-- PD300, PD400 and PE000 to PE010. -/
def State.numDE (s : State) (k : Nat) : Option Nat :=
  match k with
  | 0xD30001 => some (match s.test.selfTest with | some t => if t.extended then 2 else 1 | none => 0)
  | 0xD30002 => some (match s.test.selfTest with | some t => min 100 (100 * t.done / max 1 (t.done + t.left.length)) | none => 0)
  | 0xD40001 => some (bitIf s.dev.frozen 0)
  | 0xE00001 => some (bitIf s.sec.policyInEffect 0)
  | 0xE00003 => some (match s.sec.running with | some false => 0 | some true => 1 | none => 0xFF)
  | 0xE00004 => some (bitIf s.sec.record.activeB 0)
  | 0xE00005 => some (bitIf s.sec.record.trial 0 + bitIf s.sec.record.trialStarted 1)
  | 0xE00006 => some s.sec.svn.toNat
  | 0xE00007 => some s.sec.record.minSvn
  | 0xE00009 => some (bitIf s.sec.verifiedA 0 + bitIf s.sec.verifiedB 1 + bitIf s.sec.fallback 2)
  | 0xE0000A => some s.sec.identity.toNat
  | 0xE0000B => some s.dev.straps.toNat
  | 0xE01005 => some s.sec.recoveryStatus.toNat
  | _ => none

/-- An entry that reports a structure of its own. -/
def State.computed (s : State) (k : Nat) : Option Nat :=
  if k % 256 = 0 then highestSub (k / 256)
  else if switchable (k / 256) && k % 256 = 1 then some (s.sw (k / 256)).st.code
  else
    match k / 0x100000 with
    | 0x1 => s.num1 k
    | 0x2 => s.num2 k
    | 0x3 => s.num3 k
    | 0x4 => s.num4 k
    | 0x5 | 0x6 | 0x7 => s.num567 k
    | 0x8 => s.num8 k
    | 0x9 => s.num9 k
    | 0xA | 0xB | 0xC => s.numABC k
    | _ => s.numDE k

/-- Entries whose value the manual names and the model has no rule for: a measured value before its first reading (log entry 1). -/
def State.openEntry (s : State) (k : Nat) : Bool :=
    (([0xB00001, 0xB00002, 0xB00003, 0xB00004, 0xB00005, 0xB00006, 0xB00007, 0xB00008, 0xC10002].contains k) &&
      (look s.tele.readings k).isNone) ||
    (0x301000 ≤ k && k < 0x301C00 && k % 256 = 2 && (s.stack (k / 256 - 0x3010)).celsius.isNone)

/-- The value of a numeric entry. -/
def State.value (s : State) (k : Nat) : Nat :=
  if s.openEntry k then s.fresh.toNat else (s.computed k).getD (s.num k)

/-! ## Byte-string entries -/

/-- One permit as R424 lays it out. -/
def Permit.bytes (x : Permit) : Bytes := natLE 2 x.tenant ++ natLE 2 (bitIf x.ide 0) ++ zeros 4 ++ natLE 4 x.base ++ natLE 4 x.length

/-- PB020.01 (R400), as many records as fit a transport's length. -/
def State.logRead (s : State) (limit : Nat) : Bytes :=
  ((s.thimble.log.filter fun r => s.num 0xB02002 ≤ r.sequence).take (min 1024 (limit / 64))).flatMap LogRec.bytes

/-- The value of an STR or DOMAIN entry, as a transport of some largest length sees it. -/
def State.text (s : State) (limit k : Nat) : Bytes :=
  match k with
  | 0x100407 => s.indexList
  | 0x810001 => (s.blob k).getD (List.replicate 16384 0xFF)
  | 0x830002 => ((s.selected 0x830001).map fun c => c.shardMap.flatMap fun r => r.flatMap (natLE 2)).getD []
  | 0xA02001 => s.thimble.history.flatMap Event.bytes
  | 0xA02002 => s.thimble.opened.flatMap Event.bytes
  | 0xA03001 => s.alarmTable
  | 0xA05002 => natLE 24 s.units.score.toNat
  | 0xB01001 => (s.blob k).getD (zeros 256)
  | 0xB02001 => s.logRead limit
  | 0xD20005 => (s.blob k).getD (zeros 16)
  | 0xD40004 =>
    let c := s.num 0xD40003
    s.chainRead c (s.num 0xD40005) (min 65536 (chainLength c - s.num 0xD40005))
  | 0xE0000C => s.sec.serial
  | 0xE02002 => (s.blob k).getD ((s.permits .a).flatMap Permit.bytes)
  | 0xE02102 => (s.blob k).getD ((s.permits .b).flatMap Permit.bytes)
  | _ => (s.blob k).getD []

/-! ## Transports (R369) -/

/-- The largest value per request. -/
def sourceLimit : Source → Nat
  | .mailbox _ => 65536
  | .mctp _ | .pap _ _ => 1448
  | .shuttle _ => 4096

/-- The source is a mailbox. -/
def isMailbox : Source → Bool
  | .mailbox _ => true
  | _ => false

/-- A request of this source reaches the device. -/
def State.heard (s : State) : Source → Bool
  | .mailbox p => s.upstream.contains p && s.mailboxUp
  | .mctp _ => s.dev.st != .off
  | .pap _ _ => s.papUp && s.num 0x100602 ≠ 0
  | .shuttle d => s.running && (s.routeBack d.toNat).isSome

/-- The policy of a transport: 0 off, 1 read only, 2 read and write. The device's own operations have none (R299, R301). -/
def State.policy (s : State) : Source → Nat
  | .mailbox _ => 2
  | .mctp _ => s.num 0x100402
  | .pap _ _ => s.num 0x100401
  | .shuttle d => if d.toNat = s.devNum then 2 else s.num 0x800004

/-- The index is served at this moment (R365, R369, R441). -/
def State.served (s : State) (i : Nat) : Bool :=
  let r := i / 0x1000
  s.dev.stepsDone &&
    (if s.dev.frozen then r = 1 || r = 2 || r = 0xA || r = 0xD || r = 0xE
     else if s.dev.st == .boot || s.dev.power = 4 then r = 1 || r = 2 || r = 0xA || r = 0xC || r = 0xE
     else true)

/-- The answer to a dictionary request: result, type, length of the whole value, and the bytes returned. -/
structure Answer where
  result : Nat
  type : Byte := 0
  total : Nat := 0
  value : Bytes := []
deriving DecidableEq, Repr

/-- A read of an entry (R343, R356, R358, R370), under the policy of its source. A length of 0 asks for as much as the
transport carries. -/
def State.answerRead (s : State) (src : Source) (k off len : Nat) : Answer :=
  if !s.served (k / 256) then ⟨rNotReady, 0, 0, []⟩
  else
    match s.row k with
    | none => ⟨rNoEntry, 0, 0, []⟩
    | some r =>
      if s.policy src = 0 then ⟨rPermission, 0, 0, []⟩
      else if r.access = .wo then ⟨rWriteOnly, 0, 0, []⟩
      else
        let limit := sourceLimit src
        let b := match r.ty.size with
          | some n => natLE n (s.value k)
          | none => s.text limit k
        if b.length < off + len || limit < len then ⟨rLength, 0, 0, []⟩
        else ⟨rOk, r.ty.code, b.length, sub b off (if len = 0 then min limit (b.length - off) else len)⟩

/-- The result is a refusal: 0x10 or above. -/
def refused (r : Nat) : Bool := 0x10 ≤ r

/-- What a request leaves behind: a refusal is counted in P1004.06. -/
def State.countResult (r : Nat) (s : State) : State := if refused r then s.bump 0x100406 else s

/-- Read an entry; an entry whose value is open takes a new one. -/
def State.dictRead (src : Source) (k off len : Nat) (s : State) : State × Answer :=
  let a := s.answerRead src k off len
  let s := if !refused a.result && s.openEntry k then s.spend else s
  (s.countResult a.result, a)

end Sys2Proof.Machine
end

