-- ==== Sys2Proof/Machine/TunRecipes.lean ====
section
/-!
DEFINITION. Recipes (R244 to R253): the checks of a run, MATMUL and element-wise steps on Tun, training, and the status
record. Readings the words leave to inference are in log entry 25.
-/

namespace Sys2Proof.Machine

/-! ## The arena (R245) -/

/-- `[a, a + n)` lies in the recipe arena. -/
def State.inArena (s : State) (a n : Nat) : Bool := inside a n s.chip.arenaBase (gibBytes s.chip.arenaGib)

/-- P7020.08 takes effect when no run is queued or executing. -/
def State.applyArena (s : State) : State :=
  if s.tun.run.isSome || !s.tun.queue.isEmpty || s.chip.arenaGib = s.num 0x702008 then s
  else
    match (s.release ownerArena).placeArea ownerArena 0 (gibBytes (s.num 0x702008)) with
    | some (b, t) => { t with chip := { t.chip with arenaBase := b, arenaGib := s.num 0x702008 } }
    | none => s

/-! ## Reading an image (R245 to R247) -/

/-- A tensor descriptor. -/
def readTensor (b : Bytes) : Tensor :=
  { address := field b 0 8, rows := field b 8 4, cols := field b 0xC 4, format := field b 0x10 1, blockLog2 := field b 0x11 1,
    secondLevel := bit (field b 0x12 1) 0, blockOffset := bit (field b 0x12 1) 1, stride := field b 0x14 4,
    scales := field b 0x18 8 }

/-- A step. -/
def readStep (b : Bytes) : RStep :=
  let f := field b 3 1
  { opcode := field b 0 1, shape := field b 1 1, acc := field b 2 1, wxFixed := bit f 0, preloadRow := bit f 1,
    preloadTile := bit f 2, blockedOut := bit f 3, wxPoint := signed 16 (field b 4 2), outExp := signed 16 (field b 6 2),
    srcA := field b 8 2, srcB := field b 0xA 2, srcC := field b 0xC 2, dst := field b 0xE 2,
    imm := (List.range 4).map fun i => BitVec.ofNat 32 (field b (0x10 + 4 * i) 4) }

/-- Format of a tensor. -/
def Tensor.fmt (t : Tensor) : Fmt := (fmtOfCode t.format).getD .b1

/-- Block size; 0 for none. -/
def Tensor.k (t : Tensor) : Nat := if t.blockLog2 = 0 then 0 else 2 ^ t.blockLog2

/-- Bytes of a row's codes. -/
def Tensor.rowBytes (t : Tensor) : Nat := (t.cols * t.fmt.bits + 7) / 8

/-- Blocks of a row. -/
def Tensor.blocks (t : Tensor) : Nat := if t.k = 0 then 0 else t.cols / t.k

/-- Offset of the exponents in a row's scale record. -/
def Tensor.expAt (t : Tensor) : Nat := if t.secondLevel then roundUp 8 (2 * ((t.blocks + 255) / 256)) else 0

/-- Bytes of a row's scale record. -/
def Tensor.recordBytes (t : Tensor) : Nat :=
  roundUp 64 (t.expAt + roundUp 4 t.blocks + if t.blockOffset then 4 * t.blocks else 0)

/-- The descriptor keeps R246; a format without scales in R93 carries none. -/
def tensorOk (b : Bytes) : Bool :=
  let t := readTensor b
  t.address % 64 = 0 && 1 ≤ t.rows && t.rows ≤ 16777216 && 1 ≤ t.cols && t.cols ≤ 65536 && t.format ≤ 0x0E &&
    (t.blockLog2 = 0 || (4 ≤ t.blockLog2 && t.blockLog2 ≤ 6)) && field b 0x12 1 < 4 && field b 0x13 1 = 0 &&
    t.stride % 64 = 0 && t.rowBytes ≤ t.stride &&
    (if t.blockLog2 = 0 then t.scales = 0 && !t.secondLevel && !t.blockOffset
     else 1 ≤ t.format && t.format ≤ 9 && t.cols % t.k = 0 && offsetAllowed t.format (if t.blockOffset then 1 else 0))

/-- A tensor and its scale table lie in the arena. -/
def State.tensorIn (s : State) (t : Tensor) : Bool :=
  s.inArena t.address ((t.rows - 1) * t.stride + t.rowBytes) && (t.blockLog2 = 0 || s.inArena t.scales (t.rows * t.recordBytes))

/-! ## Checks of a step (R247, R248, R250) -/

/-- Operations with a second operand that may be broadcast. -/
def opBinary (o : Nat) : Bool := (0x10 ≤ o && o ≤ 0x13) || o = 0x16

/-- Opcodes of R248. -/
def recipeOp (o : Nat) : Bool :=
  o = 0x01 || (0x10 ≤ o && o ≤ 0x1A) || (0x20 ≤ o && o ≤ 0x23) || (0x30 ≤ o && o ≤ 0x32) || o = 0x40 || o = 0x41

/-- Two tensors have one shape. -/
def Tensor.same (a b : Tensor) : Bool := a.rows = b.rows && a.cols = b.cols

/-- The reserved bits and the ranges of a step's own fields. -/
def stepFieldsOk (b : Bytes) (n : Nat) : Bool :=
  let t := readStep b
  let mm := t.opcode = 1
  let idx (i : Nat) : Bool := i < n || i = 0xFFFF
  recipeOp t.opcode && (if mm then t.shape ≤ 3 && t.acc ≤ 2 else t.shape = 0 && t.acc = 0) && field b 3 1 < 16 &&
    !(t.preloadRow && t.preloadTile) && (!t.wxFixed || (-512 ≤ t.wxPoint && t.wxPoint ≤ 511)) && -64 ≤ t.outExp && t.outExp ≤ 64 &&
    idx t.srcA && idx t.srcB && idx t.srcC && t.dst < n && (t.opcode = 0x32 || t.srcA < n)

/-- A MATMUL's operands, preload and destination. -/
def matmulOk (ts : List Tensor) (t : RStep) (a d : Tensor) : Bool :=
  match ts[t.srcB]? with
  | none => false
  | some b =>
    (dpuLength a.fmt b.fmt).isSome && a.cols = b.cols && d.rows = a.rows && d.cols = b.rows && t.dst ≠ t.srcA && t.dst ≠ t.srcB &&
      (if t.preloadRow || t.preloadTile then
        match ts[t.srcC]? with
        | none => false
        | some c => c.fmt ≠ .b1 && c.cols = d.cols && c.rows = (if t.preloadRow then 1 else d.rows)
       else true)

/-- Shapes of an element-wise step. -/
def elementOk (ts : List Tensor) (t : RStep) (a d : Tensor) : Bool :=
  let o := t.opcode
  if opBinary o then
    d.same a && (match ts[t.srcB]? with
      | none => true
      | some b => b.same a || (b.rows = 1 && b.cols = a.cols))
  else if o = 0x20 || o = 0x21 then d.rows = a.rows && d.cols = 1
  else if o = 0x22 then d.rows = 1 && d.cols = a.cols
  else if o = 0x30 then d.rows = a.cols && d.cols = a.rows
  else if o = 0x40 then
    t.dst = t.srcA && (match ts[t.srcB]?, ts[t.srcC]?, ts[t.srcC + 1]? with
      | some g, some m, some v => g.same a && m.same a && v.same a
      | _, _, _ => false)
  else if o = 0x41 then
    d.same a && (match ts[t.srcB]? with | some g => g.same a | none => false) &&
      (t.srcC = 0xFFFF || match ts[t.srcC]? with | some m => m.same a | none => false)
  else d.same a

/-- A step against the tensors (INVALID_RECIPE). -/
def stepOk (ts : List Tensor) (t : RStep) : Bool :=
  match ts[t.dst]? with
  | none => false
  | some d =>
    (!t.blockedOut || d.k ≠ 0) &&
      (if t.opcode = 0x32 then true
       else match ts[t.srcA]? with
        | none => false
        | some a => if t.opcode = 1 then matmulOk ts t a d else elementOk ts t a d)

/-- A MATMUL names an accumulator that R78 allows. -/
def accOk (ts : List Tensor) (t : RStep) : Bool :=
  t.opcode ≠ 1 || match ts[t.srcA]?, ts[t.srcB]?, accOf t.acc with
    | some a, some b, some c => accAllowed a.fmt b.fmt (a.k ≠ 0 || b.k ≠ 0) c
    | _, _, _ => false

/-! ## Decoding and writing rows (R240, R246) -/

/-- A row of a tensor as staged. DESIGN CHOICE (log entry 25): the exponent that AUTO takes for an invalid block or super-block, of which R83
says nothing, is that of scale 1; a scan leaves such a block out. -/
def Tensor.operand (t : Tensor) (m : Memory) (r : Nat) : Operand :=
  let raw := leNat (m.read (t.address + r * t.stride) t.rowBytes)
  let rec_ := if t.k = 0 then [] else m.read (t.scales + r * t.recordBytes) t.recordBytes
  let nb := t.blocks
  let s2 := if t.secondLevel then (List.range ((nb + 255) / 256)).map fun i => Machine.secondLevel (field rec_ (2 * i) 2) else []
  let ex := (List.range nb).map fun i => e8m0 (field rec_ (t.expAt + i) 1)
  let offs := if t.blockOffset then
      (List.range nb).map fun i => f32 (BitVec.ofNat 32 (field rec_ (t.expAt + roundUp 4 nb + 4 * i) 4))
    else []
  { fmt := t.fmt, k := t.k, second := t.secondLevel, vals := (unpackNat t.fmt.bits t.cols raw).map (decodeNum t.fmt),
    exps := ex.map fun e => e.getD 0, offs := offs.map Num.val, s2 := s2.map fun x => x.getD one,
    bad := (List.range nb).map fun i =>
      ((ex[i]?).getD none).isNone || (t.secondLevel && ((s2[i / 256]?).getD none).isNone) ||
        (match offs[i]? with | some o => !o.finite | none => false) }

/-- A decoded row. -/
def Tensor.row (t : Tensor) (m : Memory) (r : Nat) : List Num := (t.operand m r).decoded

/-- A row encoded for a tensor: its codes, its scale record, and what each element's conversion counts. -/
structure RowOut where
  codes : List Nat
  scales : Bytes
  marks : List ConvMark
deriving DecidableEq, Repr

/-- The second-level code of a super-block's blocks (R102). -/
def superCode (t : Tensor) (ranges : List (Option (Dy × Dy))) : Nat :=
  let sigmas := ranges.filterMap fun r => match r with
    | some (lo, hi) => if lo.eq hi then none else some (sigmaOf t.fmt (!t.blockOffset) lo hi)
    | none => none
  match sigmas with
  | [] => fp16One
  | a :: l => if t.secondLevel then s2Code (l.foldl (fun m b => if m.lt b then b else m) a) else fp16One

/-- Encode a row as a vector (R240): scales by R102 for every super-block, elements by R103 to R105; a NaN or an infinity beside
the equal elements of a CONSTANT block converts under R75 (R85, R105). -/
def Tensor.encodeBlocked (t : Tensor) (ovf : Bool) (xs : List Num) : RowOut :=
  let bs := blocksOf t.k xs
  let ranges := bs.map blockRange
  let supers := (chunks 256 (ranges.length + 1) ranges).map (superCode t)
  let outs := ((bs.zip ranges).zipIdx).map fun x =>
    let s2 := (supers[x.2 / 256]?).getD fp16One
    let sc := blockScale t.fmt (!t.blockOffset) s2 x.1.2
    let conv := x.1.1.map fun a =>
      if sc.2.2 && a.finite then ((0, .plain) : Nat × ConvMark)
      else if sc.2.2 then convertNum t.fmt ovf a (effScale s2 sc.1)
      else convertNum t.fmt ovf (if (f32 sc.2.1).val.m = 0 then a else a.add (f32 sc.2.1).neg) (effScale s2 sc.1)
    (conv, sc)
  let ex := padMul 4 (outs.map fun o => BitVec.ofNat 8 o.2.1)
  let s2b := if t.secondLevel then padMul 8 (supers.flatMap (natLE 2)) else []
  let off := if t.blockOffset then outs.flatMap fun o => natLE 4 o.2.2.1.toNat else []
  let conv := outs.flatMap Prod.fst
  ⟨conv.map Prod.fst, padTo t.recordBytes (s2b ++ ex ++ off), conv.map Prod.snd⟩

/-- Convert a row for its tensor (R240). -/
def Tensor.encodeRow (t : Tensor) (ovf : Bool) (xs : List Num) : RowOut :=
  if t.k ≠ 0 then t.encodeBlocked ovf xs
  else
    let conv := xs.map fun x => convertNum t.fmt ovf x one
    ⟨conv.map Prod.fst, [], conv.map Prod.snd⟩

/-- Write an encoded row, or the part of one from column `c` on, a multiple of 32. -/
def State.writeRow (t : Tensor) (r c : Nat) (o : RowOut) (s : State) : State :=
  let s := s.devWrite (t.address + r * t.stride + c * t.fmt.bits / 8)
    (natLE ((o.codes.length * t.fmt.bits + 7) / 8) (packNat t.fmt.bits o.codes))
  if t.k = 0 then s else s.devWrite (t.scales + r * t.recordBytes) o.scales

/-- What a unit adds to its run. -/
structure UnitSum where
  status : Nat := 0
  count : ConvCount := {}
deriving DecidableEq, Repr

/-- Status bits 5 and 6 of the conversions of one tile. -/
def convBits (ms : List ConvMark) : Nat := bitIf (ms.contains .sat) 5 + bitIf (ms.contains .nanZero) 6

/-- Write the values given of rows from `r`, from column `c` on; `acc` gives the accumulation status of the tiles of 32 rows by 32
columns, in row order of tiles. Every tile is counted (R86, R87). -/
def State.writeRowsAt (t : Tensor) (r c : Nat) (rows : List (List Num)) (acc : List (List Nat)) (s : State) : State × UnitSum :=
  let ovf := s.num 0x701004 = 1
  let outs := rows.map (t.encodeRow ovf)
  let s := outs.zipIdx.foldl (fun (s : State) x => s.writeRow t (r + x.2) c x.1) s
  let tiles := (chunks 32 (outs.length + 1) outs).zipIdx.flatMap fun g =>
    let cols := g.1.map fun o => chunks 32 (o.marks.length + 1) o.marks
    (List.range (cols.foldl (fun n l => max n l.length) 0)).map fun j =>
      (((acc[g.2]?).getD [])[j]?).getD 0 ||| convBits (cols.flatMap fun col => (col[j]?).getD [])
  let count := (outs.flatMap RowOut.marks).foldl ConvCount.add {}
  let s := (tiles.foldl (fun s x => s.countTile x) s).countTun count
  (s, ⟨tiles.foldl Nat.lor 0, count⟩)

/-- Write whole rows from `r`. -/
def State.writeRows (t : Tensor) (r : Nat) (rows : List (List Num)) (acc : List (List Nat)) (s : State) : State × UnitSum :=
  s.writeRowsAt t r 0 rows acc

/-! ## MATMUL (R235 to R240) -/

/-- A preload element converted into the accumulator under R75, and in WX under R82, with what its conversion counts in P7010
(R76, R238). DESIGN CHOICE (log entry 25): a conversion that saturates sets the accumulator's own status bit, INT_SAT, FP_SAT or
WX_OVERFLOW, of which R79, R80 and R82 speak for sums only; and WX takes the value of a NaN or an infinity as 0, which matmulCell
does not use. -/
def preloadPart (acc : Acc) (p : Int) (x : Num) : Part × ConvMark :=
  match acc with
  | .int32 => let r := convertNum .int32 false x one; (⟨(decodeNum .int32 r.1).val, { intSat := r.2 == .sat }⟩, r.2)
  | .fp32 => let r := convertNum .fp32 false x one; (⟨(decodeNum .fp32 r.1).val, { fpSat := r.2 == .sat }⟩, r.2)
  | .wx => let r := wxPart p x.val {}; (r, if r.bits.overflow then .sat else .plain)

/-- A preload element that is a NaN or an infinity in the accumulator: INT32 has neither, so there R75 has converted it. DESIGN CHOICE
(log entry 25): in FP32 and WX it is an operand element under R85, so the element becomes NaN and SPECIAL is set. -/
def preloadSpecial (acc : Acc) (x : Num) : Bool := acc != .int32 && !x.finite

/-- Multiply by 2^n exactly. -/
def Num.shift (n : Int) : Num → Num
  | .fin s v => .fin s (v.scale n)
  | x => x

/-- An output element before its first pass: the preload, where there is one (R238). -/
def preloadElem (acc : Acc) (p : Int) (pre : Option Num) : Elem × ConvMark :=
  match pre with
  | none => ({}, .plain)
  | some x =>
    let q := preloadPart acc p x
    ({ entry := some q.1.v, bits := { q.1.bits with special := preloadSpecial acc x } }, q.2)

/-- An output element in the course of a MATMUL, with the binary point of its tile, whether that was clamped (R83), and what its preload's
conversion counts. -/
structure MatCell where
  elem : Elem
  point : Int := 0
  clamped : Bool := false
  pre : ConvMark := .plain
deriving DecidableEq, Repr

/-- What leaves the Collector of an element that has had its last pass, before out_exp (R85, R87). DESIGN CHOICE (log entry 25): an element
that received a NaN or an infinity keeps SPECIAL and the clamp of its point; what its other terms set is dropped with its sum. -/
def matmulCell (acc : Acc) (x : MatCell) : Num × TileBits :=
  let base : TileBits := { inexact := x.clamped && acc == .wx }
  if x.elem.bits.special then (.nan false, { base with special := true })
  else (Num.ofDy (x.elem.entry.getD ⟨0, 0⟩), x.elem.bits.join base)

/-- The accumulator of a MATMUL. -/
def RStep.accum (t : RStep) : Acc := (accOf t.acc).getD .wx

/-- Elements of a K pass, and logical columns of a stationary block (R232, R234). -/
def RStep.passLen (t : RStep) (a b : Tensor) : Nat := Machine.passLen t.shape ((dpuLength a.fmt b.fmt).getD 32)
/-- Logical columns of a stationary block (R233). -/
def RStep.width (t : RStep) : Nat := 32 * (shapeOf t.shape).2.1
/-- Passes of a tile. -/
def RStep.passes (t : RStep) (a b : Tensor) : Nat := (a.cols + t.passLen a b - 1) / t.passLen a b

/-- The logical columns of the stationary block of unit `u`: blocks in ascending order, and for each its passes (R237). -/
def RStep.columns (t : RStep) (a b : Tensor) (u : Nat) : List Nat :=
  let j := u / max 1 (t.passes a b)
  (List.range (min t.width (b.rows - t.width * j))).map (· + t.width * j)

/-- The stationary block of unit `u` as memory holds it: the codes of its K pass, by logical column; none past the last unit. -/
def RStep.block (t : RStep) (a b : Tensor) (m : Memory) (u : Nat) : List (List Nat) :=
  let w := t.passLen a b
  let i := w * (u % max 1 (t.passes a b))
  (t.columns a b u).map fun c =>
    ((unpackNat b.fmt.bits b.cols (leNat (m.read (b.address + c * b.stride) b.rowBytes))).drop i).take w

/-- A stationary row of a pass as the DPUs hold it: its codes from their registers, its scales as staged. -/
def Tensor.stationary (b : Tensor) (m : Memory) (c i w : Nat) (codes : List Nat) : Operand :=
  { (b.operand m c).slice i w with vals := codes.map (decodeNum b.fmt) }

/-- One issue unit of a MATMUL (R235, R242): a pass over rows `[r, r + n)` of the streamed operand and the columns of unit `u`, whose
stationary block is `active`; `held` is what the Collector holds of them. -/
def matmulUnit (t : RStep) (a b : Tensor) (pre : Option Tensor) (m : Memory) (r n u : Nat) (active : List (List Nat))
    (held : List (List CollEntry)) : List (List MatCell) :=
  let acc := t.accum
  let l := (dpuLength a.fmt b.fmt).getD 32
  let w := t.passLen a b
  let p := u % max 1 (t.passes a b)
  let cols := (t.columns a b u).zipIdx
  (chunks 32 (n + 1) (List.range n)).flatMap fun rs =>
    let as_ := rs.map fun i => a.operand m (r + i)
    let tiles := (chunks 32 (cols.length + 1) cols).map fun g =>
      (g, if t.wxFixed then (t.wxPoint, false) else autoPoint as_ (g.map fun c => b.operand m c.1) a.cols)
    (as_.zip rs).map fun x => tiles.flatMap fun g => g.1.map fun c =>
      let start := if p = 0 then
          preloadElem acc g.2.1 (pre.map fun q => ((q.row m (if t.preloadRow then 0 else r + x.2))[c.1]?).getD (.fin false ⟨0, 0⟩))
        else (((((held[x.2]?).getD [])[c.2]?).getD {}).elem acc g.2.1, .plain)
      let y := b.stationary m c.1 (w * p) w ((active[c.2]?).getD [])
      { elem := start.1.pass acc g.2.1 t.shape l (superEnds x.1 y a.cols (w * (p + 1))) (x.1.slice (w * p) w) y,
        point := g.2.1, clamped := g.2.2, pre := start.2 }

/-- The status of each tile of 32 rows by 32 columns (R87). -/
def tileStatus (rows : List (List TileBits)) : List (List Nat) :=
  (chunks 32 (rows.length + 1) rows).map fun g =>
    (List.range (g.foldl (fun n r => max n ((r.length + 31) / 32)) 0)).map fun j =>
      (g.flatMap fun r => ((r.drop (32 * j)).take 32).map TileBits.byte).foldl Nat.lor 0

/-- A value that waits for the rest of its row. -/
def leavingOf (x : Num × TileBits) : Leaving := ⟨x.1.val.m, x.1.val.e, x.2.byte⟩

/-- A value that has waited. -/
def Leaving.value (x : Leaving) : Num × TileBits :=
  let t := TileBits.ofByte x.status
  (if t.special then .nan false else Num.ofDy ⟨x.m, x.e⟩, t)

/-- Rows of one issue unit of a MATMUL (R237, R242). -/
def matmulLimit (t : RStep) (a b : Tensor) : Nat :=
  let l := (dpuLength a.fmt b.fmt).getD 32
  if a.cols ≤ passLen t.shape l then 2048 else min 2048 (multiPassRows t.shape (t.acc = 2) (a.secondLevel || b.secondLevel))

/-! ## Element-wise arithmetic (R248, R249) -/

/-- One rounding to FP32, with what it counts. -/
def roundMark (x : Num) : Num × ConvMark :=
  let r := convertNum .fp32 false x one
  (decodeNum .fp32 r.1, r.2)

/-- One rounding of a ratio; zero is +0. -/
def roundRatio (r : Ratio) : Num × ConvMark :=
  if r.n = 0 then (.fin false ⟨0, 0⟩, .plain)
  else let c := convertFloat .fp32 23 127 false r; (decodeNum .fp32 c.1, c.2)

/-- Fixed-point bits that the transcendental operations carry: far beyond what decides any FP32 rounding. -/
def fixBits : Nat := 320

/-- 2 × Σ z^(2k+1) / (2k+1) for |z| < 1, in units of 2^−fixBits, from term k on; `zp` is z^(2k+1). -/
def atanhSum : Nat → Nat → Int → Int → Int → Int
  | 0, _, _, _, acc => 2 * acc
  | f + 1, k, z2, zp, acc => atanhSum f (k + 1) z2 (zp * z2 / 2 ^ fixBits) (acc + zp / (2 * k + 1))

/-- ln 2 in units of 2^−fixBits: 2 atanh(1/3). -/
def ln2Fix : Int := let z : Int := 2 ^ fixBits / 3; atanhSum 220 0 (z * z / 2 ^ fixBits) z 0

/-- e^r for |r| < 1 in units of 2^−fixBits, from term k on. -/
def expSum : Nat → Nat → Int → Int → Int → Int
  | 0, _, _, _, acc => acc
  | f + 1, k, r, t, acc => let t := t * r / 2 ^ fixBits / (k + 1); expSum f (k + 1) r t (acc + t)

/-- e^x rounded once (R249). A magnitude that leaves FP32 by far is decided without the series. -/
def expNum (v : Dy) : Num × ConvMark :=
  if v.m = 0 then (Num.ofDy one, .plain)
  else if (Dy.ofInt 200).lt v then roundMark (Num.ofDy ⟨1, 1000⟩)
  else if v.lt (Dy.ofInt (-200)) then roundMark (Num.ofDy ⟨1, -1000⟩)
  else
    let x := unitsOf v (-(fixBits : Int))
    let k := x / ln2Fix
    let e := expSum 90 0 (x - k * ln2Fix) (2 ^ fixBits) (2 ^ fixBits)
    roundMark (Num.ofDy ⟨e, k - fixBits⟩)

/-- ln x of a positive dyadic, rounded once (R249): x = m × 2^k with m in [2/3, 4/3). -/
def logNum (v : Dy) : Num × ConvMark :=
  let t := (Ratio.ofDy v).top
  -- 3 m / 4 against 2^t decides which power of two is nearer
  let k := if (Dy.mul ⟨3, 0⟩ v).lt ⟨4, t⟩ then t else t + 1
  let m := v.scale (-k)
  let num := m.sub one
  if num.m = 0 then
    roundMark (Num.ofDy ⟨k * ln2Fix, -(fixBits : Int)⟩)
  else
    -- z = (m − 1)/(m + 1), held with fixBits significant bits so that a result near zero keeps its precision
    let z := Ratio.div num (m.add one)
    let sh : Int := if k = 0 then z.top else 0
    let zu := (if z.neg then -1 else 1) * (z.units (sh - fixBits) : Int)
    let z2 := if k = 0 then ((zu * zu : Int) / 2 ^ fixBits) * pow2 (2 * sh) / pow2 (-(2 * sh)) else zu * zu / 2 ^ fixBits
    let l := atanhSum 220 0 z2 zu 0
    if k = 0 then roundMark (Num.ofDy ⟨l, sh - fixBits⟩) else roundMark (Num.ofDy ⟨l + k * ln2Fix, -(fixBits : Int)⟩)

/-- 1/√v of a positive dyadic, rounded once: the root is carried to 128 bits and a sticky bit. -/
def rsqrtNum (v : Dy) : Num × ConvMark :=
  let n := if v.e % 2 = 0 then v.m.natAbs else 2 * v.m.natAbs
  let e := if v.e % 2 = 0 then v.e else v.e - 1
  let p := 128 + n.log2
  let r := isqrt (2 ^ (2 * p) / n)
  let sticky := if r * r * n = 2 ^ (2 * p) then 0 else 1
  roundMark (Num.ofDy ⟨(2 * r + sticky : Nat), -(p : Int) - 1 - e / 2⟩)

/-- The larger of two numbers; −0 and +0 give +0, and two −0 the −0 they are (R248). -/
def numMax (a b : Num) : Num :=
  if a.lt b then b else if b.lt a then a else if a.sign then b else a

/-- A one-operand operation. -/
def unaryOp (o : Nat) (a : Num) : Num × ConvMark :=
  match a with
  | .nan _ => (.nan false, .plain)
  | .inf g =>
    if o = 0x15 then roundMark (numMax a (.fin false ⟨0, 0⟩))
    else if o = 0x17 then (if g then .fin false ⟨0, 0⟩ else .inf false, .plain)
    else if o = 0x18 then (if g then .nan false else .inf false, .plain)
    else if o = 0x19 then (if g then .nan false else .fin false ⟨0, 0⟩, .plain)
    else if o = 0x1A then (.fin g ⟨0, 0⟩, .plain)
    else (a, .plain)
  | .fin g v =>
    if o = 0x15 then roundMark (numMax a (.fin false ⟨0, 0⟩))
    else if o = 0x17 then expNum v
    else if o = 0x18 then (if v.m = 0 then (.inf true, .plain) else if v.m < 0 then (.nan false, .plain) else logNum v)
    else if o = 0x19 then (if v.m = 0 then (.inf false, .plain) else if v.m < 0 then (.nan false, .plain) else rsqrtNum v)
    else if o = 0x1A then (if v.m = 0 then (.inf g, .plain) else roundRatio (Ratio.div one v))
    else roundMark a

/-- A two-operand operation. -/
def binaryOp (o : Nat) (a b : Num) : Num × ConvMark :=
  if a.isNan || b.isNan then (.nan false, .plain)
  else if o = 0x10 then roundMark (a.add b)
  else if o = 0x11 then roundMark (a.add b.neg)
  else if o = 0x12 then roundMark (a.mul b)
  else if o = 0x13 then roundMark (numMax a b)
  else if (Num.fin false ⟨0, 0⟩).lt b then roundMark a
  else (.fin false ⟨0, 0⟩, .plain)

/-- The quotient of two results (SOFTMAX). -/
def divOp (a b : Num) : Num × ConvMark :=
  match a, b with
  | .nan _, _ => (.nan false, .plain)
  | _, .nan _ => (.nan false, .plain)
  | .fin _ x, .fin _ y => if y.m = 0 then (.nan false, .plain) else roundRatio (Ratio.div x y)
  | .fin g _, .inf h => (.fin (g != h) ⟨0, 0⟩, .plain)
  | .inf g, .fin _ y => (.inf (g != (y.m < 0)), .plain)
  | .inf _, .inf _ => (.nan false, .plain)

/-- Ascending sum, each addition rounded. -/
def ascSum (l : List Num) : Num × List ConvMark :=
  match l with
  | [] => (.fin false ⟨0, 0⟩, [])
  | a :: r => r.foldl (fun x v => let y := binaryOp 0x10 x.1 v; (y.1, x.2 ++ [y.2])) ((roundMark a).1, [(roundMark a).2])

/-- The largest of a row. -/
def rowMax (l : List Num) : Num :=
  match l with
  | [] => .fin false ⟨0, 0⟩
  | a :: r => r.foldl (fun x v => if x.isNan || v.isNan then .nan false else numMax x v) a

/-- SOFTMAX of a row. -/
def softmaxRow (l : List Num) : List Num × List ConvMark :=
  let m := roundMark (rowMax l)
  let e := l.map fun a => let d := binaryOp 0x11 a m.1; let x := unaryOp 0x17 d.1; (x.1, [d.2, x.2])
  let s := ascSum (e.map Prod.fst)
  let q := e.map fun x => divOp x.1 s.1
  (q.map Prod.fst, m.2 :: e.flatMap Prod.snd ++ s.2 ++ q.map Prod.snd)

/-- An immediate. -/
def RStep.immNum (t : RStep) (i : Nat) : Num := f32 ((t.imm[i]?).getD 0)

/-- One row of an element-wise step from its first operand's row and its second's; TRANSPOSE, COPY and FILL round their exact values
once like every other (R249). -/
def elementRow (t : RStep) (a : List Num) (b : Option (List Num)) : List Num × List ConvMark :=
  let o := t.opcode
  let pairs (l : List (Num × ConvMark)) : List Num × List ConvMark := (l.map Prod.fst, l.map Prod.snd)
  if opBinary o then
    pairs ((a.zip (b.getD (List.replicate a.length (t.immNum 0)))).map fun x => binaryOp o x.1 x.2)
  else if o = 0x14 then
    let r := a.map fun x => let m := binaryOp 0x12 x (t.immNum 0); let y := binaryOp 0x10 m.1 (t.immNum 1); (y.1, [m.2, y.2])
    (r.map Prod.fst, r.flatMap Prod.snd)
  else if o = 0x20 then let x := ascSum a; ([x.1], x.2)
  else if o = 0x21 then let x := roundMark (rowMax a); ([x.1], [x.2])
  else if o = 0x23 then softmaxRow a
  else if 0x15 ≤ o && o ≤ 0x1A then pairs (a.map (unaryOp o))
  else pairs (a.map roundMark)

/-! ## Training (R253) -/

/-- An arithmetic operation that collects its mark. -/
def opM (o : Nat) (a b : Num) (l : List ConvMark) : Num × List ConvMark := let x := binaryOp o a b; (x.1, x.2 :: l)

/-- One element of ADAM: m, v, w and the marks. -/
def adamCell (t : RStep) (c1 c2 w g m v : Num) : (Num × Num × Num) × List ConvMark :=
  let (a, l) := opM 0x12 (t.immNum 1) m []
  let (b, l) := opM 0x12 c1 g l
  let (m', l) := opM 0x10 a b l
  let (a, l) := opM 0x12 (t.immNum 2) v l
  let (gg, l) := opM 0x12 g g l
  let (b, l) := opM 0x12 c2 gg l
  let (v', l) := opM 0x10 a b l
  let (x, l) := opM 0x12 (t.immNum 0) m' l
  let (y, l) := opM 0x10 v' (t.immNum 3) l
  let r := unaryOp 0x19 y
  let (z, l) := opM 0x12 x r.1 (r.2 :: l)
  let (w', l) := opM 0x11 w z l
  ((m', v', w'), l)

/-- One element of SGD: the momentum, if given, w and the marks. -/
def sgdCell (t : RStep) (w g : Num) (m : Option Num) : (Option Num × Num) × List ConvMark :=
  let (m', u, l) := match m with
    | some m =>
      let (a, l) := opM 0x12 (t.immNum 1) m []
      let (x, l) := opM 0x10 a g l
      (some x, x, l)
    | none => (none, g, [])
  let (d, l) := opM 0x12 (t.immNum 0) u l
  let (w', l) := opM 0x11 w d l
  ((m', w'), l)

/-- Conversions of FP32 roundings (R249): saturations and underflows. -/
def markCount (l : List ConvMark) : ConvCount := l.foldl ConvCount.add {}

/-- Add to a unit's sum. -/
def UnitSum.join (a b : UnitSum) : UnitSum := ⟨a.status ||| b.status, a.count.join b.count⟩

/-- Count FP32 roundings in P7010 and in a unit. -/
def State.countRounds (l : List ConvMark) (r : State × UnitSum) : State × UnitSum :=
  let c := markCount l
  (r.1.countTun c, { r.2 with count := r.2.count.join c })

/-- Write rows of one tensor after another. -/
def thenRows (t : Tensor) (r : Nat) (rows : List (List Num)) (x : State × UnitSum) : State × UnitSum :=
  let y := x.1.writeRows t r rows []
  (y.1, x.2.join y.2)

/-- ADAM on rows `[r, r + n)`. -/
def State.adamRows (t : RStep) (w g m v : Tensor) (r n : Nat) (s : State) : State × UnitSum :=
  let c1 := binaryOp 0x11 (Num.ofDy one) (t.immNum 1)
  let c2 := binaryOp 0x11 (Num.ofDy one) (t.immNum 2)
  let cells := (List.range n).map fun i =>
    ((w.row s.mem (r + i)).zip (g.row s.mem (r + i))).zip ((m.row s.mem (r + i)).zip (v.row s.mem (r + i))) |>.map fun x =>
      adamCell t c1.1 c2.1 x.1.1 x.1.2 x.2.1 x.2.2
  let pick (f : Num × Num × Num → Num) : List (List Num) := cells.map fun row => row.map fun x => (f x.1).shift t.outExp
  State.countRounds ((if r = 0 then [c1.2, c2.2] else []) ++ cells.flatten.flatMap Prod.snd)
    (thenRows w r (pick fun x => x.2.2) (thenRows v r (pick fun x => x.2.1) (thenRows m r (pick fun x => x.1) (s, {}))))

/-- SGD on rows `[r, r + n)`. -/
def State.sgdRows (t : RStep) (w g d : Tensor) (m : Option Tensor) (r n : Nat) (s : State) : State × UnitSum :=
  let cells := (List.range n).map fun i =>
    ((w.row s.mem (r + i)).zip (g.row s.mem (r + i))).zipIdx.map fun x =>
      sgdCell t x.1.1 x.1.2 (m.map fun m => ((m.row s.mem (r + i))[x.2]?).getD (.fin false ⟨0, 0⟩))
  let rows (f : Option Num × Num → Num) : List (List Num) := cells.map fun row => row.map fun x => (f x.1).shift t.outExp
  let base : State × UnitSum := (s, {})
  let base := match m with
    | some m => thenRows m r (rows fun x => x.1.getD (.fin false ⟨0, 0⟩)) base
    | none => base
  State.countRounds (cells.flatten.flatMap Prod.snd) (thenRows d r (rows fun x => x.2) base)

/-! ## One issue unit (R242) -/

/-- Cycles of an element-wise step per 256 elements (R249): four for EXP, LOG, RSQRT and RECIP, and one otherwise. DESIGN CHOICE (log
entry 25): of SOFTMAX the eight of its EXP and its division count, and of ADAM the four of its RSQRT. -/
def elementCycles (o : Nat) : Nat := if o = 0x23 then 8 else if (0x17 ≤ o && o ≤ 0x1A) || o = 0x40 then 4 else 1

/-- Elements of an issue unit of 2,048 cycles (R242). -/
def unitElements (o : Nat) : Nat := 524288 / elementCycles o

/-- Destination rows an issue unit covers. -/
def RStep.unitRows (ts : List Tensor) (t : RStep) : Nat :=
  match ts[t.srcA]?, ts[t.dst]? with
  | some a, some d =>
    if t.opcode = 1 then (match ts[t.srcB]? with | some b => matmulLimit t a b | none => 1)
    else max 1 (unitElements t.opcode / max 1 (if t.opcode = 0x20 || t.opcode = 0x21 then a.cols else d.cols))
  | _, some d => max 1 (524288 / max 1 d.cols)
  | _, _ => 1

/-- Execute destination rows `[r, r + n)` of an element-wise step, at the last of their issue units; the units themselves are counted by
State.runUnit. -/
def State.runRows (ts : List Tensor) (t : RStep) (r n : Nat) (s : State) : State × UnitSum :=
  match ts[t.dst]? with
  | none => (s, {})
  | some d =>
    if t.opcode = 0x32 then
      let x := roundMark (t.immNum 0)
      State.countRounds (List.replicate (n * d.cols) x.2)
        (s.writeRows d r (List.replicate n (List.replicate d.cols (x.1.shift t.outExp))) [])
    else match ts[t.srcA]? with
      | none => (s, {})
      | some a =>
        if t.opcode = 0x40 then
          match ts[t.srcB]?, ts[t.srcC]?, ts[t.srcC + 1]? with
          | some g, some m, some v => s.adamRows t a g m v r n
          | _, _, _ => (s, {})
        else if t.opcode = 0x41 then
          match ts[t.srcB]? with
          | some g => s.sgdRows t a g d (if t.srcC = 0xFFFF then none else ts[t.srcC]?) r n
          | none => (s, {})
        else if t.opcode = 0x22 then
          let rows := (List.range a.rows).map (a.row s.mem)
          let sums := (List.range a.cols).map fun j => ascSum (rows.map fun x => (x[j]?).getD (.fin false ⟨0, 0⟩))
          State.countRounds (sums.flatMap Prod.snd) (s.writeRows d 0 [sums.map fun x => x.1.shift t.outExp] [])
        else if t.opcode = 0x30 then
          let rows := (List.range a.rows).map (a.row s.mem)
          let outs := (List.range n).map fun i => elementRow t (rows.map fun x => (x[r + i]?).getD (.fin false ⟨0, 0⟩)) none
          State.countRounds (outs.flatMap Prod.snd) (s.writeRows d r (outs.map fun x => x.1.map (Num.shift t.outExp)) [])
        else
          let outs := (List.range n).map fun i =>
            elementRow t (a.row s.mem (r + i)) ((ts[t.srcB]?).map fun b => b.row s.mem (if b.rows = 1 then 0 else r + i))
          State.countRounds (outs.flatMap Prod.snd) (s.writeRows d r (outs.map fun x => x.1.map (Num.shift t.outExp)) [])

/-- Issue units of destination rows `[r, r + n)`: a MATMUL's stationary blocks, one a pass (R231, R242), a COL_SUM's share of its
operand at 524,288 elements, and one of any other step. -/
def RStep.units (ts : List Tensor) (t : RStep) : Nat :=
  match ts[t.srcA]?, ts[t.srcB]? with
  | some a, b =>
    if t.opcode = 1 then
      match b with
      | some b => arraySteps t.shape ((dpuLength a.fmt b.fmt).getD 32) b.rows a.cols
      | none => 1
    else if t.opcode = 0x22 then (a.rows * a.cols + 524287) / 524288
    else 1
  | none, _ => 1

/-- Rows of a step's destination. -/
def RStep.rows (ts : List Tensor) (t : RStep) : Nat := ((ts[t.dst]?).map Tensor.rows).getD 0

/-! ## Runs (R244, R250, R251) -/

/-- Statuses of R250. -/
def runOk : Nat := 0x00
/-- OK_FLAGGED. -/
def runFlagged : Nat := 0x01
/-- INVALID_RECIPE. -/
def runInvalid : Nat := 0x10
/-- ACC_FORMAT. -/
def runAcc : Nat := 0x11
/-- ADDRESS. -/
def runAddress : Nat := 0x12
/-- CANCELLED. -/
def runCancelled : Nat := 0x14
/-- POWER_STATE. -/
def runPower : Nat := 0x15
/-- DEVICE_DEGRADED. -/
def runDegraded : Nat := 0x20
/-- INTERNAL. -/
def runInternal : Nat := 0x3F

/-- The 64-byte status record. -/
def statusRecord (r : Run) (status : Nat) (failed : Option Nat) (completed : Time) : Bytes :=
  natLE 4 r.d.tag.toNat ++ natLE 1 status ++ natLE 1 r.acc.toNat ++ zeros 2 ++ natLE 8 r.executed ++
    natLE 4 (failed.getD 0xFFFFFFFF) ++ natLE 4 r.iterations ++ natLE 8 r.started ++ natLE 8 completed ++
    natLE 8 r.sats ++ natLE 8 r.nans ++ zeros 8

/-- RECIPE_RUN_COMPLETE (R251): the record, then the message. -/
def State.endRun (r : Run) (status : Nat) (failed : Option Nat) (s : State) : State :=
  let b := statusRecord r status failed s.stamp
  let s := if s.inArena r.d.statusDest 64 then s.devWrite r.d.statusDest b else s
  let s := s.bump (if status < 0x10 then 0x702003 else 0x702004)
  let s := if r.d.msix = 0xFFFF then s else s.msix r.d.port r.d.msix.toNat
  (({ s with tun := { s.tun with run := none, clusters := s.tun.clusters.map fun (c : Nat × Cluster) => (c.1, { c.2 with collector := [] }) } }).setNum 0x702007 0).applyArena.applyAreas

/-- The clusters a run may use: the lowest P7020.06 online clusters of its mask. -/
def State.runClusters (s : State) (m : BitVec 8) : List Nat :=
  ((List.range 8).filter fun n => (m = 0 || bit m.toNat n) && !bit s.units.tun.toNat n).take (s.num 0x702006)

/-- A run that has executed nothing. -/
def newRun (d : RunDesc) (ts : List Tensor) (ss : List RStep) (n : Nat) (t : Time) : Run :=
  { d := d, tensors := ts, steps := ss, repeats := n, started := t }

/-- The image's tensor and step tables. -/
def imageParts (img : Bytes) : List Bytes × List Bytes :=
  let nt := field img 6 2
  let ns := field img 8 4
  ((List.range nt).map fun i => sub img (64 + 32 * i) 32, (List.range ns).map fun i => sub img (64 + 32 * nt + 32 * i) 32)

/-- The image's header and CRC keep R245. -/
def imageOk (img : Bytes) : Bool :=
  field img 0 4 = 0x50434B5A && field img 4 2 = 1 && 1 ≤ field img 6 2 && field img 6 2 ≤ 1024 && 1 ≤ field img 8 4 &&
    field img 8 4 ≤ 65536 && 1 ≤ field img 0xC 4 && zeroAt img 0x10 12 && zeroAt img 0x20 32 &&
    field img 0x1C 4 = (crc32c (img.take 0x1C ++ img.drop 0x20)).toNat

/-- The first status of R250 that applies at the start of a run, in the order of its table; none where it may execute. -/
def State.runCheck (d : RunDesc) (img : Bytes) (s : State) : Option Nat :=
  let (tb, sb) := imageParts img
  let ts := tb.map readTensor
  let ss := sb.map readStep
  if d.recipe % 64 ≠ 0 || !imageOk img || !tb.all tensorOk || !sb.all (fun b => stepFieldsOk b ts.length) || !ss.all (stepOk ts) then
    some runInvalid
  else if !ss.all (accOk ts) then some runAcc
  else if !ts.all s.tensorIn || !s.inArena d.recipe img.length || !s.inArena d.statusDest 64 then some runAddress
  else if !s.isOn 0x7020 then some runCancelled
  else if 2 ≤ s.dev.power then some runPower
  else if (s.runClusters d.clusters).isEmpty then some runDegraded
  else none

/-- The image of a run: its header tells its length; one whose header breaks R245 is read as the header alone. -/
def State.recipeImage (s : State) (a : Nat) : Bytes :=
  let h := s.mem.read a 64
  if field h 0 4 = 0x50434B5A && field h 6 2 ≤ 1024 && field h 8 4 ≤ 65536 then s.mem.read a (64 + 32 * (field h 6 2 + field h 8 4)) else h

/-- RECIPE_RUN_START (R250): the next queued run starts, or ends at once with the first status that applies. -/
def execRecipeRunStart (s : State) : Result :=
  match s.tun.run, s.tun.queue with
  | none, d :: q =>
    if !s.serves then .next s
    else
      let s := { s with tun := { s.tun with queue := q } }
      let img := s.recipeImage d.recipe
      match s.runCheck d img with
      | some st => .next (s.endRun (newRun d [] [] 0 s.stamp) st none)
      | none =>
        let (tb, sb) := imageParts img
        let d := { d with clusters := BitVec.ofNat 8 (maskOf (s.runClusters d.clusters)) }
        let r := newRun d (tb.map readTensor) (sb.map readStep) (field img 0xC 4) s.stamp
        .next (({ s with tun := { s.tun with run := some r } }).setNum 0x702007 d.tag.toNat)
  | _, _ => .next s

/-- The status of a run that completes, or that stops on a flag. -/
def Run.done (r : Run) : Nat := if r.firstFlagged.isSome then runFlagged else runOk

/-- After a step completes: the next step, the next pass, or the end. -/
def State.stepDone (r : Run) (s : State) : State :=
  let s := s.bump 0x702005
  let r := { r with executed := r.executed + 1, row := 0, unit := 0, stepAcc := 0,
                    firstFlagged := if r.firstFlagged.isNone && r.stepAcc ≠ 0 then some r.step else r.firstFlagged }
  let last := r.steps.length ≤ r.step + 1
  let r' := if last then { r with step := 0, iterations := r.iterations + 1 } else { r with step := r.step + 1 }
  if r.d.stopOnFlag && r.firstFlagged.isSome then s.endRun { r with iterations := r'.iterations } runFlagged r.firstFlagged
  else if last && r.repeats ≤ r'.iterations then s.endRun r' r.done r.firstFlagged
  else { s with tun := { s.tun with run := some r' } }

/-- The bytes of rows `[r, r + n)` of a tensor, as they are staged (R241). -/
def Tensor.staged (t : Tensor) (m : Memory) (r n : Nat) : Bytes :=
  (List.range (min n (t.rows - r))).flatMap fun i => m.read (t.address + (r + i) * t.stride) t.rowBytes

/-- The rows of its operands that a unit works on, in the recipe cache (R241). DESIGN CHOICE (log entry 25): the cache holds those of the
last unit only, operand after operand. -/
def State.stageUnit (cluster : Nat) (l : List (Tensor × Nat × Nat)) (s : State) : State :=
  let b := (l.flatMap fun x => x.1.staged s.mem x.2.1 x.2.2).take (gristBytes - s.tun.gristMib * 2 ^ 20)
  s.setCluster cluster fun c => { c with cache := b }

/-- A unit adds to its run. -/
def Run.plus (x : UnitSum) (r : Run) : Run :=
  { r with acc := r.acc ||| BitVec.ofNat 8 x.status, stepAcc := r.stepAcc ||| BitVec.ofNat 8 x.status,
           sats := r.sats + x.count.sat, nans := r.nans + x.count.nanZero }

/-- A unit of `units` over `n` rows has run: the next unit of the rows, the next rows, or the end of the step. -/
def State.unitDone (cluster units total n : Nat) (r : Run) (s : State) : State :=
  if r.unit + 1 < units then { s with tun := { s.tun with run := some { r with unit := r.unit + 1, cluster := some cluster } } }
  else
    let r := { r with unit := 0, row := r.row + n, cluster := none, leaving := [] }
    if total ≤ r.row then s.stepDone r else { s with tun := { s.tun with run := some r } }

/-- The values that have left the Collector with the last pass of a block are written, or wait for their row where the destination has
block scales, which need all of it (R240; log entry 25). -/
def State.leaveCollector (t : RStep) (d : Tensor) (c : Nat) (last : Bool) (x : List (List (Num × TileBits))) (r : Run) (s : State) :
    State × UnitSum × Run :=
  if d.k = 0 then
    let y := s.writeRowsAt d r.row c (x.map fun l => l.map fun v => v.1.shift t.outExp) (tileStatus (x.map fun l => l.map Prod.snd))
    (y.1, y.2, r)
  else
    let w := List.zipWith (· ++ ·) (if r.leaving.isEmpty then x.map fun _ => [] else r.leaving) (x.map fun l => l.map leavingOf)
    if last then
      let v := w.map fun l => l.map Leaving.value
      let y := s.writeRows d r.row (v.map fun l => l.map fun v => v.1.shift t.outExp) (tileStatus (v.map fun l => l.map Prod.snd))
      (y.1, y.2, r)
    else (s, {}, { r with leaving := w })

/-- Execute the next issue unit of a MATMUL on a cluster (R231, R235, R237, R242). Its stationary block moves up from the shadow registers
where it was loaded there, and the next one is loaded behind it. The tile sets of a tile of several passes stay in the Collector until the
last, so these units run on one cluster. -/
def State.matmulRun (cluster : Nat) (r : Run) (t : RStep) (a b d : Tensor) (s : State) : State :=
  let n := min (max 1 (t.unitRows r.tensors)) (d.rows - r.row)
  let u := r.unit
  let passes := max 1 (t.passes a b)
  let units := max 1 (t.units r.tensors)
  let pre := if t.preloadRow || t.preloadTile then r.tensors[t.srcC]? else none
  if u % passes ≠ 0 && r.cluster ≠ some cluster then s
  else
    let c := s.cluster cluster
    let active := if r.cluster = some cluster && !c.shadow.isEmpty then c.shadow else t.block a b s.mem u
    let x := matmulUnit t a b pre s.mem r.row n u active c.collector
    let more := u % passes + 1 < passes
    let s := (s.stageUnit cluster ([(a, r.row, n), (b, ((t.columns a b u).headD 0), t.width)] ++
        (pre.map fun q => (q, (if t.preloadRow then 0 else r.row), n)).toList)).setCluster cluster fun c => { c with
      active := active, shadow := if u + 1 < units then t.block a b s.mem (u + 1) else [], acc := t.acc,
      collector := if more then x.map fun l => l.map fun y => y.elem.held t.accum y.point else [] }
    let s := s.countUnits 0x700005 1 n
    let marks := x.flatten.map MatCell.pre
    if more then
      let y := State.countRounds marks (s, {})
      y.1.unitDone cluster units d.rows n (r.plus y.2)
    else
      let y := s.leaveCollector t d ((t.columns a b u).headD 0) (units ≤ u + 1) (x.map fun l => l.map (matmulCell t.accum)) r
      let z := State.countRounds marks (y.1, y.2.1)
      z.1.unitDone cluster units d.rows n (y.2.2.plus z.2)

/-- Execute the next issue unit of an element-wise step (R242): its rows are written at the last unit of them (log entry 25). -/
def State.elementRun (cluster : Nat) (r : Run) (t : RStep) (s : State) : State :=
  let total := t.rows r.tensors
  let n := min (max 1 (t.unitRows r.tensors)) (total - r.row)
  let units := max 1 (t.units r.tensors)
  let whole : Bool := t.opcode = 0x22 || t.opcode = 0x30
  let ops := [t.srcA, t.srcB, t.srcC].filterMap fun i => (r.tensors[i]?).map fun a =>
    if whole then (a, 0, a.rows) else if a.rows = 1 then (a, 0, 1) else (a, r.row, n)
  let s := ((s.stageUnit cluster ops).bump 0x700005).paceCycles
  if r.unit + 1 < units then s.unitDone cluster units total n r
  else
    let x := s.runRows r.tensors t r.row n
    x.1.unitDone cluster units total n (r.plus x.2)

/-- Execute the next issue unit of the run (R242). -/
def State.runUnit (cluster : Nat) (r : Run) (s : State) : State :=
  match r.steps[r.step]? with
  | none => s
  | some t =>
    if t.opcode = 1 then
      match r.tensors[t.srcA]?, r.tensors[t.srcB]?, r.tensors[t.dst]? with
      | some a, some b, some d => s.matmulRun cluster r t a b d
      | _, _, _ => s
    else s.elementRun cluster r t

/-- A scan batch has work for a cluster, ahead of a recipe (R22). -/
def State.scanFirst (s : State) (cluster : Nat) : Bool := s.basteOn cluster || s.flatOn

/-- Seam scoring has steps ready: work on a graph collection that Tun scores. -/
def State.seamReady (s : State) : Bool :=
  s.colls.any fun c => c.d.graph && tunDistance c.d.distance && s.seamWorks c.d.handle && !(s.seamEntries c.d.handle).isEmpty

/-- Cycles of a seam tile. DESIGN CHOICE (log entry 25): the manual gives no streamed rows of a seam step; the model takes 32, the fewest
cycles a step occupies the array for (R231). -/
def seamTile : Nat := 32

/-- Cycles of a cluster in 10 µs: 24,000 at 2.4 GHz, half in PS1 (R242). -/
def State.slotCycles (s : State) : Nat := if s.dev.power = 0 then 24000 else 12000

/-- Cycles that seam has had on a cluster in the 10 µs interval that runs. -/
def State.seamUsed (s : State) (cluster : Nat) : Nat :=
  let c := s.cluster cluster
  if c.interval = s.now / 10000 then c.seamCycles else 0

/-- Seam takes the tile: its share of the interval, P4130.02 percent, has room for one, or bulk build mode gives it every slot
(R22, R218, R242). -/
def State.seamTakes (s : State) (cluster : Nat) : Bool :=
  s.seamReady && (s.bulkBuild || 100 * (s.seamUsed cluster + seamTile) ≤ s.num 0x413002 * s.slotCycles)

/-- A tile of seam scoring on a cluster, charged to seam's share (R22, R242). What its registers and Grist hold of it is not modelled, since
the manual does not say which records a seam step streams (log entry 25). -/
def State.seamStep (cluster : Nat) (s : State) : State :=
  let t := s.setCluster cluster fun c => { c with interval := s.now / 10000, seamCycles := s.seamUsed cluster + seamTile }
  ({ t with tun := { t.tun with seamTiles := t.tun.seamTiles + 1 } }).countUnits 0x700004 1 seamTile

/-- TUN_STEP (R22, R242): a cluster takes its next tile, from the first user in order that is ready. Seam's share goes ahead of
scans. A tile of seam scoring counts towards the entry that seam works on, and a scan's is within the batch's own commands, which count
it; a recipe's issue unit is executed here. -/
def execTunStep (cluster : Fin 8) (s : State) : Result :=
  if !s.running || !s.tunPowered || bit s.units.tun.toNat cluster then .next s
  else if s.seamTakes cluster then
    .next (s.seamStep cluster)
  else if s.scanFirst cluster then .next s
  else
    match s.tun.run with
    | none => .next s
    | some r => .next (if bit r.d.clusters.toNat cluster then s.runUnit cluster r else s)

/-- End the running run and every queued one (R251): recipes turned OFF, or PS2 to PS4. -/
def State.endRuns (status : Nat) (s : State) : State :=
  let s := match s.tun.run with
    | some r => s.endRun r status (some r.step)
    | none => s
  let q := s.tun.queue
  let s := q.foldl (fun (s : State) d => s.endRun (newRun d [] [] 0 s.stamp) status none) s
  ({ s with tun := { s.tun with queue := [] } }).applyArena

/-- A cluster of the running run went offline: the run ends with INTERNAL (R251). -/
def State.runLost (cluster : Nat) (s : State) : State :=
  match s.tun.run with
  | some r => if bit r.d.clusters.toNat cluster then s.endRun r runInternal (some r.step) else s
  | none => s

/-- SUBMIT_RECIPE (R244, R347). -/
def execSubmitRecipe (p : Port) (d : Bytes) (s : State) : Result :=
  if d.length ≠ 32 then .fault .illFormed
  else s.onWork p fun s =>
    let r := parseRun p d
    if !runReservedOk d || r.recipe % 64 ≠ 0 then s.deny p .field
    else if 16 ≤ s.tun.queue.length then s.deny p .queueFull
    else if !s.isOn 0x7020 then s.deny p .notOn
    else if 2 ≤ s.dev.power then s.deny p .powerState
    else ({ s with tun := { s.tun with queue := s.tun.queue ++ [r] } }).ok p (natLE 1 s.tun.queue.length ++ zeros 7)

end Sys2Proof.Machine
end

