-- ==== Sys2Proof/Machine/Offline.lean ====
section
/-!
DEFINITION. Units taken offline (R36, R178, R243, R251, R264, R265, R271, R275, R281, R298, R381), the entry to FENCED (R32, R34),
and the raising of an event with all that it does (R380, R385).
-/

namespace Sys2Proof.Machine

/-! ## Self-test end (R427, R438, R439) -/

/-- A self-test ends: its result is kept, and its background command completes. -/
def State.endSelfTest (outcome : Nat) (s : State) : State :=
  match s.test.selfTest with
  | none => s
  | some t =>
    let r : SelfResult := { kind := if t.extended then 2 else 1, outcome := BitVec.ofNat 8 outcome, failures := t.failures,
                            started := t.started, completed := s.stamp }
    ({ s with test := { s.test with selfTest := none, result := r } }).endBg t.port 0xC060 .success 0

/-- ABORTED. -/
def selfAborted : Nat := 2

/-! ## Which unit a source names (R381) -/

/-- The unit of a C3 source and instance is present and online. -/
def State.unitUp (s : State) (src inst : Nat) : Bool :=
  match src with
  | 0x15 => inst < 384 && s.stackPresent (inst / 32) && (s.channel (inst / 32) (inst % 32)).st != .offline
  | 0x16 | 0x19 => inst < 12 && s.stackPresent inst && !bit s.units.stack.toNat inst
  | 0x22 => inst < 24 && bit s.chip.fitted.toNat inst && !bit s.units.package.toNat inst
  | 0x29 => inst < 4 && (lookDef {} s.tiers.expanders inst).st == 2
  | 0x31 => inst < 32 && !bit s.units.slice.toNat inst
  | 0x38 => inst < 8 && !bit s.units.tun.toNat inst
  | 0x40 => inst < 64 && !bit s.units.needle.toNat inst
  | 0x41 => inst < 192 && !bit s.units.score.toNat inst
  | 0x48 => inst < 16 && !bit s.units.lauter.toNat inst
  | 0x4C => inst < 4 && !bit s.units.kiln.toNat inst
  | 0x50 => inst < 16 && !bit s.units.core.toNat inst
  | 0x54 => inst < 16 && !bit s.units.lane.toNat inst
  | 0x5B => inst < 2 && !bit s.units.transport.toNat inst
  | _ => false

/-- Bit n of a mask. -/
def oneBit (w n : Nat) : BitVec w := BitVec.ofNat w (2 ^ n)

/-- Mark the unit offline. -/
def State.markUnit (src inst : Nat) (s : State) : State :=
  let set (f : Units → Units) : State := { s with units := f s.units }
  match src with
  | 0x15 => s.setChannel (inst / 32) (inst % 32) { s.channel (inst / 32) (inst % 32) with st := .offline, hold := [], marked := [] }
  | 0x16 | 0x19 => set fun u => { u with stack := u.stack ||| oneBit 12 inst }
  | 0x22 => set fun u => { u with package := u.package ||| oneBit 24 inst }
  | 0x29 =>
    let e := lookDef {} s.tiers.expanders inst
    let s := set fun u => { u with expander := u.expander ||| oneBit 4 inst }
    { s with tiers := { s.tiers with expanders := putDef {} inst { e with st := 3, cause := 1, capacity := 0 } s.tiers.expanders } }
  | 0x31 => set fun u => { u with slice := u.slice ||| oneBit 32 inst }
  | 0x38 => set fun u => { u with tun := u.tun ||| oneBit 8 inst }
  | 0x40 => set fun u => { u with needle := u.needle ||| oneBit 64 inst }
  | 0x41 => set fun u => { u with score := u.score ||| oneBit 192 inst }
  | 0x48 => set fun u => { u with lauter := u.lauter ||| oneBit 16 inst }
  | 0x4C => set fun u => { u with kiln := u.kiln ||| oneBit 4 inst }
  | 0x50 => set fun u => { u with core := u.core ||| oneBit 16 inst }
  | 0x54 => set fun u => { u with lane := u.lane ||| oneBit 16 inst }
  | 0x5B => set fun u => { u with transport := u.transport ||| oneBit 2 inst }
  | _ => s

/-! ## What the loss of a unit does -/

/-- End every query for which `p` holds. -/
def State.endQueries (p : Query → Bool) (f : Query → Query) (s : State) : State :=
  (s.search.queries.filter p).foldl (fun s q => if (s.query q.id).isSome then s.endQuery q.id f else s) s

/-- End queries with INTERNAL, as part of a unit's own event. -/
def State.endInternal (p : Query → Bool) (s : State) : State := s.endQueries p fun q => { q with poisoned := true }

/-- Discard every baste entry of a collection (R264, R281). -/
def State.discardBaste (h : Handle) (s : State) : State := (s.mapBaste fun l => l.filter fun e => e.coll ≠ h).applyBaste

/-- Collections that lose a baste entry go OFFLINE with DATA_LOST and lose the others. -/
def State.loseBaste (lost : BasteEntry → Bool) (s : State) : State :=
  let hs := ((s.muts.baste.filter lost).map BasteEntry.coll).eraseDups
  hs.foldl (fun s h => (s.loseColl h).discardBaste h) s

/-- A device-local address lies on a unit of a memory tier. -/
def State.liesOn (s : State) (tier unit a : Nat) : Bool :=
  if tier = 0 then (match s.hbmMap a with | some m => m.stack = unit | none => false)
  else if tier = 1 then (match s.bulkMap a with | some m => m.pkg = unit | none => false)
  else s.cxlMap a = some unit

/-- Some of an entry's payload record lies on a unit. -/
def State.payloadOn (s : State) (tier unit : Nat) (e : BasteEntry) : Bool :=
  (List.range (e.payload / 64)).any fun i => (s.payloadAddr (64 * (e.payloadAt + i))).any (s.liesOn tier unit)

/-- Some of an entry lies on the slice at a place of the partition's. -/
def BasteEntry.onSlice (place : Nat) (e : BasteEntry) : Bool := overlaps e.place e.size (place * 0x1000000) 0x1000000

/-- Nothing readable is left on a unit of a memory tier (R264, R265, R275): collections with a part on it go OFFLINE with
DATA_LOST, payload records on it are lost, and so is what the device's own areas hold there. -/
def State.memoryLost (tier unit : Nat) (s : State) : State :=
  let hs := s.colls.map fun c => c.d.handle
  let s := hs.foldl (fun s h => if s.holdsUnit h.toNat tier unit then s.loseColl h else s) s
  let s := s.loseBaste (s.payloadOn tier unit)
  let s := if s.holdsUnit ownerOverflow tier unit then s.endInternal fun q => q.overflow ≠ 0 else s
  let s := match s.tun.run with
    | some r => if s.holdsUnit ownerArena tier unit then s.endRun r runInternal (some r.step) else s
    | none => s
  { s with mem := Memory.drop (s.liesOn tier unit) s.mem, tiers := { s.tiers with cache := s.tiers.cache.map fun x => (x.1, x.2.filter fun l => !s.liesOn tier unit (64 * l)) } }

/-- A Cask slice is lost (R281): `use_` is what it held, and `n` the slices its partition had. DESIGN CHOICE (log entry 6): the manual does not
say on which slice of its partition the state of a query or an encode batch lies; it lies whole on the slice of its number modulo `n`. -/
def State.sliceLost (use_ n place : Nat) (s : State) : State :=
  let mine (id : Nat) : Bool := id % max n 1 = place
  let s :=
    if use_ = 1 then
      let l := s.thimble.log
      let t := { s with thimble := { s.thimble with log := [] } }
      l.foldl (fun s r => s.bump (dropKey r.cls)) t
    else if use_ = 2 then s.loseBaste (BasteEntry.onSlice place)
    else if use_ = 3 then s.endInternal fun q => q.pages ≠ 0 && mine q.id
    else if use_ = 4 then s.endInternal fun q => q.spill ≠ 0 && mine q.id
    else if use_ = 5 then s.cutEncodes (fun j => mine j.id) stInternal
    else if use_ = 6 then
      match s.tun.run with
      | some r => s.endRun r runInternal (some r.step)
      | none => s
    else s
  if use_ = 0 then { s with tiers := s.tiers.dropCache fun n => bit s.units.slice.toNat n } else s.resize use_ n

/-- Flat scans that have no cluster left (R34). -/
def State.scansLost (s : State) : State :=
  if s.anyTun then s
  else s.endQueries (fun q => q.stage == .flat || q.stage == .flatWait) fun q => { q with degraded := true }

/-- What the loss of a unit does, once it is marked; `before` is the state in which it was still online. -/
def State.unitLost (src inst : Nat) (before s : State) : State :=
  match src with
  | 0x16 | 0x19 => s.memoryLost 0 inst
  | 0x22 => s.memoryLost 1 inst
  | 0x29 => s.memoryLost 2 inst
  | 0x31 =>
    let u := before.sliceUse inst
    let l := before.slicesOf u
    s.sliceLost u l.length ((l.idxOf? inst).getD 0)
  | 0x38 => (s.runLost inst).scansLost
  | 0x40 => s.endInternal fun q => q.d.graph && q.needle = inst && q.lead.isNone
  | 0x41 => s.setTables inst []
  | 0x48 =>
    let led (q : Query) : Bool := match q.lead with | some l => before.windowUnit l.1 = inst | none => false
    s.endInternal fun q => (q.lauter = inst || led q) && (q.stage != .waiting || q.held)
  | 0x4C => s.cutEncodes (fun j => j.unit = inst) stInternal
  | 0x5B => (List.range 32).foldl (fun s n => if linkHalf n = inst then s.linkDown n .disabled else s) s
  | _ => s

/-- A unit offline takes SERVING to DEGRADED (R32). DESIGN CHOICE (log entry 27): the units are those that R36 gives a bit, so an
expander, which has none, leaves the state SERVING. -/
def State.degrade (s : State) : State :=
  if s.dev.st == .serving && s.anyOffline then s.setDevState .degraded else s

/-- A restored unit takes DEGRADED to SERVING (R32). -/
def State.restore (s : State) : State :=
  if s.dev.st == .degraded && !s.anyOffline then s.setDevState .serving else s

/-- The channel was lost to the open event (R385): the reads that take its place belong to that event's reaction. -/
def State.lostBy (inst : Nat) (q : Option Nat) (s : State) : State :=
  s.setChannel (inst / 32) (inst % 32) { s.channel (inst / 32) (inst % 32) with lossEvent := q }

/-- Record a C3 event of a unit, and take the unit offline (R381, R385). A freeze that the event triggers stops the rest. -/
def State.unitEvent (src inst detail : Nat) (reaction : Option Nat) (s : State) : State :=
  let up := s.unitUp src inst
  let t := (if up then s.markUnit src inst else s).record src (BitVec.ofNat 16 inst) (BitVec.ofNat 64 detail) false reaction
  let t := if up && src = 0x15 then t.lostBy inst t.thimble.holder else t
  if up && !t.dev.frozen then (State.unitLost src inst s t).degrade else t

/-- Take a unit offline without an event of its own (R387). -/
def State.takeOffline (src inst : Nat) (s : State) : State :=
  if s.unitUp src inst then (State.unitLost src inst s (s.markUnit src inst)).degrade else s

/-- A channel that goes OFFLINE takes its stack offline where its group has lost another, or parity is off (R271, R273). -/
def State.channelAftermath (inst : Nat) (s : State) : State :=
  let n := inst / 32
  let lost := (groupOf (inst % 32)).filter fun c => (s.channel n c).st == .offline
  if 1 < lost.length || (!s.chip.parity && !lost.isEmpty) then
    if s.unitUp 0x16 n then s.unitEvent 0x16 n 0 none else s
  else s

/-! ## FENCED (R32, R34, R41, R225, R439) -/

/-- Enter FENCED: queries complete with DEVICE_DEGRADED, the journal closes as on PWR_FAIL_N, a pending backward step is applied,
and a self-test, a firmware transfer and a power transition end. The links stay UP and refuse requests (R306). -/
def State.enterFenced (cause : Byte) (s : State) : State :=
  let s := s.endSelfTest selfAborted
  let s := match s.dev.transition with
    | some t => s.endBg t.port 0xC050 .mediaDisabled 0x0031
    | none => s
  let s := ({ s with dev := { s.dev with fenceCause := cause, transition := none, target := s.dev.power },
                     ports := { s.ports with fw := none } }).setDevState .fenced
  let s := s.endQueries (fun _ => true) fun q => { q with degraded := true }
  (s.powerClose 2).applyPending

/-- After an event: an event that reached C4 fences the device (R32). -/
def State.settle (s : State) : State :=
  match s.thimble.fencer with
  | some q =>
    if s.dev.st == .fenced || s.dev.st == .off || s.dev.frozen then s
    else
      let e := (s.thimble.opened ++ s.thimble.history).find? fun e => e.sequence = q
      s.enterFenced (if (e.map Event.source) = some 0x79 then 2 else 1)
  | none => s

/-- Raise an event of any source, with what it does: a C3 event takes its unit offline, and a C4 event fences. -/
def State.raise (src inst detail : Nat) (reaction : Option Nat) (s : State) : State :=
  let s := match sourceRow src with
    | some r =>
      if r.cls = 3 then
        let s := s.unitEvent src inst detail reaction
        if src = 0x15 && !s.dev.frozen then s.channelAftermath inst else s
      else s.record src (BitVec.ofNat 16 inst) (BitVec.ofNat 64 detail) false reaction
    | none => s
  s.settle

/-- The source and instance that an event's escalation from C2 takes offline (R381). -/
def escalates (src inst : Nat) : Option (Nat × Nat) :=
  if inst = 0xFFFF then none
  else
    match src with
    | 0x12 => some (0x15, inst)
    | 0x21 => some (0x22, inst / 4)
    | 0x39 => some (0x38, inst)
    | 0x42 => some (0x40, inst)
    | _ => none

/-- A command about a unit's failure: it is a C3 event of the unit's source, where the unit is there to fail. -/
def State.failUnit (src inst : Nat) (s : State) : State :=
  if s.running && s.dev.st != .boot && s.unitUp src inst then s.raise src inst 0 none else s

/-- Units of a kind on this part. -/
def unitCount : UnitKind → Nat
  | .tun => 8 | .needle => 64 | .score => 192 | .lauter => 16 | .kiln => 4 | .core => 16 | .transport => 2

/-- The C3 source of a kind (R381). -/
def unitSource : UnitKind → Nat
  | .tun => 0x38 | .needle => 0x40 | .score => 0x41 | .lauter => 0x48 | .kiln => 0x4C | .core => 0x50 | .transport => 0x5B

/-! ## The commands -/

/-- UNIT_OFFLINE (R32). -/
def execUnitOffline (u : UnitRef) (s : State) : Result :=
  if unitCount u.kind ≤ u.index then .fault .absentUnit else .next (s.failUnit (unitSource u.kind) u.index)

/-- BULK_PACKAGE_OFFLINE (R264): a package of the pattern in use. -/
def execBulkPackageOffline (pkg : Fin 24) (s : State) : Result :=
  if !bit s.chip.fitted.toNat pkg then .fault .absentUnit else .next (s.failUnit 0x22 pkg)

/-- EXPANDER_OFFLINE (R265). -/
def execExpanderOffline (e : Fin 4) (s : State) : Result :=
  if !s.chip.portBRoot then .fault .absentUnit else .next (s.failUnit 0x29 e)

/-- CASK_SLICE_OFFLINE (R281). -/
def execCaskSliceOffline (slice : Fin 32) (s : State) : Result := .next (s.failUnit 0x31 slice)

/-- D2D_LANE_RETIRED (R15). -/
def execD2dLaneRetired (group : Fin 16) (s : State) : Result := .next (s.failUnit 0x54 group)

/-- The query that the detail of a QUERY_CONTAINED names (R383): tag, spool and port. -/
def Query.named (detail : BitVec 64) (q : Query) : Bool :=
  match q.client with
  | .spool p n _ => q.d.tag.toNat = detail.toNat % 2 ^ 32 && n.toNat = detail.toNat / 2 ^ 32 % 256 && Port.num p = detail.toNat / 2 ^ 40 % 2
  | .peer _ _ _ => false

/-- The detail of a query's QUERY_CONTAINED. -/
def Query.detail (q : Query) : Nat :=
  match q.client with
  | .spool p n _ => q.d.tag.toNat + 2 ^ 32 * n.toNat + 2 ^ 40 * Port.num p
  | .peer _ _ _ => q.d.tag.toNat

/-- A query is ended with INTERNAL as a contained fault (R266, R381), in the reaction to an open event where there is one. -/
def State.containQuery (qid : Nat) (reaction : Option Nat) (s : State) : State :=
  match s.query qid with
  | none => s
  | some q =>
    (s.endInternal fun x => x.id = qid).raise 0x42 (if q.d.graph then q.needle else 0xFFFF) q.detail reaction

/-- EVENT_RAISED (R380): an event of a source of R381. A RECIPE_CONTAINED ends the run with INTERNAL, and a QUERY_CONTAINED the
query its detail names. -/
def execEventRaised (source : Byte) (inst : BitVec 16) (detail : BitVec 64) (reactionOf : Option Nat) (s : State) : Result :=
  if s.dev.st == .off then .next s
  else
    let s := s.raise source.toNat inst.toNat detail.toNat reactionOf
    if s.dev.frozen then .next s
    else if source = 0x39 then
      match s.tun.run with
      | some r => .next (s.endRun r runInternal (some r.step))
      | none => .next s
    else if source = 0x42 then .next (s.endInternal (Query.named detail))
    else .next s

/-- FAULT_N_PULSE_END (R388). -/
def execFaultNPulseEnd (s : State) : Result :=
  match s.thimble.pulse with
  | some t =>
    if s.aonNs < t then .next s
    else .next { s with thimble := { s.thimble with pulse := none, armed := false, faultLow := s.num 0xA11001 = 1 } }
  | none => .next s

/-- Escalate an open event (R387) at the instant at which its timer ended. -/
def State.escalate (e : Event) (at_ : Nat) (s : State) : State :=
  let c := e.cls + 1
  let s := ((s.mapOpen e.sequence fun x => { x with cls := c, escalated := true, timer := none }).reach e.sequence c at_).bump 0xA00004
  let s := if c = 3 && !e.forced then
      match escalates e.source e.inst.toNat with
      | some (src, inst) =>
        let up := s.unitUp src inst
        let s := s.takeOffline src inst
        if up && src = 0x15 then (s.lostBy inst (some e.sequence)).channelAftermath inst else s
      | none => s
    else s
  let s := if s.freezes c then
      (s.mapOpen e.sequence fun x => { x with freeze := true }).freezeNow 2 e.sequence
    else s
  s.settle

/-- When the timer of an open event ended, where it has; a freeze suspends it (R390). -/
def State.dueAt (s : State) (e : Event) : Option Nat :=
  match e.timer with
  | some t => if t ≤ s.aonNs && !s.dev.frozen && s.dev.st != .off then some t else none
  | none => none

/-- Escalate an open event whose timer has ended. -/
def State.escalateDue (sequence : Nat) (s : State) : State :=
  match s.thimble.opened.find? fun e => e.sequence = sequence with
  | none => s
  | some e =>
    match s.dueAt e with
    | some t => s.escalate e t
    | none => s

/-- REACTION_TIMER (R387), on the always-on clock. -/
def execReactionTimer (sequence : Nat) (s : State) : Result := .next (s.escalateDue sequence)

end Sys2Proof.Machine
end

