-- ==== Sys2Proof/Machine/MemTiers.lean ====
section
/-!
DEFINITION. The memory tiers at work: reads and their errors (R258, R266, R267), channel retrain and repair (R268 to R273),
temperature (R274 to R276), and the lend window (R284, R285).
-/

namespace Sys2Proof.Machine

/-! ## Channels -/

/-- Change a channel. -/
def State.mapChannel (n c : Nat) (f : Channel → Channel) (s : State) : State := s.setChannel n c (f (s.channel n c))

/-- Another channel of the group is out of ONLINE; one that is OFFLINE for good does not count (R268). -/
def State.groupOut (s : State) (n c : Nat) : Bool :=
  (groupOf c).any fun i => i ≠ c && ((s.channel n i).st == .reconstruct || (s.channel n i).st == .draining)

/-- The group can reconstruct a line of the channel: parity is on, and every other channel of it is there (R259, R268). -/
def State.covered (s : State) (n c : Nat) : Bool :=
  s.chip.parity && (groupOf c).all fun i => i = c || (s.channel n i).st == .online

/-! ## Loop-backs and margin scans on a channel (R428, R431, R432) -/

/-- The HBM channel a loop-back or a margin scan works on. -/
def State.scannedChannel (s : State) : Option Nat :=
  match s.test.loop, s.test.margin with
  | some t, _ => if s.num 0xD10002 = 3 && !t.waiting then some (s.num 0xD10003) else none
  | none, some t => if s.num 0xD20002 < 0x8000 && !t.waiting then some (s.num 0xD20002) else none
  | none, none => none

/-- The channel that was scanned takes a PERIODIC retrain (R432). -/
def State.freeChannel (s : State) : State :=
  match s.scannedChannel with
  | some i => s.mapChannel (i / 32) (i % 32) fun c => { c with forScan := false, kind := .periodic, retried := false, began := s.aonNs }
  | none => s

/-- A loop-back ends with a result: the path is left as it was found. -/
def State.closeLoop (result : Nat) (s : State) : State :=
  if s.test.loop.isNone then s
  else
    let n := s.num 0xD10003
    let ends := if s.num 0xD10002 = 1 && s.num 0xD10004 = 4 then n :: (s.ownCable n).toList else []
    let s := s.freeChannel
    let s := ({ s with test := { s.test with loop := none } }).setNum 0xD10006 result
    ends.foldl (fun s n => s.linkDown n .disabled) s

/-- A loop-back ends by itself: its function reads OFF. -/
def State.endLoop (result : Nat) (s : State) : State :=
  if s.test.loop.isNone then s else (s.closeLoop result).setSw 0xD100 ⟨.off, none⟩

/-- A margin scan ends with a result. -/
def State.closeMargin (result : Nat) (s : State) : State :=
  if s.test.margin.isNone then s
  else
    let s := s.freeChannel
    ({ s with test := { s.test with margin := none } }).setNum 0xD20004 result

/-- A margin scan ends by itself: its function reads OFF. -/
def State.endMargin (result : Nat) (s : State) : State :=
  if s.test.margin.isNone then s else (s.closeMargin result).setSw 0xD200 ⟨.off, none⟩

/-- CUT. -/
def testCut : Nat := 4

/-- End a scan or loop-back on a channel for which `p` holds (R432). -/
def State.cutScan (p : Nat → Bool) (s : State) : State :=
  match s.scannedChannel with
  | some i => if p i then (s.endLoop testCut).endMargin testCut else s
  | none => s

/-! ## Retrain (R268 to R273) -/

/-- A retrain starts: the channel enters RECONSTRUCT. A forced one ends a scan of another channel of the group (R432). -/
def State.startRetrain (n c : Nat) (kind : RetrainKind) (forced : Bool) (s : State) : State :=
  let s := if forced then s.cutScan fun i => i / 32 = n && i % 32 / 16 = c / 16 && i % 32 ≠ c else s
  s.mapChannel n c fun x => { x with st := .reconstruct, kind := kind, retried := false, wanted := false, began := s.aonNs }

/-- A channel goes OFFLINE for good (R271, R273). -/
def State.loseChannel (n c : Nat) (s : State) : State := s.raise 0x15 (32 * n + c) 0 none

/-- Within one second on the always-on clock. -/
def State.lately (s : State) (t : Option Time) : Bool :=
  match t with
  | some t => s.aonNs ≤ t + 1000000000
  | none => false

/-- Errors force a retrain (R266, R271), which starts at once, or as soon as the channel is ONLINE. -/
def State.forceRetrain (n c addr : Nat) (kind : RetrainKind) (s : State) : State :=
  let s := s.event 0x14 (32 * n + c) addr
  if (s.channel n c).st == .online then s.startRetrain n c kind true
  else s.mapChannel n c fun x => { x with wanted := true, nextKind := kind }

/-- What a corrected error on a channel, counted over one second, comes to: nothing, a retrain, or the channel's loss. -/
inductive ErrorVerdict where
  | fine
  | retrain (kind : RetrainKind)
  | lost
deriving DecidableEq, Repr

/-- Count a corrected error. -/
def State.noteError (n c : Nat) (s : State) : State :=
  s.mapChannel n c fun x => { x with errors := s.aonNs :: x.errors.filter fun t => s.aonNs < t + 1000000000 }

/-- Too many errors force a FULL retrain, within a second of one that verified a REPAIR, and within a second of that the channel goes
OFFLINE (R266, R271). -/
def State.verdict (s : State) (n c : Nat) : ErrorVerdict :=
  let x := s.channel n c
  let lim := s.num 0x30000C
  let k := x.errors.length
  if s.lately x.lastRepair && lim ≤ k then .lost
  else if s.lately x.lastFull && lim ≤ k && x.st == .online then .retrain .repair
  else if lim < k && x.st == .online then .retrain .full
  else .fine

/-! ## Reads (R258, R266) -/

/-- 64 bytes that the code took for right and that are not: open values (log entry 31). -/
def State.spoilLine (addr : Nat) (s : State) : State :=
  (List.range 8).foldl (fun s i => (s.devWrite (addr / 64 * 64 + 8 * i) (natLE 8 s.fresh.toNat)).spend) s

/-- A line returned poisoned: counted; the event is the one given. -/
def State.poisonLine (s : State) : State := s.bump 0x30000A

/-- What the read of a line comes to: its data, poison, or a wait for a channel that retrains. -/
inductive LineOutcome where
  | good
  | poison
  | wait
deriving DecidableEq, Repr

/-- What a raw line is: its device-local address where it has one. A check line, a parity chunk and a line of no extent have none, and the
detail of their events is all ones (log entry 31). -/
def lineDetail (addr : Option Nat) : Nat := addr.getD (2 ^ 64 - 1)

/-- Spoil a line that has an address. -/
def State.spoilAt (addr : Option Nat) (s : State) : State :=
  match addr with
  | some a => s.spoilLine a
  | none => s

/-- The read of a line as its reader gets it. `holder` is the open event that an uncorrectable line opened or was merged into, and
`ofUnit` says that a unit's own event covers what the reader loses (R381, R385). `forced` are the retrains to be forced, in ascending
channel: their C0 events come after every event of the read and of what its reader does (R382). -/
structure LineRead where
  outcome : LineOutcome := .good
  holder : Option Nat := none
  ofUnit : Bool := false
  detail : Nat := 0
  forced : List (Nat × Nat × RetrainKind) := []
deriving DecidableEq, Repr

/-- The retrains that a read forces start; none starts in a device that an event of the read has frozen. -/
def State.lineAfter (r : LineRead) (s : State) : State :=
  if s.dev.frozen then s else r.forced.foldl (fun s x => s.forceRetrain x.1 x.2.1 r.detail x.2.2) s

/-- A read and what it forces, where its reader does nothing of its own. -/
def lineDone (r : State × LineRead) : State × LineOutcome := (r.1.lineAfter r.2, r.2.outcome)

/-- The other channel of the group whose chunk of the stripe is uncorrectable. -/
def badFor (c : Nat) : Stripe → Option Nat
  | .whole => none
  | .bad k => if c / 16 * 16 + k.val = c then none else some (c / 16 * 16 + k.val)

/-- Lines of HBM or of bulk are read (R394). -/
def State.countRead (tier lines : Nat) (s : State) : State :=
  if tier = 0 then { s with tele := { s.tele with hbmRead := s.tele.hbmRead + 64 * lines } }
  else { s with tele := { s.tele with bulkRead := s.tele.bulkRead + 64 * lines } }

/-- A corrected error of a line, with the loss of the channel that it comes to before it, by class (R382). -/
def State.corrected (n c d : Nat) (s : State) : State × LineRead :=
  let s := s.noteError n c
  match s.verdict n c with
  | .fine => (s.raise 0x10 (32 * n + c) d none, {})
  | .retrain k => (s.raise 0x10 (32 * n + c) d none, { detail := d, forced := [(n, c, k)] })
  | .lost => ((s.loseChannel n c).raise 0x10 (32 * n + c) d none, {})

/-- What a read of a line of a channel that is ONLINE gives (R258, R266). An inline error that only the stripe could correct, while
another channel of the group retrains, waits for it and loses nothing (R268). -/
def State.readOnline (n c : Nat) (addr : Option Nat) (e : LineErrors) (stripe : Stripe) (s : State) : State × LineRead :=
  let d := lineDetail addr
  let bad := badFor c stripe
  let own : Nat × Nat × RetrainKind := (n, c, .full)
  match e with
  | .none => (s, {})
  | .manyMissed => (s.spoilAt addr, {})
  | .upToTwo => (s.bump 0x300008).corrected n c d
  | .manyMiscorrected => ((s.spoilAt addr).bump 0x300008).corrected n c d
  | .threeOrFour | .manyDetected =>
    if s.covered n c && bad.isNone then ((s.bump 0x300009).raise 0x11 (32 * n + c) d none, { detail := d, forced := [own] })
    else if s.chip.parity && bad.isNone && s.groupOut n c && (groupOf c).all (fun j => (s.channel n j).st != .offline) then
      (s, { outcome := .wait, detail := d, forced := [own] })
    else
      let other := match bad with
        | some b => if s.covered n c then [(n, b, RetrainKind.full)] else []
        | none => []
      let s := s.poisonLine.raise 0x12 (32 * n + c) d none
      (s, { outcome := .poison, holder := s.thimble.holder, detail := d,
            forced := if (bad.getD c) < c then other ++ [own] else own :: other })

/-- The address of the data line at an offset of a channel. -/
def State.hbmLine (s : State) (n c line : Nat) : Option Nat := (hbmLocal s.chip.parity c line).bind (s.unitAddr 0 n)

/-- What a read of an HBM line, at an offset of a channel's data, gives (R266, R268, R269, R273): from the hold buffer; from the channel
while it is ONLINE; else from the other channels of its group, which counts as a reconstructed read, or after a wait where these are
not all there. A chunk of another channel that is uncorrectable is that channel's error, and it retrains; where the channel read is
OFFLINE for good, the error is part of the reaction to the event that took it (R385, R404). -/
def State.readHbm (n c line : Nat) (addr : Option Nat) (e : LineErrors) (stripe : Stripe) (s : State) : State × LineRead :=
  let x := s.channel n c
  if x.holds line then (s, {})
  else if x.st == .online then (s.countRead 0 1).readOnline n c addr e stripe
  else if !s.covered n c then (s, { outcome := .wait })
  else
    let s := (s.bump (key (0x3010 + n) 6)).countRead 0 15
    match badFor c stripe with
    | none => (s, {})
    | some b =>
      let lost : Bool := x.st == .offline
      let d := lineDetail (s.hbmLine n b line)
      let s := s.poisonLine.raise 0x12 (32 * n + b) d (if lost then x.lossEvent else none)
      (s, { outcome := .poison, holder := s.thimble.holder, ofUnit := lost, detail := d, forced := [(n, b, .full)] })

/-- An uncorrectable line of a memory with no parity: its event, and poison. -/
def State.uncorrected (src inst d : Nat) (s : State) : State × LineRead :=
  let s := s.poisonLine.raise src inst d none
  (s, { outcome := .poison, holder := s.thimble.holder })

/-- What a read of a bulk line gives. -/
def State.readBulk (pkg c : Nat) (addr : Option Nat) (e : LineErrors) (s : State) : State × LineRead :=
  let s := s.countRead 1 1
  let i := 4 * pkg + c
  let d := lineDetail addr
  match e with
  | .none => (s, {})
  | .manyMissed => (s.spoilAt addr, {})
  | .upToTwo => ((s.bump 0x300008).raise 0x20 i d none, {})
  | .manyMiscorrected => (((s.spoilAt addr).bump 0x300008).raise 0x20 i d none, {})
  | .threeOrFour | .manyDetected => s.uncorrected 0x21 i d

/-- What the read of a line from its memory gives; on an offline unit it is poisoned. An expander's poisoned response is an uncorrectable
error (R265), with the event of a bulk one and no instance, since R381 has no source for it (log entry 31). -/
def State.readLine (addr : Nat) (e : LineErrors) (stripe : Stripe) (s : State) : State × LineRead :=
  if s.addrOffline addr then (s.poisonLine, { outcome := .poison, ofUnit := true })
  else
    match regionOf addr with
    | .hbm => match s.hbmMap addr with
      | some m => s.readHbm m.stack m.channel (m.offset / 64 * 64) (some addr) e stripe
      | none => (s, {})
    | .bulk => match s.bulkMap addr with
      | some m => s.readBulk m.pkg m.channel (some addr) e
      | none => (s, {})
    | .cxl =>
      if (e == .threeOrFour || e == .manyDetected) && (s.cxlMap addr).isSome then s.uncorrected 0x21 0xFFFF addr
      else (s, {})
    | .cask => if e == .upToTwo then (s.raise 0x30 ((addr - caskBase) / 0x1000000) addr none, {}) else (s, {})
    | _ => (s, {})

/-! ## Reads through the cache (R26, R278) -/

/-- The class of a reader: a query's rerank reads and scans are RERANK and SCAN, what it reads else is SERVE, and a host's is LEND. -/
def State.classOf (s : State) (r : Reader) : TrafficClass :=
  match r with
  | .query q => match (s.query q).map Query.stage with
    | some .rerank => .rerank
    | some .pass | some .flat | some .flatWait => .scan
    | _ => .serve
  | .host _ => .lend
  | .device c => c

/-- A read of the class at the address goes through the cache. -/
def State.cacheable (s : State) (c : TrafficClass) (addr : Nat) : Bool :=
  TrafficClass.cached c && (regionOf addr).tier ≤ 2 && !(s.slicesOf 0).isEmpty

/-- The cache holds the line at an address. -/
def State.cacheHolds (s : State) (addr : Nat) : Bool :=
  (lookDef [] s.tiers.cache (cacheSet (s.slicesOf 0) (addr / 64))).contains (addr / 64)

/-- The cache takes the line at an address, or uses it again. -/
def State.cacheUse (addr : Nat) (s : State) : State :=
  let k := cacheSet (s.slicesOf 0) (addr / 64)
  { s with tiers := { s.tiers with cache := putDef [] k (useWay (addr / 64) (lookDef [] s.tiers.cache k)) s.tiers.cache } }

/-- What the read of a line under a class gives: a hit in the cache asks no memory, and a line that memory gives is cached. -/
def State.readVia (c : TrafficClass) (addr : Nat) (e : LineErrors) (stripe : Stripe) (s : State) : State × LineRead :=
  if !s.cacheable c addr || s.addrOffline addr then s.readLine addr e stripe
  else if s.cacheHolds addr then ((s.cacheUse addr).bump 0x320005, {})
  else
    let r := s.readLine addr e stripe
    match r.2.outcome with
    | .good => ((r.1.cacheUse addr).bump 0x320006, r.2)
    | .poison => (r.1.bump 0x320006, r.2)
    | .wait => r

/-- The address lies in the lend window's range. -/
def State.inLend (s : State) (a : Nat) : Bool := inside a 1 (s.num 0x340005) (s.num 0x340004)

/-- What the reader of a poisoned line does: a query completes with INTERNAL, as part of a unit's event or as a contained fault of the
line's open event, and a host read returns poison. -/
def State.poisoned (addr : Nat) (x : LineRead) (r : Reader) (s : State) : State :=
  match r with
  | .device _ => s
  | .host p => (if s.inLend addr then s.bump 0x340006 else s).emit (.hostRead p none)
  | .query q => if x.ofUnit then s.endInternal fun y => y.id = q else s.containQuery q x.holder

/-- MEMORY_READ_COMPLETE (R266). A read that waits for a channel completes later. -/
def execMemoryReadComplete (addr : Nat) (e : LineErrors) (stripe : Stripe) (r : Reader) (s : State) : Result :=
  if !s.running || s.dev.st == .boot || 4 ≤ s.dev.power then .next s
  else
    let t := s.readVia (s.classOf r) addr e stripe
    let u := if t.2.outcome ≠ .poison || t.1.dev.frozen then t.1 else t.1.poisoned addr t.2 r
    .next (u.lineAfter t.2)

/-! ## Scrub (R267) -/

/-- The tier and number of a unit that scrub reads. -/
def ScrubUnit.place : ScrubUnit → Nat × Nat
  | .stack n => (0, n.val)
  | .package n => (1, n.val)

/-- The key of a unit's scrub pass: stacks 0 to 11, packages from 16. -/
def ScrubUnit.key (u : ScrubUnit) : Nat := 16 * (ScrubUnit.place u).1 + (ScrubUnit.place u).2

/-- The unit is there and online. -/
def State.scrubUp (s : State) (u : ScrubUnit) : Bool :=
  match u with
  | .stack n => s.stackPresent n && !bit s.units.stack.toNat n
  | .package n => bit s.chip.inUse.toNat n && !bit s.units.package.toNat n

/-- A SCRUB_WINDOW is open for a unit (R58, R267). -/
def State.scrubOpen (s : State) (u : ScrubUnit) : Bool :=
  (List.range 128).any fun n => s.calKind n = 5 && (s.calEntry n).openUntil.any (s.now < ·) &&
    s.calTarget n / 2 ^ 28 = (ScrubUnit.place u).1 && bit (s.calTarget n) (ScrubUnit.place u).2

/-- Raw lines of a channel of the unit: 2 GiB of a stack's 32, a quarter of a package's 64 or 32 GiB (R257, R258, R262). -/
def State.rawLines (s : State) (u : ScrubUnit) : Nat :=
  match u with
  | .stack _ => 2 ^ 25
  | .package _ => if s.chip.density = 32 then 2 ^ 27 else 2 ^ 28

/-- Channels of the unit. -/
def ScrubUnit.channels : ScrubUnit → Nat
  | .stack _ => 32
  | .package _ => 4

/-- The channel and the data line of a raw line of a unit: the segments of 16 lines in order, of which the last is the check line and has no
data (R258). The order of the pass, channel by channel from the lowest line, is the model's (log entry 31). -/
def State.rawPlace (s : State) (u : ScrubUnit) (k : Nat) : Nat × Option Nat :=
  let l := k % s.rawLines u
  (k / s.rawLines u, if l % 16 = 15 then none else some ((l / 16 * 15 + l % 16) * 64))

/-- The address of a data line of a unit's channel, where it has one. -/
def State.rawAddr (s : State) (u : ScrubUnit) (c line : Nat) : Option Nat :=
  match u with
  | .stack n => (hbmLocal s.chip.parity c line).bind (s.unitAddr 0 n)
  | .package n => s.unitAddr 1 n (bulkLocal c line)

/-- The data that the inline code accepts: without an error, corrected, or with an error that it missed. -/
def LineErrors.accepted : LineErrors → Bool
  | .none | .upToTwo | .manyMiscorrected | .manyMissed => true
  | .threeOrFour | .manyDetected => false

/-- Scrub reads a raw line of a unit: errors are corrected under R266, and a stripe whose parity disagrees with data the code accepts has
its parity rewritten. The check line of a channel that retrains waits, and that of one that is OFFLINE is not there to read. -/
def State.scrubLine (u : ScrubUnit) (k : Nat) (e : LineErrors) (stripe : Stripe) (parityDisagrees : Bool) (s : State) : State × LineOutcome :=
  let x := s.rawPlace u k
  let addr := x.2.bind (s.rawAddr u x.1)
  match u with
  | .package n => lineDone (s.readBulk n x.1 addr e)
  | .stack n =>
    let st : ChanState := (s.channel n x.1).st
    let r : State × LineRead := match x.2 with
      | some line => s.readHbm n x.1 line addr e stripe
      | none =>
        if st == .online then (s.countRead 0 1).readOnline n x.1 none e stripe
        else (s, { outcome := if st == .offline then .good else .wait })
    let rewrites := parityDisagrees && LineErrors.accepted e && x.2.isSome && s.covered n x.1 && st == .online
    lineDone (if rewrites then r.1.raise 0x13 (32 * n + x.1) (lineDetail addr) none else r.1, r.2)

/-- The scrub pass of a unit. -/
def State.scrubPass (s : State) (u : ScrubUnit) : ScrubPass := (look s.tiers.scrubs (ScrubUnit.key u)).getD ⟨s.aonNs, 0⟩

/-- Nanoseconds of a scrub pass: P3000.07 hours. -/
def State.scrubNs (s : State) : Nat := s.num 0x300007 * 3600000000000

/-- SCRUB_READ (R267): the next line of the unit's pass, when its share of the P3000.07 hours has come. A line that waits is read later. -/
def execScrubRead (u : ScrubUnit) (e : LineErrors) (stripe : Stripe) (parityDisagrees : Bool) (s : State) : Result :=
  let p := s.scrubPass u
  let lines := ScrubUnit.channels u * s.rawLines u
  if !s.running || 3 ≤ s.dev.power || !s.scrubUp u || !s.scrubOpen u || s.aonNs < p.began + p.line * s.scrubNs / lines then .next s
  else
    let r := s.scrubLine u p.line e stripe parityDisagrees
    if r.2 = .wait then .next r.1
    else
      let next : ScrubPass := if p.line + 1 < lines then ⟨p.began, p.line + 1⟩ else ⟨p.began + s.scrubNs, 0⟩
      .next { r.1 with tiers := { r.1.tiers with scrubs := put (ScrubUnit.key u) next r.1.tiers.scrubs } }

/-! ## Retrain commands -/

/-- The RETRAIN_WINDOW that is open for a stack. -/
def State.retrainOpen (s : State) (n : Nat) : Option Nat :=
  (List.range 128).find? fun k => s.calKind k = 4 && (s.calEntry k).openUntil.any (s.now < ·) && bit (s.calTarget k) n

/-- The start instant of now: the whole microsecond at most 200 ns back, or the moment the window opened (R55, R272). -/
def State.startInstant (s : State) (e : CalEntry) : Option Nat :=
  let i := s.now / 1000 * 1000
  if e.openedAt ≤ i && s.now ≤ i + 200 then some i else if s.now ≤ e.openedAt + 200 then some e.openedAt else none

/-- A stack whose planned retrain has been put off P2004.03 times starts it as the window opens, whatever bells ring (R60). -/
def State.overdue (s : State) (n : Nat) (e : CalEntry) (i : Nat) : Bool := s.num 0x200403 ≤ (s.stack n).deferrals && i = e.openedAt

/-- A stack may start its planned retrain at an instant: with all the others of the occurrence, at one that no merge bell follows too
soon; or when it is overdue. -/
def State.startAllowed (s : State) (n : Nat) (e : CalEntry) (i : Nat) : Bool :=
  !e.retrained.contains n && (s.overdue n e i || (i % 1000 = 0 && s.bellFree i && e.instant.all (· = i)))

/-- A stack has had its planned retrain, or its deferral, of an occurrence. -/
def State.stackServed (k n i : Nat) (s : State) : State :=
  let e := s.calEntry k
  s.setCal k { e with retrained := insertNat n e.retrained, instant := if s.overdue n e i then e.instant else some i }

/-- The channel whose last training is the oldest among those of the stack that are not OFFLINE, or as old (R272). -/
def State.oldest (s : State) (n c : Nat) : Bool :=
  (List.range 32).all fun i => (s.channel n i).st == .offline || (s.channel n c).trained ≤ (s.channel n i).trained

/-- A channel of a stack in service can start a retrain. -/
def State.canRetrain (s : State) (n c : Nat) : Bool :=
  s.running && s.dev.st != .boot && s.dev.power ≤ 2 && s.stackPresent n && !bit s.units.stack.toNat n && (s.channel n c).st == .online

/-- RETRAIN_START (R60, R268, R272): a forced one starts at once. A planned one starts at a whole microsecond of a window of its
stack that no merge bell follows too soon, or, after too many deferrals, without regard to them; where another channel of its
group is out it moves to the next occurrence. -/
def execRetrainStart (stack : Fin 12) (channel : Fin 32) (c : RetrainCause) (s : State) : Result :=
  if !s.stackPresent stack then .fault .absentUnit
  else if !s.canRetrain stack channel then .next s
  else
    match c with
    | .forced =>
      let x := s.channel stack channel
      if x.wanted then
        .next ((s.mapChannel stack channel fun x => { x with nextKind := .periodic }).startRetrain stack channel x.nextKind true)
      else .next s
    | .planned =>
      match s.retrainOpen stack with
      | none => .next s
      | some k =>
        match s.startInstant (s.calEntry k) with
        | none => .next s
        | some i =>
          if !s.oldest stack channel || !s.startAllowed stack (s.calEntry k) i then .next s
          else
            let s := s.stackServed k stack i
            if s.groupOut stack channel then .next ((s.deferStack stack).bump 0x200402)
            else
              let s := s.setStack stack { s.stack stack with deferrals := 0 }
              .next ((s.mapChannel stack channel fun x => { x with nextKind := .periodic }).startRetrain stack channel
                (if (groupOf channel).any (fun i => (s.channel stack i).st == .offline) then .periodic else (s.channel stack channel).nextKind)
                false)

/-- RETRAIN_VERIFY (R271): a channel that verifies drains its hold buffer. A PERIODIC retrain that does not verify drains too,
and the next one is FULL; the other kinds wait for their time limit (log entry 31). -/
def execRetrainVerify (stack : Fin 12) (channel : Fin 32) (ok : Bool) (s : State) : Result :=
  if !s.stackPresent stack then .fault .absentUnit
  else
    let x := s.channel stack channel
    if !s.running || x.st != .reconstruct || x.forScan then .next s
    else if ok then
      .next (s.mapChannel stack channel fun x => { x with
        st := .draining, trained := s.aonNs, errors := []
        lastFull := if x.kind == .full then some s.aonNs else x.lastFull
        lastRepair := if x.kind == .repair then some s.aonNs else x.lastRepair })
    else if x.kind == .periodic then .next (s.mapChannel stack channel fun x => { x with st := .draining, nextKind := .full })
    else .next s

/-- RETRAIN_TIMEOUT (R271): a retrain that has not verified within 2 ms is retried once; then the channel goes OFFLINE. -/
def execRetrainTimeout (stack : Fin 12) (channel : Fin 32) (s : State) : Result :=
  if !s.stackPresent stack then .fault .absentUnit
  else
    let x := s.channel stack channel
    if !s.running || x.st != .reconstruct || x.forScan || s.aonNs < x.began + 2000000 then .next s
    else if x.retried then .next (s.loseChannel stack channel)
    else .next (s.mapChannel stack channel fun x => { x with retried := true, began := s.aonNs })

/-- DRAIN_COMPLETE (R271): the held lines are written, in the order they arrived, and the channel is ONLINE. -/
def execDrainComplete (stack : Fin 12) (channel : Fin 32) (s : State) : Result :=
  if !s.stackPresent stack then .fault .absentUnit
  else
    let x := s.channel stack channel
    if !s.running || x.st != .draining then .next s
    else .next ((s.mapChannel stack channel fun x => { x with st := .online, hold := [], marked := [], retried := false }).bump (key (0x3010 + stack) 5))

/-! ## Temperature (R274 to R276) -/

/-- Codes of P301s.01. -/
def TempTier.code : TempTier → Nat
  | .normal => 0 | .warm => 1 | .hot => 2 | .critical => 3

/-- A tier by its code. -/
def tierOf : Nat → TempTier
  | 0 => .normal | 1 => .warm | 2 => .hot | _ => .critical

/-- Threshold of a tier. -/
def State.threshold (s : State) (t : Nat) : Int := s.num (0x330000 + t)

/-- Count a reading toward leaving a tier. -/
def countBelow (below : Bool) (n : Nat) : Nat := if below then min (n + 1) 10000 else 0

/-- The tier a stack falls to once its readings have been below the limits of HOT and WARM (R274). -/
def Stack.fallen (x : Stack) (t : Nat) : Nat :=
  let t := if t = 2 && 10 ≤ x.belowHot then 1 else t
  if t = 1 && 10 ≤ x.belowWarm then 0 else t

/-- HBM_TEMPERATURE_READING (R274): the highest tier reached is entered, with the event of each tier passed, the highest first;
entering HOT or CRITICAL ends a scan (R432). -/
def execHbmTemperatureReading (stack : Fin 12) (celsius : Int) (s : State) : Result :=
  if !s.stackPresent stack then .fault .absentUnit
  else if !s.running || s.dev.st == .boot || 4 ≤ s.dev.power then .next s
  else
    let hyst : Int := s.num 0x330004
    let x := s.stack stack
    let x := { x with celsius := some celsius,
                      belowWarm := countBelow (celsius < s.threshold 1 - hyst) x.belowWarm,
                      belowHot := countBelow (celsius < s.threshold 2 - hyst) x.belowHot,
                      belowCritical := countBelow (celsius < s.threshold 3 - 5) x.belowCritical }
    let reached := if s.threshold 3 ≤ celsius then 3 else if s.threshold 2 ≤ celsius then 2 else if s.threshold 1 ≤ celsius then 1 else 0
    let cur := x.tier.code
    if reached ≤ cur then .next (s.setStack stack { x with tier := if cur = 3 then x.tier else tierOf (x.fallen cur) })
    else
      let s := s.setStack stack { x with tier := tierOf reached }
      let s := if 2 ≤ reached then s.cutScan fun i => i / 32 = stack else s
      let s := if reached = 3 then s.raise 0x19 stack 0 none else s
      let s := if cur < 2 && 2 ≤ reached then s.raise 0x18 stack 0 none else s
      .next (if cur < 1 then s.raise 0x17 stack 0 none else s)

/-- STACK_RETURN (R275): after a second below the limit the stack's channels retrain, those that fail go OFFLINE, and the zero-fill
starts; a stack that has lost two channels of a group, or one without parity, stays offline (R271, R273). -/
def execStackReturn (stack : Fin 12) (failed : BitVec 32) (s : State) : Result :=
  if !s.stackPresent stack then .fault .absentUnit
  else
    let x := s.stack stack
    if !s.running || x.tier != .critical || x.belowCritical < 10000 || x.zeroFilling || !bit s.units.stack.toNat stack then .next s
    else
      let s := (List.range 32).foldl (fun s c =>
        if bit failed.toNat c then s.loseChannel stack c
        else if (s.channel stack c).st == .offline then s
        else (s.mapChannel stack c fun y => { y with
          st := .online, hold := [], marked := [], trained := s.aonNs, wanted := false, nextKind := .periodic, retried := false, errors := []
          lastFull := some s.aonNs }).bump (key (0x3010 + stack) 5)) s
      let lost (g : Nat) : Nat := ((groupOf (16 * g)).filter fun c => (s.channel stack c).st == .offline).length
      if 1 < lost 0 || 1 < lost 1 || (!s.chip.parity && 0 < lost 0 + lost 1) then .next s
      else .next (s.setStack stack { s.stack stack with zeroFilling := true })

/-- ZERO_FILL_COMPLETE (R275): every byte of the stack is zero. -/
def execZeroFillComplete (stack : Fin 12) (s : State) : Result :=
  if !s.stackPresent stack then .fault .absentUnit
  else
    let x := s.stack stack
    if !s.running || !x.zeroFilling then .next s
    else
      let s := s.setStack stack { x with zeroFilling := false, tier := tierOf (x.fallen 2) }
      .next ({ s with units := { s.units with stack := s.units.stack &&& ~~~ oneBit 12 stack }
                      mem := Memory.drop (s.liesOn 0 stack) s.mem }).restore

/-- BULK_TEMPERATURE_READ (R276): the device refreshes at the rate the package requests. -/
def execBulkTemperatureRead (pkg : Fin 24) (rate : Byte) (above : Bool) (s : State) : Result :=
  if !bit s.chip.fitted.toNat pkg then .fault .absentUnit
  else if !s.running || s.dev.st == .boot || 4 ≤ s.dev.power || bit s.units.package.toNat pkg then .next s
  else
    let s := { s with tiers := { s.tiers with refresh := put pkg.val rate s.tiers.refresh } }
    .next (if above then s.failUnit 0x22 pkg else s)

/-! ## The lend window (R284, R285) -/

/-- The tier P3400.03 selects. -/
def State.lendTier (s : State) : Nat := if s.num 0x340003 = 2 then 2 else 1

/-- An ON of the lend window is refused (R284). -/
def State.lendRefused (s : State) : Bool :=
  (s.lendTier = 1 && !s.chip.bulkRing) || s.freeBytes s.lendTier < gibBytes (s.num 0x340002)

/-- Bytes of the lend extents. -/
def State.lendHeld (s : State) : Nat := s.heldBytes ownerLend 1 + s.heldBytes ownerLend 2

/-- The start allocates whole extents and zero-fills them; none where they do not fit. -/
def State.lendStart (s : State) : Option State :=
  match s.placeArea ownerLend s.lendTier (gibBytes (s.num 0x340002)) with
  | none => none
  | some (base, t) =>
    let n := t.lendHeld
    some { t with mem := Memory.drop (fun a => base ≤ a && a < base + n) t.mem,
                  tiers := { t.tiers with lendBase := base } }

/-- The start is complete. -/
def State.lendStarted (s : State) : State :=
  (s.setNum 0x340004 s.lendHeld).setNum 0x340005 s.tiers.lendBase

/-- The window is OFF: its extents are released, and what they held is gone. -/
def State.lendStopped (s : State) : State :=
  let b := s.num 0x340005
  let n := s.num 0x340004
  (({ s with mem := Memory.drop (fun a => b ≤ a && a < b + n) s.mem }).release ownerLend |>.setNum 0x340004 0).setNum 0x340005 0

end Sys2Proof.Machine
end

