-- ==== Sys2Proof/Machine/TestRuns.lean ====
section
/-!
DEFINITION. Loop-backs and margin scans (R427 to R434): when one may start, what it does, and how it ends.
-/

namespace Sys2Proof.Machine

/-- A loop-back, a margin scan or a self-test is under way (R427). -/
def State.testBusy (s : State) : Bool := s.test.loop.isSome || s.test.margin.isSome || s.test.selfTest.isSome

/-- The interface of PD100.02: SHUTTLE 1, CXL 2, HBM 3, BULK 4, MANAGEMENT 5. -/
def State.loopPort (s : State) : Nat := s.num 0xD10002
/-- PD100.03. -/
def State.loopUnit (s : State) : Nat := s.num 0xD10003
/-- PD100.04. -/
def State.loopDepth (s : State) : Nat := s.num 0xD10004

/-- Depths of an interface that PD100 starts (R429): CXL depth 2 is led by the host. -/
def depthOk (port depth : Nat) : Bool :=
  match port with
  | 1 => 1 ≤ depth && depth ≤ 5
  | 2 => depth = 1 || depth = 3
  | 3 | 4 => depth = 1 || depth = 2
  | 5 => 1 ≤ depth && depth ≤ 3
  | _ => false

/-- An instance of an interface is present (R428, R429). -/
def State.instanceOk (s : State) (port i : Nat) : Bool :=
  match port with
  | 1 => i < 32 && s.linkPresent i
  | 2 => i < 2 || (i < 6 && (lookDef {} s.tiers.expanders (i - 2)).st ≠ 0)
  | 3 => i < 384 && s.stackPresent (i / 32)
  | 4 => i < 96 && bit s.chip.fitted.toNat (i / 4)
  | _ => true

/-- The instance to be looped back is present. -/
def State.loopPresent (s : State) : Bool := s.instanceOk s.loopPort s.loopUnit

/-- An HBM channel can be looped back or scanned: parity is on and the channel is in service (R432). -/
def State.hbmTestable (s : State) (i : Nat) : Bool :=
  s.chip.parity && !bit s.units.stack.toNat (i / 32) && (s.channel (i / 32) (i % 32)).st != .offline

/-- No slice of a bulk package is allocated, lent or holds baste payload (R433): a slice of the payload area counts by what it
holds. -/
def State.bulkIdle (s : State) (pkg : Nat) : Bool :=
  !(s.tiers.extents.any fun e => e.owner ≠ ownerPayload && e.tier = 1 && e.slices.any fun x => x.1 = pkg) &&
    !(s.muts.baste.any (s.payloadOn 1 pkg))

/-- Port B has no link up. -/
def State.portBDown (s : State) : Bool :=
  if s.chip.portBRoot then (List.range 4).all fun n => (lookDef {} s.tiers.expanders n).st ≠ 2 else s.ports.b.linkState = 0

/-- The preconditions of R429. -/
def State.loopReady (s : State) : Bool :=
  let i := s.loopUnit
  match s.loopPort with
  | 1 =>
    if s.loopDepth = 5 then s.linkUp i
    else (s.sw (linkIndex i)).st == .off && (s.loopDepth ≠ 4 || (s.ownCable i).all fun j => (s.sw (linkIndex j)).st == .off)
  | 2 =>
    if s.loopDepth = 1 then i = 1 && s.portBDown
    else 2 ≤ i && s.chip.portBRoot && s.freeSlices 2 (i - 2) = s.unitSlices 2 (i - 2)
  | 3 => s.hbmTestable i
  | 4 => s.bulkIdle (i / 4)
  | _ => true

/-- A target of a margin scan is present. -/
def State.marginTargetOk (s : State) (i : Nat) : Bool :=
  if i < 0x8000 then i < 384 && s.stackPresent (i / 32) else i < 0x8060 && bit s.chip.fitted.toNat ((i - 0x8000) / 4)

/-- The target of PD200.02 is present. -/
def State.marginPresent (s : State) : Bool := s.marginTargetOk (s.num 0xD20002)

/-- The preconditions of R432 and R433. -/
def State.marginReady (s : State) : Bool :=
  let i := s.num 0xD20002
  if i < 0x8000 then s.hbmTestable i else s.bulkIdle ((i - 0x8000) / 4)

/-- The loop-back runs on an HBM channel, and so does the scan: it waits for its start instant (R432). -/
def State.testWaits (s : State) (loop : Bool) : Bool := if loop then s.loopPort = 3 else s.num 0xD20002 < 0x8000

/-- PASS, RUNNING and DONE of PD100.06 and PD200.04. -/
def testRunning : Nat := 1
/-- PASS of a loop-back, DONE of a scan. -/
def testDone : Nat := 2
/-- FAIL of a loop-back, BELL_CONFLICT of a scan. -/
def testFailed : Nat := 3

/-- A loop-back runs from now: its counts start at 0 and its path is looped. -/
def State.loopRuns (s : State) : State :=
  let t : TestRun := { waiting := false, since := s.aonNs, deadline := s.aonNs + 1000 * s.num 0xD10005 }
  let s := (((({ s with test := { s.test with loop := some t } }).setNum 0xD10006 testRunning).setNum 0xD10007 0).setNum
    0xD10008 0).setNum 0xD1000A 0
  if s.loopPort = 1 && s.loopDepth = 4 then (s.loopUnit :: (s.ownCable s.loopUnit).toList).foldl (fun s n => s.linkStart n) s
  else s.probe

/-- A margin scan runs from now. -/
def State.marginRuns (s : State) : State :=
  let t : TestRun := { waiting := false, since := s.aonNs, deadline := 0 }
  ({ s with test := { s.test with margin := some t } }).setNum 0xD20004 testRunning

/-- A start is under way; one on an HBM channel waits. -/
def State.testBegins (loop : Bool) (s : State) : State :=
  let t : TestRun := { waiting := true, since := s.aonNs, deadline := s.aonNs + 1000000000 }
  if loop then { s with test := { s.test with loop := some t } } else { s with test := { s.test with margin := some t } }

/-- A start completes: what does not wait for an instant runs. -/
def State.testStarts (loop : Bool) (s : State) : State :=
  if s.testWaits loop then s else if loop then s.loopRuns else s.marginRuns

/-- The HBM channel that waits for its start instant. -/
def State.waitingChannel (s : State) : Option (Bool × Nat) :=
  match s.test.loop, s.test.margin with
  | some t, _ => if t.waiting && s.loopPort = 3 then some (true, s.loopUnit) else none
  | none, some t => if t.waiting && s.num 0xD20002 < 0x8000 then some (false, s.num 0xD20002) else none
  | none, none => none

/-- The instant, a whole microsecond at most 200 ns back (R55), meets the three conditions of R432. -/
def State.scanInstant (s : State) (n c : Nat) : Bool :=
  s.timeKnown && s.now % 1000 ≤ 200 && s.canRetrain n c && s.bellFree (s.now / 1000 * 1000) && s.covered n c &&
    ((List.range 128).all fun k => s.calKind k ≠ 4 || (s.calEntry k).openUntil.all (· ≤ s.now)) &&
    ((s.stack n).tier == .normal || (s.stack n).tier == .warm)

/-- MARGIN_SCAN_START (R432): the channel enters RECONSTRUCT, and the function reads ON. -/
def execMarginScanStart (s : State) : Result :=
  match s.waitingChannel with
  | none => .next s
  | some (loop, i) =>
    if !s.scanInstant (i / 32) (i % 32) then .next s
    else
      let s := s.mapChannel (i / 32) (i % 32) fun c => { c with st := .reconstruct, forScan := true, wanted := false }
      let x := if loop then 0xD100 else 0xD200
      let s := if loop then s.loopRuns else s.marginRuns
      .next (if (s.sw x).st == .starting && (s.sw x).pend.isNone then s.setSw x ⟨.on, none⟩ else s)

/-- BELL_CONFLICT (R432): no instant came within 1 s of the write of ON. A loop-back has no result of that name and reads CUT
(log entry 33). -/
def execBellConflict (s : State) : Result :=
  match s.waitingChannel with
  | none => .next s
  | some (loop, _) =>
    let t := if loop then s.test.loop else s.test.margin
    if !t.any (fun t => 1000000000 + t.since ≤ s.aonNs) then .next s
    else .next (if loop then s.endLoop testCut else s.endMargin testFailed)

/-- The depths at which no bit may be in error (R430). -/
def digitalDepth (port depth : Nat) : Bool :=
  match port with
  | 1 => depth ≤ 2
  | 3 | 4 => depth = 1
  | 5 => depth ≤ 2
  | _ => false

/-- PASS (R430): no error at a digital depth, else a ratio at or below PD100.09; nothing compared has no error. -/
def State.loopPasses (s : State) (bits errors : Nat) : Bool :=
  if digitalDepth s.loopPort s.loopDepth || bits = 0 then errors = 0
  else (Dy.ofInt errors).le ((f32 (BitVec.ofNat 32 (s.num 0xD10009))).val.mul (Dy.ofInt bits))

/-- LOOP_BACK_DURATION (R428, R430): what the interface compared adds to what its own requests counted. -/
def execLoopBackDuration (bits errors : Nat) (firstError : Time) (s : State) : Result :=
  match s.test.loop with
  | none => .next s
  | some t =>
    if t.waiting || s.aonNs < t.deadline || !s.running then .next s
    else
      let b := min (s.num 0xD10007 + bits) (2 ^ 64 - 1)
      let e := min (s.num 0xD10008 + errors) b
      let s := (s.setNum 0xD10007 b).setNum 0xD10008 e
      let s := if errors = 0 || s.num 0xD1000A ≠ 0 then s else s.setNum 0xD1000A firstError
      .next (s.endLoop (if s.loopPasses b e then testDone else testFailed))

/-- Steps of one side (R431): timing 32, reference voltage 20 on HBM and 24 on bulk. -/
def State.sideSteps (s : State) (edge : Nat) : Nat := if edge < 4 then 32 else if s.num 0xD20002 < 0x8000 then 20 else 24

/-- An edge as R434 signs it: left and low are negative. -/
def edgeValue (edge best : Nat) : Int := if edge % 2 = 0 then -(best : Int) else best

/-- One side is done: its edge is noted, and the next side starts, or the scan ends with DONE. -/
def State.sideDone (t : TestRun) (best : Nat) (s : State) : State :=
  let es := t.edges ++ [edgeValue t.setting best]
  if t.setting = 7 then
    ((s.setBlob 0xD20005 (es.flatMap fun x => natLE 2 (unsigned 16 x))).bump 0xD20006).endMargin testDone
  else { s with test := { s.test with margin := some { t with setting := t.setting + 1, step := 1, best := 0, edges := es } } }

/-- MARGIN_STEP (R431). -/
def execMarginStep (pass : Bool) (s : State) : Result :=
  match s.test.margin with
  | none => .next s
  | some t =>
    if t.waiting || !s.running then .next s
    else if !pass then .next (s.sideDone t t.best)
    else if t.step = s.sideSteps t.setting then .next (s.sideDone t t.step)
    else .next { s with test := { s.test with margin := some { t with step := t.step + 1, best := t.step } } }

end Sys2Proof.Machine
end

