-- ==== Sys2Proof/Machine/Functions.lean ====
section
/-!
DEFINITION. Switchable functions (R57, R361, R362): what each refuses, what its start and stop do, and when a stop is complete.
-/

namespace Sys2Proof.Machine

/-! ## Refusals of the functions' own rules -/

/-- An entry's target keeps its kind's encoding (R58). -/
def targetOk (kind t : Nat) : Bool :=
  match kind with
  | 1 | 2 | 6 => t = 0
  | 3 => t = 0 || t / 0x10000 = 1
  | 4 => t < 0x1000
  | 5 => t < 0x1000 || (t / 0x10000000 = 1 && t % 0x10000000 < 0x1000000)
  | _ => true

/-- An entry's fields keep the ranges of R54, and its target its encoding (R56, R58). -/
def State.calFieldsOk (s : State) (n : Nat) : Bool :=
  let k := s.calKind n
  let p := s.calPeriod n
  let l := s.calLength n
  p % 1000 = 0 && 10000 ≤ p && p ≤ 3600000000000 && s.calPhase n < p && targetOk k (s.calTarget n) &&
    (if isWindow k then 1000 ≤ l && l ≤ p else if k = 0 then l ≤ p else l = 0) && (k ≠ 1 || 100000 ≤ p)

/-- The code with which a write of ON from OFF is refused; calendar entries 0x07 to 0x0F stay OFF (R56, R58, R219, R284, R428, R432, R433). -/
def State.startRefusal (s : State) (i : Nat) : Option Nat :=
  if 0x2100 ≤ i && i ≤ 0x217F then
    (if s.calFieldsOk (i - 0x2100) && !(0x2107 ≤ i && i ≤ 0x210F) then none else some rState)
  else if i = 0x3400 then (if s.lendRefused then some rState else none)
  else if i = 0x4100 then (if s.journalReady then none else some rState)
  else if i = 0xD100 then
    if !depthOk s.loopPort s.loopDepth || !s.loopPresent then some rRange
    else if s.testBusy || !s.loopReady then some rState
    else none
  else if i = 0xD200 then
    if !s.marginPresent then some rRange else if s.testBusy || !s.marginReady then some rState else none
  else none

/-- A write of ON to a function that is STOPPING is refused with STATE as one from OFF is (R362). DEDUCED (log entry 32): of the lend
window only source BULK on a part without a bulk ring is refused here (R284); the free bytes are those of the start itself. -/
def State.restartRefused (s : State) (i : Nat) : Bool :=
  if i = 0x3400 then s.lendTier = 1 && !s.chip.bulkRing else s.startRefusal i = some rState

/-! ## Starting -/

/-- A calendar entry holds the schedule its start uses. -/
def State.calBegin (n : Nat) (s : State) : State := s.setCal n (s.adopt n {})

/-- A calendar entry comes into service with that schedule; one written since takes its turn after the next occurrence
(R56). -/
def State.calStarted (n : Nat) (s : State) : State :=
  let s := s.setNum (key (calIndex n) 8) 0
  if !s.calFires n then s
  else
    let old := s.calEntry n
    let s := s.setCal n { old with next := some (old.nextFrom (s.windowEntry n) s.now) }
    let e := s.calEntry n
    let s := if s.adopt n e = e then s else s.calChanged n
    match if s.windowEntry n then old.holding s.now else none with
    | some t => s.openWindow n t
    | none => s

/-- A start that is under way cannot complete (R362). -/
def State.failing1 (i : Nat) (s : State) : State := { s with failing := insertNat i s.failing }

/-- A function leaves OFF or STOPPING: the settings it uses are those accepted now. -/
def State.startBegins (i : Nat) (s : State) : State :=
  let s := { s with failing := s.failing.filter (· ≠ i) }
  if 0x2100 ≤ i && i ≤ 0x217F then s.calBegin (i - 0x2100)
  else if i = 0x3400 then (match s.lendStart with | some t => t | none => s.failing1 i)
  else if i = 0x4100 then s.journalStart
  else if i = 0xB030 then (if s.num 0x100602 = 0 || s.num 0xB03002 = 0 then s.failing1 i else s)
  else if i = 0xD100 then s.testBegins true
  else if i = 0xD200 then s.testBegins false
  else s

/-- What a function does as it reaches ON. -/
def State.startEnds (i : Nat) (s : State) : State :=
  if 0x2100 ≤ i && i ≤ 0x217F then s.calStarted (i - 0x2100)
  else if i = 0x3400 then s.lendStarted
  else if i = 0x4100 then s.journalStarted.resumeJobs
  else if 0x8010 ≤ i && i ≤ 0x802F then s.linkStart (i - 0x8010)
  else if i = 0xD100 then s.testStarts true
  else if i = 0xD200 then s.testStarts false
  else s

/-- What a start that fails leaves behind. -/
def State.startUndone (i : Nat) (s : State) : State :=
  if i = 0x3400 then s.release ownerLend
  else if i = 0x4100 then s.release ownerJournal
  else if i = 0xD100 then s.closeLoop testCut
  else if i = 0xD200 then s.closeMargin testCut
  else if 0x2100 ≤ i && i ≤ 0x217F then s.calDisarm (i - 0x2100)
  else s

/-! ## Stopping -/

/-- A function enters STOPPING (R57, R223, R252, R285, R290, R428, R431). -/
def State.stopBegins (i : Nat) (s : State) : State :=
  if i = 0x4100 then s.journalStop
  else if i = 0x7020 then s.endRuns runCancelled
  else if 0x8010 ≤ i && i ≤ 0x802F then s.mapLink (i - 0x8010) fun l => { l with stopAt := s.aonNs }
  else if i = 0xD100 then s.closeLoop testCut
  else if i = 0xD200 then s.closeMargin testCut
  else s

/-- The stop has nothing left to wait for. -/
def State.stopReady (s : State) (i : Nat) : Bool :=
  if 0x2100 ≤ i && i ≤ 0x217F then (s.calEntry (i - 0x2100)).openUntil.all (· ≤ s.now)
  else if i = 0x4100 then s.journalIdle
  else if i = 0x7020 then s.tun.run.isNone
  else if 0x8010 ≤ i && i ≤ 0x802F then
    !(s.fabric.outstanding.any fun (r : Req) => r.link = i - 0x8010) || (s.link (i - 0x8010)).stopAt + s.num 0x810003 ≤ s.aonNs
  else true

/-- What a function does as it reaches OFF. -/
def State.stopEnds (i : Nat) (s : State) : State :=
  if 0x2100 ≤ i && i ≤ 0x217F then
    (if (s.calEntry (i - 0x2100)).openUntil.isSome then s.closeWindow (i - 0x2100) else s).calDisarm (i - 0x2100)
  else if i = 0x3400 then s.lendStopped
  else if i = 0x4100 then s.release ownerJournal
  else if 0x8010 ≤ i && i ≤ 0x802F then s.linkDown (i - 0x8010) .disabled
  else if i = 0xB030 then s.sendTraces
  else s

/-! ## The table of R362 -/

/-- A function enters STARTING. -/
def State.goStarting (i : Nat) (s : State) : State := (s.setSw i ⟨.starting, none⟩).startBegins i

/-- A function enters STOPPING. -/
def State.goStopping (i : Nat) (s : State) : State := (s.setSw i ⟨.stopping, none⟩).stopBegins i

/-- START_FAILED: the function is OFF, and a pending stop is cleared. -/
def State.startFails (i : Nat) (s : State) : State := ((s.startUndone i).setSw i ⟨.off, none⟩).event 0x6C i 0

/-- A write of ON or OFF to a state sub-index. -/
def State.switchWrite (i : Nat) (on : Bool) (s : State) : State × Nat :=
  let w := s.sw i
  match w.st, on with
  | .off, true =>
    match s.startRefusal i with
    | some r => (s, r)
    | none => (s.goStarting i, rOk)
  | .off, false => (s, if i = 0x2100 then rState else rOk)
  | .starting, true => (s.setSw i ⟨.starting, none⟩, rOk)
  | .starting, false => if i = 0x2100 then (s, rState) else (s.setSw i ⟨.starting, some false⟩, rDeferred)
  | .on, true => (s, rOk)
  | .on, false => if i = 0x2100 then (s, rState) else (s.goStopping i, rOk)
  | .stopping, true => if s.restartRefused i then (s, rState) else (s.setSw i ⟨.stopping, some true⟩, rDeferred)
  | .stopping, false => (s.setSw i ⟨.stopping, none⟩, rOk)

/-- FUNCTION_START_COMPLETE (R362): ON, or OFF and START_FAILED; a pending stop then begins. -/
def execFunctionStartComplete (index : BitVec 16) (ok : Bool) (s : State) : Result :=
  let i := index.toNat
  let w := s.sw i
  if !switchable i || w.st != .starting || !s.running then .next s
  else if !ok || s.failing.contains i then .next (s.startFails i)
  else
    let s := (s.setSw i ⟨.on, none⟩).startEnds i
    .next (if w.pend = some false then s.goStopping i else s)

/-- FUNCTION_STOP_COMPLETE (R362): OFF, and a pending start then begins, unless the function's own rules refuse it. -/
def execFunctionStopComplete (index : BitVec 16) (s : State) : Result :=
  let i := index.toNat
  let w := s.sw i
  if !switchable i || w.st != .stopping || !s.running || !s.stopReady i then .next s
  else
    let s := (s.stopEnds i).setSw i ⟨.off, none⟩
    if w.pend ≠ some true then .next s
    else if (s.startRefusal i).isSome then .next (s.event 0x6C i 0)
    else .next (s.goStarting i)

end Sys2Proof.Machine
end

