-- ==== Sys2Proof/Machine/Ranges.lean ====
section
/-!
DEFINITION. What a value must be to be stored in an entry (R355, the ranges of the entry tables), and what an entry's own rule
refuses at a moment.
-/

namespace Sys2Proof.Machine

/-! ## Ranges that a pair of bounds does not say -/

/-- −0 is stored as +0 (R355), and a MAINT weight of 0 as 1 (R29). -/
def storedValue (k v : Nat) : Nat :=
  if ((rowOf k).map Row.ty) = some .f32 && v = 0x80000000 then 0
  else if (k = 0x310008 || k = 0x310108) && v = 0 then 1
  else v

/-- A multiple of 16. -/
def by16 (v : Nat) : Bool := v % 16 = 0

/-- A grant's base lies on 4 KiB in HBM, bulk or CXL (R322). -/
def grantBase (v : Nat) : Bool :=
  v % 4096 = 0 && (match regionOf v with | .hbm | .bulk | .cxl => true | _ => false)

/-- The part of an entry's range beyond its bounds. -/
def State.rangeMore (s : State) (k v : Nat) : Bool :=
  match k with
  | 0x320001 | 0x320002 | 0x320003 | 0x503001 | 0x412002 => by16 v
  | 0x330002 => s.num 0x330001 + 5 ≤ v
  | 0x410002 => v % 65536 = 0
  | 0x410004 => v % 65536 = 0 && 0x1000000 ≤ v
  | 0x701102 => -512 ≤ signed 32 v && signed 32 v ≤ 511
  | 0x800001 => v ≤ 0xFFF || v = 0xFFFF
  | 0x830005 => v = 0 || 10000 ≤ v
  | 0xA01001 | 0xA01002 => v = 0 || (100000 ≤ v && v ≤ 4000000000)
  | 0xA01003 => (2 ≤ v && v ≤ 4) || v = 0xFF
  | 0xA03002 => v ≤ 0xFF || v = 0xFFFF
  | 0xA03003 => v ≤ 0xFF
  | 0xD10003 => s.instanceOk (s.num 0xD10002) v
  | 0xD10004 => depthOk (s.num 0xD10002) v
  | 0xD20002 => s.marginTargetOk v
  | 0xD20003 => v % 256 = 0
  | 0xD40005 => v < chainLength (s.num 0xD40003)
  | _ =>
    let i := baseIndex (k / 256)
    if i = 0x2100 then
      match k % 256 with
      | 3 => v < 3600000000000
      | 4 => v % 1000 = 0 && 10000 ≤ v && v ≤ 3600000000000
      | 5 => v = 0 || (1000 ≤ v && v ≤ 3600000000000)
      | _ => true
    else if i = 0x8200 then
      match k % 256 with
      | 2 => grantBase v
      | 3 => v % 4096 = 0
      | _ => true
    else true

/-- A numeric value keeps its type and its entry's range. -/
def State.rangeOk (s : State) (k v : Nat) : Bool :=
  match rowOf k with
  | some r => (r.ty = .i32 || (r.lo ≤ storedValue k v && storedValue k v ≤ r.hi)) && s.rangeMore k v
  | none => false

/-- Ascending and without repeats. -/
def ascending : List Nat → Bool
  | a :: b :: r => a < b && ascending (b :: r)
  | _ => true

/-- The content of a byte-string value keeps its entry's layout (R300, R310, R391, R422, R424). -/
def textOk (k : Nat) (b : Bytes) : Bool :=
  match k with
  | 0x810001 => b.length = 16384 && b.all fun x => x.toNat < 32 || x = 0xFF
  | 0x830002 =>
    let rs := chunks 8 (b.length / 8 + 1) b
    let ns := rs.map fun r => ((chunks 2 5 r).map leNat).filter (· ≠ 0xFFFF)
    b.length % 8 = 0 && ns.all (fun r => r.all (· ≤ 0xFFF)) && pairwiseB (fun x y => !(x.any y.contains)) ns
  | 0xA00006 => b.length = 16
  | 0xE02002 | 0xE02102 =>
    b.length % 16 = 0 && b.length ≤ 256 && ascending ((chunks 16 17 b).map fun r => field r 0 2)
  | _ => true

/-! ## What an entry's own rule refuses (R28 to R447) -/

/-- Entries of a function that can be written only while it is OFF. -/
def onlyWhileOff (k : Nat) : Option Nat :=
  match k with
  | 0x340002 => some 0x3400
  | 0x410002 | 0x410003 | 0x410004 => some 0x4100
  | 0xD10002 | 0xD10003 | 0xD10004 | 0xD10005 => some 0xD100
  | 0xD20002 | 0xD20003 => some 0xD200
  | _ => none

/-- Cache slices left by the partitions' sizes, with `v` in place of one of them (R279). -/
def State.cacheLeft (s : State) (k v : Nat) : Int :=
  let size (e : Nat) : Nat := (if e = k then v else s.num e) / 16
  (onlineOf 32 s.units.slice.toNat : Int) - (1 + size 0x412002 + size 0x320001 + size 0x503001 + size 0x320002 + size 0x320003 : Nat)

/-- A selector may name a collection (R119, R143): a live one, or, for P4010, one whose creation is pending. -/
def State.selectable (s : State) (k v : Nat) : Bool :=
  v = 0xFFFF || (s.coll (BitVec.ofNat 16 v)).isSome ||
    (k = 0x401001 && s.deferred.any fun x => x.coll.d.handle.toNat = v)

/-- A write to a calendar field (R54, R56, R58): the code that refuses it. -/
def State.calRefusal (s : State) (n field v : Nat) : Option Nat :=
  let off := (s.sw (calIndex n)).st == .off
  let kind := s.calKind n
  if field = 2 && (n < 16 || v = 1) then some rState
  else if field = 4 && kind = 1 && v < 100000 then some rRange
  else if off then none
  else if 16 ≤ n || field = 2 || field = 6 then some rState
  else if (s.setNum (key (calIndex n) field) v).calFieldsOk n then none
  else some rRange

/-- The code with which an entry's own rule refuses a numeric value now. -/
def State.ownRule (s : State) (k v : Nat) : Option Nat :=
  let i := k / 256
  let needs (ok : Bool) : Option Nat := if ok then none else some rState
  if 0x2100 ≤ i && i ≤ 0x217F then s.calRefusal (i - 0x2100) (k % 256) v
  else
    match onlyWhileOff k with
    | some f => needs ((s.sw f).st == .off)
    | none =>
      match k with
      | 0x401001 | 0x603001 | 0x830001 => needs (s.selectable k v)
      | 0x412002 | 0x320001 | 0x320002 | 0x320003 => needs (2 ≤ s.cacheLeft k v)
      | 0x503001 => needs (2 ≤ s.cacheLeft k v)
      | 0x503002 => needs (gibBytes v ≤ s.freeBytes 0 + gibBytes (s.num 0x503004))
      | 0x702008 => needs (gibBytes v ≤ s.freeBytes 0 + gibBytes s.chip.arenaGib)
      | 0x800001 => needs ((List.range 32).all fun n => (s.sw (linkIndex n)).st == .off || !s.linkPresent n)
      | 0xE02001 => if s.permitted .a v then none else some rRange
      | 0xE02101 => if s.permitted .b v then none else some rRange
      | 0xE01001 | 0xE01002 | 0xE01004 => needs s.sec.recovery
      | _ => none

/-! ## Bindings (R425) -/

/-- A tenant owns a spool on a port, or a collection that only this port permits. -/
def State.tenantHeld (s : State) (p : Port) (t : Nat) : Bool :=
  (s.spools.sub.any fun x => x.port = p && x.tenant.toNat = t) || (s.spools.comp.any fun x => x.port = p && x.tenant.toNat = t) ||
    ((s.colls.any fun c => c.d.tenant.toNat = t) && (s.upstream.all fun q => q = p || !s.permitted q t))

/-- New bindings leave the port's own tenant out, so that its entry would be out of range (R426; log entry 32, DEDUCED). -/
def State.bindingsShort (s : State) (p : Port) (b : Bytes) : Bool :=
  !(((chunks 16 17 b).map readPermit).any fun y => y.tenant = s.num (bindKey p - 1))

/-- New bindings remove a tenant that is held, or shrink its fence (R425). -/
def State.bindingsRefused (s : State) (p : Port) (b : Bytes) : Bool :=
  let new := (chunks 16 17 b).map readPermit
  (s.permits p).any fun x =>
    s.tenantHeld p x.tenant && !(new.any fun y => y.tenant = x.tenant && inside x.base x.length y.base y.length)

/-- Write a port's bindings (R425, R426). -/
def State.writeBindings (s : State) (p : Port) (b : Bytes) : State × Nat :=
  if s.bindingsShort p b then (s, rRange)
  else if s.bindingsRefused p b then (s, rState)
  else (s.setBlob (bindKey p) b, rOk)

end Sys2Proof.Machine
end

