-- ==== Sys2Proof/Machine/Retain.lean ====
section
/-!
DEFINITION. Retained values (R363 to R368): the copies and their layout, commits, the writing of a copy, and the restore at
start-up.
-/

namespace Sys2Proof.Machine

/-! ## The layout of a copy (R364) -/

/-- One record. -/
def RetRecord.bytes (r : RetRecord) : Bytes :=
  padMul 8 (natLE 2 (r.key / 256) ++ natLE 1 (r.key % 256) ++ [r.type] ++ natLE 2 r.value.length ++ zeros 2 ++ r.value)

/-- The body. -/
def RetCopy.body (c : RetCopy) : Bytes := c.records.flatMap RetRecord.bytes

/-- The header and the body. -/
def RetCopy.bytes (c : RetCopy) : Bytes :=
  let b := c.body
  let h := natLE 4 0x52544B5A ++ natLE 2 1 ++ zeros 2 ++ natLE 4 c.sequence ++ natLE 4 c.records.length ++ natLE 4 b.length ++
    natLE 4 (crc32c b).toNat ++ natLE 8 c.committed ++ natLE 4 c.firmware.toNat ++ zeros 24
  h ++ natLE 4 (crc32c h).toNat ++ b

/-! ## Commits (R363, R366, R367) -/

/-- The keys of every RWR entry present, in ascending order. -/
def State.retainedKeys (s : State) : List Nat :=
  (allIndices.filter s.indexPresent).flatMap fun i =>
    (((look rowTable (baseIndex i)).getD []).filter fun r => r.access = .rwr).map fun r => key i r.sub

/-- The record of an entry: the value last accepted. -/
def State.retRecord (s : State) (k : Nat) : Option RetRecord :=
  (rowOf k).map fun r => ⟨k, r.ty.code, match r.ty.size with | some n => natLE n (s.num k) | none => s.text 65536 k⟩

/-- Capture a copy (R366): it holds every RWR value, or nothing for a factory reset (R368). -/
def State.captureCopy (s : State) (sequence : Nat) (empty : Bool) : RetCopy :=
  ⟨sequence, s.stamp, s.sec.firmware, if empty then [] else s.retainedKeys.filterMap s.retRecord⟩

/-- Change the contents of SPI_RET_A, or of SPI_RET_B. -/
def Retention.mapFlash (a : Bool) (f : Memory → Memory) (r : Retention) : Retention :=
  if a then { r with flashA := f r.flashA } else { r with flashB := f r.flashB }

/-- Erase the area of a copy, 1 MiB (R364, R366). -/
def State.eraseCopy (toA : Bool) (s : State) : State :=
  let p := s.copyPlace toA
  { s with ret := s.ret.mapFlash p.1 (Memory.drop fun x => p.2 ≤ x && x < p.2 + 0x100000) }

/-- The bytes of a copy lie in its area: its body, and its header last (R366). -/
def State.storeCopy (toA : Bool) (c : RetCopy) (s : State) : State :=
  let p := s.copyPlace toA
  { s with ret := s.ret.mapFlash p.1 (Memory.write p.2 c.bytes) }

/-- Start to write a copy over the one that is not the newer valid one: its area is erased. -/
def State.startCopy (sequence : Nat) (empty : Bool) (s : State) : State :=
  let toA := s.newerCopy.isNone || s.newerB
  let t := s.eraseCopy toA
  ({ t with ret := { t.ret with writing := some ⟨toA, s.captureCopy sequence empty, false⟩, failed := false } }).setNum 0x100304 0

/-- A commit, or a factory reset: the state after, the result code and the sequence. One accepted while a copy is being written
is queued, or joins the one that is. -/
def State.commit (empty : Bool) (s : State) : State × Nat × Nat :=
  if !s.hasFlash then (s, rState, 0)
  else
    match s.ret.writing, s.ret.pending with
    | none, _ =>
      let q := (s.newerCopy.map RetCopy.sequence).getD 0 + 1
      (s.startCopy q empty, rOk, q)
    | some w, none =>
      let q := w.copy.sequence + 1
      ({ s with ret := { s.ret with pending := some (q, empty) } }, rDeferred, q)
    | some _, some (q, _) => ({ s with ret := { s.ret with pending := some (q, empty) } }, rDeferred, q)

/-- The write that ends lets the pending commit capture its values. -/
def State.nextCopy (s : State) : State :=
  match s.ret.pending with
  | some (q, empty) => ({ s with ret := { s.ret with pending := none } }).startCopy q empty
  | none => s

/-! ## Restore at start-up (R365) -/

/-- Take one record; one that names no RWR entry of its type, or breaks the entry's range, is counted in P1003.09. -/
def State.restoreRecord (s : State) (r : RetRecord) : State :=
  let reject := s.bump 0x100309
  match s.row r.key with
  | none => reject
  | some e =>
    if e.access ≠ .rwr || e.ty.code ≠ r.type then reject
    else
      match e.ty.size with
      | some n => if r.value.length = n && s.rangeOk r.key (leNat r.value) then s.setNum r.key (storedValue r.key (leNat r.value)) else reject
      | none => if textOk r.key r.value then s.setBlob r.key r.value else reject

/-- RETAINED_RESTORE: every entry is at its default already, and the newer valid copy's records are taken in order. Measurement
block 6 of R423 digests the body restored. -/
def State.retainedRestore (s : State) : State :=
  let s := if s.chip.flashA != s.chip.flashB then s.event 0x69 0xFFFF 0 else s
  match s.newerCopy with
  | none =>
    let s := { s with ret := { s.ret with defaults := true, restored := 0 }, sec := { s.sec with block6 := zeros 48 } }
    s.event 0x68 0xFFFF 0
  | some c =>
    let s := { s with ret := { s.ret with defaults := false, restored := c.sequence },
                      sec := { s.sec with block6 := Config.sha384 c.body } }
    let s := c.records.foldl State.restoreRecord s
    if 0 < s.num 0x100309 then s.event 0x6A 0xFFFF 0 else s

end Sys2Proof.Machine
end

