-- ==== Sys2Proof/Machine/Security.lean ====
section
/-!
DEFINITION. Firmware and identity (R412, R416 to R423): verifying and choosing an image, the security record, firmware update,
recovery, and the SPDM responder.
-/

namespace Sys2Proof.Machine

/-! ## Images (R418) -/

/-- Bytes of a firmware slot. -/
def slotBytes : Nat := 15 * 2 ^ 20

/-- A slot's flash is there: image A lies in the first flash, image B in either (R413). -/
def State.slotThere (s : State) (b : Bool) : Bool := s.chip.flashA || (b && s.chip.flashB)

/-- A slot's contents. -/
def State.slot (s : State) (b : Bool) : Memory := if !s.slotThere b then [] else if b then s.sec.slotB else s.sec.slotA

/-- The slot holds the magic. -/
def holdsMagic (m : Memory) : Bool := leNat (m.read 0 4) = 0x4D494B5A

/-- The header's fields are right. -/
def headerOk (h : Bytes) : Bool := field h 0 4 = 0x4D494B5A && field h 4 2 = 1 && field h 0x10 4 ≤ 15720448

/-- The steps of R418, under a policy and a lowest SVN. -/
def verifyImage (either : Bool) (minSvn : Nat) (m : Memory) : Bool :=
  let h := m.read 0 8192
  headerOk h && Config.sha256 (sub h 0x80 384) = Config.romRsaDigest && Config.sha256 (sub h 0x200 1952) = Config.romMldsaDigest &&
    Config.sha256 (m.read 8192 (field h 0x10 4)) = sub h 0x20 32 &&
    (let rsa := Config.rsaPssVerify (sub h 0x80 384) (h.take 128) (sub h 0x9A0 384)
     let mldsa := Config.mldsaVerify (sub h 0x200 1952) (h.take 128) (sub h 0xB20 3309)
     if either then rsa || mldsa else rsa && mldsa) &&
    minSvn ≤ field h 0xC 4

/-- A slot verifies under the policy in effect and the security record's min_svn, which a raise changes at once (R420). -/
def State.slotVerifies (s : State) (b : Bool) : Bool := verifyImage s.sec.policyInEffect s.sec.record.minSvn (s.slot b)

/-! ## The security record (R420) -/

/-- The identity record that is read: of the first flash that holds a valid one (R413, R417). -/
def State.idRecord (s : State) : Option IdentityRecord :=
  (if s.chip.flashA then s.chip.idA else none).orElse fun _ => if s.chip.flashB then s.chip.idB else none

/-- The device secret (R416). -/
def State.pufSecret (s : State) : BitVec 256 := Config.pufSecret ((s.idRecord.map IdentityRecord.helper).getD [])

/-- The record key (R416). -/
def State.recordKey (s : State) : Bytes := Config.deriveKey s.pufSecret 2 []

/-- The bytes of a record that its HMAC covers (log entry 34). -/
def SecRecord.bytes (r : SecRecord) : Bytes :=
  natLE 4 r.sequence ++ natLE 4 r.minSvn ++ natLE 1 (bitIf r.activeB 0 + bitIf r.trial 1 + bitIf r.trialStarted 2 + bitIf r.either 3)

/-- A record authenticated for its area. -/
def State.signRecord (s : State) (r : SecRecord) : SecArea := ⟨r, Config.hmacSha256 s.recordKey r.bytes⟩

/-- An area holds a valid record. -/
def State.areaValid (s : State) (a : Option SecArea) : Option SecRecord :=
  a.bind fun x => if x.mac = Config.hmacSha256 s.recordKey x.record.bytes then some x.record else none

/-- Bytes of time that a write of the record takes, ns (R420: about 100 ms). -/
def recordNs : Nat := 100000000

/-- The area that the next write goes to: the other one, in turn, where the flash that it lies in is there. -/
def State.nextArea (s : State) : Bool := if s.sec.lastB then !s.slotThere false else s.slotThere true

/-- A record is written to the areas in turn, after what is being written. -/
def State.writeRecord (r : SecRecord) (s : State) : State :=
  if !s.hasFlash then s
  else
    let toB := s.nextArea
    let began := max s.aonNs ((s.sec.writes.getLast?.map SecWrite.due).getD 0)
    { s with sec := { s.sec with writes := s.sec.writes ++ [⟨toB, s.signRecord r, began + recordNs⟩], lastB := toB } }

/-- Replace an area. -/
def Security.setArea (b : Bool) (a : Option SecArea) (x : Security) : Security := if b then { x with areaB := a } else { x with areaA := a }

/-- The writes that have ended by a time stand in their areas; one under way leaves its area invalid. -/
def Security.landed (t : Nat) (x : Security) : Security :=
  x.writes.foldl (fun y w => if w.due ≤ t then y.setArea w.toB (some w.area) else if w.due < t + recordNs then y.setArea w.toB none else y)
    { x with writes := [] }

/-- Every write under way ends, as it does while VAUX stays (R415). -/
def Security.landAll (x : Security) : Security := x.landed ((x.writes.map SecWrite.due).foldl max 0)

/-- Rewrite the record. -/
def State.setRecord (f : SecRecord → SecRecord) (s : State) : State :=
  let r := { f s.sec.record with sequence := (f s.sec.record).sequence + 1 }
  ({ s with sec := { s.sec with record := r } }).writeRecord r

/-- Read the record at BOOT: of two valid ones that with the higher sequence, and with none the defaults hold (R420). Measurement block 5
digests it. -/
def State.readRecord (s : State) : State :=
  let a := if s.slotThere false then s.areaValid s.sec.areaA else none
  let b := if s.slotThere true then s.areaValid s.sec.areaB else none
  let fromB := match a, b with
    | some x, some y => decide (x.sequence < y.sequence)
    | _, b => b.isSome
  let r : SecRecord := ((if fromB then b else a)).getD {}
  { s with sec := { s.sec with record := r, lastB := fromB || a.isNone, policyInEffect := r.either, activeAtBoot := r.activeB,
                               block5 := Config.sha384 r.bytes } }

/-! ## Choosing an image (R412, R419) -/

/-- Verify both slots; each that holds the magic and fails raises FIRMWARE_IMAGE_INVALID. -/
def State.verifySlots (s : State) : State :=
  let one (b : Bool) (s : State) : State :=
    if holdsMagic (s.slot b) && !s.slotVerifies b then s.event 0x78 (bitIf b 0) 0 else s
  let s := { s with sec := { s.sec with verifiedA := s.slotVerifies false, verifiedB := s.slotVerifies true } }
  one true (one false s)

/-- The slots to try, in order, and the record as the trial leaves it. -/
def State.bootOrder (s : State) : List Bool × State :=
  let r := s.sec.record
  if s.dev.straps = 1 then ([false], s)
  else if s.dev.straps = 2 then ([true], s)
  else
    let f := if r.trial && r.trialStarted then !r.activeB else r.activeB
    let s :=
      if r.trial && r.trialStarted then s.setRecord fun r => { r with activeB := !r.activeB, trial := false, trialStarted := false }
      else if r.trial then s.setRecord fun r => { r with trialStarted := true }
      else s
    ([f, !f], s)

/-- The payload of a slot's image. -/
def State.payload (s : State) (b : Bool) : Bytes := (s.slot b).read 8192 (field ((s.slot b).read 0 128) 0x10 4)

/-- The digest of the Phiug image that runs (R416). -/
def State.phiugDigest (s : State) : Bytes :=
  match s.sec.running with
  | some b => Config.sha384 (Config.firmwareSection true (s.payload b))
  | none => []

/-- What BOOT derives and reads of the identity record (R414, R416, R417): OK, MISMATCH or ABSENT for PE000.0A, and the Alias
certificate. -/
def State.deriveKeys (s : State) : State :=
  let d := Config.deriveKey s.pufSecret 1 []
  let a := Config.deriveKey s.pufSecret 3 s.phiugDigest
  let r := s.idRecord
  { s with sec := { s.sec with
    identity := match r with | some x => (if x.keyMatches then 0 else 1) | none => 2
    mac := (r.map IdentityRecord.mac).getD 0, serial := (r.map IdentityRecord.serial).getD []
    chain := (r.map IdentityRecord.chain).getD []
    keys := some ⟨s.pufSecret, d, s.recordKey, a, Config.aliasCertificate d a⟩ } }

/-- Run an image: what it reports comes from its header. -/
def State.runImage (b : Bool) (s : State) : State :=
  let h := (s.slot b).read 0 128
  { s with sec := { s.sec with running := some b, svn := BitVec.ofNat 32 (field h 0xC 4), firmware := BitVec.ofNat 32 (field h 8 4),
                               fallback := b != s.sec.activeAtBoot } }

/-- No image runs yet. -/
def State.clearImage (s : State) : State :=
  { s with sec := { s.sec with running := none, svn := 0, firmware := 0, fallback := false, recovery := false } }

/-- The first slot of an order that verifies. -/
def State.firstGood (s : State) (order : List Bool) : Option Bool :=
  order.find? fun b => if b then s.sec.verifiedB else s.sec.verifiedA

/-- Run the first slot of the order that verifies, or raise NO_FIRMWARE. -/
def State.runFirst (order : List Bool) (s : State) : State :=
  match s.firstGood order with
  | some b => s.runImage b
  | none => s.raise 0x79 0xFFFF 0 none

/-- FIRMWARE_SELECT (R419): recovery, an image, or NO_FIRMWARE. A change of the activation fields is in flash before the image starts. -/
def State.selectFirmware (s : State) : State :=
  let s := s.readRecord.clearImage.verifySlots
  if s.dev.straps = 3 then { s with sec := { s.sec with recovery := true } }
  else
    let t := s.bootOrder.2
    ({ t with sec := t.sec.landAll }).runFirst s.bootOrder.1

/-- Reaching READY-EMPTY clears trial and trial_started. -/
def State.endTrial (s : State) : State :=
  if s.sec.record.trial then s.setRecord fun r => { r with trial := false, trialStarted := false } else s

/-! ## Writes of the security entries (R420 to R422) -/

/-- A write of PE000.02. -/
def State.setPolicy (v : Nat) (s : State) : State := s.setRecord fun r => { r with either := v = 1 }

/-- A write of 1 to PE000.08. -/
def State.commitSvn (s : State) : State := s.setRecord fun r => { r with minSvn := max r.minSvn s.sec.svn.toNat }

/-- Write bytes into a slot. -/
def State.writeSlot (b : Bool) (off : Nat) (data : Bytes) (s : State) : State :=
  if !s.slotThere b then s
  else if b then { s with sec := { s.sec with slotB := s.sec.slotB.write off data } }
  else { s with sec := { s.sec with slotA := s.sec.slotA.write off data } }

/-- The slot of PE010.01. -/
def State.recoverySlot (s : State) : Bool := s.num 0xE01001 = 1

/-- A write of 1 to PE010.04. -/
def State.recoveryVerify (s : State) : State :=
  { s with sec := { s.sec with recoveryStatus := if s.slotVerifies s.recoverySlot then 1 else 2 } }

/-! ## Firmware update (R421) -/

/-- Slot 1 is image A, slot 2 image B. -/
def fwSlot (n : Byte) : Option Bool := if n = 1 then some false else if n = 2 then some true else none

/-- The last part has arrived: the slot is verified; one that fails is left holding the magic. -/
def State.fwFinish (p : Port) (b : Bool) (s : State) : State :=
  let s := { s with ports := { s.ports with fw := none } }
  if s.slotVerifies b then s.ok p [] else (s.writeSlot b 0 (natLE 4 0x4D494B5A)).reply p .fwVerificationFailed 0 []

/-- TRANSFER_FW (R421). A part out of its slot is a field out of range (log entry 32). -/
def execTransferFw (p : Port) (action : FwAction) (slot : Byte) (offset : Nat) (data : Bytes) (s : State) : Result :=
  s.onMailbox p true fun s =>
    let fits := offset + data.length ≤ slotBytes
    let begin_ (f : Bool → State → State) : State :=
      match fwSlot slot with
      | none => s.reply p .invalidSlot 0 []
      | some b =>
        if s.sec.running = some b then s.reply p .invalidSlot 0 []
        else if s.ports.fw.isSome then s.reply p .fwTransferInProgress 0 []
        else if !fits then s.deny p .field
        else f b (s.writeSlot b offset data)
    let more (f : FwTransfer → State → State) : State :=
      match s.ports.fw with
      | none => s.reply p .fwOutOfOrder 0 []
      | some t =>
        if t.port ≠ p then s.reply p .fwTransferInProgress 0 []
        else if offset ≠ t.next then s.reply p .fwOutOfOrder 0 []
        else if !fits then s.deny p .field
        else f t (s.writeSlot t.slotB offset data)
    match action with
    | .full => begin_ fun b s => s.fwFinish p b
    | .initiate => begin_ fun b s => { s with ports := { s.ports with fw := some ⟨p, b, offset + data.length⟩ } }.ok p []
    | .continue => more fun t s => { s with ports := { s.ports with fw := some { t with next := offset + data.length } } }.ok p []
    | .finish => more fun t s => s.fwFinish p t.slotB
    | .abort =>
      match s.ports.fw with
      | some t => if t.port = p then { s with ports := { s.ports with fw := none } }.ok p [] else s.reply p .fwTransferInProgress 0 []
      | none => s.reply p .fwOutOfOrder 0 []

/-- ACTIVATE_FW (R421). -/
def execActivateFw (p : Port) (online : Bool) (slot : Byte) (s : State) : Result :=
  s.onMailbox p true fun s =>
    if online then s.reply p .unsupported 0 []
    else
      match fwSlot slot with
      | none => s.reply p .invalidSlot 0 []
      | some b =>
        if s.sec.running = some b then s.ok p []
        else (s.setRecord fun r => { r with activeB := b, trial := true, trialStarted := false }).ok p []

/-- The firmware_version of a slot. -/
def State.slotVersion (s : State) (b : Bool) : Bytes := (s.slot b).read 8 4

/-- GET_FW_INFO (R421), in the layout of CXL 3.1 (log entry 13). -/
def execGetFwInfo (p : Port) (s : State) : Result :=
  s.onMailbox p true fun s =>
    let run := match s.sec.running with | some b => 1 + bitIf b 0 | none => 0
    let active := 1 + bitIf s.sec.record.activeB 0
    s.ok p (natLE 1 2 ++ natLE 1 (run + 8 * active) ++ zeros 14 ++ padTo 16 (s.slotVersion false) ++ padTo 16 (s.slotVersion true) ++ zeros 32)

/-! ## SPDM (R417, R423) -/

/-- The measurement blocks of R423; blocks 2 to 4 with no image running are open values (log entry 12). -/
def State.measurement (s : State) (i : Nat) : Bytes :=
  match i with
  | 1 => Config.sha384 Config.securityRom
  | 2 => match s.sec.running with | some b => Config.sha384 ((s.slot b).read 0 128) | none => Config.spdmBytes 2
  | 3 => match s.sec.running with | some b => Config.sha384 (Config.firmwareSection false (s.payload b)) | none => Config.spdmBytes 3
  | 4 => match s.sec.running with | some _ => s.phiugDigest | none => Config.spdmBytes 4
  | 5 => s.sec.block5
  | 6 => s.sec.block6
  | 7 => natLE 1 s.dev.straps.toNat ++ natLE 1 (match s.sec.running with | some b => bitIf b 0 | none => 0xFF) ++
      natLE 1 (bitIf s.sec.fallback 0) ++ natLE 1 (bitIf s.sec.policyInEffect 0)
  | 8 => Config.sha384 (s.text 65536 0xE02002 ++ s.text 65536 0xE02102)
  | _ => []

/-- SPDM error codes: InvalidRequest, Unspecified, UnsupportedRequest (log entry 12). -/
def spdmInvalid : Byte := 0x01
/-- Unspecified. -/
def spdmUnspecified : Byte := 0x05
/-- UnsupportedRequest. -/
def spdmUnsupported : Byte := 0x07

/-- The request is one that an identity that is not OK answers with Unspecified (R417). -/
def needsIdentity : SpdmRequest → Bool
  | .getCertificate _ | .challenge _ | .getMeasurements _ true => true
  | _ => false

/-- The certificate slot a request names. -/
def spdmSlot : SpdmRequest → Byte
  | .getCertificate n | .challenge n | .keyExchange n | .setCertificate n => n
  | _ => 0

/-- The SPDM responder is reachable: over MCTP from BOOT on, over a DOE mailbox once the port's link is trained and while the
device is not frozen (R414, R423, R441). -/
def State.spdmHeard (s : State) : Source → Bool
  | .mailbox p => s.upstream.contains p && !s.dev.frozen && s.dev.st != .off && s.dev.st != .boot && (s.port p).linkState = 2
  | .mctp _ => s.dev.st != .off
  | _ => false

/-- The protocols of the DOE mailbox (R352): vendor and protocol, as PCI Express and CXL 3.1 number Discovery, CMA/SPDM, secured
CMA/SPDM and CDAT (log entry 13). -/
def doeProtocols : List (Nat × Nat) := [(1, 0), (1, 1), (1, 2), (0x1E98, 2)]

/-- The answer to Discovery for an index: the protocol, and the index of the next, 0 after the last (log entry 13). -/
def doeAnswer (i : Nat) : Bytes :=
  match doeProtocols[i]? with
  | some x => natLE 2 x.1 ++ natLE 1 x.2 ++ natLE 1 (if i + 1 < doeProtocols.length then i + 1 else 0)
  | none => natLE 2 0xFFFF ++ [0, 0]

/-- The windows of R327 on a port; LEND exists on Port A only. -/
def portWindows (p : Port) : List (Nat × Nat) := if p = .a then windowSpans else windowSpans.eraseIdx 3

/-- The DSMAS entry of a window: its number as the handle, its base and its span (log entry 13). -/
def dsmasBytes (n : Nat) (w : Nat × Nat) : Bytes :=
  [0, 0] ++ natLE 2 24 ++ natLE 1 n ++ zeros 3 ++ natLE 8 w.1 ++ natLE 8 w.2

/-- The entries of a port's CDAT: its header, whose checksum makes the bytes of the table sum to 0, and one DSMAS per window (R352; log
entry 13). -/
def cdatEntries (p : Port) : List Bytes :=
  let l := (portWindows p).zipIdx.map fun x => dsmasBytes x.2 x.1
  let h (c : Byte) : Bytes := natLE 4 (16 + 24 * l.length) ++ [1, c] ++ zeros 10
  let sum := ((h 0 ++ l.flatten).map BitVec.toNat).sum
  h (BitVec.ofNat 8 (256 - sum % 256)) :: l

/-- The answer to a read of a CDAT entry: the handle of the next, all ones after the last, and the entry. -/
def cdatAnswer (p : Port) (n : Nat) : Bytes :=
  let l := cdatEntries p
  [0, 0] ++ natLE 2 (if n + 1 < l.length then n + 1 else 0xFFFF) ++ (l[n]?).getD []

/-- An answer whose bytes are open. -/
def State.spdmOpen (via : Source) (lead : Bytes) (s : State) : State :=
  (s.emit (.spdm via false (lead ++ Config.spdmBytes s.free))).spend

/-- The certificates of slot 0: the chain of the identity record with the Alias certificate of this BOOT (R417). -/
def State.certificates (s : State) : Bytes := s.sec.chain ++ (s.sec.keys.map SecKeys.aliasCert).getD []

/-- A session of a transport begins or ends. -/
def State.setSession (via : Source) (on : Bool) (s : State) : State :=
  let l := s.sec.sessions.filter (· ≠ via)
  { s with sec := { s.sec with sessions := if on then via :: l else l } }

/-- SPDM_REQUEST (R417, R423). VENDOR_DEFINED (0xFE) in a session over a port's DOE mailbox is IDE_KM setting the keys, which
establishes the port's IDE streams (R352; log entry 12). -/
def execSpdmRequest (via : Source) (r : SpdmRequest) (s : State) : Result :=
  if !s.spdmHeard via then .next s
  else if needsIdentity r && s.sec.identity ≠ 0 then .next (s.emit (.spdm via true [spdmUnspecified]))
  else if spdmSlot r ≠ 0 && (match r with | .setCertificate _ => false | _ => true) then .next (s.emit (.spdm via true [spdmInvalid]))
  else
    match r with
    | .doeDiscovery i =>
      match via with
      | .mailbox _ => .next (s.emit (.spdm via false (doeAnswer i)))
      | _ => .next (s.emit (.spdm via true [spdmUnsupported]))
    | .cdat n =>
      match via with
      | .mailbox p => .next (s.emit (.spdm via false (cdatAnswer p n)))
      | _ => .next (s.emit (.spdm via true [spdmUnsupported]))
    | .setCertificate _ => .next (s.emit (.spdm via true [spdmUnsupported]))
    | .getMeasurements i signed =>
      if i = 0 then .next (s.emit (.spdm via false [8]))
      else if i = 0xFF then
        let b := (List.range 8).flatMap fun n => s.measurement (n + 1)
        .next (if signed then s.spdmOpen via b else s.emit (.spdm via false b))
      else if 8 < i then .next (s.emit (.spdm via true [spdmInvalid]))
      else .next (if signed then s.spdmOpen via (s.measurement i.toNat) else s.emit (.spdm via false (s.measurement i.toNat)))
    | .getCertificate _ => .next (s.spdmOpen via s.certificates)
    | .finish => .next ((s.setSession via true).spdmOpen via [])
    | .endSession => .next ((s.setSession via false).spdmOpen via [])
    | .other c =>
      match via, s.sec.sessions.contains via with
      | .mailbox p, true =>
        if c = 0xFE then .next ((s.setPort p { s.port p with ide := true }).spdmOpen via [])
        else .next (s.emit (.spdm via true [spdmUnsupported]))
      | _, _ => .next (s.emit (.spdm via true [spdmUnsupported]))
    | _ => .next (s.spdmOpen via [])

end Sys2Proof.Machine
end

