-- ==== Sys2Proof/Machine/DictWrite.lean ====
section
/-!
DEFINITION. Writing the Pattern book (R355 to R362): the order in which a write is checked, what an accepted write stores or
does, and the commands that are writes of one entry.
-/

namespace Sys2Proof.Machine

/-! ## Permission (R369, R420, R422, R425, R442) -/

/-- The transports an entry accepts writes from, beyond their policy. -/
def State.writeAllowed (s : State) (src : Source) (k : Nat) : Bool :=
  let portAOrMctp := match src with | .mailbox .a | .mctp _ => true | _ => false
  match k / 256 with
  | 0xE020 | 0xE021 => portAOrMctp
  | 0xE000 => k ≠ 0xE00002 || portAOrMctp
  | 0xD400 => k ≠ 0xD40002 || portAOrMctp
  | 0xE010 => !s.sec.recovery || (match src with | .mctp _ => true | _ => false)
  | _ => true

/-! ## Actions -/

/-- Close an open event; none where no event of this sequence is open. -/
def State.closeEvent (q : Nat) (s : State) : Option State :=
  match s.thimble.opened.find? fun e => e.sequence = q with
  | none => none
  | some e =>
    let e := { e with handled := true, isOpen := false, timer := none }
    let t := { s.thimble with opened := s.thimble.opened.filter fun x => x.sequence ≠ q,
                              history := update (fun x => x.sequence = q) (fun _ => e) s.thimble.history }
    some { s with thimble := t }

/-- Handle an open event (R386). A write that comes when the event's timer has ended comes after its escalations (R387). -/
def State.handleEvent (q : Nat) (s : State) : Option State := ((s.escalateDue q).escalateDue q).closeEvent q

/-- Acknowledge a slot (R397). -/
def State.ackSlot (n : Nat) (s : State) : State := s.setAlarm n { s.alarm n with unacked := false }

/-- Acknowledge one slot, or every slot. -/
def State.acknowledge (v : Nat) (s : State) : State :=
  if v = 0xFFFF then (List.range 256).foldl (fun s n => s.ackSlot n) s else s.ackSlot v

/-- Clear a slot (R397); none where it is unacknowledged. A fixed slot keeps its source code. -/
def State.clearSlot (v : Nat) (s : State) : Option State :=
  if (s.alarm v).unacked then none
  else some (s.setAlarm v (if v < 0x80 then { alarmDefault with source := (s.alarm v).source } else alarmDefault))

/-- Force the events of the bits set, in ascending source (R391). -/
def State.forceEvents (b : Bytes) (s : State) : State :=
  ((bitList 128 (leNat b)).foldl (fun s c => s.record c 0xFFFF 0 true none) s).settle

/-- A write of PA110.01 (R388). -/
def State.setLevel (v : Nat) (s : State) : State :=
  let s := s.setNum 0xA11001 v
  if s.thimble.pulse.isSome then s else { s with thimble := { s.thimble with faultLow := v = 1 } }

/-- A write of 1 to PA110.02 (R388). -/
def State.rearmFault (s : State) : State := { s with thimble := { s.thimble with armed := true } }

/-- A write of 1 to P6030.07 (R117). -/
def State.rebaselineColl (s : State) : State :=
  match s.selected 0x603001 with
  | none => s
  | some c => s.mapColl c.d.handle fun c => { c with drift := { c.drift with flag := false, windows := 0, baseline := none } }

/-- A write of P4110.03 (R212): the state, or the code that refuses it. -/
def State.setGenerationTo (v : Nat) (s : State) : State × Nat :=
  if 2 ^ 48 ≤ v then (s, rRange)
  else if !s.colls.isEmpty || !s.deferred.isEmpty || v < s.muts.generation then (s, rState)
  else (s.openGeneration v, rOk)

/-- The state of an action, or STATE where it is refused. -/
def orState (s : State) : Option State → State × Nat
  | some t => (t, rOk)
  | none => (s, rState)

/-- The shard map of the selected collection (R310). -/
def State.writeShardMap (b : Bytes) (s : State) : State × Nat :=
  match s.selected 0x830001 with
  | none => (s, rState)
  | some c =>
    let m := (chunks 8 (b.length / 8 + 1) b).map fun r => (chunks 2 5 r).map leNat
    (s.mapColl c.d.handle fun c => { c with shardMap := m }, rOk)

/-- A write of PE010.03 (R422): the piece lies inside the slot. -/
def State.recoveryWrite (b : Bytes) (s : State) : State × Nat :=
  let off := s.num 0xE01002
  if slotBytes < off + b.length then (s, rRange) else (s.writeSlot s.recoverySlot off b, rOk)

/-- The action of a WO entry of a number. A BOOL action is for a write of 1; a write of 0 is accepted and does nothing. -/
def State.numAction (k v : Nat) (s : State) : State × Nat :=
  match k with
  | 0x20000A => orState s (s.setFleetTime v)
  | 0x200206 => if v = 1 then orState s s.acceptStep else (s, rOk)
  | 0x603007 => (if v = 1 then s.rebaselineColl else s, rOk)
  | 0x411003 => s.setGenerationTo v
  | 0x100307 => if v = 1 then (let r := s.commit true; (r.1, r.2.1)) else (s, rOk)
  | 0xA02003 => orState s (s.handleEvent v)
  | 0xA03002 => (s.acknowledge v, rOk)
  | 0xA03003 => orState s (s.clearSlot v)
  | 0xA11002 => (if v = 1 then s.rearmFault else s, rOk)
  | 0xE00002 => (s.setPolicy v, rOk)
  | 0xE00008 => (if v = 1 then s.commitSvn else s, rOk)
  | 0xE01004 => (if v = 1 then s.recoveryVerify else s, rOk)
  | _ => (s, rOk)

/-- What storing a number also does: an area's size, and a calendar schedule in service. -/
def State.afterStore (k : Nat) (s : State) : State :=
  match k with
  | 0x412002 | 0x412003 => s.applyBaste
  | 0x503001 | 0x503002 | 0x320001 | 0x320002 | 0x320003 => s.applyAreas
  | 0x702008 => s.applyArena
  | _ =>
    let n := k / 256 - 0x2100
    if 0x2100 ≤ k / 256 && n < 16 && 3 ≤ k % 256 && k % 256 ≤ 5 && s.isOn (calIndex n) then s.calChanged n else s

/-- Store a number. -/
def State.storeNum (k v : Nat) (s : State) : State :=
  if k = 0xA11001 then s.setLevel v else (s.setNum k (storedValue k v)).afterStore k

/-- Store or carry out a byte string. -/
def State.textWrite (k : Nat) (b : Bytes) (s : State) : State × Nat :=
  match k with
  | 0xA00006 => (s.forceEvents b, rOk)
  | 0xE01003 => s.recoveryWrite b
  | 0x830002 => s.writeShardMap b
  | 0xE02002 => s.writeBindings .a b
  | 0xE02102 => s.writeBindings .b b
  | _ => (s.setBlob k b, rOk)

/-- Store or carry out a number that keeps its range. -/
def State.numWrite (r : Row) (k v : Nat) (s : State) : State × Nat :=
  match s.ownRule k v with
  | some c => (s, c)
  | none => if r.access = .wo then s.numAction k v else (s.storeNum k v, rOk)

/-- The content of a value: its length, its range, and what it does. -/
def State.contentWrite (r : Row) (k : Nat) (b : Bytes) (s : State) : State × Nat :=
  match r.ty.size with
  | some n =>
    if b.length ≠ n then (s, rLength)
    else if switchable (k / 256) && k % 256 = 1 then
      (if leNat b = 0 || leNat b = 2 then s.switchWrite (k / 256) (leNat b = 2) else (s, rRange))
    else if !s.rangeOk k (leNat b) then (s, rRange)
    else s.numWrite r k (leNat b)
  | none =>
    if (if r.ty = .str then 256 else 65536) < b.length then (s, rLength)
    else if !textOk k b then (s, rRange)
    else if k / 256 = 0xE010 && !s.sec.recovery then (s, rState)
    else s.textWrite k b

/-- The checks of a write that come before its content: whether its transport may write at all (R372), whether the entry is served and
there, who may write it, and its access and level. -/
def State.writeGate (s : State) (src : Source) (expert : Bool) (k : Nat) : Option Nat :=
  if s.policy src < 2 then some rPermission
  else if !s.served (k / 256) then some rNotReady
  else
    match s.row k with
    | none => some rNoEntry
    | some r =>
      if !s.writeAllowed src k then some rPermission
      else if r.access = .ro then some rReadOnly
      else if r.expert && !expert && (match src with | .shuttle _ => false | _ => true) then some rLevel
      else none

/-- What a write does, and its result, its counting apart. -/
def State.writeEntry (src : Source) (expert : Bool) (k : Nat) (b : Bytes) (s : State) : State × Nat :=
  match s.writeGate src expert k, s.row k with
  | some c, _ => (s, c)
  | none, some r => s.contentWrite r k b
  | none, none => (s, rNoEntry)

/-- Count an accepted write (R360, R363), or a refusal (R358). -/
def State.countSet (k r : Nat) (s : State) : State :=
  if refused r then s.bump 0x100406
  else
    let s := s.bump 0x100303
    if ((rowOf k).map Row.access) = some .rwr then s.bumpSat 0x100304 1 else s

/-- Write an entry (R356 to R360). -/
def State.dictWrite (src : Source) (expert : Bool) (k : Nat) (b : Bytes) (s : State) : State × Nat :=
  let r := s.writeEntry src expert k b
  (r.1.countSet k r.2, r.2)

/-! ## Piecewise writes (R370) -/

/-- The staging of a source that is not idle for 10 s. -/
def State.stagingOf (s : State) (src : Source) : Option Staging :=
  s.trans.staging.find? fun x => x.src = src && s.aonNs < x.last + 10000000000

/-- Discard a source's staging. -/
def State.unstage (src : Source) (s : State) : State :=
  { s with trans := { s.trans with staging := s.trans.staging.filter fun x => x.src ≠ src } }

/-- Hold the bytes assembled so far. -/
def State.stage (src : Source) (k : Nat) (b : Bytes) (s : State) : State :=
  { s with trans := { s.trans with staging := ⟨src, k, b, s.aonNs⟩ :: s.trans.staging.filter fun x => x.src ≠ src } }

/-- What a piece adds to: nothing for the first, else what the same source has assembled of the same entry up to here. -/
def State.assembled (s : State) (src : Source) (k off : Nat) : Option Bytes :=
  if off = 0 then some []
  else
    match s.stagingOf src with
    | some x => if x.key = k && x.bytes.length = off then some x.bytes else none
    | none => none

/-- A write, whole or in pieces (R370). -/
def State.pieceWrite (src : Source) (expert more : Bool) (k off : Nat) (b : Bytes) (s : State) : State × Nat :=
  let refuse (r : Nat) (s : State) : State × Nat := (s.countResult r, r)
  match s.writeGate src expert k with
  | some r => refuse r s
  | none =>
    if ((s.row k).bind fun r => r.ty.size).isSome then
      (if off = 0 && !more && b.length ≤ sourceLimit src then s.dictWrite src expert k b else refuse rLength s)
    else if sourceLimit src < b.length then refuse rLength s
    else
      match s.assembled src k off with
      | none => refuse rLength (s.unstage src)
      | some a =>
        let v := a ++ b
        let s := s.unstage src
        if more then (if v.length ≤ 65536 then (s.stage src k v, rOk) else refuse rLength s)
        else s.dictWrite src expert k v

/-! ## The commands that write one entry -/

/-- The type an answer carries. -/
def State.typeOf (s : State) (k : Nat) : Byte := ((s.row k).map fun r => r.ty.code).getD 0

/-- A datagram of the Pattern Access Protocol is answered, or discarded (P1004.04, P1004.05). -/
def State.countPap (src : Source) (answered : Bool) (s : State) : State :=
  match src with
  | .pap _ _ => s.bump (if answered then 0x100404 else 0x100405)
  | _ => s

/-! ## The Pattern Access Protocol and MCTP (R371 to R373) -/

/-- Requests of R371. -/
inductive PapOp where
  | get | set | commit | resync
deriving DecidableEq, Repr

/-- Their codes. -/
def PapOp.code : PapOp → Byte
  | .get => 1 | .set => 2 | .commit => 3 | .resync => 4

/-- The fields of a frame (R371). -/
structure PapFrame where
  magic : Nat
  version : Nat
  op : Byte
  flags : Byte
  index : Nat
  sub : Nat
  length : Nat
  offset : Nat
  requestId : BitVec 32
  value : Bytes
deriving DecidableEq, Repr

/-- Read a frame: its fields are little-endian (R8). -/
def parsePap (b : Bytes) : PapFrame :=
  { magic := field b 0 2, version := field b 2 1, op := BitVec.ofNat 8 (field b 3 1), flags := BitVec.ofNat 8 (field b 4 1),
    index := field b 6 2, sub := field b 8 1, length := field b 0xA 2, offset := field b 0xC 4,
    requestId := BitVec.ofNat 32 (field b 0x14 4), value := b.drop 24 }

/-- It is a frame of this protocol. -/
def papHead (b : Bytes) : Bool := 24 ≤ b.length && (parsePap b).magic = 0x4150 && (parsePap b).version = 1

/-- Its length is right: no value follows a GET or a RESYNCHRONISE. -/
def papLength (op : PapOp) (f : PapFrame) : Bool :=
  f.length ≤ 1448 &&
    (match op with
     | .get | .resync => f.value.isEmpty
     | .set | .commit => f.value.length = f.length)

/-- The answer to a frame: flag RESPONSE, its own index, sub-index, offset and request, and what the request gave. -/
def PapFrame.answer (f : PapFrame) (a : Answer) : Bytes :=
  natLE 2 0x4150 ++ [1, f.op, 4] ++ natLE 1 a.result ++ natLE 2 f.index ++ natLE 1 f.sub ++ [a.type] ++ natLE 2 a.value.length ++
    natLE 4 f.offset ++ natLE 4 a.total ++ natLE 4 f.requestId.toNat ++ a.value

/-- The answer kept for a request that a source repeats. -/
def State.keptFor (s : State) (src : Source) (id : BitVec 32) : Option Kept :=
  s.trans.kept.find? fun x => x.src = src && x.requestId = id && s.aonNs < x.time + 1000000000

/-- Keep an answer, newest first, 16 for each source. -/
def State.keep (x : Kept) (s : State) : State :=
  let mine := (s.trans.kept.filter fun y => y.src = x.src).take 15
  { s with trans := { s.trans with kept := x :: mine ++ s.trans.kept.filter fun y => y.src ≠ x.src } }

/-- Send an answer. -/
def State.papAnswer (src : Source) (x : Kept) (s : State) : State :=
  let s := match src with | .pap _ _ => s.portSend x.datagram.length | _ => s
  (s.countPap src true).emit (.pap src x.datagram)

/-- The second in which answers of the Pattern Access Protocol are being counted. -/
def State.rollSecond (s : State) : State :=
  if s.aonNs < s.trans.secondStart + 1000000000 then s
  else { s with trans := { s.trans with secondStart := s.aonNs, secondCount := 0 } }

/-- Less than 10,000 requests have been answered in this second; MCTP has no such limit (R372). -/
def State.rateLeft (s : State) (src : Source) : Bool :=
  match src with
  | .pap _ _ => s.trans.secondCount < 10000
  | _ => true

/-- Count an answer against the limit. -/
def State.spendRate (src : Source) (s : State) : State :=
  match src with
  | .pap _ _ => { s with trans := { s.trans with secondCount := s.trans.secondCount + 1 } }
  | _ => s

/-- What a SET does. DEDUCED (log entry 32): the total of an accepted piece that more follow is the bytes assembled so far. -/
def State.papSet (src : Source) (f : PapFrame) (s : State) : State × Answer :=
  let k := key f.index f.sub
  let r := s.pieceWrite src (f.flags.getLsbD 0) (f.flags.getLsbD 1) k f.offset f.value
  (r.1, if refused r.2 then ⟨r.2, 0, 0, []⟩ else ⟨r.2, s.typeOf k, f.offset + f.value.length, []⟩)

/-- A request has been performed: it counts against the limit of its second, and its answer is kept and sent. -/
def State.papServed (src : Source) (f : PapFrame) (a : Answer) (s : State) : State :=
  let x : Kept := ⟨src, f.requestId, s.aonNs, f.answer a⟩
  ((s.rollSecond.spendRate src).keep x).papAnswer src x

/-- A request of a source that is listened to: above the limit it is discarded, one that repeats a kept request is answered from what is
kept, and any other is performed and its answer kept (R372). -/
def State.papServe (src : Source) (f : PapFrame) (perform : State → State × Answer) (s : State) : State :=
  let u := s.rollSecond
  if !u.rateLeft src then u.countPap src false
  else
    match s.keptFor src f.requestId with
    | some x => (u.spendRate src).papAnswer src x
    | none =>
      let r := perform s
      r.1.papServed src f r.2

/-- The SET frame of a write that is a command of its own. -/
def setFrame (w : Writer) (k : Nat) (b : Bytes) : PapFrame :=
  { magic := 0x4150, version := 1, op := 2, flags := if w.expert then 1 else 0, index := k / 256, sub := k % 256, length := b.length,
    offset := 0, requestId := w.request, value := b }

/-- A write of an entry as a command of its own; over a transport that is off it is discarded without an answer (R372, R373). Over the
Pattern Access Protocol and MCTP it is a SET of R371; elsewhere its answer is the result with the type. -/
def State.entryWrite (w : Writer) (k : Nat) (b : Bytes) (s : State) : State :=
  if !s.heard w.src then s
  else
    match w.src with
    | .pap _ _ | .mctp _ =>
      if s.policy w.src = 0 || !papLength .set (setFrame w k b) then s.countPap w.src false
      else s.papServe w.src (setFrame w k b) fun s => s.papSet w.src (setFrame w k b)
    | _ =>
      let r := s.pieceWrite w.src w.expert false k 0 b
      r.1.emit (.dict w.src (BitVec.ofNat 8 r.2) (if refused r.2 then 0 else s.typeOf k) 0 [])

/-- A write of ON or OFF to a function's state. -/
def State.functionWrite (w : Writer) (i : Nat) (on : Bool) (s : State) : State :=
  s.entryWrite w (256 * i + 1) [if on then 2 else 0]

/-- SET_TIME (R44, R62). -/
def execSetTime (w : Writer) (t : BitVec 64) (s : State) : Result := .next (s.entryWrite w 0x20000A (natLE 8 t.toNat))

/-- ACCEPT_BACKWARD_STEP (R41). -/
def execAcceptBackwardStep (w : Writer) (v : Byte) (s : State) : Result := .next (s.entryWrite w 0x200206 [v])

/-- CALENDAR_ENTRY_ON (R57). -/
def execCalendarEntryOn (w : Writer) (entry : Fin 128) (s : State) : Result := .next (s.functionWrite w (calIndex entry) true)

/-- CALENDAR_ENTRY_OFF (R57). -/
def execCalendarEntryOff (w : Writer) (entry : Fin 128) (s : State) : Result := .next (s.functionWrite w (calIndex entry) false)

/-- SET_GENERATION (R212). -/
def execSetGeneration (w : Writer) (v : BitVec 64) (s : State) : Result := .next (s.entryWrite w 0x411003 (natLE 8 v.toNat))

/-- JOURNAL_ON (R219, R226). -/
def execJournalOn (w : Writer) (s : State) : Result := .next (s.functionWrite w 0x4100 true)

/-- JOURNAL_OFF (R223). -/
def execJournalOff (w : Writer) (s : State) : Result := .next (s.functionWrite w 0x4100 false)

/-- SEAM_ON (R213). -/
def execSeamOn (w : Writer) (s : State) : Result := .next (s.functionWrite w 0x4130 true)

/-- SEAM_OFF (R213). -/
def execSeamOff (w : Writer) (s : State) : Result := .next (s.functionWrite w 0x4130 false)

/-- RECIPES_ON (R252). -/
def execRecipesOn (w : Writer) (s : State) : Result := .next (s.functionWrite w 0x7020 true)

/-- RECIPES_OFF (R252). -/
def execRecipesOff (w : Writer) (s : State) : Result := .next (s.functionWrite w 0x7020 false)

/-- LEND_ON (R284). -/
def execLendOn (w : Writer) (s : State) : Result := .next (s.functionWrite w 0x3400 true)

/-- LEND_OFF (R285). -/
def execLendOff (w : Writer) (s : State) : Result := .next (s.functionWrite w 0x3400 false)

/-- FACTORY_RESET (R368). -/
def execFactoryReset (w : Writer) (v : Byte) (s : State) : Result := .next (s.entryWrite w 0x100307 [v])

/-- REGISTER_WRITE (R356): any entry. -/
def execRegisterWrite (w : Writer) (index : BitVec 16) (sub : Byte) (value : Bytes) (s : State) : Result :=
  .next (s.entryWrite w (key index.toNat sub.toNat) value)

/-- REBASELINE (R117). -/
def execRebaseline (w : Writer) (v : Byte) (s : State) : Result := .next (s.entryWrite w 0x603007 [v])

/-- SHARD_MAP (R310). -/
def execShardMap (w : Writer) (value : Bytes) (s : State) : Result := .next (s.entryWrite w 0x830002 value)

/-- BINDINGS (R424, R425): PE020 for Port A, PE021 for Port B. -/
def execBindings (w : Writer) (p : Port) (value : Bytes) (s : State) : Result :=
  .next (s.entryWrite w (match p with | .a => 0xE02002 | .b => 0xE02102) value)

/-- SET_SIG_POLICY (R420). -/
def execSetSigPolicy (w : Writer) (v : Byte) (s : State) : Result := .next (s.entryWrite w 0xE00002 [v])

/-- COMMIT_SVN (R421). -/
def execCommitSvn (w : Writer) (v : Byte) (s : State) : Result := .next (s.entryWrite w 0xE00008 [v])

/-- RECOVERY_DATA (R422). -/
def execRecoveryData (w : Writer) (value : Bytes) (s : State) : Result := .next (s.entryWrite w 0xE01003 value)

/-- RECOVERY_VERIFY (R422). -/
def execRecoveryVerify (w : Writer) (v : Byte) (s : State) : Result := .next (s.entryWrite w 0xE01004 [v])

/-- HANDLE (R386). -/
def execHandle (w : Writer) (sequence : BitVec 32) (s : State) : Result := .next (s.entryWrite w 0xA02003 (natLE 4 sequence.toNat))

/-- ACKNOWLEDGE (R397). -/
def execAcknowledge (w : Writer) (slot : BitVec 16) (s : State) : Result := .next (s.entryWrite w 0xA03002 (natLE 2 slot.toNat))

/-- CLEAR (R397). -/
def execClear (w : Writer) (slot : BitVec 16) (s : State) : Result := .next (s.entryWrite w 0xA03003 (natLE 2 slot.toNat))

/-- FORCE (R391). -/
def execForce (w : Writer) (bits : Bytes) (s : State) : Result := .next (s.entryWrite w 0xA00006 bits)

/-- LEVEL (R388). -/
def execLevel (w : Writer) (v : Byte) (s : State) : Result := .next (s.entryWrite w 0xA11001 [v])

/-- REARM (R388). -/
def execRearm (w : Writer) (v : Byte) (s : State) : Result := .next (s.entryWrite w 0xA11002 [v])

/-- TRACES_ON (R401). -/
def execTracesOn (w : Writer) (s : State) : Result := .next (s.functionWrite w 0xB030 true)

/-- TRACES_OFF (R401). -/
def execTracesOff (w : Writer) (s : State) : Result := .next (s.functionWrite w 0xB030 false)

/-- LINK_ON (R290): a link the part has; the index of one it lacks is not present. -/
def execLinkOn (w : Writer) (link : Fin 32) (s : State) : Result := .next (s.functionWrite w (linkIndex link) true)

/-- LINK_OFF (R290). -/
def execLinkOff (w : Writer) (link : Fin 32) (s : State) : Result := .next (s.functionWrite w (linkIndex link) false)

/-- LOOP_BACK_ON (R428). -/
def execLoopBackOn (w : Writer) (s : State) : Result := .next (s.functionWrite w 0xD100 true)

/-- LOOP_BACK_OFF (R428). -/
def execLoopBackOff (w : Writer) (s : State) : Result := .next (s.functionWrite w 0xD100 false)

/-- MARGIN_SCAN_ON (R431). -/
def execMarginScanOn (w : Writer) (s : State) : Result := .next (s.functionWrite w 0xD200 true)

/-- MARGIN_SCAN_OFF (R431). -/
def execMarginScanOff (w : Writer) (s : State) : Result := .next (s.functionWrite w 0xD200 false)

end Sys2Proof.Machine
end

