-- ==== Sys2Proof/Machine/Transports.lean ====
section
/-!
DEFINITION. The transports of the Pattern book (R343, R369 to R373): piecewise writes, the mailbox's commands, the Pattern Access
Protocol and MCTP with their kept answers, and the Device Summary Record (R375, R376). The waits of this chapter run on the
always-on clock (log entry 32).
-/

namespace Sys2Proof.Machine

/-! ## Staging (R370) -/

/-- STAGING_DISCARD (R370). -/
def execStagingDiscard (src : Source) (s : State) : Result :=
  if (s.trans.staging.any fun x => x.src = src) && (s.stagingOf src).isNone then .next (s.unstage src) else .next s

/-! ## The Device Summary Record (R375, R376) -/

/-- A section: its type, the size of an entry, and the entries. -/
def sectionBytes (type size : Nat) (l : List Bytes) : Bytes :=
  natLE 2 type ++ natLE 2 l.length ++ natLE 2 size ++ [0, 0] ++ l.flatten

/-- One entry of COLLECTIONS: a live collection, or a handle with a pending creation. -/
def State.sumColl (s : State) (h : Nat) : Bytes :=
  let c := s.coll (BitVec.ofNat 16 h)
  natLE 2 h ++ natLE 1 ((c.map fun c => c.st.code).getD 0) ++ natLE 1 (s.collFlags h) ++ natLE 4 ((c.map Coll.live).getD 0) ++
    natLE 8 ((c.map Coll.imageGeneration).getD 0)

/-- COLLECTIONS, in handle order. -/
def State.sumColls (s : State) : List Bytes :=
  let hs := (s.colls.map fun c => c.d.handle.toNat) ++ s.deferred.map fun d => d.coll.d.handle.toNat
  (hs.foldl (fun l h => insertNat h l) []).map s.sumColl

/-- A submission spool's place in the order of SPOOLS, and its entry. -/
def SubSpool.summary (x : SubSpool) : Nat × Bytes :=
  let kind := if x.mutation then 2 else 1
  (65536 * Port.num x.port + 256 * kind + x.num.toNat,
   natLE 1 (Port.num x.port) ++ natLE 1 kind ++ [x.num] ++ natLE 1 (if x.resetting then 2 else 1) ++ natLE 4 x.head.toNat ++
     natLE 4 x.tail.toNat ++ natLE 2 x.outstanding ++ [x.completion, 0])

/-- A completion spool's. -/
def CompSpool.summary (c : CompSpool) : Nat × Bytes :=
  (65536 * Port.num c.port + 256 * 3 + c.num.toNat,
   natLE 1 (Port.num c.port) ++ [3, c.num, 1] ++ natLE 4 c.tail.toNat ++ natLE 4 c.head.toNat ++ natLE 2 c.reserved ++ [0, 0])

/-- SPOOLS, in port, kind and number order. -/
def State.sumSpools (s : State) : List Bytes :=
  (sortBy (fun a b => a.1 < b.1) (s.spools.sub.map SubSpool.summary ++ s.spools.comp.map CompSpool.summary)).map Prod.snd

/-- One entry of LINKS. -/
def State.sumLink (s : State) (n : Nat) : Bytes :=
  let l := s.link n
  natLE 1 n ++ natLE 1 (s.sw (linkIndex n)).st.code ++ natLE 1 l.st.code ++ [l.cause] ++
    natLE 1 (s.num (key (linkIndex n) 5)) ++ natLE 1 (bitIf l.encrypted 0) ++ natLE 2 (l.partnerDev.getD 0xFFFF)

/-- PENDING: functions with a pending change. -/
def State.sumPending (s : State) : List Bytes :=
  s.switches.filterMap fun x => match x.2.pend with
    | none => none
    | some b => some (natLE 2 x.1 ++ [1, if b then 1 else 2])

/-- Records accepted and not yet acknowledged. -/
def State.outstandingMutations (s : State) : Nat := (s.muts.jobs.map MutJob.unacked).sum

/-- The header up to total_length and after it. -/
def State.sumHeader (s : State) (token total : Nat) : Bytes :=
  natLE 4 0x52534B5A ++ natLE 2 1 ++ natLE 2 5 ++ natLE 8 token ++ natLE 4 total ++ natLE 4 s.dev.epoch ++ natLE 8 s.stamp ++
    natLE 8 s.stamp ++ natLE 8 s.muts.generation ++ natLE 8 s.oldestSnapshot ++ natLE 8 (s.num 0x100303) ++
    natLE 4 s.ret.restored ++ natLE 1 s.dev.st.code ++ natLE 1 s.dev.previous.code ++ natLE 1 s.dev.power ++
    natLE 1 s.ftu.st.code ++ natLE 2 (s.num 0x800001) ++ natLE 2 s.degraded ++ [s.dev.fenceCause] ++
    natLE 1 (s.sw 0x4100).st.code ++ natLE 1 (s.sw 0x4130).st.code ++ [0] ++ natLE 8 s.muts.journal.append ++
    natLE 8 s.muts.journal.durable ++ natLE 8 s.outstandingMutations ++ natLE 4 s.muts.baste.length ++ zeros 4 ++
    natLE 8 s.seamLag ++ zeros 8

/-- A new record. Header and sections are taken at one instant, so capture_start and capture_end are equal. -/
def State.summary (s : State) : Bytes :=
  let token := s.trans.token + 1
  let body := sectionBytes 1 16 s.sumColls ++ sectionBytes 2 16 s.sumSpools ++
    sectionBytes 3 8 (((List.range 32).filter s.linkPresent).map s.sumLink) ++
    sectionBytes 4 32 ((s.thimble.opened.take 32).map Event.bytes) ++ sectionBytes 5 4 s.sumPending
  let r := s.sumHeader token (128 + body.length + 16) ++ body ++ natLE 8 token
  r ++ natLE 4 (crc32c r).toNat ++ zeros 4

/-- Capture a record: the token advances. -/
def State.capture (s : State) : State × Bytes :=
  ({ s with trans := { s.trans with token := s.trans.token + 1 } }, s.summary)

/-- Keep a record for the later reads of its source. -/
def State.keepCapture (src : Source) (b : Bytes) (s : State) : State :=
  { s with trans := { s.trans with captures := ⟨src, s.aonNs, b⟩ :: s.trans.captures.filter fun c => c.src ≠ src } }

/-- A piece of a record; a length of 0 asks for as much as fits. -/
def pieceOf (b : Bytes) (limit off len : Nat) : Answer :=
  if b.length < off + len || limit < len then ⟨rLength, 0, 0, []⟩
  else ⟨rOk, 0, b.length, sub b off (if len = 0 then limit else len)⟩

/-- RESYNCHRONISE over the Pattern Access Protocol or MCTP. -/
def State.resyncPiece (src : Source) (off len : Nat) (s : State) : State × Answer :=
  if !s.dev.stepsDone then (s, ⟨rNotReady, 0, 0, []⟩)
  else if off = 0 then
    let c := s.capture
    (c.1.keepCapture src c.2, pieceOf c.2 1448 0 len)
  else
    match s.trans.captures.find? fun c => c.src = src && s.aonNs < c.time + 10000000000 with
    | some c => (s, pieceOf c.bytes 1448 off len)
    | none => (s, ⟨rState, 0, 0, []⟩)

/-! ## The mailbox (R343) -/

/-- RESYNCHRONISE (0xC000). -/
def execResynchronise (p : Port) (s : State) : Result :=
  s.onMailbox p true fun s => let c := s.capture; c.1.ok p c.2

/-- GET_ENTRY (0xC001). -/
def execGetEntry (p : Port) (index : BitVec 16) (sub : Byte) (offset : BitVec 32) (length : Padded (BitVec 32)) (s : State) : Result :=
  s.onMailbox p true fun s =>
    if length.reserved.any (· ≠ 0) then s.deny p .field
    else
    let r := s.dictRead (.mailbox p) (key index.toNat sub.toNat) offset.toNat length.val.toNat
    r.1.ok p (natLE 1 r.2.result ++ [r.2.type, 0, 0] ++ natLE 4 r.2.total ++ r.2.value)

/-- SET_ENTRY (0xC002). -/
def execSetEntry (p : Port) (index : BitVec 16) (sub flags : Byte) (offset : Padded (BitVec 32)) (value : Bytes) (s : State) : Result :=
  s.onMailbox p true fun s =>
    let k := key index.toNat sub.toNat
    if 4 ≤ flags || offset.reserved.any (· ≠ 0) then s.deny p .field
    else
    let r := s.pieceWrite (.mailbox p) (flags.getLsbD 0) (flags.getLsbD 1) k offset.val.toNat value
    let st := if switchable index.toNat && sub = 1 then (r.1.sw index.toNat).st.code else 0
    r.1.reply p .success (if r.2 = rDeferred then 1 else 0) (natLE 1 r.2 ++ natLE 1 st ++ zeros 6)

/-- A commit from a transport: the state, the result and the sequence. -/
def State.commitFrom (src : Source) (s : State) : State × Nat × Nat :=
  if s.policy src < 2 then (s.countResult rPermission, rPermission, 0)
  else if !s.dev.stepsDone then (s.countResult rNotReady, rNotReady, 0)
  else
    let r := s.commit false
    (r.1.countResult r.2.1, r.2)

/-- COMMIT_RETAINED (0xC003). The output holds the result, three zero bytes and the sequence (log entry 32). -/
def execCommitRetained (p : Port) (s : State) : Result :=
  s.onMailbox p true fun s =>
    let r := s.commitFrom (.mailbox p)
    r.1.reply p .success (if r.2.1 = rDeferred then 1 else 0) (natLE 1 r.2.1 ++ zeros 3 ++ natLE 4 r.2.2)

/-! ## The requests of the Pattern Access Protocol and MCTP (R371 to R373) -/

/-- What a request does. -/
def State.papPerform (src : Source) (op : PapOp) (f : PapFrame) (s : State) : State × Answer :=
  let k := key f.index f.sub
  match op with
  | .get => s.dictRead src k f.offset f.length
  | .set => s.papSet src f
  | .commit =>
    let r := s.commitFrom src
    (r.1, if refused r.2.1 then ⟨r.2.1, 0, 0, []⟩ else ⟨r.2.1, 0, 4, natLE 4 r.2.2⟩)
  | .resync =>
    let r := s.resyncPiece src f.offset f.length
    (r.1.countResult r.2.result, r.2)

/-- One datagram. A frame of another operation is none of the command. -/
def State.papRequest (src : Source) (op : PapOp) (b : Bytes) (s : State) : State :=
  let f := parsePap b
  if !s.heard src then s
  else if s.policy src = 0 || !papHead b then s.countPap src false
  else if f.op ≠ op.code then s
  else if !papLength op f then s.countPap src false
  else s.papServe src f fun s => s.papPerform src op f

/-- PAP_GET. -/
def execPapGet (ip : BitVec 32) (udp : BitVec 16) (b : Bytes) (s : State) : Result := .next (s.papRequest (.pap ip udp) .get b)

/-- PAP_SET. -/
def execPapSet (ip : BitVec 32) (udp : BitVec 16) (b : Bytes) (s : State) : Result := .next (s.papRequest (.pap ip udp) .set b)

/-- PAP_COMMIT. -/
def execPapCommit (ip : BitVec 32) (udp : BitVec 16) (b : Bytes) (s : State) : Result := .next (s.papRequest (.pap ip udp) .commit b)

/-- PAP_RESYNCHRONISE. -/
def execPapResynchronise (ip : BitVec 32) (udp : BitVec 16) (b : Bytes) (s : State) : Result := .next (s.papRequest (.pap ip udp) .resync b)

/-- MCTP_GET. -/
def execMctpGet (eid : Byte) (b : Bytes) (s : State) : Result := .next (s.papRequest (.mctp eid) .get b)

/-- MCTP_SET. -/
def execMctpSet (eid : Byte) (b : Bytes) (s : State) : Result := .next (s.papRequest (.mctp eid) .set b)

/-- MCTP_COMMIT. -/
def execMctpCommit (eid : Byte) (b : Bytes) (s : State) : Result := .next (s.papRequest (.mctp eid) .commit b)

/-- MCTP_RESYNCHRONISE. -/
def execMctpResynchronise (eid : Byte) (b : Bytes) (s : State) : Result := .next (s.papRequest (.mctp eid) .resync b)

/-- PAP_ANSWER_EXPIRY (R372). -/
def execPapAnswerExpiry (src : Source) (requestId : BitVec 32) (s : State) : Result :=
  .next { s with trans := { s.trans with kept := s.trans.kept.filter fun x =>
    !(x.src = src && x.requestId = requestId && x.time + 1000000000 ≤ s.aonNs) } }

end Sys2Proof.Machine
end

