-- ==== Sys2Proof/Machine/Remote.lean ====
section
/-!
DEFINITION. Remote operations at the device they reach (R299 to R306, R374), responses, host request slots (R308), hedging and the
lead's cutoff (R317, R318).
-/

namespace Sys2Proof.Machine

/-! ## Statuses of R303 -/

/-- OK. -/
def rsOk : Byte := 0x00
/-- ACCESS. -/
def rsAccess : Byte := 0x10
/-- UNBACKED. -/
def rsUnbacked : Byte := 0x11
/-- POISON. -/
def rsPoison : Byte := 0x12
/-- ALIGN. -/
def rsAlign : Byte := 0x13
/-- BUSY. -/
def rsBusy : Byte := 0x14
/-- FENCED. -/
def rsFenced : Byte := 0x16
/-- NO_ROUTE. -/
def rsNoRoute : Byte := 0x17
/-- INVALID. -/
def rsInvalid : Byte := 0x1A

/-! ## The operation (R302) -/

/-- One operation at its target: the operation, the device-local address, the operand, the payload, the length of a GET, and the
device that asks. -/
structure RemoteOp where
  op : Byte
  addr : Nat
  operand : BitVec 64
  payload : Bytes
  len : Nat
  src : Nat
deriving DecidableEq, Repr

/-- Bytes the operation covers. -/
def RemoteOp.size (o : RemoteOp) : Nat :=
  if o.op = opPut || o.op = opMerge then o.payload.length else if o.op = opGet then o.len else 8

/-- What an operation answers: its status, the data of a GET, and the old value. -/
structure RemoteAns where
  status : Byte
  data : Bytes := []
  old : BitVec 64 := 0
deriving DecidableEq, Repr

/-- The right an operation needs in a grant (R322); MERGE, FENCE and SIGNAL have none. -/
def rightOf (op : Byte) : Option Nat :=
  if op = opGet then some 0 else if op = opPut then some 1 else if op = opAdd || op = opCas || op = opSwap then some 2 else none

/-- Grant g permits the operation (R301). -/
def State.grantAllows (s : State) (o : RemoteOp) (g : Nat) : Bool :=
  let v (j : Nat) : Nat := s.num (key (0x8200 + g) j)
  match rightOf o.op with
  | none => false
  | some r => v 1 = 1 && bit (v 4) r && v 5 ≤ o.src && o.src ≤ v 6 && inside o.addr o.size (v 2) (v 3)

/-- Some grant permits the operation, and the host has not been lent the address (R284, R301). -/
def State.granted (s : State) (o : RemoteOp) : Bool := ((List.range 16).any (s.grantAllows o)) && !s.inLend o.addr

/-- The lines that a range of memory lies on. -/
def linesOf (a n : Nat) : List Nat := (List.range ((a + n + 63) / 64 - a / 64)).map fun i => 64 * (a / 64 + i)

/-- What a read of a line meets: one of the faults given, or no error. -/
def faultOf (fs : List LineFault) (a : Nat) : LineFault := (fs.find? fun f => f.addr / 64 = a / 64).getD ⟨a, .none, .whole⟩

/-- Read lines under the class FABRIC (R266, R302): the result says that one of them is uncorrectable. A line that waits for a
retrain is read later, with what it held (log entry 28). -/
def State.readLines (fs : List LineFault) : List Nat → State → State × Bool
  | [], s => (s, false)
  | a :: r, s =>
    let x := lineDone (s.readVia .fabric a (faultOf fs a).e (faultOf fs a).stripe)
    let y := State.readLines fs r x.1
    (y.1, x.2 == .poison || y.2)

/-- The operation on memory or a signal word (R302, R305). -/
def State.memoryOp (o : RemoteOp) (s : State) : State × RemoteAns :=
  if o.op = opPut then (s.devWrite o.addr o.payload, ⟨rsOk, [], 0⟩)
  else if o.op = opGet then (s, ⟨rsOk, s.mem.read o.addr o.len, 0⟩)
  else
    let r := s.wordOp o.op o.addr o.operand (BitVec.ofNat 64 (leNat o.payload))
    (r.1, ⟨rsOk, [], r.2⟩)

/-- An operation on HBM, the bulk ring or the CXL tier; `remote` says that the rules of R301 apply (R299). An address that no memory
backs counts whatever the answer (R256), and what it reads may be uncorrectable (R303). -/
def State.tierOp (o : RemoteOp) (remote : Bool) (fs : List LineFault) (s : State) : State × RemoteAns :=
  let s := if remote then s.loadAppears else s
  if remote && !s.granted o then (if s.backedRange o.addr o.size then s else s.unbacked, ⟨rsAccess, [], 0⟩)
  else if (rightOf o.op).isNone then (s, ⟨rsAlign, [], 0⟩)
  else if !s.backedRange o.addr o.size then (s.unbacked, ⟨rsUnbacked, [], 0⟩)
  else if s.addrOffline o.addr then (s, ⟨rsPoison, [], 0⟩)
  else
    let r := if o.op = opPut then (s, false) else s.readLines fs (linesOf o.addr o.size)
    if r.2 then (r.1, ⟨rsPoison, [], 0⟩) else r.1.memoryOp o

/-- Bytes of the Cask scratchpad, as the device's own units read them. -/
def State.scratchRead (s : State) (a n : Nat) : Bytes :=
  (List.range n).map fun i =>
    (s.caskByte ((a + i - caskBase) / 0x1000000) ((a + i) % 0x1000000)).getD (s.mem.byte (a + i))

/-- A local operation on the Cask scratchpad, which the device's own units reach (R255, R299). The entries of the baste list are not
written through it (log entry 28). -/
def State.scratchOp (o : RemoteOp) (s : State) : State × RemoteAns :=
  if (rightOf o.op).isNone then (s, ⟨rsAlign, [], 0⟩)
  else if bit s.units.slice.toNat ((o.addr - caskBase) / 0x1000000) then (s, ⟨rsPoison, [], 0⟩)
  else if o.op = opGet then (s, ⟨rsOk, s.scratchRead o.addr o.len, 0⟩)
  else s.memoryOp o

/-- A PUT to the query window (R311). -/
def State.queryOp (o : RemoteOp) (link : Nat) (s : State) : State × RemoteAns :=
  if o.op ≠ opPut then (s, ⟨rsAccess, [], 0⟩)
  else if o.addr ≠ queryWindow || o.payload.length ≠ 128 then (s, ⟨rsAlign, [], 0⟩)
  else if 8192 ≤ s.fabric.queue.length then (s, ⟨rsBusy, [], 0⟩)
  else ({ s.loadAppears with fabric := { s.fabric with queue := s.fabric.queue ++ [(o.payload, BitVec.ofNat 12 o.src, link)] } }, ⟨rsOk, [], 0⟩)

/-- Base of the dictionary window (R301). -/
def dictBase : Nat := 0x0D9000000000

/-- The entry a dictionary window address names. -/
def dictKey (a : Nat) : Nat := key ((a - dictBase) / 2 ^ 20) ((a - dictBase) / 4096 % 256)

/-- A GET in the dictionary window: the value from byte 0 of its 4 KiB, zero beyond it (R301, R374). -/
def State.dictGet (o : RemoteOp) (s : State) : State × RemoteAns :=
  let r := s.dictRead (.shuttle (BitVec.ofNat 12 o.src)) (dictKey o.addr) 0 0
  if r.2.result = rNoEntry then (r.1, ⟨rsUnbacked, [], 0⟩)
  else if refused r.2.result then (r.1, ⟨rsAccess, [], 0⟩)
  else (r.1, ⟨rsOk, sub (r.2.value ++ zeros 4096) (o.addr % 4096) o.len, 0⟩)

/-- A PUT must carry the whole value from byte 0 (R374). -/
def State.dictPutWhole (s : State) (o : RemoteOp) : Bool :=
  o.addr % 4096 = 0 && (match (s.row (dictKey o.addr)).bind fun r => r.ty.size with | some n => o.payload.length = n | none => true)

/-- The value is longer than the window shows. -/
def State.dictLong (s : State) (k : Nat) : Bool :=
  match s.row k with
  | some r => r.ty.size.isNone && 4096 < (s.text 65536 k).length
  | none => false

/-- A PUT in the dictionary window (R374). -/
def State.dictPut (o : RemoteOp) (s : State) : State × RemoteAns :=
  let k := dictKey o.addr
  if !s.dictPutWhole o then (s, ⟨rsAlign, [], 0⟩)
  else if s.dictLong k then (s, ⟨rsAccess, [], 0⟩)
  else
    let r := s.dictWrite (.shuttle (BitVec.ofNat 12 o.src)) true k o.payload
    (r.1, ⟨if refused r.2 then rsAccess else rsOk, [], 0⟩)

/-- The operation is one of those a signal word allows (R301). -/
def onSignals (op : Byte) : Bool := op = opGet || op = opAdd || op = opCas || op = opSwap || op = opSignal

/-- Bytes of a device-local range as the device's own units read them: of the scratchpad, the doorbells and status records, or memory. -/
def State.localRead (s : State) (a n : Nat) : Bytes :=
  match s.controlAt a n with
  | some (p, off) => s.controlRead p off n
  | none => if regionOf a = .cask then s.scratchRead a n else s.mem.read a n

/-- A local operation on a doorbell or a status record (R330): a read gives the last value accepted, and a write rings. -/
def State.blockOp (p : Port) (off : Nat) (o : RemoteOp) (s : State) : State × RemoteAns :=
  if (rightOf o.op).isNone then (s, ⟨rsAlign, [], 0⟩)
  else if o.op = opPut then (s.controlWrite p off o.payload, ⟨rsOk, [], 0⟩)
  else if o.op = opGet then (s, ⟨rsOk, s.controlRead p off o.len, 0⟩)
  else
    let old := BitVec.ofNat 64 (leNat (s.controlRead p off 8))
    let new := newWord o.op old o.operand (BitVec.ofNat 64 (leNat o.payload))
    (if new = old then s else s.controlWrite p off (natLE 8 new.toNat), ⟨rsOk, [], old⟩)

/-- A local operation in the device control space, to which the rules of R301 do not apply (R299): what is memory there is read and
written, and the windows do what they are for. -/
def State.ownControl (o : RemoteOp) (s : State) : State × RemoteAns :=
  let slots := inside o.addr o.size (slotBase 0) 0x10000
  let block := s.controlAt o.addr o.size
  if o.op = opPut && o.addr = queryWindow then s.queryOp o 0xFF
  else if block.isSome then (match block with | some (p, off) => s.blockOp p off o | none => (s, ⟨rsOk, [], 0⟩))
  else if o.op = opSignal && !inSignals o.addr o.size then (s, ⟨rsAlign, [], 0⟩)
  else if (inSignals o.addr o.size || slots) && o.op ≠ opMerge then s.memoryOp o
  else if inside o.addr o.size dictBase (2 ^ 36) && o.op = opGet then s.dictGet o
  else if inside o.addr o.size dictBase (2 ^ 36) && o.op = opPut then s.dictPut o
  else (s.unbacked, ⟨rsUnbacked, [], 0⟩)

/-- An operation in the device control space (R301). -/
def State.controlOp (o : RemoteOp) (link : Nat) (s : State) : State × RemoteAns :=
  if inside o.addr 1 queryWindow 128 then s.queryOp o link
  else if inside o.addr 1 mergeBase (64 * 0x10000) && o.op = opMerge then
    let r := s.loadAppears.mergeIn ((o.addr - mergeBase) / 0x10000) o.src o.payload
    (r.1, ⟨r.2, [], 0⟩)
  else if inSignals o.addr o.size && onSignals o.op then s.memoryOp o
  else if inside o.addr o.size dictBase (2 ^ 36) && o.op = opGet then s.dictGet o
  else if inside o.addr o.size dictBase (2 ^ 36) && o.op = opPut then s.dictPut o
  else (s, ⟨rsAccess, [], 0⟩)

/-- The operation is one of R302's. -/
def knownOp (op : Byte) : Bool := 1 ≤ op.toNat && op.toNat ≤ 8

/-- Perform an operation. Requests are performed as they arrive, so a FENCE finds everything before it performed (R304). -/
def State.perform (o : RemoteOp) (remote : Bool) (link : Nat) (fs : List LineFault) (s : State) : State × RemoteAns :=
  if !knownOp o.op then (s, ⟨rsInvalid, [], 0⟩)
  else if o.op = opFence then (s, ⟨rsOk, [], 0⟩)
  else if !shapeOk o.op o.addr o.len o.payload.length then (s, ⟨rsAlign, [], 0⟩)
  else
    match regionOf o.addr with
    | .hbm | .bulk | .cxl => s.tierOp o remote fs
    | .control => if remote then s.controlOp o link else s.ownControl o
    | .cask => if remote then (s, ⟨rsAccess, [], 0⟩) else s.scratchOp o
    | .reserved => (s.unbacked, ⟨if remote then rsAccess else rsUnbacked, [], 0⟩)

/-- Count what a remote request was answered (R322). -/
def State.countAnswer (st : Byte) (s : State) : State :=
  if st = rsOk then s.bump 0x840001
  else if st = rsAccess then s.bump 0x840003
  else if st = rsPoison then s.bump 0x840006
  else s

/-! ## Frames that arrive (R298, R300, R306) -/

/-- Forward a frame that is not for this device (R298, R300). -/
def State.forward (f : Frame) (s : State) : State :=
  let d := f.dest.toNat
  let out := if f.kind == .response then s.routeBack d else s.route d
  match if f.hopsLeft.toNat ≤ 1 then none else out with
  | some n => (s.bump 0x810005).sendOn n { f with hopsLeft := f.hopsLeft - 1 }
  | none =>
    let s := s.bump 0x810006
    if f.kind == .response then s else s.respond rsNoRoute f [] 0

/-- A request reaches the device; a malformed frame is INVALID (R303). -/
def State.requestIn (n : Nat) (sound : Bool) (fs : List LineFault) (f : Frame) (s : State) : State :=
  if s.dev.st == .fenced then s.respond rsFenced f [] 0
  else if !sound then s.respond rsInvalid f [] 0
  else if f.dest.toNat ≠ s.devNum then s.forward f
  else
    let o : RemoteOp := ⟨f.op, addrLocal f.address, f.operand, f.payload, f.operand.toNat, f.src.toNat⟩
    let r := s.perform o true n fs
    (r.1.countAnswer r.2.status).respond r.2.status f r.2.data r.2.old

/-- A request frame of an operation on a link. One whose operation is none of R302's comes with any row, and is INVALID at its
target (R303). -/
def State.onRequest (link : Fin 32) (op : Byte) (r : Rx) (fs : List LineFault) (s : State) : Result :=
  s.onFrames link fun s =>
    s.receive link r (fun f => f.kind == .request && (f.op = op || !knownOp f.op)) fun f q s =>
      (s.accepted link q (some 0)).requestIn link (wireSound r.wire) fs f

/-- PUT (R302). -/
def execPut (link : Fin 32) (r : Rx) (s : State) : Result := s.onRequest link opPut r []

/-- GET (R302). -/
def execGet (link : Fin 32) (r : RxRead) (s : State) : Result := s.onRequest link opGet r.rx r.faults

/-- ADD64 (R302). -/
def execAdd64 (link : Fin 32) (r : RxRead) (s : State) : Result := s.onRequest link opAdd r.rx r.faults

/-- CAS64 (R302). -/
def execCas64 (link : Fin 32) (r : RxRead) (s : State) : Result := s.onRequest link opCas r.rx r.faults

/-- SWAP64 (R302). -/
def execSwap64 (link : Fin 32) (r : RxRead) (s : State) : Result := s.onRequest link opSwap r.rx r.faults

/-- MERGE (R313). -/
def execMerge (link : Fin 32) (r : Rx) (s : State) : Result := s.onRequest link opMerge r []

/-- FENCE (R304). -/
def execFence (link : Fin 32) (r : Rx) (s : State) : Result := s.onRequest link opFence r []

/-- SIGNAL (R304): what came before it is performed, so it is an ADD64 on its signal word. -/
def execSignal (link : Fin 32) (r : Rx) (s : State) : Result := s.onRequest link opSignal r []

/-! ## Responses (R303, R306, R308, R315, R318) -/

/-- A request of this device completes with the response it got. -/
def State.completeRequest (r : Req) (f : Frame) (s : State) : State :=
  let s := s.dropRequest r.tag
  match r.forWhat with
  | .hostSlot j q => s.finishSlot j q f.status f.operand (f.payload.take r.length)
  | .descriptor w id i dev => if f.status = rsOk then s else (s.holdOff dev).redispatch w id i
  | .mergeSend _ _ _ _ => s
  | .probe => s.probed (if f.status = rsOk then some f.payload else none)

/-- A partner that answers FENCED is fenced: routes avoid its link (R300, R306). -/
def State.noteFenced (n : Nat) (f : Frame) (s : State) : State :=
  if f.status = rsFenced && (s.link n).partnerDev = some f.src.toNat then s.mapLink n fun l => { l with fenced := true } else s

/-- A response reaches the device; a FENCED device forwards none. -/
def State.responseIn (n : Nat) (f : Frame) (s : State) : State :=
  if f.dest.toNat ≠ s.devNum then (if s.dev.st == .fenced then s else s.forward f)
  else
    let s := s.noteFenced n f
    match s.request f.tag with
    | some r => s.completeRequest r f
    | none => s

/-- RESPONSE (R303). -/
def execResponse (link : Fin 32) (wire : Bytes) (corrected uncorrected : Nat) (s : State) : Result :=
  s.onFrames link fun s =>
    s.receive link ⟨wire, ⟨corrected, uncorrected⟩⟩ (fun f => f.kind == .response) fun f q s => (s.accepted link q (some 1)).responseIn link f

/-! ## Host request slots (R308) -/

/-- What a slot asks for. -/
structure SlotReq where
  op : Byte
  ordered : Bool
  target : BitVec 64
  addr : Nat
  len : Nat
  operand : BitVec 64
  new : BitVec 64
  ok : Bool
deriving DecidableEq, Repr

/-- Read a slot; MERGE, an operation that is none of R302, and an MSI-X vector above 511 are INVALID. -/
def State.readSlot (s : State) (j : Nat) : SlotReq :=
  let b := s.mem.read (slotBase j) 64
  let op := BitVec.ofNat 8 (field b 0 1)
  { op := op, ordered := bit (field b 1 1) 0, target := BitVec.ofNat 64 (field b 8 8), addr := field b 0x10 8, len := field b 0x18 4,
    operand := BitVec.ofNat 64 (field b 0x20 8), new := BitVec.ofNat 64 (field b 0x28 8),
    ok := 1 ≤ op.toNat && op.toNat ≤ 8 && op ≠ opMerge && !(bit (field b 1 1) 1 && 511 < field b 2 2) }

/-- The payload of a slot's request. -/
def State.slotPayload (s : State) (q : SlotReq) : Bytes :=
  if q.op = opPut then s.localRead q.addr q.len else if q.op = opCas then natLE 8 q.new.toNat else []

/-- What stops a PUT before it leaves: its length, and its source data (R256, R302, R303). -/
def State.sourceStop (q : SlotReq) (fs : List LineFault) (s : State) : State × Option Byte :=
  if q.op ≠ opPut then (s, none)
  else if 4096 < q.len then (s, some rsAlign)
  else if !s.localOk q.addr q.len then (s.unbacked, some rsUnbacked)
  else if s.addrOffline q.addr then (s, some rsPoison)
  else
    let r := s.readLines fs (linesOf q.addr q.len)
    (r.1, if r.2 then some rsPoison else none)

/-- Issue a slot's request, or perform it here where it names this device (R299). -/
def State.runSlot (j : Nat) (q : SlotReq) (x : SlotTaken) (fs : List LineFault) (s : State) : State :=
  let dest := addrDev q.target
  let pay := s.slotPayload q
  if s.numbered && dest = s.devNum then
    let r := s.perform ⟨q.op, addrLocal q.target, q.operand, pay, q.len, dest⟩ false 0xFF fs
    r.1.finishSlot j x r.2.status r.2.old r.2.data
  else
    let operand := if q.op = opGet then BitVec.ofNat 64 q.len else q.operand
    match s.issue q.op q.ordered dest q.target operand pay (.hostSlot j x) q.len with
    | some t => t
    | none => (s.bump 0x810006).finishSlot j x rsNoRoute 0 []

/-- HOST_REQUEST_GO (R308): go is cleared, and the request is issued as it stands in its slot. -/
def execHostRequestGo (g : SlotGo) (s : State) : Result :=
  if !s.upstream.contains (slotPort g.slot) || !s.running || !(s.dev.st.ready || s.dev.st == .fenced) then .next s
  else
    let s := s.devWrite (slotBase g.slot + 0x3F) [0]
    let q := s.readSlot g.slot
    let x := s.takeSlot g.slot
    if !q.ok then .next (s.finishSlot g.slot x rsInvalid 0 [])
    else if s.dev.st == .fenced then .next (s.finishSlot g.slot x rsFenced 0 [])
    else
      let r := s.sourceStop q g.faults
      match r.2 with
      | some st => .next (r.1.finishSlot g.slot x st 0 [])
      | none => .next (r.1.runSlot g.slot q x g.faults)

/-! ## The lead (R317, R318) -/

/-- HEDGE_TIMER (R318): nothing of the shard has been heard P8300.05 after its dispatch. -/
def execHedgeTimer (window : Fin 64) (id : BitVec 32) (shard : Nat) (s : State) : Result :=
  match (s.mergeRec window id).bind fun r => r.shards[shard]? with
  | none => .next s
  | some x =>
    let due := s.num 0x830005 ≠ 0 && x.dispatched + s.num 0x830005 ≤ s.now
    if s.running && due && x.result.isNone && !x.heard && x.current.isSome && (s.nextReplica x).isSome then
      .next ((s.bump 0x83000C).redispatch window id shard)
    else .next s

/-- LEAD_CUTOFF (R317): the lead's cutoff evaluates its record. -/
def execLeadCutoff (window : Fin 64) (id : BitVec 32) (s : State) : Result :=
  match s.mergeRec window id with
  | some r => if s.running && r.cutoff ≤ s.now then .next (s.checkRecord window id) else .next s
  | none => .next s

end Sys2Proof.Machine
end

