-- ==== Sys2Proof/Machine/Host.lean ====
section
/-!
DEFINITION. The host's side (R324 to R352): device memory windows, link and decoder events, doorbells, spool commands, flush, power
states, and the standard mailbox commands (R341).
-/

namespace Sys2Proof.Machine

/-- An upstream port: a port in ROOT mode has no link to a host, no windows and no spools (R324). -/
def State.onPort (p : Port) (f : State → State) (s : State) : Result :=
  if !s.upstream.contains p then .fault .absentUnit else .next (f s)

/-- The host's memory accesses reach the device: its windows are up once the mailbox is (R414). -/
def State.windowsUp (s : State) : Bool := s.mailboxUp

/-! ## Doorbells (R332, R335, R336) -/

/-- SUBMISSION_DOORBELL. -/
def execSubmissionDoorbell (p : Port) (n : Byte) (v : BitVec 64) (s : State) : Result :=
  s.onPort p fun s => if s.windowsUp then s.ringSub p n (v.setWidth 32) else s

/-- COMPLETION_HEAD_DOORBELL. -/
def execCompletionHeadDoorbell (p : Port) (n : Byte) (v : BitVec 64) (s : State) : Result :=
  s.onPort p fun s => if s.windowsUp then s.ringComp p n (v.setWidth 32) else s

/-- COALESCE_TIMER: coalesce_time after the first entry not signalled. -/
def execCoalesceTimer (p : Port) (n : Byte) (s : State) : Result :=
  s.onPort p fun s =>
    match s.compSpool p n with
    | some c => if s.running && c.unsignalled ≠ 0 && c.firstUnsignalled + c.coalesceTime ≤ s.now then s.signalComp p n else s
    | none => s

/-- BUS_MASTER_ENABLE (R335). -/
def execBusMasterEnable (p : Port) (on : Bool) (s : State) : Result :=
  s.onPort p fun s => s.setPort p { s.port p with busMaster := on }

/-! ## Windows (R327, R328) -/

/-- The windows of R327. -/
inductive Window where
  | control | hostArea | arena | lend | image
deriving DecidableEq, Repr

/-- The window an access lies in, with its offset; none where no window backs all of it. -/
def State.windowOf (s : State) (p : Port) (dpa n : Nat) : Option (Window × Nat) :=
  let at_ (w : Window) (base size : Nat) : Option (Window × Nat) := if inside dpa n base size then some (w, dpa - base) else none
  if dpa < 0x40000000 then at_ .control 0 0x28000
  else if !s.windowsBacked then none
  else if dpa < 0x2000000000 then at_ .hostArea 0x1000000000 (s.hostBytes p)
  else if dpa < 0x10000000000 then at_ .arena 0x2000000000 (gibBytes s.chip.arenaGib)
  else if dpa < 0x90000000000 then
    (if p = .a && s.isOn 0x3400 then at_ .lend 0x10000000000 (s.num 0x340004) else none)
  else if dpa < 0xD0000000000 then some (.image, dpa - 0x90000000000)
  else none

/-- The device-local address of a window's byte. -/
def State.windowLocal (s : State) (p : Port) (w : Window) (off : Nat) : Nat :=
  match w with
  | .hostArea => s.hostBase p + off
  | .arena => s.chip.arenaBase + off
  | .lend => s.num 0x340005 + off
  | _ => off

/-- An end of a range lies on an offline unit. -/
def State.rangeOffline (s : State) (a n : Nat) : Bool := s.addrOffline a || s.addrOffline (a + (n - 1))

/-- An access through a window. -/
inductive WindowOp where
  | read (len : Nat)
  | write (data : Bytes)
deriving DecidableEq, Repr

/-- An access that no window backs: a read returns poison (R328). -/
def State.windowMiss (p : Port) (op : WindowOp) (s : State) : State :=
  match op with
  | .read _ => s.unbacked.emit (.hostRead p none)
  | .write _ => s.unbacked

/-- An access to memory behind a window. -/
def State.windowMemory (p : Port) (w : Window) (a : Nat) (op : WindowOp) (s : State) : State :=
  match op with
  | .read n =>
    if s.rangeOffline a n then (if w = .lend then s.bump 0x340006 else s).emit (.hostRead p none)
    else s.emit (.hostRead p (some (s.mem.read a n)))
  | .write b => if s.rangeOffline a b.length then s else s.devWrite a b

/-- An access that a window backs. -/
def State.windowAccess (p : Port) (w : Window) (off : Nat) (op : WindowOp) (s : State) : State :=
  match w with
  | .control =>
    match op with
    | .read n => s.emit (.hostRead p (some (s.controlRead p off n)))
    | .write b => s.controlWrite p off b
  | .image =>
    match op with
    | .read n => match s.imageRead p off n with
      | some b => s.emit (.hostRead p (some b))
      | none => s.windowMiss p op
    | .write b => s.imageWrite p off b
  | .lend => s.loadAppears.windowMemory p w (s.windowLocal p w off) op
  | .hostArea | .arena => s.windowMemory p w (s.windowLocal p w off) op

/-- Bytes of an access. -/
def WindowOp.size : WindowOp → Nat
  | .read n => n
  | .write b => b.length

/-- A load or a store of the host (R328). -/
def State.hostWindow (p : Port) (dpa : Nat) (op : WindowOp) (s : State) : State :=
  if !s.windowsUp then s
  else
    match s.windowOf p dpa op.size with
    | some (w, off) => s.windowAccess p w off op
    | none => s.windowMiss p op

/-- The port's configuration space is reached: its link is up (R414). -/
def State.configUp (s : State) (p : Port) : Bool := s.running && s.dev.st != .boot && (s.port p).linkState = 2

/-- The GPF DVSEC (R352): a phase 2 duration of 100 µs and a phase 2 power of 450 W, as CXL 3.1 encodes them (log entry 13). -/
def gpfDvsecBytes : Bytes := natLE 2 0x0201 ++ natLE 4 450000

/-- HOST_ACCESS (R328, R336, R352). -/
def execHostAccess (p : Port) (dpa : Nat) (op : HostOp) (s : State) : Result :=
  s.onPort p fun s =>
    match op with
    | .read n => s.hostWindow p dpa (.read n)
    | .write b => s.hostWindow p dpa (.write b)
    | .msix o => if s.configUp p then s.msixWrite p o else s
    | .gpfDvsec => if s.configUp p then s.emit (.hostRead p (some gpfDvsecBytes)) else s

/-! ## Links and decoders (R326, R352) -/

/-- HDM_DECODER_COMMIT: one of the port's eight decoders (R323). -/
def execHdmDecoderCommit (p : Port) (n : Fin 8) (d : HdmDecoder) (s : State) : Result :=
  s.onPort p fun s => s.setPort p { s.port p with decoders := put n.val d (s.port p).decoders }

/-- CXL_LINK_DOWN: the link leaves the up state, to train again or to stay down, and its IDE streams with it. A port that its host
leads into Loopback is out of service until the link is up again (R429). -/
def execCxlLinkDown (d : PortDown) (s : State) : Result :=
  s.onPort d.port fun s =>
    let x := s.port d.port
    if x.linkState ≠ 2 then s
    else
      let y : PortState := { x with linkState := if d.training then 1 else 0, speed := 0, width := 0, flit := false, ide := false }
      (s.setPort d.port { y with follower := d.loopback }).raise 0x28 (Port.num d.port) 0 none

/-! ## Spool commands (R338, R344) -/

/-- It is a submission spool. -/
def SpoolDef.isSub (d : SpoolDef) : Bool := d.kind ≠ 3

/-- Its number. -/
def SpoolDef.number (d : SpoolDef) : Byte := BitVec.ofNat 8 d.num

/-- The number of its completion spool. -/
def SpoolDef.comp (d : SpoolDef) : Byte := BitVec.ofNat 8 d.completion

/-- Its ring lies in host memory. -/
def SpoolDef.inHost (d : SpoolDef) : Bool := !d.isSub && d.location = 1

/-- Its number is in use, or its completion spool does not exist. -/
def State.spoolState (s : State) (p : Port) (d : SpoolDef) : Bool :=
  if d.isSub then (s.subSpool p d.number).isSome || (s.compSpool p d.comp).isNone else (s.compSpool p d.number).isSome

/-- Its ring overlaps another ring of the same memory. -/
def State.ringOverlaps (s : State) (p : Port) (d : SpoolDef) : Bool :=
  (!d.inHost && s.spools.sub.any fun x => overlaps d.base d.ringBytes x.base (x.entries * 128)) ||
    s.spools.comp.any fun c => c.hostMemory = d.inHost && (!d.inHost || c.port = p) && overlaps d.base d.ringBytes c.base (c.entries * 32)

/-- Its ring lies where it may. -/
def State.ringPlaced (s : State) (p : Port) (d : SpoolDef) : Bool :=
  (d.inHost || inside d.base d.ringBytes (s.hostBase p) (s.hostBytes p)) && !s.ringOverlaps p d

/-- The binding permits it. -/
def State.spoolTenant (s : State) (p : Port) (d : SpoolDef) : Bool :=
  s.permitted p d.tenant && (d.inHost || s.fenceOk p d.tenant d.base d.ringBytes) &&
    (!d.isSub || (s.compSpool p d.comp).all fun c => c.tenant.toNat = d.tenant)

/-- Zero a range of a memory: an unlisted byte reads 0x00. -/
def Memory.zero (a n : Nat) (m : Memory) : Memory := m.drop fun x => a ≤ x && x < a + n

/-- Create the spool; its ring is zero-filled. -/
def State.addSpool (p : Port) (d : SpoolDef) (s : State) : State :=
  let s := if d.inHost then { s with hostMem := s.hostMem.zero d.base d.ringBytes } else { s with mem := s.mem.zero d.base d.ringBytes }
  if d.isSub then
    { s with spools := { s.spools with sub := s.spools.sub ++
      [({ port := p, num := d.number, mutation := d.kind = 2, weight := d.weight, entries := d.entries, base := d.base,
          completion := d.comp, tenant := BitVec.ofNat 16 d.tenant } : SubSpool)] } }
  else
    { s with spools := { s.spools with comp := s.spools.comp ++
      [({ port := p, num := d.number, hostMemory := d.inHost, entries := d.entries, base := d.base, tenant := BitVec.ofNat 16 d.tenant,
          msix := if d.msix = 0xFFFF then none else some d.msix, coalesceCount := d.coalesceCount, coalesceTime := d.coalesceTime } : CompSpool)] } }

/-- CREATE_SPOOL. The order among its refusals is field ranges, STATE, the ring's place, and TENANT (log entry 30). -/
def execCreateSpool (p : Port) (b : Bytes) (s : State) : Result :=
  if b.length ≠ 64 then .fault .illFormed
  else s.onMailbox p false fun s =>
    let d := parseSpool b
    if !d.rangesOk then s.deny p .field
    else if s.spoolState p d then s.deny p .state
    else if !s.ringPlaced p d then s.deny p .field
    else if !s.spoolTenant p d then s.deny p .tenant
    else (s.addSpool p d).ok p []

/-- The submission spool that a kind and a number name. -/
def State.spoolOfKind (s : State) (p : Port) (kind n : Byte) : Option SubSpool :=
  (s.subSpool p n).filter fun x => kind = if x.mutation then 2 else 1

/-- DELETE_SPOOL. -/
def execDeleteSpool (p : Port) (kind : Byte) (n : Padded Byte) (s : State) : Result :=
  s.onMailbox p false fun s =>
    if kind = 0 || 3 < kind || n.reserved.any (· ≠ 0) then s.deny p .field
    else if kind = 3 then
      if (s.compSpool p n.val).isNone || s.spools.sub.any fun x => x.port = p && x.completion = n.val then s.deny p .state
      else ({ s with spools := { s.spools with comp := s.spools.comp.filter fun c => !(c.port = p && c.num = n.val) } }).ok p []
    else
      match s.spoolOfKind p kind n.val with
      | some x =>
        if !x.idle || x.resetting then s.deny p .state
        else ({ s with spools := { s.spools with sub := s.spools.sub.filter fun y => !(y.port = p && y.num = n.val) } }).ok p []
      | none => s.deny p .state

/-- The query came from the spool. -/
def Query.fromSpool (p : Port) (n : Byte) (q : Query) : Bool :=
  match q.client with
  | .spool q m _ => q = p && m = n
  | .peer _ _ _ => false

/-- Entries in flight from a spool finish with RING_RESET (R338 step 2). -/
def State.endSpoolWork (p : Port) (n : Byte) (s : State) : State :=
  ((s.endQueries (Query.fromSpool p n) fun q => { q with ring := true }).cutEncodes
    (fun j => j.port = p && j.spool = n) stReset).resetJobs p n

/-- RESET_SPOOL. -/
def execResetSpool (p : Port) (kind : Byte) (n : Padded Byte) (s : State) : Result :=
  s.onMailbox p false fun s =>
    if kind = 0 || 3 < kind || n.reserved.any (· ≠ 0) then s.deny p .field
    else
      match s.spoolOfKind p kind n.val with
      | some x =>
        if x.resetting then s.deny p .state
        else s.startBg p 0xC012 n.val.toNat fun s => (s.mapSub p n.val fun x => { x with resetting := true }).endSpoolWork p n.val
      | none => s.deny p .state

/-- Complete unread entries of a resetting spool with RING_RESET, as completion slots free (R338 step 3). -/
def State.drainReset (p : Port) (n : Byte) : Nat → State → State
  | 0, s => s
  | fuel + 1, s =>
    match s.subSpool p n with
    | none => s
    | some x =>
      match s.compOf x with
      | none => s
      | some c =>
        if x.unread = 0 || !c.hasRoom || (c.hostMemory && !(s.port p).busMaster) then s
        else
          let b := s.headEntry x
          let s := (s.takeEntry p n).complete p n (x.head + 1).toNat (field b 4 4) 0 0 (field b 0 1) stReset
          State.drainReset p n fuel (if x.mutation || field b 0 1 = 0x40 then s else s.bump 0x502001)

/-- SPOOL_RESET_COMPLETE (R338): the last of the completions is written, and the spool is ACTIVE. -/
def execSpoolResetComplete (p : Port) (n : Byte) (s : State) : Result :=
  s.onPort p fun s =>
    match s.subSpool p n with
    | none => s
    | some x =>
      if !x.resetting || !s.mailboxUp then s
      else
        let s := s.drainReset p n x.unread
        if !(s.subSpool p n).all SubSpool.idle then s
        else (s.mapSub p n fun x => { x with resetting := false, resets := x.resets + 1 }).endBg p 0xC012 .success 0

/-! ## Flush (R346) -/

/-- FLUSH: in the background, as FLUSH_JOURNAL or FLUSH_SEAM. -/
def execFlush (p : Port) (kind : Byte) (h : Padded Handle) (s : State) : Result :=
  s.onMailbox p false fun s =>
    if (kind ≠ 1 && kind ≠ 2) || h.reserved.any (· ≠ 0) then s.deny p .field
    else
      s.startBg p 0xC030 kind.toNat fun s =>
        let work : MutWork := if kind = 1 then .flushJournal false else .flushSeam
        let s := s.addJob { id := 0, client := .mailbox p, opcode := if kind = 1 then 0x21 else 0x22,
                            coll := if h.val = 0xFFFF then none else some h.val, work := work, arrival := s.now }
        if kind = 1 then s.closeBlock closedFlush else s

/-! ## Power states (R350, R351) -/

/-- What a transition to PS2, PS3 or PS4 takes away without FORCE: an unread or outstanding entry, or a run. -/
def State.spoolsBusy (s : State) : Bool :=
  (s.spools.sub.any fun x => !x.idle) || !s.fabric.queue.isEmpty || !s.search.queries.isEmpty || s.tun.run.isSome ||
    !s.tun.queue.isEmpty

/-- A submission spool is not empty (PC000.04). -/
def State.spoolsHold (s : State) : Bool := s.spools.sub.any fun x => !x.idle

/-- The transition begins: a self-test ends, and runs end with POWER_STATE (R251, R439). -/
def State.beginPower (p : Port) (t : Nat) (force : Bool) (s : State) : State :=
  let forced := force && 2 ≤ t && s.spoolsHold
  let s := if 2 ≤ t then (s.endSelfTest selfAborted).endRuns runPower else s
  { s with dev := { s.dev with transition := some ⟨p, t, forced⟩, target := t } }

/-- SET_POWER_STATE (R350). -/
def execSetPowerState (p : Port) (target : Byte) (flags : Padded Byte) (s : State) : Result :=
  s.onMailbox p false fun s =>
    let t := target.toNat
    let force := flags.val.getLsbD 0
    if 4 < t || 1 < flags.val || flags.reserved.any (· ≠ 0) then s.deny p .field
    else if s.dev.transition.isSome then s.deny p .background
    else if s.dev.power = 4 then s.deny p .powerState
    else if t = s.dev.power then s.startBg p 0xC050 t fun s => s.endBg p 0xC050 .success 0
    else if 3 ≤ t && (s.sw 0x3400).st != .off then s.deny p .state
    else if 2 ≤ t && !force && s.spoolsBusy then s.deny p .spoolsBusy
    else s.startBg p 0xC050 t fun s => s.beginPower p t force

/-- Every outstanding entry has completed. -/
def State.allDone (s : State) : Bool :=
  (s.spools.sub.all fun x => x.outstanding = 0) && s.search.queries.isEmpty && s.encodes.isEmpty && s.muts.jobs.isEmpty

/-- PS4 turns the journal OFF, and contents are discarded. -/
def State.enterPs4 (s : State) : State :=
  let s := (s.release ownerJournal).setSw 0x4100 ⟨.off, none⟩
  { s with mem := s.mem.drop fun a => a < controlBase }

/-- The clusters are powered down, and hold nothing after it (R350). -/
def State.clearTun (s : State) : State := { s with tun := { s.tun with clusters := [] } }

/-- The new state is reached. -/
def State.reachPower (x : Transition) (s : State) : State :=
  let old := s.dev.power
  let s := { s with dev := { s.dev with power := x.target, transition := none, target := x.target } }
  let s := if 2 ≤ x.target then
      ((s.endRuns runPower).clearTun).endQueries (fun q => q.stage == .flat || q.stage == .flatWait)
        fun q => { q with degraded := true, powerLimited := true }
    else s
  let s := if 3 ≤ x.target then s.linksStop else if 3 ≤ old then s.linksStart else s
  let s := if x.target = 4 then s.enterPs4 else s
  let s := (s.bump 0xC00003).logChange 2 old x.target 0
  (if x.forced then s.bump 0xC00004 else s).endBg x.port 0xC050 .success 0

/-- Batches run that need Tun: of a baste or flat scan, and encode batches with DIM_STATS (R20, R116). -/
def State.tunBatches (s : State) : Bool := !s.search.batches.isEmpty || s.encodes.any fun j => bit j.flags.toNat 1

/-- POWER_TRANSITION_COMPLETE (R350, R351): Tun's batches have finished for PS2; for PS3 and PS4 every entry has completed, then
the open journal block is closed, and every block is durable. -/
def execPowerTransitionComplete (s : State) : Result :=
  match s.dev.transition with
  | none => .next s
  | some x =>
    if !s.serves then .next s
    else if x.target = 2 && s.dev.power < 2 && s.tunBatches then .next s
    else if x.target ≤ 2 then .next (s.reachPower x)
    else if !s.allDone then .next s
    else if s.muts.journal.current.isSome then .next (s.closeBlock closedFlush)
    else if !s.muts.journal.unwritten.isEmpty then .next s
    else .next (s.reachPower x)

/-! ## Standard commands (R341; formats of CXL 3.1, log entry 13) -/

/-- Return codes as CXL 3.1 numbers them (log entry 13). -/
def Rc.code : Rc → Nat
  | .success => 0x00 | .backgroundStarted => 0x01 | .invalidInput => 0x02 | .unsupported => 0x03 | .busy => 0x06
  | .mediaDisabled => 0x07 | .fwTransferInProgress => 0x08 | .fwOutOfOrder => 0x09 | .fwVerificationFailed => 0x0A
  | .invalidSlot => 0x0B | .invalidHandle => 0x0E | .invalidLog => 0x17

/-- Open bytes of a standard output. -/
def cxlOpen (which n : Nat) : Bytes := padTo n (Config.cxlBytes which)

/-- IDENTIFY. -/
def execIdentify (p : Port) (s : State) : Result := s.onMailbox p true fun s => s.ok p (cxlOpen 1 18)

/-- BACKGROUND_OPERATION_STATUS (R339): the running command, or the last and how it ended. Progress in percent is open. -/
def execBackgroundOperationStatus (p : Port) (s : State) : Result :=
  s.onMailbox p true fun s =>
    let x := s.port p
    match x.bg with
    | some b => (s.ok p (natLE 1 (1 + 2 * (s.fresh.toNat % 101)) ++ [0] ++ natLE 2 b.opcode ++ zeros 4)).spend
    | none => s.ok p ([0, 0] ++ natLE 2 x.lastOpcode ++ natLE 2 x.lastRc.code ++ natLE 2 x.lastExt)

/-- REQUEST_ABORT (R339, R439): honoured for an extended self-test only. -/
def execRequestAbort (p : Port) (s : State) : Result :=
  s.onMailbox p false fun s =>
    match s.test.selfTest with
    | some t => if t.extended && t.port = p then (s.ok p []).endSelfTest selfAborted else s.reply p .unsupported 0 []
    | none => s.reply p .unsupported 0 []

/-- The commands of the chapter, which the Command Effects Log lists. -/
def cxlOpcodes : List Nat :=
  [0x0001, 0x0002, 0x0005, 0x0100, 0x0101, 0x0102, 0x0103, 0x0200, 0x0201, 0x0202, 0x0400, 0x0401, 0x4000, 0xC000, 0xC001, 0xC002,
   0xC003, 0xC010, 0xC011, 0xC012, 0xC020, 0xC021, 0xC022, 0xC023, 0xC024, 0xC025, 0xC026, 0xC030, 0xC040, 0xC050, 0xC060, 0xC061,
   0xC070]

/-- The Command Effects Log; the effects of a command are open. -/
def effectsLog : Bytes := cxlOpcodes.flatMap fun o => natLE 2 o ++ cxlOpen o 2

/-- GET_SUPPORTED_LOGS: the Command Effects Log. -/
def execGetSupportedLogs (p : Port) (s : State) : Result :=
  s.onMailbox p true fun s => s.ok p (natLE 2 1 ++ zeros 6 ++ cxlOpen 2 16 ++ natLE 4 effectsLog.length)

/-- GET_LOG. -/
def execGetLog (p : Port) (effects : Bool) (offset length : Nat) (s : State) : Result :=
  s.onMailbox p true fun s =>
    if !effects then s.reply p .invalidLog 0 []
    else if effectsLog.length < offset + length then s.deny p .field
    else s.ok p (sub effectsLog offset length)

/-- The place of a log. -/
def EventLog.place : EventLog → Nat
  | .informational => 0 | .warning => 1 | .failure => 2 | .fatal => 3

/-- A CXL event record that carries an event record of R383 (R352): Wearel's UUID is open. -/
def cxlRecord (handle : Nat) (b : Bytes) : Bytes :=
  cxlOpen 3 16 ++ [0x80] ++ zeros 3 ++ natLE 2 handle ++ zeros 2 ++ sub b 16 8 ++ zeros 16 ++ padTo 80 b

/-- GET_EVENT_RECORDS (R352). -/
def execGetEventRecords (p : Port) (log : EventLog) (s : State) : Result :=
  s.onMailbox p true fun s =>
    let l := (s.port p).log (EventLog.place log)
    s.ok p (natLE 1 (bitIf (l.overflow ≠ 0) 0) ++ [0] ++ natLE 2 l.overflow ++ natLE 8 l.firstLost ++ natLE 8 l.lastLost ++
      natLE 2 l.records.length ++ zeros 10 ++ l.records.flatMap fun r => cxlRecord r.1 r.2)

/-- Replace a log. -/
def PortState.setLog (n : Nat) (l : CxlLog) (p : PortState) : PortState :=
  if n = 0 then { p with info := l } else if n = 1 then { p with warning := l } else if n = 3 then { p with fatal := l }
  else { p with failure := l }

/-- Clear records, oldest first; a log that is emptied forgets its overflow. None where the handles are not those. -/
def CxlLog.clear (handles : Option (List Nat)) (l : CxlLog) : Option CxlLog :=
  match handles with
  | none => some { l with records := [], overflow := 0, firstLost := 0, lastLost := 0 }
  | some hs =>
    if hs ≠ (l.records.take hs.length).map Prod.fst then none
    else if hs.length = l.records.length then some { l with records := [], overflow := 0, firstLost := 0, lastLost := 0 }
    else some { l with records := l.records.drop hs.length }

/-- CLEAR_EVENT_RECORDS: it handles no event (R386). -/
def execClearEventRecords (p : Port) (log : EventLog) (handles : Option (List Nat)) (s : State) : Result :=
  s.onMailbox p false fun s =>
    match ((s.port p).log (EventLog.place log)).clear handles with
    | some l => (s.setPort p ((s.port p).setLog (EventLog.place log) l)).ok p []
    | none => s.reply p .invalidHandle 0 []

/-- GET_EVENT_INTERRUPT_POLICY. -/
def execGetEventInterruptPolicy (p : Port) (s : State) : Result :=
  s.onMailbox p true fun s => s.ok p (natLE 4 (s.port p).policy.toNat)

/-- SET_EVENT_INTERRUPT_POLICY. -/
def execSetEventInterruptPolicy (p : Port) (policy : BitVec 32) (s : State) : Result :=
  s.onMailbox p false fun s => (s.setPort p { s.port p with policy := policy }).ok p []

/-- IDENTIFY_MEMORY_DEVICE: the usable HBM is volatile capacity, in units of 256 MiB, and none is persistent. -/
def execIdentifyMemoryDevice (p : Port) (s : State) : Result :=
  s.onMailbox p true fun s =>
    let n := s.capacity .hbm / sliceBytes
    s.ok p (padTo 16 (natLE 4 s.sec.firmware.toNat) ++ natLE 8 n ++ natLE 8 n ++ zeros 8 ++ cxlOpen 4 8 ++
      (List.replicate 4 (natLE 2 64)).flatten ++ cxlOpen 5 11)

/-- GET_TIMESTAMP: Unsupported; fleet time is read through P2000. -/
def execGetTimestamp (p : Port) (s : State) : Result := s.onMailbox p true fun s => s.reply p .unsupported 0 []

/-- SET_TIMESTAMP: Unsupported; fleet time is set through P2000. -/
def execSetTimestamp (p : Port) (s : State) : Result := s.onMailbox p true fun s => s.reply p .unsupported 0 []

end Sys2Proof.Machine
end

