-- ==== Sys2Proof/WellFormed.lean ====
section
/-!
DEFINITION. Which commands are well formed: those whose structures have the sizes the manual gives them. A command
that is not is carried by no transport of the manual.
-/

namespace Sys2Proof

/-- A frame has a header of 32 bytes, at most 4,096 payload bytes and a trailer of 8, or of 24 with the tag (R297). -/
def Rx.wellFormed (r : Rx) : Bool := 40 ≤ r.wire.length && r.wire.length ≤ 32 + 4096 + 24

/-- The board has 24 bulk positions and Port B up to four expanders (R263, R325). -/
def TrainReport.wellFormed (r : TrainReport) : Bool := r.packages.length ≤ 24 && r.expanders.length ≤ 4

/-- A command is well formed. -/
def Instr.wellFormed : Instr → Bool
  | .trainComplete r => r.wellFormed
  | .createCollection _ d => d.length = 256
  | .createSpool _ d => d.length = 64
  | .submitRecipe _ d => d.length = 32
  | .loadBegin _ _ pre => 0x140 ≤ pre.length
  | .get _ r | .add64 _ r | .cas64 _ r | .swap64 _ r => r.rx.wellFormed
  | .response _ w _ _ | .credit _ w _ => Rx.wellFormed { wire := w }
  | .put _ r | .merge _ r | .fence _ r | .signal _ r | .ack _ r | .linkReplay _ r | .capability _ r | .timeBeacon _ r => r.wellFormed
  | _ => true

end Sys2Proof
end

