-- ==== Sys2Proof/Machine/Startup.lean ====
section
/-!
DEFINITION. Start-up, resets and power (R31, R32, R225, R263, R286, R324 to R326, R329, R338, R349, R365, R407 to R415, R440): the
entry to BOOT and its steps, TRAIN, READY-EMPTY, and the pins. Readings are in log entry 34.
-/

namespace Sys2Proof.Machine

/-! ## Entering BOOT (R378, R388, R412, R414, R415) -/

/-- The address lies in an extent lent to the host from the CXL tier (R285). -/
def State.lentCxl (s : State) (a : Nat) : Bool :=
  s.tiers.extents.any fun e => e.owner = ownerLend && e.tier = 2 && inside a 1 e.base e.size

/-- What of a part no start-up measures or sets. -/
def Chip.part (c : Chip) : Chip :=
  { variant := c.variant, stackMask := c.stackMask, linkMask := c.linkMask, bulkRing := c.bulkRing, vendorOui := c.vendorOui,
    enterprise := c.enterprise, flashA := c.flashA, flashB := c.flashB, idA := c.idA, idB := c.idB, cables := c.cables }

/-- What no reset reaches: the part itself and the memories outside it. Expander contents are kept (log entry 34), but lent ones
(R285). -/
def State.survivors (s : State) : State :=
  { pending := s.pending, out := s.out, free := s.free, hostMem := s.hostMem
    chip := s.chip.part
    ftu := { aon := s.ftu.aon }
    mem := s.mem.drop fun a => a < cxlBase || caskBase ≤ a || s.lentCxl a
    ret := { flashA := s.ret.flashA, flashB := s.ret.flashB }
    sec := { record := s.sec.record, areaA := s.sec.areaA, areaB := s.sec.areaB, lastB := s.sec.lastB, slotA := s.sec.slotA,
             slotB := s.sec.slotB }
    tiers := { calib := s.tiers.calib }
    dev := { st := s.dev.st, perstA := s.dev.perstA, pwrFail := s.dev.pwrFail, freezePin := s.dev.freezePin, refclk := s.dev.refclk } }

/-- Take the state code BOOT, from the state that was left: FAULT_N is armed, and the straps are latched. -/
def State.beginBoot (straps : BitVec 2) (epoch : Nat) (s : State) : State :=
  let t := { s with dev := { s.dev with straps := straps, epoch := epoch, previous := s.dev.st, freezeWait := s.dev.freezePin },
                    thimble := { armed := true } }
  let t := t.setDevState .boot
  if t.chip.variant = 2 then t.setNum 0x340003 2 else t

/-- Nominals of R393, in mV. -/
def railNominal (n : Nat) : Nat :=
  match n with
  | 0 => 750 | 1 => 800 | 2 => 900 | 3 => Config.vddHbmNominal | 4 => 1800 | _ => 3300

/-- A reading lies outside the nominal by more than `pct` percent. -/
def railOut (n pct mv : Nat) : Bool := railNominal n * pct < 100 * ((mv : Int) - railNominal n).natAbs

/-- No monitor has last read outside 8 percent (R414); one that has not read yet is in band. -/
def State.monitorsOk (s : State) : Bool :=
  (List.range 6).all fun n => ((look s.tele.readings (0xB00001 + n)).map fun v => !railOut n 8 v.toNat).getD true

/-- Phiug is loaded once the steps are done and MAIN_PG is high with the monitors in band; with no image to run there is none. -/
def State.loadPhiug (s : State) : State :=
  if s.dev.st != .boot || s.dev.frozen || !s.dev.stepsDone || s.sec.running.isNone || !s.dev.mainPg || s.dev.phiug || !s.monitorsOk then s
  else ({ s with dev := { s.dev with phiug := true } }).calArmAll

/-- What a start-up takes from its settings (R259, R324, R329): parity, the mode and the parts of Port B, and the host areas. -/
def State.latched (s : State) : Chip :=
  { s.chip with parity := s.num 0x300001 = 1, portBRoot := s.num 0x910001 = 1, split := s.num 0x910002,
                wantA := s.num 0x900006, wantB := s.num 0x910008 }

/-- Parts of a ROOT port: one, two or four (R324). -/
def State.rootParts (s : State) : Nat := 2 ^ s.chip.split

/-- The CXL ports begin to train, where their reference clock is present (R353, R409): those to a host, and the parts of a ROOT port,
whose expanders show it. -/
def State.portsTrain (s : State) : State :=
  if !s.dev.refclk.getLsbD 0 then s
  else
    let s := s.upstream.foldl (fun s p => s.setPort p { s.port p with linkState := 1 }) s
    if !s.chip.portBRoot then s
    else { s with tiers := { s.tiers with
      expanders := (List.range s.rootParts).foldl (fun l n => put n ({ st := 1 } : Expander) l) s.tiers.expanders } }

/-- BOOT ends once Phiug runs and PERSTA_N is deasserted: the settings of this start-up are taken, and the ports and links train. -/
def State.enterTrain (s : State) : State :=
  if s.dev.st != .boot || s.dev.frozen || !s.dev.stepsDone || !s.dev.phiug || s.dev.perstA then s
  else
    let s := { s with chip := s.latched, dev := { s.dev with banksDriven := true } }
    (s.setDevState .train).portsTrain.linksStart

/-- The steps of start-up up to MAIN_EN; they wait for FREEZE_N where it was low at the entry to BOOT (R440), and for a retained copy
being written. Recovery and NO_FIRMWARE leave MAIN_EN as it is; with the main rails up Phiug is loaded. -/
def State.bootSteps (s : State) : State :=
  if s.dev.st != .boot || s.dev.frozen || s.dev.stepsDone || s.dev.freezeWait || s.ret.writing.isSome then s
  else
    let s := s.selectFirmware.deriveKeys.retainedRestore
    let go := s.dev.st == .boot && !s.dev.frozen && !s.sec.recovery
    let at_ := if go && !s.dev.mainEn then some s.aonNs else s.dev.mainEnAt
    ({ s with dev := { s.dev with stepsDone := true, mainEn := s.dev.mainEn || go, mainEnAt := at_ } }).calArmAll.loadPhiug.enterTrain

/-- Flash writes of security and calibration records that VAUX lets end (R415). -/
def State.flashLanded (s : State) : State :=
  { s with sec := s.sec.landAll, tiers := { s.tiers with calib := (s.tiers.calibNew.map Prod.fst).getD s.tiers.calib, calibNew := none } }

/-- Those writes where VAUX is lost now: what has ended stands, and else the older record does (R413). The manual gives no time to a
calibration record but the 2 s of R415, within which its end is open (log entry 34). -/
def State.flashCut (s : State) : State :=
  let done (at_ : Nat) : Bool := at_ + 2000000000 ≤ s.aonNs || s.fresh.getLsbD 0
  let c := match s.tiers.calibNew with
    | some (l, at_) => if done at_ then l else s.tiers.calib
    | none => s.tiers.calib
  ({ s with sec := s.sec.landed s.aonNs, tiers := { s.tiers with calib := c, calibNew := none } }).spend

/-- A later entry to BOOT (R415): MAIN_EN stays as it is, and so does a retained copy being written. -/
def State.reenter (straps : BitVec 2) (s : State) : State :=
  let t := s.flashLanded.survivors
  let t := { t with ret := { t.ret with writing := s.ret.writing }
                    dev := { t.dev with mainEn := s.dev.mainEn, mainPg := s.dev.mainPg } }
  t.beginBoot straps ((s.dev.epoch + 1) % 2 ^ 32)

/-- BOOT again, as far as its steps go. -/
def State.reboot (straps : BitVec 2) (s : State) : State := (s.reenter straps).bootSteps

/-- POWER_GOOD (R414). -/
def execPowerGood (straps : BitVec 2) (s : State) : Result :=
  if s.dev.st != .off then .next s else .next (s.survivors.beginBoot straps 1).bootSteps

/-- VAUX_LOST (R32, R366, R408, R413): OFF from any state; a retained copy being written stays invalid. -/
def execVauxLost (s : State) : Result :=
  let t := s.flashCut.survivors
  .next { t with dev := { t.dev with st := .off } }

/-- PERSTA_N (R32): it asserts, or a CXL reset of Port A occurs. -/
def execPerstaN (straps : BitVec 2) (s : State) : Result :=
  let s := { s with dev := { s.dev with perstA := true } }
  if s.dev.st == .off then .next s else .next (s.reboot straps)

/-- DEVICE_RESET (R349): the completion is written, then the device acts as on a CXL reset of Port A. -/
def execDeviceReset (p : Port) (straps : BitVec 2) (s : State) : Result :=
  s.onMailbox p true fun s => if p ≠ .a then s.deny p .port else (s.ok p []).reboot straps

/-- RETAINED_COPY_WRITTEN (R366): the read-back passes, or is retried once; a second mismatch raises COMMIT_FAILED. Start-up that
waits for the write goes on (R415). -/
def execRetainedCopyWritten (ok : Bool) (s : State) : Result :=
  match s.ret.writing with
  | none => .next s
  | some w =>
    if s.dev.st == .off then .next s
    else if ok then
      let s := s.storeCopy w.toA w.copy
      .next ({ s with ret := { s.ret with writing := none, lastSequence := w.copy.sequence } }).nextCopy.bootSteps
    else if !w.retried then .next { s with ret := { s.ret with writing := some { w with retried := true } } }
    else
      let s := { s with ret := { s.ret with writing := none, failed := true } }
      .next (s.event 0x6B 0xFFFF 0).nextCopy.bootSteps

/-! ## The main rails (R407) and TRAIN (R259, R324, R414) -/

/-- MAIN_PG: with the monitors in band, Phiug is loaded into the control cores. -/
def execMainPg (s : State) : Result :=
  if s.dev.st != .boot || !s.dev.mainEn || s.dev.mainPg then .next s
  else .next ({ s with dev := { s.dev with mainPg := true } }).loadPhiug.enterTrain

/-- MAIN_EN has been high for 200 ms. -/
def State.mainLate (s : State) : Bool := s.dev.mainEnAt.any fun t => t + 200000000 ≤ s.aonNs

/-- MAIN_PG_TIMEOUT, 200 ms after MAIN_EN: the lowest-numbered rail out of band fails, of those whose readings are given, or VDD_CORE
where MAIN_PG alone is missing. -/
def execMainPgTimeout (rails : List (BitVec 16)) (s : State) : Result :=
  if s.dev.st != .boot || s.dev.frozen || !s.mainLate then .next s
  else
    let s := { s with dev := { s.dev with mainEnAt := none } }
    let mv (n : Nat) : Nat := ((rails[n]?).map BitVec.toNat).getD 0
    match (List.range (min 6 rails.length)).find? fun n => railOut n 8 (mv n) with
    | some n => .next (s.raise 0x09 n (mv n) none)
    | none => .next (if s.dev.mainPg then s else s.raise 0x09 0 (mv 0) none)

/-- PERSTA_N_DEASSERTED. -/
def execPerstaNDeasserted (s : State) : Result :=
  .next ({ s with dev := { s.dev with perstA := false } }).enterTrain

/-! ## What training finds (R263, R286, R325) -/

/-- The patterns of R263, the largest first. -/
def patterns : List (List Nat) :=
  [List.range 24, (List.range 24).filter fun n => n % 3 ≠ 2, (List.range 24).filter fun n => n % 2 = 0]

/-- Stacks that did not train go offline. -/
def State.trainStacks (failed : BitVec 12) (s : State) : State :=
  (List.range 12).foldl (fun s n => if bit failed.toNat n then s.raise 0x16 n 0 none else s) s

/-- The report of a bulk position. -/
def packageAt (l : List PackageReport) (n : Nat) : PackageReport := (l[n]?).getD { channels := 0, gib := 0 }

/-- Bulk packages: those fitted, those that answer in part, the pattern in use and its density. -/
def State.trainBulk (l : List PackageReport) (s : State) : State :=
  if !s.chip.bulkRing then s
  else
    let all := List.range 24
    let fitted := all.filter fun n => (packageAt l n).channels ≠ 0
    let whole := fitted.filter fun n => (packageAt l n).channels = 15
    let use_ := (patterns.find? fun p => p.all whole.contains).getD []
    let gib := (use_.map fun n => (packageAt l n).gib).foldl min 64
    let s := { s with chip := { s.chip with fitted := BitVec.ofNat 24 (maskOf fitted), inUse := BitVec.ofNat 24 (maskOf use_),
                                            density := if use_.isEmpty then 0 else gib } }
    let s := (fitted.filter fun n => !whole.contains n).foldl (fun s n => s.raise 0x22 n 0 none) s
    if fitted.all use_.contains then s else s.event 0x23 0xFFFF 0

/-- Why an expander is left unused; 0 where it is accepted. -/
def State.expanderCause (s : State) (r : ExpanderReport) : Nat :=
  if !r.trained then 1 else if !r.type3 then 2 else if r.dynamic then 3 else if s.num 0x910003 = 2 && !r.ideOk then 4 else 0

/-- One expander joins the CXL tier, or is left unused; the tier stops at 8 TiB. -/
def State.trainExpander (n : Nat) (r : ExpanderReport) (s : State) : State :=
  let used := (s.tiers.expanders.map fun x => x.2.capacity).sum
  let c := s.expanderCause r
  let e : Expander := { st := if c = 0 then 2 else 3, vendorDevice := r.vendorDevice,
                        capacity := if c = 0 then min r.capacity (2 ^ 43 - used) else 0, persistent := r.persistent,
                        width := r.width, speed := r.speed, cause := BitVec.ofNat 8 c }
  { s with tiers := { s.tiers with expanders := put n e s.tiers.expanders } }

/-- The expanders of a ROOT port; a part with none has none. -/
def State.trainRoot (l : List ExpanderReport) (s : State) : State :=
  if !s.chip.portBRoot then s
  else
    let s := { s with tiers := { s.tiers with expanders := [] } }
    (List.range s.rootParts).foldl (fun s n => match l[n]? with | some r => s.trainExpander n r | none => s) s

/-- Rails as last read. -/
def State.railsNow (s : State) : List Nat := (List.range 6).map fun n => ((look s.tele.readings (0xB00001 + n)).map BitVec.toNat).getD 0

/-- A stack or a package that trained: its unit number, its identity, its density and its temperature (R286). -/
structure Trained where
  unit : Nat
  ident : BitVec 64
  gib : Nat := 0
  celsius : Option Int := none
deriving DecidableEq, Repr

/-- Retained calibration holds for a unit now (R286). -/
def State.calibOk (s : State) (c : Calib) (u : Trained) : Bool :=
  c.unit = u.unit && c.ident = u.ident && c.gib = u.gib && c.major = s.sec.firmware.toNat / 2 ^ 24 &&
    (match c.celsius, u.celsius with | some x, some y => (x - y).natAbs ≤ 10 | none, none => true | _, _ => false) &&
    ((c.rails.zip s.railsNow).all fun x => 100 * ((x.1 : Int) - x.2).natAbs ≤ x.1) &&
    (!s.timeKnown || s.now < c.at_ + 90 * 86400000000000)

/-- The stacks and packages that trained. A stack's identity and a package's manufacturer and revision come with the report. -/
def State.trained (s : State) (r : TrainReport) : List Trained :=
  (s.stacksUp.map fun n => ({ unit := n, ident := (r.stackIds[n]?).getD 0, celsius := (s.stack n).celsius } : Trained)) ++
    ((List.range 24).filter fun n => bit s.chip.fitted.toNat n && !bit s.units.package.toNat n).map fun n =>
      let p := packageAt r.packages n
      { unit := 16 + n, ident := BitVec.ofNat 64 (256 * p.manufacturer.toNat + p.revision.toNat), gib := p.gib, celsius := p.celsius }

/-- The calibration records as they stand or are being written. -/
def State.calibNow (s : State) : List Calib := (s.tiers.calibNew.map Prod.fst).getD s.tiers.calib

/-- Each stack and package that trained keeps its calibration, or retains the one it has now been given: where no record holds, or
where a stack trained from its record has failed its verify and been trained in full. -/
def State.retainCalib (r : TrainReport) (s : State) : State :=
  if !s.hasFlash then s
  else
    (s.trained r).foldl (fun s u =>
      if (s.tiers.calib.any fun c => s.calibOk c u) && !(u.unit < 12 && bit r.failedVerify.toNat u.unit) then s
      else
        let c : Calib := ⟨u.unit, u.ident, u.gib, u.celsius, s.railsNow, s.sec.firmware.toNat / 2 ^ 24, s.stamp⟩
        { s with tiers := { s.tiers with calibNew := some (s.calibNow.filter (fun c => c.unit ≠ u.unit) ++ [c], s.aonNs) } }) s

/-- P3000.02 to P3000.04. -/
def State.measureTiers (s : State) : State :=
  let bytes (tier : Nat) (l : List Nat) : Nat := (l.map (s.unitSlices tier)).sum * sliceBytes
  ((s.setNum 0x300002 (bytes 0 s.stacksUp)).setNum 0x300003 (bytes 1 s.packagesUp)).setNum 0x300004
    ((s.tiers.expanders.map fun x => x.2.capacity).sum)

/-! ## Areas set out in TRAIN (R329, R365) -/

/-- One port's host area; nothing where it does not fit. -/
def State.placeHost (p : Port) (gib : Nat) (s : State) : State :=
  match s.placeArea (0x10010 + Port.num p) 0 (gibBytes gib) with
  | none => s
  | some (b, t) =>
    match p with
    | .a => { t with chip := { t.chip with hostAreaA := b, hostGibA := gib } }
    | .b => { t with chip := { t.chip with hostAreaB := b, hostGibB := gib } }

/-- A restored size of an HBM area that does not fit is replaced by its default. -/
def State.checkArea (k : Nat) (s : State) : State :=
  if gibBytes (s.num k) ≤ s.freeBytes 0 || s.num k = defaultOf k then s
  else ((s.setNum k (defaultOf k)).bump 0x100309).event 0x6A 0xFFFF 0

/-- Host areas, the overflow area, the recipe arena, the payload area and the Cask partitions. -/
def State.setOut (s : State) : State :=
  let s := s.placeHost .a s.chip.wantA
  let s := if s.chip.portBRoot then s else s.placeHost .b s.chip.wantB
  let s := ((s.setNum 0x503004 0).checkArea 0x503002).applyAreas
  (s.checkArea 0x702008).applyArena.applyBaste

/-- Memory_Active is set in the CXL DVSEC of each upstream port (R414). -/
def State.memoryReady (s : State) : State :=
  s.upstream.foldl (fun s p => s.setPort p { s.port p with memoryActive := true }) s

/-- TRAIN_COMPLETE (R32, R414, R419): every present memory is trained or taken offline, and Port A's link is up. -/
def execTrainComplete (r : TrainReport) (s : State) : Result :=
  if !r.wellFormed then .fault .illFormed
  else if s.dev.st != .train || s.dev.frozen || s.ports.a.linkState ≠ 2 then .next s
  else
    let s := ((s.trainStacks r.failedStacks).trainBulk r.packages).trainRoot r.expanders
    if s.dev.frozen || s.dev.st != .train then .next s
    else
      let s := (s.retainCalib r).measureTiers.setOut
      if s.dev.st != .train then .next s else .next (s.setDevState .readyEmpty).endTrial.memoryReady

/-- HOST_LINK_UP (R326): no port trains without its reference clock (R409). -/
def execHostLinkUp (p : Port) (speed width : Byte) (flit : Bool) (s : State) : Result :=
  s.onPort p fun s =>
    if !s.running || s.dev.st == .boot || !s.dev.refclk.getLsbD 0 then s
    else s.setPort p { s.port p with linkState := 2, speed := speed, width := width, flit := flit, follower := false }

/-! ## Port B reset (R338) -/

/-- What a reset of its port leaves of it (R336, R338): a Reset spool that runs there completes, and bus mastering and the MSI-X
capability return to their reset values (log entry 17). -/
def State.portReset (p : Port) (s : State) : State :=
  let s := s.endBg p 0xC012 .success 0
  s.setPort p { s.port p with busMaster := false, msix := {} }

/-- Without the spools of a port. -/
def Spools.without (p : Port) (x : Spools) : Spools :=
  { x with sub := x.sub.filter fun (y : SubSpool) => decide (y.port ≠ p), comp := x.comp.filter fun (y : CompSpool) => decide (y.port ≠ p) }

/-- PERSTB_N, or a CXL reset of Port B in UPSTREAM mode: its submission spools are reset without completions (its completion spools go
first), its spools deleted and its host area zero-filled. In ROOT mode there is nothing of these. -/
def execPerstbN (s : State) : Result :=
  if !s.running || s.dev.st == .boot || s.chip.portBRoot then .next s
  else
    let mine := s.spools.sub.filter fun x => x.port = .b
    let s := { s with spools := { s.spools with comp := s.spools.comp.filter fun (c : CompSpool) => decide (c.port ≠ Port.b) } }
    let s := mine.foldl (fun s x => (s.mapSub .b x.num fun x => { x with resetting := true }).endSpoolWork .b x.num) s
    let s := { s with spools := s.spools.without .b
                      mem := s.mem.drop fun a => s.hostBase .b ≤ a && a < s.hostBase .b + s.hostBytes .b }
    .next (s.portReset .b)

/-! ## Power warnings (R225, R352, R408, R415, R441) -/

/-- PWR_FAIL_N: it closes the journal in READY-EMPTY to DEGRADED; in BOOT and TRAIN, and while frozen, nothing is closed. -/
def execPwrFailN (s : State) : Result :=
  let s := { s with dev := { s.dev with pwrFail := true } }
  if s.serves then .next (s.powerClose 0) else .next s

/-- Intake resumes. -/
def State.resumeIntake (s : State) : State := (s.mapJournal fun j => { j with intakeStopped := none }).resumeJobs

/-- PWR_FAIL_N_DEASSERTED. -/
def execPwrFailNDeasserted (s : State) : Result :=
  let s := { s with dev := { s.dev with pwrFail := false } }
  if s.serves && s.muts.journal.intakeStopped = some 0 then .next s.resumeIntake else .next s

/-- GPF_PHASE_1, on Port A. -/
def execGpfPhase1 (s : State) : Result := if s.serves then .next (s.powerClose 1) else .next s

/-- Every block write completes. -/
def State.writeBlocks : Nat → State → State
  | 0, s => s
  | n + 1, s => if s.muts.journal.unwritten.isEmpty then s else State.writeBlocks n (s.readRelease.blockOutcome true)

/-- GPF_PHASE_2: every block write completes, the flush goes on to the expanders, and intake resumes where PWR_FAIL_N is
deasserted. -/
def execGpfPhase2 (s : State) : Result :=
  if !s.serves then .next s
  else
    let s := s.writeBlocks s.muts.journal.unwritten.length
    let s := if s.expandersUp.isEmpty then s else s.emit .flushExpanders
    if s.muts.journal.intakeStopped ≠ some 1 then .next s
    else if s.dev.pwrFail then .next (s.mapJournal fun j => { j with intakeStopped := some 0 })
    else .next s.resumeIntake

/-! ## FREEZE_N (R440) -/

/-- FREEZE_N: a fall in OFF or BOOT is ignored, but for the level that the next entry to BOOT finds. -/
def execFreezeN (s : State) : Result :=
  let t := { s with dev := { s.dev with freezePin := true } }
  .next (if s.dev.st == .boot then t else t.freezeNow 1 0)

/-- FREEZE_N_RELEASED: start-up that waits goes on; a freeze stays. -/
def execFreezeNReleased (s : State) : Result :=
  .next (({ s with dev := { s.dev with freezePin := false, freezeWait := false } }).bootSteps)

/-! ## Clocks and the management port (R378, R409) -/

/-- REFCLK_CHECK: bit 0 CXL, 1 Shuttle, 2 management; without the last the management port is down. -/
def execRefclkCheck (present : BitVec 3) (s : State) : Result :=
  if s.dev.st == .off then .next s
  else .next { s with dev := { s.dev with refclk := present, mgmtUp := s.dev.mgmtUp && present.getLsbD 2 } }

/-- MANAGEMENT_PORT_STATE: the port stays down without its clock, and where no identity record gives it an address. -/
def execManagementPortState (up : Bool) (s : State) : Result :=
  if s.dev.st == .off then .next s
  else .next { s with dev := { s.dev with mgmtUp := up && s.dev.refclk.getLsbD 2 && s.sec.identity ≠ 2 } }

/-- SET_ENDPOINT_ID. -/
def execSetEndpointId (eid : Byte) (s : State) : Result :=
  if s.dev.st == .off then .next s else .next (s.setNum 0x100403 eid.toNat)

end Sys2Proof.Machine
end

