-- ==== Sys2Proof/Machine/SelfTest.lean ====
section
/-!
DEFINITION. The self-test (R348, R435 to R439) and the test access port (R443, R444). Readings are in log entry 33.
-/

namespace Sys2Proof.Machine

/-! ## What a test covers (R436, R437) -/

/-- Online units of a kind. -/
def onlineUnits (k : UnitKind) (mask : Nat) : List SliceRef :=
  ((List.range (unitCount k)).filter fun n => !bit mask n).map fun n => .compute ⟨k, n⟩

/-- The slices of the short self-test; Tun clusters are powered down from PS2 on. -/
def State.shortSlices (s : State) : List SliceRef :=
  let u := s.units
  (if 2 ≤ s.dev.power then [] else onlineUnits .tun u.tun.toNat) ++ onlineUnits .kiln u.kiln.toNat ++
    onlineUnits .needle u.needle.toNat ++ onlineUnits .score u.score.toNat ++ onlineUnits .lauter u.lauter.toNat ++
    ((List.finRange 32).filter fun (n : Fin 32) => s.sliceUse n = 0).map SliceRef.caskSlice ++ onlineUnits .core u.core.toNat ++
    ((List.finRange 16).filter fun (n : Fin 16) => !bit u.lane.toNat n.val).map SliceRef.d2dGroup

/-- A slice as the list of a test names it: what a march finds comes with its command. -/
def SliceRef.key : SliceRef → SliceRef
  | .hbmSlice st n _ _ _ => .hbmSlice st n 0 .none .whole
  | .bulkSlice pkg n _ _ => .bulkSlice pkg n 0 .none
  | r => r

/-- The slices of the memory units, stacks and then packages, by unit and number (log entry 33). -/
def State.memorySlices (s : State) : List SliceRef :=
  let ss : List (Fin 12) := (List.finRange 12).filter fun n => s.stacksUp.contains n.val
  let ps : List (Fin 24) := (List.finRange 24).filter fun n => s.packagesUp.contains n.val
  (ss.flatMap fun n => (List.range (s.unitSlices 0 n.val)).map fun i => SliceRef.hbmSlice n i 0 .none .whole) ++
    ps.flatMap fun n => (List.range (s.unitSlices 1 n.val)).map fun i => SliceRef.bulkSlice n i 0 .none

/-- What the extended self-test adds. -/
def State.longSlices (s : State) : List SliceRef :=
  let golden (k : UnitKind) (mask : Nat) : List SliceRef :=
    ((List.range (unitCount k)).filter fun n => !bit mask n).map fun n => .golden ⟨k, n⟩
  (if 2 ≤ s.dev.power then [] else golden .tun s.units.tun.toNat) ++ golden .kiln s.units.kiln.toNat ++
    s.memorySlices ++ ((List.finRange 32).filter fun (n : Fin 32) => s.linkPresent n && (s.linkUp n || (s.sw (linkIndex n)).st == .off)).map SliceRef.link ++
    ((List.finRange 32).filter fun (n : Fin 32) => 3 ≤ s.sliceUse n && s.sliceUse n ≤ 6).map SliceRef.caskSlice

/-- Where a slice stands in the order of R437: 0 the short test, 1 Tun, 2 Kiln, 3 memory, 4 links, 5 Cask partitions. -/
def State.slicePhase (s : State) (r : SliceRef) : Nat :=
  match r with
  | .compute _ | .d2dGroup _ => 0
  | .golden u => if u.kind = .tun then 1 else 2
  | .hbmSlice _ _ _ _ _ | .bulkSlice _ _ _ _ => 3
  | .link _ => 4
  | .caskSlice n => if s.sliceUse n = 0 then 0 else 5

/-- A Cask partition is held (R437). -/
def State.partitionHeld (s : State) (n : Fin 32) : Bool :=
  match s.sliceUse n with
  | 3 => s.search.queries.any fun q => q.pages ≠ 0
  | 4 => s.search.queries.any fun q => q.spill ≠ 0
  | 5 => !s.encodes.isEmpty
  | 6 => s.tun.run.isSome
  | _ => false

/-! ## Running (R435, R438) -/

/-- START_SELF_TEST. -/
def execStartSelfTest (p : Port) (kind : Padded Byte) (s : State) : Result :=
  s.onMailbox p false fun s =>
    if (kind.val ≠ 1 && kind.val ≠ 2) || kind.reserved.any (· ≠ 0) then s.deny p .field
    else if 3 ≤ s.dev.power then s.deny p .powerState
    else if s.testBusy then s.deny p .state
    else
      s.startBg p 0xC060 kind.val.toNat fun s =>
        let left := if kind.val = 2 then s.shortSlices ++ s.longSlices else s.shortSlices
        let t : SelfTest := { port := p, extended := kind.val = 2, started := s.stamp, begun := s.aonNs, left := left }
        { s with test := { s.test with selfTest := some t } }

/-- A free slice of a memory unit. -/
def State.freeMemory (s : State) (tier unit n : Nat) : Bool :=
  (s.tierUnits tier).contains unit && n < s.unitSlices tier unit && !s.sliceTaken tier unit n

/-- A slice of memory that is not free: the pass leaves it out when it reaches it (R437). -/
def State.notFree (s : State) : SliceRef → Bool
  | .hbmSlice st n _ _ _ => !s.freeMemory 0 st n
  | .bulkSlice pkg n _ _ => !s.freeMemory 1 pkg n
  | _ => false

/-- RESIDENT lists that a Lauter unit holds, of its 320 (R182). -/
def State.residentLists (s : State) (u : Nat) : Nat :=
  (s.search.queries.filter fun q => q.held && q.lauter = u && q.spill = 0 && !q.long).length

/-- A unit is in use where its slice needs it idle, so the slice is tested later: a Needle with contexts in use, a score unit without a
free context, a Lauter unit without a free list slot (R436), and a Tun cluster of a run or a scan, which come before test work (R22,
R435). -/
def State.testLater (s : State) (u : UnitRef) : Bool :=
  match u.kind with
  | .needle => s.search.queries.any fun q => q.d.graph && q.lead.isNone && q.needle = u.index && q.stage != .waiting
  | .score => 4 ≤ s.unitContexts u.index
  | .lauter => 320 ≤ s.residentLists u.index
  | .tun => s.tun.run.any (fun r => bit r.d.clusters.toNat u.index) || !s.search.batches.isEmpty
  | .kiln | .core | .transport => false

/-- The slice waits for its unit. -/
def State.sliceLater (s : State) : SliceRef → Bool
  | .compute u | .golden u => s.testLater u
  | _ => false

/-- The slice can be tested now: its unit is there and online, or it is free memory (R437). -/
def State.canTest (s : State) (r : SliceRef) : Bool :=
  match r with
  | .compute u | .golden u => s.unitUp (unitSource u.kind) u.index
  | .caskSlice n => s.unitUp 0x31 n && !s.partitionHeld n
  | .d2dGroup n => s.unitUp 0x54 n
  | .hbmSlice st n _ _ _ => s.freeMemory 0 st n
  | .bulkSlice pkg n _ _ => s.freeMemory 1 pkg n
  | .link n => s.linkUp n || (s.sw (linkIndex n)).st == .off

/-- What a march finds, as a read of the line would: an error that a read misses raises nothing. -/
def marchErrors : LineErrors → LineErrors
  | .upToTwo | .manyMiscorrected => .upToTwo
  | .threeOrFour | .manyDetected => .threeOrFour
  | .none | .manyMissed => .none

/-- Withhold a slice until the next start-up. -/
def State.withhold (tier unit n : Nat) (s : State) : State :=
  { s with tiers := { s.tiers with withheld := s.tiers.withheld ++ [(tier, unit, n)] } }

/-- What a failed slice does (R438). A free slice has no device-local address, and its line in the channel is open. -/
def State.sliceFails (r : SliceRef) (s : State) : State :=
  match r with
  | .compute u | .golden u => s.failUnit (unitSource u.kind) u.index
  | .caskSlice n => s.failUnit 0x31 n
  | .d2dGroup n => s.failUnit 0x54 n
  | .hbmSlice st n c e stripe => (lineDone ((s.spend.withhold 0 st n).readHbm st c (64 * s.fresh.toNat) none (marchErrors e) stripe)).1
  | .bulkSlice pkg n c e => (lineDone ((s.withhold 1 pkg n).readBulk pkg c none (marchErrors e))).1
  | .link n => s.event 0x58 n (s.link n).cause.toNat

/-- The pass goes on to the next slice that it does not leave out; a test with nothing left ends: PASS, or FAIL where a slice
failed. -/
def State.testEnds (s : State) : State :=
  match s.test.selfTest with
  | some t =>
    let left := t.left.dropWhile s.notFree
    if left.isEmpty then s.endSelfTest (if t.failures = 0 then 0 else 1)
    else { s with test := { s.test with selfTest := some { t with left := left } } }
  | none => s

/-- What a march over a cache slice does first: the lines held there are dropped (R436). -/
def State.marchStarts (r : SliceRef) (s : State) : State :=
  match r with
  | .caskSlice n => { s with tiers := s.tiers.dropCache fun i => i = n.val }
  | _ => s

/-- A slice of the test is done with. -/
def SelfTest.past (r : SliceRef) (phase : Nat) (tested fails : Bool) (t : SelfTest) : SelfTest :=
  { t with left := t.left.filter fun x => x ≠ r, phase := phase, done := t.done + bitIf tested 0,
           failures := t.failures + bitIf fails 0 }

/-- SELF_TEST_SLICE (R436 to R438): a slice of the test, in the order of R437, memory by memory from the lowest; one that cannot be tested
is left out, and one whose unit is in use waits. A slice in progress as load appears still finishes. -/
def execSelfTestSlice (r : SliceRef) (pass : Bool) (s : State) : Result :=
  match s.test.selfTest with
  | none => .next s
  | some t =>
    let ph := s.slicePhase r
    let k := SliceRef.key r
    let listed := if ph = 3 then t.left.head? = some k else t.left.contains k
    let turn := t.phase ≤ ph && t.left.all fun x => ph ≤ s.slicePhase x
    if !listed || !turn || (t.paused && t.pausedAt + 100000 < s.aonNs) || s.sliceLater r then .next s
    else
      let can := s.canTest r
      let bad := can && !pass
      let s := if can then s.marchStarts r else s
      let s := { s with test := { s.test with selfTest := some (t.past k ph can bad) } }
      .next (if bad then s.sliceFails r else s).testEnds

/-- SELF_TEST_RESUME: PD300.03 has passed in which no entry was read and none is outstanding. -/
def execSelfTestResume (s : State) : Result :=
  match s.test.selfTest with
  | some t =>
    if t.paused && t.idleSince + s.num 0xD30003 ≤ s.aonNs && s.search.queries.isEmpty && s.spools.sub.all (fun x => x.outstanding = 0) then
      .next { s with test := { s.test with selfTest := some { t with paused := false } } }
    else .next s
  | none => .next s

/-- SELF_TEST_LIMIT. -/
def execSelfTestLimit (s : State) : Result :=
  match s.test.selfTest with
  | some t =>
    if t.begun + s.num (if t.extended then 0xD30005 else 0xD30004) * 1000000000 ≤ s.aonNs then .next (s.endSelfTest selfAborted)
    else .next s
  | none => .next s

/-- GET_SELF_TEST_RESULT. -/
def execGetSelfTestResult (p : Port) (s : State) : Result :=
  s.onMailbox p true fun s =>
    let r := s.test.result
    s.ok p ([r.kind, r.outcome, 0, 0] ++ natLE 4 r.failures ++ natLE 8 r.started ++ natLE 8 r.completed)

/-! ## The test access port (R443) -/

/-- Load an instruction; only EXTEST drives the pins. The TAP has no power in OFF. -/
def State.onTap (ir : Byte) (f : State → State) (s : State) : Result :=
  if s.dev.st == .off then .next s
  else .next (f { s with test := { s.test with tap := { s.test.tap with ir := ir, driven := false } } })

/-- IDCODE. -/
def execIdcode (s : State) : Result := s.onTap 0x01 fun s => s.emit (.tdo (bitsOf 32 Config.idcodeWord.toNat))

/-- Bytes of the boundary register leave TDO. -/
def State.shiftPins (b : Bytes) (s : State) : State := s.emit (.tdo (b.flatMap fun (x : Byte) => bitsOf 8 x.toNat))

/-- SAMPLE_PRELOAD: the boundary register captures the levels of the pins, which leave TDO while TDI shifts in what EXTEST is to
drive. -/
def execSamplePreload (b : BoundaryScan) (s : State) : Result :=
  s.onTap 0x02 fun s =>
    ({ s with test := { s.test with tap := { s.test.tap with sampled := b.pins, boundary := b.tdi } } }).shiftPins b.pins

/-- BYPASS: one bit, which captures 0. -/
def State.shiftBypass (s : State) : State := s.emit (.tdo [false])

/-- EXTEST: the pins are driven from what PRELOAD shifted in. What it captures and shifts out is taken to be the levels that SAMPLE
last captured (log entry 7). -/
def execExtest (s : State) : Result :=
  s.onTap 0x03 fun s =>
    if s.dev.frozen || (s.dev.st == .boot && !s.dev.mainEn) then
      ({ s with test := { s.test with tap := { s.test.tap with driven := true } } }).shiftPins s.test.tap.sampled
    else s.shiftBypass

/-- FREEZE_STATUS. -/
def execFreezeStatus (s : State) : Result :=
  s.onTap 0x40 fun s =>
    s.emit (.tdo (bitsOf 32 (bitIf s.dev.frozen 0 + 2 * s.test.tap.chain.toNat + 2 ^ 9 * (s.test.freezePolicy.toNat % 4))))

/-- CHAIN_SELECT. -/
def execChainSelect (chain : Byte) (s : State) : Result :=
  s.onTap 0x41 fun s => { s with test := { s.test with tap := { s.test.tap with chain := chain } } }

/-- CHAIN_READ. -/
def execChainRead (bits : Nat) (s : State) : Result := s.onTap 0x42 fun s => s.emit (.tdo (s.chainBits s.test.tap.chain.toNat bits))

/-- BYPASS, or a code that no instruction has. -/
def execBypass (code : Byte) (s : State) : Result :=
  if [0x01, 0x02, 0x03, 0x40, 0x41, 0x42].contains code then .next s else s.onTap code State.shiftBypass

end Sys2Proof.Machine
end

