-- ==== Sys2Proof/Machine/Telemetry.lean ====
section
/-!
DEFINITION. Power pacing (R18), the monitors (R392, R393), and telemetry samples (R394), at which every trace
stream sends what it holds. Readings are in log entry 35.
-/

namespace Sys2Proof.Machine

/-! ## Power and monitors -/

/-- Keep a reading. -/
def State.setReading (k : Nat) (v : BitVec 32) (s : State) : State :=
  { s with tele := { s.tele with readings := put k v s.tele.readings } }

/-- POWER_ESTIMATE (R18): above the limit, Tun and Kiln issue is paced. -/
def execPowerEstimate (watts : BitVec 16) (s : State) : Result :=
  if !s.running then .next s
  else
    let w := watts.toNat
    let t := { s.tele with powerSum := s.tele.powerSum + w, powerCount := s.tele.powerCount + 1,
                           powerPeak := max s.tele.powerPeak w }
    let high := decide (s.num 0xC10001 < w)
    let s := ({ s with tele := t, dev := { s.dev with pacing := high } }).setReading 0xC10002 (watts.setWidth 32)
    .next (if high then s.bump 0xC10003 else s)

/-- A WARN source may raise: it has not, or its reading has since been inside its limit for 1 ms. -/
def State.mayWarn (s : State) (k : Nat) : Bool :=
  match look s.thimble.warned k with
  | none => true
  | some none => false
  | some (some t) => t + 1000000 ≤ s.aonNs

/-- A reading of a WARN source and instance. -/
def State.warn (src inst detail : Nat) (out : Bool) (s : State) : State :=
  let k := 256 * src + inst
  let mark (v : Option Nat) : State := { s with thimble := { s.thimble with warned := put k v s.thimble.warned } }
  if out then (if s.mayWarn k then (mark none).raise src inst detail none else mark none)
  else if look s.thimble.warned k = some none then mark (some s.aonNs)
  else s

/-- RAIL_SAMPLE (R392, R393): VAUX from BOOT on, the other rails once they are up. The higher class is processed first (R382). -/
def execRailSample (rail : Fin 6) (mv : BitVec 16) (s : State) : Result :=
  if s.dev.st == .off || (rail.val < 5 && !s.dev.mainPg) then .next s
  else
    let v := mv.toNat
    let s := s.setReading (0xB00001 + rail) (mv.setWidth 32)
    let s := if railOut rail 8 v then s.raise 0x09 rail v none else s
    .next (s.warn 0x08 rail v (railOut rail (s.num 0xB0000A) v)).loadPhiug.enterTrain

/-- Instance of a half (R381). -/
def Half.num : Half → Nat
  | .west => 0
  | .east => 1

/-- JUNCTION_SAMPLE (R393, R408): THERM_TRIP_N stays asserted until the next entry to BOOT. -/
def execJunctionSample (h : Half) (celsius : Int) (s : State) : Result :=
  if s.dev.st == .off then .next s
  else
    let n := Half.num h
    let detail := (BitVec.ofInt 64 celsius).toNat
    let s := s.setReading (0xB00007 + n) (BitVec.ofInt 32 celsius)
    let s := if 115 ≤ celsius then ({ s with dev := { s.dev with thermTrip := true } }).raise 0x0B n detail none else s
    .next (s.warn 0x0A n detail (decide (100 ≤ celsius)))

/-! ## Samples (R394) -/

/-- The stack with the highest tier: its tier code and its number, the lowest among equals. -/
def State.hottest (s : State) : Nat × Nat :=
  ((List.range 12).filter s.stackPresent).foldr (fun n m => if m.1 ≤ (s.stack n).tier.code then ((s.stack n).tier.code, n) else m) (0, 0)

/-- The higher junction reading, as I16; open where there is none. -/
def State.junctionMax (s : State) : Nat :=
  match look s.tele.readings 0xB00007, look s.tele.readings 0xB00008 with
  | some a, some b => (BitVec.ofInt 16 (max a.toInt b.toInt)).toNat
  | some a, none | none, some a => (BitVec.ofInt 16 a.toInt).toNat
  | none, none => (Config.freeValue (s.free + 1)).toNat % 65536

/-- The record of a sample at `t`: `counts` are those of its period and `peak` the largest estimate. -/
def State.sampleRecord (s : State) (t period peak : Nat) (counts : List Nat) : Bytes :=
  let n (i : Nat) : Nat := (counts[i]?).getD 0
  let mean := if n 8 = 0 then s.fresh.toNat % 65536 else n 7 / n 8
  let a := natLE 8 t ++ natLE 8 period ++ natLE 1 s.dev.st.code ++ natLE 1 s.dev.power ++ natLE 1 s.ftu.st.code ++ [0] ++
    natLE 2 mean ++ natLE 2 peak ++ (List.range 7).flatMap fun i => natLE 8 (n i)
  let b := natLE 8 (n 9) ++ natLE 8 (n 10) ++ natLE 4 s.muts.baste.length ++ natLE 4 s.thimble.opened.length ++ natLE 2 s.degraded ++ natLE 1 s.hottest.1 ++
    natLE 1 s.hottest.2 ++ natLE 2 s.junctionMax ++ zeros 18
  a ++ b ++ (List.range 32).flatMap fun i => natLE 4 (n (11 + i) % 2 ^ 32)

/-- Two lists of counts, added place by place. -/
def addCounts : List Nat → List Nat → List Nat
  | a :: l, b :: r => (a + b) :: addCounts l r
  | [], r => r
  | l, [] => l

/-- A sample for an occurrence at `t`: what happened from `t` less the period up to, but not at, `t` (R58, R394). -/
def State.takeSample (t period : Nat) (s : State) : State :=
  let l := s.tele.past.filter fun h => t ≤ h.stamp + period && h.stamp < t
  let r := s.sampleRecord t period ((l.map Happened.peak).foldl max 0) (l.foldl (fun c h => addCounts c h.counts) [])
  let s := (((s.setBlob 0xB01001 r).bump 0xB01002).spend).spend
  s.holdTrace 3 r

/-- TELEMETRY_SAMPLE (R58, R394). -/
def execTelemetrySample (entry : Fin 128) (s : State) : Result :=
  let period := (s.calEntry entry).period
  match if s.calKind entry = 6 then s.fire entry else none with
  | some (t, s) => .next ((s.bump (key (calIndex entry) 8)).takeSample t period).sendTraces
  | none => .next s

end Sys2Proof.Machine
end

