-- ==== Sys2Proof/Machine/Dispatch.lean ====
section
/-!
DEFINITION. What each command does to everything but the queue: one arm per constructor of `Instr`.
-/

namespace Sys2Proof.Machine

/-- The effect of a command. -/
def exec (i : Instr) (s : State) : Host.Outcome State Fault Refusal :=
  match i with
  | .powerGood straps => Sys2Proof.Machine.execPowerGood straps s
  | .mainPg => Sys2Proof.Machine.execMainPg s
  | .mainPgTimeout rails => Sys2Proof.Machine.execMainPgTimeout rails s
  | .perstaNDeasserted => Sys2Proof.Machine.execPerstaNDeasserted s
  | .trainComplete r => Sys2Proof.Machine.execTrainComplete r s
  | .vauxLost => Sys2Proof.Machine.execVauxLost s
  | .perstaN straps => Sys2Proof.Machine.execPerstaN straps s
  | .perstbN => Sys2Proof.Machine.execPerstbN s
  | .pwrFailN => Sys2Proof.Machine.execPwrFailN s
  | .pwrFailNDeasserted => Sys2Proof.Machine.execPwrFailNDeasserted s
  | .gpfPhase1 => Sys2Proof.Machine.execGpfPhase1 s
  | .gpfPhase2 => Sys2Proof.Machine.execGpfPhase2 s
  | .freezeN => Sys2Proof.Machine.execFreezeN s
  | .freezeNReleased => Sys2Proof.Machine.execFreezeNReleased s
  | .powerEstimate watts => Sys2Proof.Machine.execPowerEstimate watts s
  | .railSample rail mv => Sys2Proof.Machine.execRailSample rail mv s
  | .junctionSample h celsius => Sys2Proof.Machine.execJunctionSample h celsius s
  | .sourceQualification => Sys2Proof.Machine.execSourceQualification s
  | .holdoverErrorLimit => Sys2Proof.Machine.execHoldoverErrorLimit s
  | .sync m => Sys2Proof.Machine.execSync m s
  | .followUp m => Sys2Proof.Machine.execFollowUp m s
  | .delayResponse m => Sys2Proof.Machine.execDelayResponse m s
  | .announce m => Sys2Proof.Machine.execAnnounce m s
  | .ftPpsIn => Sys2Proof.Machine.execFtPpsIn s
  | .ftPpsOut => Sys2Proof.Machine.execFtPpsOut s
  | .beaconSend => Sys2Proof.Machine.execBeaconSend s
  | .timeBeacon link r => Sys2Proof.Machine.execTimeBeacon link r s
  | .setTime w t => Sys2Proof.Machine.execSetTime w t s
  | .acceptBackwardStep w v => Sys2Proof.Machine.execAcceptBackwardStep w v s
  | .generationBell => Sys2Proof.Machine.execGenerationBell s
  | .mergeBell entry => Sys2Proof.Machine.execMergeBell entry s
  | .windowStart entry => Sys2Proof.Machine.execWindowStart entry s
  | .windowEnd entry => Sys2Proof.Machine.execWindowEnd entry s
  | .telemetrySample entry => Sys2Proof.Machine.execTelemetrySample entry s
  | .calendarEntryOn w entry => Sys2Proof.Machine.execCalendarEntryOn w entry s
  | .calendarEntryOff w entry => Sys2Proof.Machine.execCalendarEntryOff w entry s
  | .functionStartComplete index ok => Sys2Proof.Machine.execFunctionStartComplete index ok s
  | .functionStopComplete index => Sys2Proof.Machine.execFunctionStopComplete index s
  | .submissionDoorbell p n v => Sys2Proof.Machine.execSubmissionDoorbell p n v s
  | .completionHeadDoorbell p n v => Sys2Proof.Machine.execCompletionHeadDoorbell p n v s
  | .graphSearch intake needle => Sys2Proof.Machine.execGraphSearch intake needle s
  | .flatScan intake => Sys2Proof.Machine.execFlatScan intake s
  | .getByVid intake => Sys2Proof.Machine.execGetByVid intake s
  | .hybrid intake needle => Sys2Proof.Machine.execHybrid intake needle s
  | .encode p n => Sys2Proof.Machine.execEncode p n s
  | .encodeBatchComplete job => Sys2Proof.Machine.execEncodeBatchComplete job s
  | .driftWindow h => Sys2Proof.Machine.execDriftWindow h s
  | .neighbourListArrival q => Sys2Proof.Machine.execNeighbourListArrival q s
  | .codeLinesArrival q slot unit => Sys2Proof.Machine.execCodeLinesArrival q slot unit s
  | .rerankBatchComplete q => Sys2Proof.Machine.execRerankBatchComplete q s
  | .basteBatchStart h => Sys2Proof.Machine.execBasteBatchStart h s
  | .basteBatchComplete batch => Sys2Proof.Machine.execBasteBatchComplete batch s
  | .flatBatchStart h rerank => Sys2Proof.Machine.execFlatBatchStart h rerank s
  | .scanChunkComplete r => Sys2Proof.Machine.execScanChunkComplete r s
  | .listSpaceReleased q => Sys2Proof.Machine.execListSpaceReleased q s
  | .queryWaitCutoff q => Sys2Proof.Machine.execQueryWaitCutoff q s
  | .coalesceTimer p n => Sys2Proof.Machine.execCoalesceTimer p n s
  | .mutate p n => Sys2Proof.Machine.execMutate p n s
  | .basteRoom job => Sys2Proof.Machine.execBasteRoom job s
  | .journalBlockTimer => Sys2Proof.Machine.execJournalBlockTimer s
  | .journalBlockWriteComplete ok => Sys2Proof.Machine.execJournalBlockWriteComplete ok s
  | .journalSpaceReleased => Sys2Proof.Machine.execJournalSpaceReleased s
  | .flushJournal p n => Sys2Proof.Machine.execFlushJournal p n s
  | .flushSeam p n => Sys2Proof.Machine.execFlushSeam p n s
  | .flushSatisfied job => Sys2Proof.Machine.execFlushSatisfied job s
  | .replay p n => Sys2Proof.Machine.execReplay p n s
  | .save p n => Sys2Proof.Machine.execSave p n s
  | .seamInsert h slot => Sys2Proof.Machine.execSeamInsert h slot s
  | .seamDelete h => Sys2Proof.Machine.execSeamDelete h s
  | .slotFree h slot => Sys2Proof.Machine.execSlotFree h slot s
  | .setGeneration w v => Sys2Proof.Machine.execSetGeneration w v s
  | .journalOn w => Sys2Proof.Machine.execJournalOn w s
  | .journalOff w => Sys2Proof.Machine.execJournalOff w s
  | .seamOn w => Sys2Proof.Machine.execSeamOn w s
  | .seamOff w => Sys2Proof.Machine.execSeamOff w s
  | .createCollection p definition => Sys2Proof.Machine.execCreateCollection p definition s
  | .deleteCollection p h => Sys2Proof.Machine.execDeleteCollection p h s
  | .collectionDrained h => Sys2Proof.Machine.execCollectionDrained h s
  | .loadBegin p h pre => Sys2Proof.Machine.execLoadBegin p h pre s
  | .imageWindowWrite p offset data => Sys2Proof.Machine.execImageWindowWrite p offset data s
  | .loadEnd p h => Sys2Proof.Machine.execLoadEnd p h s
  | .loadEndComplete h => Sys2Proof.Machine.execLoadEndComplete h s
  | .loadAbort p h => Sys2Proof.Machine.execLoadAbort p h s
  | .collectionOnline p h => Sys2Proof.Machine.execCollectionOnline p h s
  | .collectionOffline p h => Sys2Proof.Machine.execCollectionOffline p h s
  | .submitRecipe p d => Sys2Proof.Machine.execSubmitRecipe p d s
  | .recipeRunStart => Sys2Proof.Machine.execRecipeRunStart s
  | .tunStep cluster => Sys2Proof.Machine.execTunStep cluster s
  | .recipesOn w => Sys2Proof.Machine.execRecipesOn w s
  | .recipesOff w => Sys2Proof.Machine.execRecipesOff w s
  | .memoryReadComplete addr e stripe r => Sys2Proof.Machine.execMemoryReadComplete addr e stripe r s
  | .retrainStart stack channel c => Sys2Proof.Machine.execRetrainStart stack channel c s
  | .retrainVerify stack channel ok => Sys2Proof.Machine.execRetrainVerify stack channel ok s
  | .retrainTimeout stack channel => Sys2Proof.Machine.execRetrainTimeout stack channel s
  | .drainComplete stack channel => Sys2Proof.Machine.execDrainComplete stack channel s
  | .scrubRead u e stripe parityDisagrees => Sys2Proof.Machine.execScrubRead u e stripe parityDisagrees s
  | .hbmTemperatureReading stack celsius => Sys2Proof.Machine.execHbmTemperatureReading stack celsius s
  | .stackReturn stack failed => Sys2Proof.Machine.execStackReturn stack failed s
  | .zeroFillComplete stack => Sys2Proof.Machine.execZeroFillComplete stack s
  | .bulkTemperatureRead pkg rate above => Sys2Proof.Machine.execBulkTemperatureRead pkg rate above s
  | .bulkPackageOffline pkg => Sys2Proof.Machine.execBulkPackageOffline pkg s
  | .expanderOffline e => Sys2Proof.Machine.execExpanderOffline e s
  | .caskSliceOffline slice => Sys2Proof.Machine.execCaskSliceOffline slice s
  | .d2dLaneRetired group => Sys2Proof.Machine.execD2dLaneRetired group s
  | .unitOffline u => Sys2Proof.Machine.execUnitOffline u s
  | .lendOn w => Sys2Proof.Machine.execLendOn w s
  | .lendOff w => Sys2Proof.Machine.execLendOff w s
  | .hostAccess p dpa op => Sys2Proof.Machine.execHostAccess p dpa op s
  | .hostLinkUp p speed width flit => Sys2Proof.Machine.execHostLinkUp p speed width flit s
  | .hdmDecoderCommit p n d => Sys2Proof.Machine.execHdmDecoderCommit p n d s
  | .cxlLinkDown d => Sys2Proof.Machine.execCxlLinkDown d s
  | .createSpool p d => Sys2Proof.Machine.execCreateSpool p d s
  | .deleteSpool p kind n => Sys2Proof.Machine.execDeleteSpool p kind n s
  | .resetSpool p kind n => Sys2Proof.Machine.execResetSpool p kind n s
  | .spoolResetComplete p n => Sys2Proof.Machine.execSpoolResetComplete p n s
  | .flush p kind h => Sys2Proof.Machine.execFlush p kind h s
  | .setPowerState p target flags => Sys2Proof.Machine.execSetPowerState p target flags s
  | .powerTransitionComplete => Sys2Proof.Machine.execPowerTransitionComplete s
  | .startSelfTest p kind => Sys2Proof.Machine.execStartSelfTest p kind s
  | .getSelfTestResult p => Sys2Proof.Machine.execGetSelfTestResult p s
  | .selfTestSlice r pass => Sys2Proof.Machine.execSelfTestSlice r pass s
  | .selfTestResume => Sys2Proof.Machine.execSelfTestResume s
  | .selfTestLimit => Sys2Proof.Machine.execSelfTestLimit s
  | .deviceReset p straps => Sys2Proof.Machine.execDeviceReset p straps s
  | .resynchronise p => Sys2Proof.Machine.execResynchronise p s
  | .getEntry p index sub offset length => Sys2Proof.Machine.execGetEntry p index sub offset length s
  | .setEntry p index sub flags offset value => Sys2Proof.Machine.execSetEntry p index sub flags offset value s
  | .commitRetained p => Sys2Proof.Machine.execCommitRetained p s
  | .retainedCopyWritten ok => Sys2Proof.Machine.execRetainedCopyWritten ok s
  | .factoryReset w v => Sys2Proof.Machine.execFactoryReset w v s
  | .identify p => Sys2Proof.Machine.execIdentify p s
  | .backgroundOperationStatus p => Sys2Proof.Machine.execBackgroundOperationStatus p s
  | .requestAbort p => Sys2Proof.Machine.execRequestAbort p s
  | .getSupportedLogs p => Sys2Proof.Machine.execGetSupportedLogs p s
  | .getLog p effects offset length => Sys2Proof.Machine.execGetLog p effects offset length s
  | .getEventRecords p log => Sys2Proof.Machine.execGetEventRecords p log s
  | .clearEventRecords p log handles => Sys2Proof.Machine.execClearEventRecords p log handles s
  | .getEventInterruptPolicy p => Sys2Proof.Machine.execGetEventInterruptPolicy p s
  | .setEventInterruptPolicy p policy => Sys2Proof.Machine.execSetEventInterruptPolicy p policy s
  | .getFwInfo p => Sys2Proof.Machine.execGetFwInfo p s
  | .transferFw p action slot offset data => Sys2Proof.Machine.execTransferFw p action slot offset data s
  | .activateFw p online slot => Sys2Proof.Machine.execActivateFw p online slot s
  | .identifyMemoryDevice p => Sys2Proof.Machine.execIdentifyMemoryDevice p s
  | .getTimestamp p => Sys2Proof.Machine.execGetTimestamp p s
  | .setTimestamp p => Sys2Proof.Machine.execSetTimestamp p s
  | .spdmRequest via r => Sys2Proof.Machine.execSpdmRequest via r s
  | .papGet ip udp b => Sys2Proof.Machine.execPapGet ip udp b s
  | .papSet ip udp b => Sys2Proof.Machine.execPapSet ip udp b s
  | .papCommit ip udp b => Sys2Proof.Machine.execPapCommit ip udp b s
  | .papResynchronise ip udp b => Sys2Proof.Machine.execPapResynchronise ip udp b s
  | .mctpGet eid b => Sys2Proof.Machine.execMctpGet eid b s
  | .mctpSet eid b => Sys2Proof.Machine.execMctpSet eid b s
  | .mctpCommit eid b => Sys2Proof.Machine.execMctpCommit eid b s
  | .mctpResynchronise eid b => Sys2Proof.Machine.execMctpResynchronise eid b s
  | .stagingDiscard src => Sys2Proof.Machine.execStagingDiscard src s
  | .papAnswerExpiry src requestId => Sys2Proof.Machine.execPapAnswerExpiry src requestId s
  | .registerWrite w index sub value => Sys2Proof.Machine.execRegisterWrite w index sub value s
  | .rebaseline w v => Sys2Proof.Machine.execRebaseline w v s
  | .shardMap w value => Sys2Proof.Machine.execShardMap w value s
  | .bindings w p value => Sys2Proof.Machine.execBindings w p value s
  | .setSigPolicy w v => Sys2Proof.Machine.execSetSigPolicy w v s
  | .commitSvn w v => Sys2Proof.Machine.execCommitSvn w v s
  | .recoveryData w value => Sys2Proof.Machine.execRecoveryData w value s
  | .recoveryVerify w v => Sys2Proof.Machine.execRecoveryVerify w v s
  | .eventRaised source inst detail reactionOf => Sys2Proof.Machine.execEventRaised source inst detail reactionOf s
  | .faultNPulseEnd => Sys2Proof.Machine.execFaultNPulseEnd s
  | .reactionTimer sequence => Sys2Proof.Machine.execReactionTimer sequence s
  | .handle w sequence => Sys2Proof.Machine.execHandle w sequence s
  | .acknowledge w slot => Sys2Proof.Machine.execAcknowledge w slot s
  | .clear w slot => Sys2Proof.Machine.execClear w slot s
  | .force w bits => Sys2Proof.Machine.execForce w bits s
  | .level w v => Sys2Proof.Machine.execLevel w v s
  | .rearm w v => Sys2Proof.Machine.execRearm w v s
  | .tracesOn w => Sys2Proof.Machine.execTracesOn w s
  | .tracesOff w => Sys2Proof.Machine.execTracesOff w s
  | .linkOn w link => Sys2Proof.Machine.execLinkOn w link s
  | .linkOff w link => Sys2Proof.Machine.execLinkOff w link s
  | .detect link r => Sys2Proof.Machine.execDetect link r s
  | .measure link cm => Sys2Proof.Machine.execMeasure link cm s
  | .autoneg link oui word => Sys2Proof.Machine.execAutoneg link oui word s
  | .linkTrainingComplete link lanes loss => Sys2Proof.Machine.execLinkTrainingComplete link lanes loss s
  | .align e => Sys2Proof.Machine.execAlign e s
  | .connect link => Sys2Proof.Machine.execConnect link s
  | .linkTimeout link => Sys2Proof.Machine.execLinkTimeout link s
  | .faultRetry link => Sys2Proof.Machine.execFaultRetry link s
  | .alignmentLost link => Sys2Proof.Machine.execAlignmentLost link s
  | .modulePoll link celsius alarm fault => Sys2Proof.Machine.execModulePoll link celsius alarm fault s
  | .keyUpdate link => Sys2Proof.Machine.execKeyUpdate link s
  | .put link r => Sys2Proof.Machine.execPut link r s
  | .get link r => Sys2Proof.Machine.execGet link r s
  | .add64 link r => Sys2Proof.Machine.execAdd64 link r s
  | .cas64 link r => Sys2Proof.Machine.execCas64 link r s
  | .swap64 link r => Sys2Proof.Machine.execSwap64 link r s
  | .merge link r => Sys2Proof.Machine.execMerge link r s
  | .fence link r => Sys2Proof.Machine.execFence link r s
  | .signal link r => Sys2Proof.Machine.execSignal link r s
  | .response link wire corrected uncorrected => Sys2Proof.Machine.execResponse link wire corrected uncorrected s
  | .credit link wire fec => Sys2Proof.Machine.execCredit link wire fec s
  | .ack link r => Sys2Proof.Machine.execAck link r s
  | .linkReplay link r => Sys2Proof.Machine.execLinkReplay link r s
  | .capability link r => Sys2Proof.Machine.execCapability link r s
  | .linkSpdm link x => Sys2Proof.Machine.execLinkSpdm link x s
  | .requestTimeout tag => Sys2Proof.Machine.execRequestTimeout tag s
  | .creditStall link => Sys2Proof.Machine.execCreditStall link s
  | .hostRequestGo g => Sys2Proof.Machine.execHostRequestGo g s
  | .hedgeTimer window id shard => Sys2Proof.Machine.execHedgeTimer window id shard s
  | .loopBackOn w => Sys2Proof.Machine.execLoopBackOn w s
  | .loopBackOff w => Sys2Proof.Machine.execLoopBackOff w s
  | .loopBackDuration bits errors firstError => Sys2Proof.Machine.execLoopBackDuration bits errors firstError s
  | .marginScanOn w => Sys2Proof.Machine.execMarginScanOn w s
  | .marginScanOff w => Sys2Proof.Machine.execMarginScanOff w s
  | .marginScanStart => Sys2Proof.Machine.execMarginScanStart s
  | .bellConflict => Sys2Proof.Machine.execBellConflict s
  | .marginStep pass => Sys2Proof.Machine.execMarginStep pass s
  | .idcode => Sys2Proof.Machine.execIdcode s
  | .samplePreload b => Sys2Proof.Machine.execSamplePreload b s
  | .extest => Sys2Proof.Machine.execExtest s
  | .freezeStatus => Sys2Proof.Machine.execFreezeStatus s
  | .chainSelect chain => Sys2Proof.Machine.execChainSelect chain s
  | .chainRead bits => Sys2Proof.Machine.execChainRead bits s
  | .bypass code => Sys2Proof.Machine.execBypass code s
  | .leadCutoff window id => Sys2Proof.Machine.execLeadCutoff window id s
  | .numberInvalid link => Sys2Proof.Machine.execNumberInvalid link s
  | .replayComplete job => Sys2Proof.Machine.execReplayComplete job s
  | .saveComplete job => Sys2Proof.Machine.execSaveComplete job s
  | .busMasterEnable p on => Sys2Proof.Machine.execBusMasterEnable p on s
  | .refclkCheck present => Sys2Proof.Machine.execRefclkCheck present s
  | .managementPortState up => Sys2Proof.Machine.execManagementPortState up s
  | .setEndpointId eid => Sys2Proof.Machine.execSetEndpointId eid s

end Sys2Proof.Machine
end

