-- ==== Sys2Proof/Safety.lean ====
section
/-!
DEFINITION. What a safe run is, and the words the statements are written in: a command that answers a next state with a
property, and the canonical forms that every step keeps.
-/

namespace Sys2Proof

/-- The next `k` steps from a state all answer a next state. -/
def SafeFor : Nat → Machine.State → Prop
  | 0, _ => True
  | k + 1, s => ∃ t, Machine.step s = .next t ∧ SafeFor k t

namespace Machine

/-- The command answers a next state, and `P` holds of it. -/
def Answers (i : Instr) (s : State) (P : State → Prop) : Prop := ∃ t, exec i s = .next t ∧ P t

/-- The canonical form of the book: keys strictly rising, no entry listed at its default. -/
def Book.wf (b : Book) : Bool := rising b && b.all fun c => c.2 != BitVec.ofNat 64 (defaultOf c.1)

/-- The canonical form of the switch states. -/
def switchesWf (l : List (Nat × Switch)) : Bool := rising l && l.all fun c => c.2 != switchDefault c.1

/-- Every table of the state is in its canonical form. -/
def State.canonical (s : State) : Prop :=
  Book.wf s.book = true ∧ switchesWf s.switches = true ∧ s.mem.wf = true ∧ s.hostMem.wf = true

/-- Every numeric entry but those named reads as before. -/
def SameNums (s t : State) (but : List Nat) : Prop := ∀ k, k ∉ but → t.num k = s.num k

/-- Every unit offline in the first is offline in the second. -/
structure Units.within (u v : Units) : Prop where
  tun : u.tun ||| v.tun = v.tun
  needle : u.needle ||| v.needle = v.needle
  score : u.score ||| v.score = v.score
  lauter : u.lauter ||| v.lauter = v.lauter
  kiln : u.kiln ||| v.kiln = v.kiln
  slice : u.slice ||| v.slice = v.slice
  stack : u.stack ||| v.stack = v.stack
  package : u.package ||| v.package = v.package
  core : u.core ||| v.core = v.core
  lane : u.lane ||| v.lane = v.lane
  transport : u.transport ||| v.transport = v.transport
  expander : u.expander ||| v.expander = v.expander

/-- What has arrived on a link is the frame `f`, of a kind that the link takes in its state: whole, the next in sequence, and on an
encrypted link with its tag (R296, R297, R321). -/
def State.hears (s : State) (n : Nat) (r : Rx) (f : Frame) : Bool :=
  (s.link n).whole r.wire && (s.link n).frameOf r.wire == some f && !(s.link n).stray (some f) &&
    wireSeq r.wire == (s.link n).seqIn && (s.link n).tagOk r.wire

/-- The state once a link has taken that frame: its FEC counts are kept, and the next sequence and counter are expected. -/
def State.tookFrame (n : Nat) (r : Rx) (s : State) : State :=
  (s.countFec n r).mapLink n Link.took

/-- The mailbox of a port takes a command: it answers, the port has one, and FENCED does not refuse it (R32, R34, R324). -/
def State.takes (s : State) (p : Port) (inFenced : Bool) : Bool :=
  s.mailboxUp && s.upstream.contains p && (s.dev.st != .fenced || inFenced)

/-- Nothing before a value's content stops the write of an entry: its writer is heard, over a transport that is on and has answers
left in this second for a request that it does not repeat, and may write the entry (R357, R358, R369, R372). -/
def State.mayWrite (s : State) (w : Writer) (k : Nat) : Bool :=
  s.heard w.src &&
    (match w.src with
     | .pap _ _ | .mctp _ => s.policy w.src != 0 && s.rollSecond.rateLeft w.src && (s.keptFor w.src w.request).isNone
     | _ => true) &&
    (s.writeGate w.src w.expert k).isNone

/-- How the write of an entry of `n` bytes ends, once it is carried out or refused with a result: it is counted (R358, R360, R363),
and the answer leaves, with the entry's type where it was accepted; over the Pattern Access Protocol and MCTP as the frame of R371,
which is kept for a request that is repeated (R372). -/
def State.written (w : Writer) (k r : Nat) (type : Byte) (n : Nat) (s : State) : State :=
  let a : Answer := if refused r then ⟨r, 0, 0, []⟩ else ⟨r, type, n, []⟩
  match w.src with
  | .pap _ _ | .mctp _ => (s.countSet k r).papServed w.src (setFrame w k []) a
  | _ => (s.countSet k r).emit (.dict w.src (BitVec.ofNat 8 r) a.type 0 [])

/-- A command switches a function on: from OFF, where no rule of the function's own refuses it, the function goes to STARTING
(R362). -/
def SwitchesOn (c : Writer → Instr) (i : Nat) : Prop :=
  ∀ (w : Writer) (s : State), s.mayWrite w (256 * i + 1) = true → (s.sw i).st = .off → s.startRefusal i = none →
    exec (c w) s = .next ((s.goStarting i).written w (256 * i + 1) rOk 2 1)

/-- A command switches a function off: from ON the function goes to STOPPING (R362). -/
def SwitchesOff (c : Writer → Instr) (i : Nat) : Prop :=
  ∀ (w : Writer) (s : State), s.mayWrite w (256 * i + 1) = true → (s.sw i).st = .on →
    exec (c w) s = .next ((s.goStopping i).written w (256 * i + 1) rOk 2 1)

/-- The part lacks the port as an upstream port (R324). -/
def State.portStop (s : State) (p : Port) : Option Fault := if s.upstream.contains p then none else some .absentUnit

/-- The part lacks the link (R2). -/
def State.linkStop (s : State) (n : Nat) : Option Fault := if s.linkPresent n then none else some .absentUnit

/-- The part lacks the stack (R2). -/
def State.stackStop (s : State) (n : Nat) : Option Fault := if s.stackPresent n then none else some .absentUnit

/-- No package was found at the position (R263). -/
def State.packageStop (s : State) (n : Nat) : Option Fault := if bit s.chip.fitted.toNat n then none else some .absentUnit

/-- The structure has not the length the manual gives it. -/
def lengthStop (b : Bytes) (n : Nat) : Option Fault := if b.length = n then none else some .illFormed

end Machine

open Machine

/-- Why a command stops, where it does: it names a unit the part does not have, or its structure has the wrong length. -/
def Instr.stop (c : Instr) (s : State) : Option Fault :=
  match c with
  | .submissionDoorbell p _ _ | .completionHeadDoorbell p _ _ | .coalesceTimer p _ | .busMasterEnable p _ => s.portStop p
  | .hostAccess p _ _ | .hdmDecoderCommit p _ _ | .spoolResetComplete p _ => s.portStop p
  | .cxlLinkDown d => s.portStop d.port
  | .hostLinkUp p _ _ _ | .imageWindowWrite p _ _ => s.portStop p
  | .timeBeacon n _ | .detect n _ | .measure n _ | .autoneg n _ _ | .linkTrainingComplete n _ _ => s.linkStop n
  | .align e => s.linkStop e.link
  | .connect n | .linkTimeout n | .faultRetry n | .alignmentLost n | .modulePoll n _ _ _ | .keyUpdate n => s.linkStop n
  | .put n _ | .get n _ | .add64 n _ | .cas64 n _ | .swap64 n _ | .merge n _ | .fence n _ | .signal n _ => s.linkStop n
  | .response n _ _ _ | .credit n _ _ | .ack n _ | .linkReplay n _ | .capability n _ | .linkSpdm n _ => s.linkStop n
  | .creditStall n | .numberInvalid n => s.linkStop n
  | .retrainStart n _ _ | .retrainVerify n _ _ | .retrainTimeout n _ | .drainComplete n _ => s.stackStop n
  | .hbmTemperatureReading n _ | .stackReturn n _ | .zeroFillComplete n => s.stackStop n
  | .bulkTemperatureRead n _ _ | .bulkPackageOffline n => s.packageStop n
  | .expanderOffline _ => if s.chip.portBRoot then none else some .absentUnit
  | .unitOffline u => if u.index < unitCount u.kind then none else some .absentUnit
  | .trainComplete r => if r.wellFormed then none else some .illFormed
  | .createCollection _ d => lengthStop d 256
  | .createSpool _ d => lengthStop d 64
  | .submitRecipe _ d => lengthStop d 32
  | _ => none

end Sys2Proof
end

