-- ==== Sys2Proof/Certificates/Slice0/Obligations.lean ====
section
/-!
DEFINITION. The statements for the provers, one proposition each, about the machine and about every family of its commands. Most
say what a command answers and leaves, clause by clause, for every state that meets the clause's premises; the others hold of
every command or of every step. Each cites the rules of the manual it rests on.
-/

open Sys2Proof Sys2Proof.Machine

/-- A step runs the command at the front of the queue. For every command and every state, a step of the state with that command
put at the front of its queue is exec of the command on the state with the queue's rest; and a step on an empty queue is one
cycle of the always-on clock (log entry 2, the model's choice). It rests on R38. -/
def Obligations.StepRunsFront : Prop :=
  (∀ (c : Instr) (s : State) (rest : List Instr),
    step { s with pending := c :: rest } = exec c { s with pending := rest }) ∧
  (∀ s : State, s.pending = [] → step s = .next s.tick)

/-- One cycle of the always-on clock. A step on an empty queue (the model's tick, log entry 2): without power nothing moves;
with power the always-on count goes up by one; fleet time stands while the time state is UNSET; otherwise it advances by 10
ns with the learned frequency correction and the part of the slew that the rate allows, counted in units of 2^-32 ns, and so
by exactly 10 ns where nothing is left to slew and nothing has been learned; it never moves back; and nothing but the time
unit and the kept sample counts changes. It rests on R38, R16, R39. -/
def Obligations.ClockCycle : Prop :=
  (∀ s : State, s.pending = [] → s.dev.st = .off → step s = .next s) ∧
  (∀ s : State, s.pending = [] → s.dev.st ≠ .off → ∃ t, step s = .next t ∧ t.ftu.aon = s.ftu.aon + 1 ∧
    t = { s with ftu := t.ftu, tele := { s.tele with past := t.tele.past, snap := t.tele.snap, powerPeak := t.tele.powerPeak } } ∧
    s.ftu.now ≤ t.ftu.now ∧ (s.ftu.st = .unset → t.ftu.now = s.ftu.now) ∧
    (s.ftu.st ≠ .unset → t.ftu.now * 2 ^ 32 + t.ftu.frac.toNat = s.ftu.now * 2 ^ 32 + s.ftu.frac.toNat +
      ((cycleUnits : Int) + s.learned + slewStep (slewUnits (s.num 0x200201)) s.ftu.slew).toNat) ∧
    (s.ftu.st ≠ .unset → s.ftu.slew = 0 → s.learned = 0 → t.ftu.now = s.ftu.now + 10 ∧ t.ftu.frac = s.ftu.frac ∧ t.ftu.slew = 0))

/-- No command is refused, and one stops only for the reasons named. exec never answers a refusal; and it answers a fault
exactly where Instr.stop names one: a structure of the wrong length, or a port, stack, link, package, expander or unit that
the part does not have. It rests on R1, R2, R14. -/
def Obligations.NothingIsRefused : Prop :=
  ∀ (c : Instr) (s : State),
    match c.stop s with
    | some f => exec c s = .fault f
    | none => ∃ t, exec c s = .next t

/-- Commands run in the order in which they wait. That commands wait in a queue, first in, first out, and that one leaves it
with each step is the model's own choice (log entry 2): R33 orders the triggers of one fleet time and knows no queue. A step
that answers a next state takes exactly the front of the queue: no command adds to the queue, removes from it or changes its
order. It rests on R33. -/
def Obligations.QueueInOrder : Prop :=
  ∀ s t : State, step s = .next t → t.pending = s.pending.tail

/-- Every step keeps the canonical forms. The canonical form (keys strictly rising, nothing listed at its default, no byte 0x00
in memory) is the model's own choice (log entry 5), and no rule of the spec: R354 and R255 say what the entries and the
memory are. If the numeric entries, the switch states, the device memory and the host memory are in their canonical forms,
then so they are after any step that answers a next state. It rests on R354, R255. -/
def Obligations.TablesStayCanonical : Prop :=
  ∀ s t : State, step s = .next t → s.canonical → t.canonical

/-- The state after reset. At State.reset the device is OFF, not frozen, with an empty queue, nothing sent, no collection, no
query, fleet time UNSET, the generation at 1 and every table in its canonical form. It rests on R31, R39, R133, R210. -/
def Obligations.ResetState : Prop :=
  State.reset.canonical ∧ State.reset.dev.st = .off ∧ State.reset.dev.frozen = false ∧ State.reset.pending = [] ∧
  State.reset.out = [] ∧ State.reset.colls = [] ∧ State.reset.search.queries = [] ∧ State.reset.ftu.st = .unset ∧
  State.reset.muts.generation = 1 ∧ State.reset.units = {}

/-- FENCED is left only by PERSTA_N, a CXL reset of Port A, or loss of VAUX. If a step takes the device out of FENCED, then the
command it ran was PERSTA_N (which is also a CXL reset of Port A), DEVICE_RESET on Port A's mailbox (R349 has the device act
as on a CXL reset of Port A), or VAUX_LOST. It rests on R32. -/
def Obligations.FencedLeftOnlyByReset : Prop :=
  ∀ s t : State, step s = .next t → s.dev.st = .fenced → t.dev.st ≠ .fenced →
    ∃ (c : Instr) (rest : List Instr), s.pending = c :: rest ∧
      ((∃ straps, c = .perstaN straps) ∨ (∃ straps, c = .deviceReset .a straps) ∨ c = .vauxLost)

/-- A freeze is left only by PERSTA_N or loss of VAUX. If a step takes a powered device out of a freeze, then the command it ran
was PERSTA_N or VAUX_LOST; releasing FREEZE_N does not. It rests on R441. -/
def Obligations.FreezeLeftOnlyByReset : Prop :=
  ∀ s t : State, step s = .next t → s.dev.st ≠ .off → s.dev.frozen = true → t.dev.frozen = false →
    ∃ (c : Instr) (rest : List Instr), s.pending = c :: rest ∧ ((∃ straps, c = .perstaN straps) ∨ c = .vauxLost)

/-- No step changes the part. The variant, the presence of stacks, links, bulk ring and flash, the vendor and enterprise
numbers, the identity records of the two flash devices (with the serial number and the MAC address) and the Twill cables
between the part's own links are the same after every step that answers a next state. It rests on R1, R2. -/
def Obligations.PartNeverChanges : Prop :=
  ∀ s t : State, step s = .next t → t.chip.part = s.chip.part

/-- An offline unit stays offline until a stack's return or a start-up. If a step brings any unit back, then it ran
ZERO_FILL_COMPLETE (a stack's return, R275), POWER_GOOD, PERSTA_N, DEVICE_RESET on Port A, or VAUX_LOST. It rests on R36,
R275. -/
def Obligations.OfflineUnitsStayOffline : Prop :=
  ∀ s t : State, step s = .next t → ¬ s.units.within t.units →
    ∃ (c : Instr) (rest : List Instr), s.pending = c :: rest ∧
      ((∃ n, c = .zeroFillComplete n) ∨ (∃ b, c = .powerGood b) ∨ (∃ b, c = .perstaN b) ∨ (∃ b, c = .deviceReset .a b) ∨
        c = .vauxLost)

/-- What has left the device stays sent, and open values are not reused. Every step that answers a next state only adds to what
has left the device, and only passes open values (log entry 1, the model's own field); a command does not move the always-on
count. It rests on R16. -/
def Obligations.OutputsAreNeverWithdrawn : Prop :=
  ∀ s t : State, step s = .next t → s.out <:+ t.out ∧ s.free ≤ t.free ∧ (s.pending ≠ [] → t.ftu.aon = s.ftu.aon)

/-- Start-up: power, rails, PERSTA_N and training. Power-good from OFF latches the straps, starts the boot count at 1, keeps the
part, the queue and the always-on count, and with FREEZE_N held the device waits in BOOT with the contents of HBM, the bulk
ring and Cask gone, and of the CXL tier what was lent (that the rest of it stays is log entry 34, the model's choice).
MAIN_PG in BOOT loads Phiug, where the steps are done, an image runs and no monitor has read out of band, and goes on to
TRAIN where it may. MAIN_PG_TIMEOUT, 200 ms after MAIN_EN, raises RAIL_FAIL for the lowest-numbered rail outside its band,
and for VDD_CORE where none is and MAIN_PG is missing. PERSTA_N deasserted in BOOT with Phiug running enters TRAIN with
parity, Port B's mode and parts, and the sizes of the host areas taken from their settings, the pin banks driven, and the
ports to hosts train. TRAIN_COMPLETE with Port A's link up sets the memories out, enters READY-EMPTY and sets Memory_Active.
HOST_LINK_UP records speed, width and flit mode of a port whose link trains. It rests on R407, R411, R412, R414, R415, R326,
R31. -/
def Obligations.StartUp : Prop :=
  (∀ (straps : BitVec 2) (s : State), s.dev.st = .off →
    Answers (.powerGood straps) s fun t =>
      t.dev.straps = straps ∧
      t.dev.epoch = 1 ∧
      t.pending = s.pending ∧
      t.chip.part = s.chip.part ∧
      t.ftu.aon = s.ftu.aon) ∧
  (∀ (straps : BitVec 2) (s : State), s.dev.st = .off → s.dev.freezePin = true →
    Answers (.powerGood straps) s fun t =>
      t.dev.st = .boot ∧
      t.dev.stepsDone = false ∧
      t.dev.mainEn = false ∧
      t.thimble.armed = true ∧
      t.mem = s.mem.drop (fun a => a < cxlBase || caskBase ≤ a || s.lentCxl a) ∧
      t.hostMem = s.hostMem) ∧
  (∀ (s : State), s.dev.st = .boot → s.dev.mainEn = true → s.dev.mainPg = false →
    exec (.mainPg) s = .next (({ s with dev := { s.dev with mainPg := true } }).loadPhiug.enterTrain)) ∧
  (∀ (s : State), s.dev.st = .boot → s.dev.frozen = false → s.dev.stepsDone = true → s.sec.running ≠ none → s.dev.mainPg = true → s.dev.phiug = false → s.monitorsOk = true →
    s.loadPhiug = ({ s with dev := { s.dev with phiug := true } }).calArmAll) ∧
  (∀ (s : State), (s.dev.st ≠ .boot ∨ s.dev.frozen = true ∨ s.dev.stepsDone = false ∨ s.sec.running = none ∨ s.dev.mainPg = false ∨ s.dev.phiug = true ∨ s.monitorsOk = false) →
    s.loadPhiug = s) ∧
  (∀ (at_ : Nat) (s : State), s.dev.mainEnAt = some at_ →
    s.mainLate = decide (at_ + 200000000 ≤ s.aonNs)) ∧
  (∀ (rails : List (BitVec 16)) (n : Nat) (mv : BitVec 16) (s : State), s.dev.st = .boot → s.dev.frozen = false → s.mainLate = true → n < 6 → rails[n]? = some mv → railOut n 8 mv.toNat = true → (∀ m < n, railOut m 8 (((rails[m]?).map BitVec.toNat).getD 0) = false) →
    exec (.mainPgTimeout rails) s = .next (({ s with dev := { s.dev with mainEnAt := none } }).raise 0x09 n mv.toNat none)) ∧
  (∀ (rails : List (BitVec 16)) (s : State), s.dev.st = .boot → s.dev.frozen = false → s.mainLate = true → (∀ m < min 6 rails.length, railOut m 8 (((rails[m]?).map BitVec.toNat).getD 0) = false) → s.dev.mainPg = false →
    exec (.mainPgTimeout rails) s = .next (({ s with dev := { s.dev with mainEnAt := none } }).raise 0x09 0 (((rails[0]?).map BitVec.toNat).getD 0) none)) ∧
  (∀ (rails : List (BitVec 16)) (s : State), s.dev.st = .boot → s.dev.frozen = false → s.mainLate = true → (∀ m < min 6 rails.length, railOut m 8 (((rails[m]?).map BitVec.toNat).getD 0) = false) → s.dev.mainPg = true →
    exec (.mainPgTimeout rails) s = .next ({ s with dev := { s.dev with mainEnAt := none } })) ∧
  (∀ (s : State), s.dev.st = .boot → s.dev.frozen = false → s.dev.stepsDone = true → s.dev.phiug = true →
    exec (.perstaNDeasserted) s = .next ((({ s with dev := { s.dev with perstA := false, banksDriven := true }, chip := { s.chip with parity := s.num 0x300001 = 1, portBRoot := s.num 0x910001 = 1, split := s.num 0x910002, wantA := s.num 0x900006, wantB := s.num 0x910008 } }).setDevState .train).portsTrain.linksStart)) ∧
  (∀ (s : State), (s.dev.st ≠ .boot ∨ s.dev.frozen = true ∨ s.dev.stepsDone = false ∨ s.dev.phiug = false) →
    exec (.perstaNDeasserted) s = .next ({ s with dev := { s.dev with perstA := false } })) ∧
  (∀ (r : TrainReport) (u v : State) (s : State), r.wellFormed = true → s.dev.st = .train → s.dev.frozen = false → s.ports.a.linkState = 2 → u = ((s.trainStacks r.failedStacks).trainBulk r.packages).trainRoot r.expanders → u.dev.st = .train → u.dev.frozen = false → v = (u.retainCalib r).measureTiers.setOut → v.dev.st = .train →
    Answers (.trainComplete r) s fun t =>
      t = (v.setDevState .readyEmpty).endTrial.memoryReady ∧
      t.dev.st = .readyEmpty ∧
      (∀ p ∈ t.upstream, (t.port p).memoryActive = true)) ∧
  (∀ (p : Port) (speed width : Byte) (flit : Bool) (s : State), s.upstream.contains p = true → s.running = true → s.dev.st ≠ .boot → s.dev.refclk.getLsbD 0 = true →
    exec (.hostLinkUp p speed width flit) s = .next (s.setPort p { s.port p with linkState := 2, speed := speed, width := width, flit := flit, follower := false }))

/-- Resets and loss of VAUX. Loss of VAUX takes the device to OFF from any state, with the boot count and straps gone and only
what no reset reaches kept. PERSTA_N takes a powered device to BOOT again: the straps are latched, the boot count goes up by
one, FAULT_N is armed, and no freeze, collection, spool, query or run is left; start-up then goes on, and the device is
still in BOOT, not frozen, where FREEZE_N is held, or where the steps fence and freeze nothing (PERSTA_N being asserted). In
OFF only the level of the pin changes. PERSTB_N in UPSTREAM mode removes every spool of Port B, submission and completion,
zero-fills its host area, and takes bus mastering and the MSI-X capability of Port B to their reset values (the capability
is log entry 17, the model's choice); in OFF, BOOT or ROOT mode it changes nothing. It rests on R32, R338, R415, R441. -/
def Obligations.Resets : Prop :=
  (∀ (s : State),
    exec (.vauxLost) s = .next ({ s.flashCut.survivors with dev := { s.flashCut.survivors.dev with st := .off } })) ∧
  (∀ (s : State),
    Answers (.vauxLost) s fun t =>
      t.dev.st = .off ∧
      t.dev.frozen = false ∧
      t.dev.epoch = 0 ∧
      t.dev.straps = 0 ∧
      t.book = [] ∧
      t.colls = [] ∧
      t.spools = {} ∧
      t.out = s.out) ∧
  (∀ (straps : BitVec 2) (s : State), s.dev.st = .off →
    exec (.perstaN straps) s = .next ({ s with dev := { s.dev with perstA := true } })) ∧
  (∀ (straps : BitVec 2) (u : State) (s : State), s.dev.st ≠ .off → u = ({ s with dev := { s.dev with perstA := true } }).reenter straps →
    exec (.perstaN straps) s = .next (u.bootSteps)) ∧
  (∀ (straps : BitVec 2) (s u : State), s.dev.st ≠ .off → u = s.reenter straps →
    u.dev.st = .boot ∧ u.dev.frozen = false ∧ u.dev.straps = straps ∧ u.dev.epoch = (s.dev.epoch + 1) % 2 ^ 32 ∧ u.dev.perstA = s.dev.perstA ∧ u.thimble.armed = true ∧ u.thimble.opened = [] ∧ u.colls = [] ∧ u.spools = {} ∧ u.search.queries = [] ∧ u.tun.run = none) ∧
  (∀ (straps : BitVec 2) (s : State), s.dev.st ≠ .off → s.dev.freezePin = true →
    Answers (.perstaN straps) s fun t =>
      t.dev.st = .boot ∧
      t.dev.frozen = false ∧
      t.dev.stepsDone = false ∧
      t.dev.straps = straps ∧
      t.dev.epoch = (s.dev.epoch + 1) % 2 ^ 32) ∧
  (∀ (straps : BitVec 2) (u v : State) (s : State), s.dev.st ≠ .off → s.dev.freezePin = false → s.ret.writing = none → u = ({ s with dev := { s.dev with perstA := true } }).reenter straps → v = u.selectFirmware.deriveKeys.retainedRestore → v.dev = u.dev →
    Answers (.perstaN straps) s fun t =>
      t.dev.st = .boot ∧
      t.dev.frozen = false ∧
      t.dev.stepsDone = true ∧
      t.dev.straps = straps ∧
      t.dev.epoch = (s.dev.epoch + 1) % 2 ^ 32) ∧
  (∀ (s : State), s.running = true → s.dev.st ≠ .boot → s.chip.portBRoot = false →
    Answers (.perstbN) s fun t =>
      (∀ x ∈ t.spools.sub, x.port = .a) ∧
      (∀ x ∈ t.spools.comp, x.port = .a) ∧
      (∀ a, t.hostBase .b ≤ a → a < t.hostBase .b + t.hostBytes .b → t.mem.byte a = 0) ∧
      t.ports.b.busMaster = false ∧
      t.ports.b.msix = {}) ∧
  (∀ (s : State), s.running = true → s.dev.st ≠ .boot → s.chip.portBRoot = false → (s.spools.sub.filter fun x => x.port = Port.b) = [] →
    exec (.perstbN) s = .next (({ s with spools := s.spools.without .b, mem := s.mem.drop fun a => s.hostBase .b ≤ a && a < s.hostBase .b + s.hostBytes .b }).portReset .b)) ∧
  (∀ (s : State), (s.running = false ∨ s.dev.st = .boot ∨ s.chip.portBRoot = true) →
    exec (.perstbN) s = .next (s))

/-- PWR_FAIL_N and global persistent flush. In READY-EMPTY to DEGRADED, PWR_FAIL_N and GPF phase 1 close the journal as R225
says, and in the other states only the pin's level is kept (log entry 30, the model's reading). Intake resumes when
PWR_FAIL_N, which stopped it, deasserts. GPF phase 2 completes every block write, flushes the expanders where there are any,
and resumes intake unless PWR_FAIL_N is still asserted; without a phase 1 before it, it resumes nothing (log entry 30, the
model's reading). It rests on R225, R408. -/
def Obligations.PowerWarnings : Prop :=
  (∀ (s : State), s.serves = true →
    exec (.pwrFailN) s = .next (({ s with dev := { s.dev with pwrFail := true } }).powerClose 0)) ∧
  (∀ (s : State), s.serves = false →
    exec (.pwrFailN) s = .next ({ s with dev := { s.dev with pwrFail := true } })) ∧
  (∀ (s : State), s.serves = true → s.muts.journal.intakeStopped = some 0 →
    exec (.pwrFailNDeasserted) s = .next (({ s with dev := { s.dev with pwrFail := false } }).resumeIntake)) ∧
  (∀ (s : State), (s.serves = false ∨ s.muts.journal.intakeStopped ≠ some 0) →
    exec (.pwrFailNDeasserted) s = .next ({ s with dev := { s.dev with pwrFail := false } })) ∧
  (∀ (s : State), s.serves = true →
    exec (.gpfPhase1) s = .next (s.powerClose 1)) ∧
  (∀ (u v : State) (s : State), s.serves = true → u = s.writeBlocks s.muts.journal.unwritten.length → v = (if u.expandersUp.isEmpty then u else u.emit .flushExpanders) →
    Answers (.gpfPhase2) s fun t =>
      (v.muts.journal.intakeStopped ≠ some 1 → t = v) ∧
      (v.muts.journal.intakeStopped = some 1 → v.dev.pwrFail = true → t = v.mapJournal fun j => { j with intakeStopped := some 0 }) ∧
      (v.muts.journal.intakeStopped = some 1 → v.dev.pwrFail = false → t = v.resumeIntake))

/-- FREEZE_N. A fall of FREEZE_N in OFF or BOOT is ignored but for the level of the pin. In every other state it freezes the
device: a freeze record is captured and counted, with cause 1, the device state, fleet time (0 while UNSET), no event
sequence, the power and time states, the degraded mask, the generation, the journal's positions, the readout policy and the
check, laid out as R445 says; a test that runs ends without a result, and its function is OFF (its result reads NONE: log
entry 33, the model's choice); both host links go down, and the contents of HBM and the bulk ring are lost while everything
else stays (a lost byte reads 0: log entry 5, the model's choice). While frozen it changes nothing more. Its release ends no
freeze; a start-up that waits for it goes on. It rests on R427, R440, R441, R445. -/
def Obligations.FreezePin : Prop :=
  (∀ (s : State), (s.dev.st = .off ∨ s.dev.st = .boot ∨ s.dev.frozen = true) →
    exec (.freezeN) s = .next ({ s with dev := { s.dev with freezePin := true } })) ∧
  (∀ (b : Bytes) (s : State), s.dev.st ≠ .off → s.dev.st ≠ .boot → s.dev.frozen = false → b = natLE 4 0x52464B5A ++ natLE 2 1 ++ [1] ++ natLE 1 s.dev.st.code ++ natLE 8 s.stamp ++ natLE 4 0 ++ natLE 1 s.dev.power ++ natLE 1 s.ftu.st.code ++ natLE 2 s.degraded ++ natLE 8 s.muts.generation ++ natLE 8 s.muts.journal.append ++ natLE 8 s.muts.journal.durable ++ natLE 1 (s.num 0xD40002) ++ zeros 11 →
    Answers (.freezeN) s fun t =>
      t.dev = { s.dev with freezePin := true, frozen := true } ∧
      t.test.freezeRecord = b ++ natLE 4 (crc32c b).toNat ∧
      t.test.freezes = s.test.freezes + 1 ∧
      t.test.loop = none ∧
      t.test.margin = none ∧
      t.test.selfTest = none ∧
      (t.ports.a.linkState = 0 ∧ t.ports.b.linkState = 0) ∧
      (∀ a, t.mem.byte a = if a < 0x040000000000 then 0 else s.mem.byte a) ∧
      t = { s with dev := t.dev, test := t.test, ports := t.ports, mem := t.mem, switches := t.switches, book := t.book }) ∧
  (∀ (s : State), s.dev.st ≠ .off → s.dev.st ≠ .boot → s.dev.frozen = false → s.canonical → (s.sw 0xD100).st ≠ .off → (s.sw 0xD200).st ≠ .off →
    Answers (.freezeN) s fun t =>
      (t.sw 0xD100).st = .off ∧
      (t.sw 0xD200).st = .off ∧
      t.num 0xD10006 = 0 ∧
      t.num 0xD20004 = 0 ∧
      SameNums s t [0xD10006, 0xD20004, 0x100303]) ∧
  (∀ (s : State), s.dev.st ≠ .off → s.dev.st ≠ .boot → s.dev.frozen = false → (s.sw 0xD100).st = .off → (s.sw 0xD200).st = .off →
    Answers (.freezeN) s fun t =>
      t.book = s.book ∧
      t.switches = s.switches) ∧
  (∀ (s : State), (s.dev.st ≠ .boot ∨ s.dev.frozen = true ∨ s.dev.stepsDone = true) →
    exec (.freezeNReleased) s = .next ({ s with dev := { s.dev with freezePin := false, freezeWait := false } })) ∧
  (∀ (s : State), s.dev.st = .boot → s.dev.frozen = false → s.dev.stepsDone = false →
    exec (.freezeNReleased) s = .next (({ s with dev := { s.dev with freezePin := false, freezeWait := false } }).bootSteps)) ∧
  (∀ (s : State), s.dev.st = .boot → s.dev.frozen = false → s.dev.stepsDone = false → s.ret.writing = none →
    Answers (.freezeNReleased) s fun t =>
      t.dev.stepsDone = true ∧
      t.dev.freezePin = false)

/-- Reference clocks and the management port. In every powered state REFCLK_CHECK records which reference clocks are present,
and without the management clock the port goes down; MANAGEMENT_PORT_STATE brings the port up only with its clock and an
identity record; SET_ENDPOINT_ID gives P1004.03. Nothing else changes. It rests on R378, R409. -/
def Obligations.ClocksAndPort : Prop :=
  (∀ (present : BitVec 3) (s : State), s.dev.st ≠ .off →
    exec (.refclkCheck present) s = .next ({ s with dev := { s.dev with refclk := present, mgmtUp := s.dev.mgmtUp && present.getLsbD 2 } })) ∧
  (∀ (up : Bool) (s : State), s.dev.st ≠ .off →
    exec (.managementPortState up) s = .next ({ s with dev := { s.dev with mgmtUp := up && s.dev.refclk.getLsbD 2 && s.sec.identity ≠ 2 } })) ∧
  (∀ (eid : Byte) (s : State), s.dev.st ≠ .off → Book.wf s.book = true →
    Answers (.setEndpointId eid) s fun t =>
      t.num 0x100403 = eid.toNat ∧
      SameNums s t [0x100403] ∧
      t = { s with book := t.book })

/-- Power estimates, monitor samples and telemetry samples. A power estimate is kept in PC100.02, moves the largest estimate,
and paces Tun and Kiln exactly while it is above PC100.01, counting PC100.03 then; nothing else changes. A rail or junction
sample is kept under its entry; a rail more than 8 percent from its nominal raises RAIL_FAIL and a junction at 115 degrees
asserts THERM_TRIP_N and raises its event, before the warning of the same reading; a reading inside its limits changes
nothing else, but that the last monitor to come into band lets a start-up that waits for it go on. A telemetry sample is
taken when its calendar entry, a TELEMETRY_SAMPLE entry, fires, and nothing happens when it does not. It rests on R18, R392,
R393, R394, R414, R58. -/
def Obligations.Telemetry : Prop :=
  (∀ (watts : BitVec 16) (s : State), s.running = true →
    Answers (.powerEstimate watts) s fun t =>
      t.dev = { s.dev with pacing := decide (s.num 0xC10001 < watts.toNat) } ∧
      look t.tele.readings 0xC10002 = some (watts.setWidth 32) ∧
      t.tele.powerPeak = max s.tele.powerPeak watts.toNat ∧
      t.book = (if s.num 0xC10001 < watts.toNat then (s.bump 0xC10003).book else s.book) ∧
      t = { s with dev := t.dev, tele := t.tele, book := t.book }) ∧
  (∀ (rail : Fin 6) (mv : BitVec 16) (u : State) (s : State), s.dev.st ≠ .off → (rail.val < 5 → s.dev.mainPg = true) → railOut rail 8 mv.toNat = true → u = (s.setReading (0xB00001 + rail) (mv.setWidth 32)).raise 0x09 rail mv.toNat none →
    exec (.railSample rail mv) s = .next ((u.warn 0x08 rail mv.toNat (railOut rail (u.num 0xB0000A) mv.toNat)).loadPhiug.enterTrain)) ∧
  (∀ (rail : Fin 6) (mv : BitVec 16) (s : State), s.dev.st ≠ .off → (rail.val < 5 → s.dev.mainPg = true) → railOut rail 8 mv.toNat = false → railOut rail (s.num 0xB0000A) mv.toNat = false → look s.thimble.warned (256 * 0x08 + rail) ≠ some none →
    exec (.railSample rail mv) s = .next ((s.setReading (0xB00001 + rail) (mv.setWidth 32)).loadPhiug.enterTrain)) ∧
  (∀ (s : State), s.dev.st ≠ .boot →
    s.loadPhiug.enterTrain = s) ∧
  (∀ (h : Half) (celsius : Int) (u : State) (s : State), s.dev.st ≠ .off → 115 ≤ celsius → u = ({ s.setReading (0xB00007 + Half.num h) (BitVec.ofInt 32 celsius) with dev := { s.dev with thermTrip := true } }).raise 0x0B (Half.num h) (BitVec.ofInt 64 celsius).toNat none →
    exec (.junctionSample h celsius) s = .next (u.warn 0x0A (Half.num h) (BitVec.ofInt 64 celsius).toNat true)) ∧
  (∀ (h : Half) (celsius : Int) (s : State), s.dev.st ≠ .off → celsius < 100 → look s.thimble.warned (256 * 0x0A + Half.num h) ≠ some none →
    exec (.junctionSample h celsius) s = .next (s.setReading (0xB00007 + Half.num h) (BitVec.ofInt 32 celsius))) ∧
  (∀ (entry : Fin 128) (at_ : Time) (u : State) (s : State), s.calKind entry = 6 → s.fire entry = some (at_, u) →
    exec (.telemetrySample entry) s = .next (((u.bump (key (calIndex entry) 8)).takeSample at_ (s.calEntry entry).period).sendTraces)) ∧
  (∀ (entry : Fin 128) (s : State), (s.calKind entry ≠ 6 ∨ s.fire entry = none) →
    exec (.telemetrySample entry) s = .next (s))

/-- The sources of fleet time. With P2001.01 at HOST_ONLY, or with no candidate left, source qualification loses time as R47
says; otherwise the first candidate in the order of R46 is followed where it agrees, or where fleet time is UNSET (the order
among sources of one kind, and the PPS with the seconds of the host or of PTP, are log entry 29, the model's choice).
Holdover above P2002.05 becomes FREERUN with its event. A Sync of the selected grandmaster is stamped less the ingress
delay, and measured at once unless a Follow_Up is to come, which then measures it; a delay response gives the path delay; an
Announce is taken from the first master heard. A PPS edge more than 100,000 ns from the nearest second is counted and
ignored. FT_PPS_OUT follows fleet time in LOCKED and HOLDOVER. A beacon takes a credit and leaves on every UP link whose
channel has one and room for it, and nothing does otherwise (log entry 28, the model's reading of R298); one that arrives
whole and in sequence is acknowledged, kept for the answer to it, and gives the delay and the offset of R309, to fractions
of a nanosecond, where it answers one of ours. It rests on R39, R43, R44, R45, R46, R47, R309. -/
def Obligations.TimeSources : Prop :=
  (∀ (s : State), s.dev.st ≠ .off → s.num 0x200101 = 4 →
    exec (.sourceQualification) s = .next (s.timeLost)) ∧
  (∀ (u : State) (s : State), s.dev.st ≠ .off → s.num 0x200101 ≠ 4 → u = (s.mapFtu fun f => { f with ptp := f.ptp.heal (s.num 0x200203), pps := f.pps.heal (s.num 0x200203), beacons := f.beacons.map fun x => (x.1, x.2.heal (s.num 0x200203)) }) → u.candidates = [] →
    exec (.sourceQualification) s = .next (u.timeLost)) ∧
  (∀ (u : State) (c : Candidate) (s : State), s.dev.st ≠ .off → s.num 0x200101 ≠ 4 → u = (s.mapFtu fun f => { f with ptp := f.ptp.heal (s.num 0x200203), pps := f.pps.heal (s.num 0x200203), beacons := f.beacons.map fun x => (x.1, x.2.heal (s.num 0x200203)) }) → bestOf u.candidates = some c → (u.ftu.st = .unset ∨ u.agrees c = true) →
    exec (.sourceQualification) s = .next (u.follow c)) ∧
  (∀ (s : State), s.ftu.st = .holdover → s.num 0x200205 < s.errorEstimate →
    exec (.holdoverErrorLimit) s = .next ((s.setTimeState .freerun).event 0x01 0xFFFF 0)) ∧
  (∀ (m : PtpSync) (s : State), s.fromGm m.ethernet m.domain m.gm = true → m.twoStep = true →
    exec (.sync m) s = .next (s.mapPtp fun x => { x with syncSeq := m.seq, t2 := s.ftuNs - s.num 0x200105, awaiting := true, interval := m.interval, syncCorrection := m.correction })) ∧
  (∀ (m : PtpSync) (s : State), s.fromGm m.ethernet m.domain m.gm = true → m.twoStep = false →
    exec (.sync m) s = .next ((s.mapPtp fun x => { x with syncSeq := m.seq, t2 := s.ftuNs - s.num 0x200105, awaiting := false, interval := m.interval, syncCorrection := m.correction }).ptpMeasure m.origin m.correction)) ∧
  (∀ (m : PtpSync) (s : State), s.fromGm m.ethernet m.domain m.gm = true → s.ftu.exchange.awaiting = true → s.ftu.exchange.syncSeq = m.seq →
    exec (.followUp m) s = .next (s.ptpMeasure m.origin (s.ftu.exchange.syncCorrection + m.correction))) ∧
  (∀ (m : PtpDelay) (s : State), s.ptpHeard m.ethernet = true → s.ftu.exchange.requested = true → s.ftu.exchange.reqSeq = m.seq → m.peer = false → s.num 0x200104 ≠ 1 →
    exec (.delayResponse m) s = .next (s.mapPtp fun x => { x with requested := false, pathDelay := ((x.t2 : Int) - x.t1 + ((m.received : Int) - x.t3 - m.correction)) / 2 })) ∧
  (∀ (m : PtpDelay) (s : State), s.ptpHeard m.ethernet = true → s.ftu.exchange.requested = true → s.ftu.exchange.reqSeq = m.seq → m.peer = true → s.num 0x200104 = 1 →
    exec (.delayResponse m) s = .next (s.mapPtp fun x => { x with requested := false, pathDelay := (((s.ftuNs - s.num 0x200105 : Nat) : Int) - x.t3 - (m.sent - m.received : Int) - m.correction) / 2 })) ∧
  (∀ (m : PtpAnnounce) (s : State), s.ptpHeard m.ethernet = true → m.domain.toNat = s.num 0x200102 → s.ftu.exchange.gm = none → m.gm ≠ 0 →
    exec (.announce m) s = .next (((((s.mapPtp fun x => { gm := some m, reqSeq := x.reqSeq }).mapFtu fun f => { f with ptp := {} }).setNum 0x200006 m.gm.toNat).setNum 0x200007 m.clockClass.toNat).setNum 0x200008 m.accuracy.toNat)) ∧
  (∀ (s : State), s.dev.st ≠ .off → s.timeKnown = true → 100000 < (((s.now - s.num 0x200107 + 500000000) / 1000000000 * 1000000000 : Nat) - ((s.now - s.num 0x200107 : Nat) : Int)).natAbs →
    exec (.ftPpsIn) s = .next (s.bump 0x200108)) ∧
  (∀ (sec : Nat) (s : State), s.dev.st ≠ .off → s.timeKnown = true → sec * 1000000000 = (s.now - s.num 0x200107 + 500000000) / 1000000000 * 1000000000 → ((sec * 1000000000 : Nat) - ((s.now - s.num 0x200107 : Nat) : Int)).natAbs ≤ 100000 → (s.ftu.hostSecs = true ∨ s.ptpQualified = true) →
    Answers (.ftPpsIn) s fun t =>
      t.ftu.pps.offset = (sec * 1000000000 : Nat) - ((s.now - s.num 0x200107 : Nat) : Int) ∧
      t.ftu.pps.last = s.aonNs ∧
      t.ftu.pps.seen = true ∧
      t.ftu.pps.err = Config.ppsSourceError + 10 ∧
      t = { s with ftu := { s.ftu with pps := t.ftu.pps } }) ∧
  (∀ (s : State),
    exec (.ftPpsOut) s = .next ({ s with dev := { s.dev with ppsOut := (s.ftu.st == .locked || s.ftu.st == .holdover) && s.now % 1000000000 < 100000 && s.dev.st != .off } })) ∧
  (∀ (s : State), s.running = true →
    exec (.beaconSend) s = .next (((List.range 32).filter s.linkUp).foldl (fun s n => s.sendBeacon n) s)) ∧
  (∀ (n : Nat) (s : State), (s.link n).canSend (s.beaconFrame n) = false →
    s.sendBeacon n = s) ∧
  (∀ (n : Nat) (l : Link) (s : State), l = s.link n → l.canSend (s.beaconFrame n) = true → l.encrypted = false →
    (s.sendBeacon n).out = .frame n (l.wireOf (s.beaconFrame n)) :: s.out ∧ ((s.sendBeacon n).link n).beaconOut = l.beaconOut + 1 ∧ ((s.sendBeacon n).link n).beaconSent = ((l.beaconOut, s.ftuNs, s.ftu.frac) :: l.beaconSent).take 16 ∧ s.sendBeacon n = { s with fabric := (s.sendBeacon n).fabric, out := (s.sendBeacon n).out }) ∧
  (∀ (link : Fin 32) (r : Rx) (f : Frame) (s : State), s.linkPresent link = true → s.running = true → s.linkUp link = true → s.hears link r f = true → f.kind = .beacon → f.payload.length = 48 →
    exec (.timeBeacon link r) s = .next (((s.tookFrame link r).accepted link (s.link link).seqIn (some 2)).beaconIn link (parseBeacon f.payload))) ∧
  (∀ (n : Nat) (b : Beacon) (s : State), ((s.link n).beaconSent.find? fun x => x.1 = b.echo) = none →
    s.beaconIn n b = s.mapLink n fun l => { l with beaconIn := some (b.sequence, s.stamp, s.ftu.frac) }) ∧
  (∀ (n : Nat) (b : Beacon) (q : BitVec 32) (t1 : Nat) (f1 : BitVec 32) (d : Int) (s t : State), ((s.link n).beaconSent.find? fun x => x.1 = b.echo) = some (q, t1, f1) → s.num (key (linkIndex n) 6) = 0xFFFF → d = (fine s.ftuNs s.ftu.frac - fine t1 f1 - (fine b.tSend b.tSendFrac - fine b.tRecv b.tRecvFrac)) / 2 → b.state = 2 → s.num 0x200109 = 1 → 0x200109 ≠ key (linkIndex n) 8 → t = s.beaconIn n b →
    (lookDef {} t.ftu.beacons n).offset = (fine b.tSend b.tSendFrac + d - fine s.ftuNs s.ftu.frac) / 2 ^ 32 ∧ (lookDef {} t.ftu.beacons n).err = b.err.toNat + 5 ∧ (lookDef {} t.ftu.beacons n).hops = b.hops.toNat + 1 ∧ (lookDef {} t.ftu.beacons n).last = s.aonNs ∧ t = { s with ftu := t.ftu, fabric := t.fabric, book := t.book } ∧ SameNums s t [key (linkIndex n) 8])

/-- Setting fleet time and accepting a backward step. A write of P2000.0A is accepted in BOOT, TRAIN and READY-EMPTY, and
elsewhere while UNSET or HOSTSET; it is refused with STATE otherwise, and nothing changes. Accepted, it makes the host the
source: in UNSET it gives HOSTSET with the value written and no slew; in BOOT, TRAIN and READY-EMPTY it steps to the value;
elsewhere it is a correction of R41: an offset up to P2002.02 forward or P2002.03 backward is slewed, a larger one forward
is stepped, and a larger one backward is held as the pending step in LOADING, SERVING and DEGRADED and stepped in FENCED. A
write of 1 to P2002.06 applies the pending step where no query is in flight, every submission spool and the fleet query
window are empty and no mutation record awaits acknowledgement, after which no step is pending; where one of these does not
hold, or no step is pending, it is refused with STATE. A step moves fleet time by its offset, leaves no slew and is counted
in P2002.07. It rests on R39, R41, R62, R358. -/
def Obligations.TimeWrites : Prop :=
  (∀ (w : Writer) (v : BitVec 64) (s : State), s.mayWrite w 0x20000A = true → s.ftu.st = .unset →
    exec (.setTime w v) s = .next ((s.byHost.firstTime v.toNat .hostset).written w 0x20000A rOk 8 8)) ∧
  (∀ (w : Writer) (v : BitVec 64) (d : Int) (u : State) (s : State), s.mayWrite w 0x20000A = true → s.ftu.st ≠ .unset → (s.dev.st = .boot ∨ s.dev.st = .train ∨ s.dev.st = .readyEmpty) → d = (v.toNat : Int) - s.ftu.now → u = s.byHost.setTimeState .hostset →
    exec (.setTime w v) s = .next ((if d = 0 then u else u.stepTime d).written w 0x20000A rOk 8 8)) ∧
  (∀ (w : Writer) (v : BitVec 64) (d : Int) (u : State) (s : State), s.mayWrite w 0x20000A = true → s.ftu.st = .hostset → d = (v.toNat : Int) - s.ftu.now → u = s.byHost.setTimeState .hostset → s.dev.st ≠ .boot → s.dev.st ≠ .train → s.dev.st ≠ .readyEmpty → 0 ≤ d → d ≤ (s.num 0x200202 : Int) →
    exec (.setTime w v) s = .next ((u.mapFtu fun f => { f with slew := d * 2 ^ 32 }).written w 0x20000A rOk 8 8)) ∧
  (∀ (w : Writer) (v : BitVec 64) (d : Int) (u : State) (s : State), s.mayWrite w 0x20000A = true → s.ftu.st = .hostset → d = (v.toNat : Int) - s.ftu.now → u = s.byHost.setTimeState .hostset → s.dev.st ≠ .boot → s.dev.st ≠ .train → s.dev.st ≠ .readyEmpty → (s.num 0x200202 : Int) < d →
    exec (.setTime w v) s = .next ((u.stepTime d).written w 0x20000A rOk 8 8)) ∧
  (∀ (w : Writer) (v : BitVec 64) (d : Int) (u : State) (s : State), s.mayWrite w 0x20000A = true → s.ftu.st = .hostset → d = (v.toNat : Int) - s.ftu.now → u = s.byHost.setTimeState .hostset → s.dev.st ≠ .boot → s.dev.st ≠ .train → s.dev.st ≠ .readyEmpty → d < 0 → -d ≤ (s.num 0x200203 : Int) →
    exec (.setTime w v) s = .next ((u.mapFtu fun f => { f with slew := d * 2 ^ 32 }).written w 0x20000A rOk 8 8)) ∧
  (∀ (w : Writer) (v : BitVec 64) (d : Int) (u : State) (s : State), s.mayWrite w 0x20000A = true → s.ftu.st = .hostset → d = (v.toNat : Int) - s.ftu.now → u = s.byHost.setTimeState .hostset → (s.dev.st = .loading ∨ s.dev.st = .serving ∨ s.dev.st = .degraded) → d < -(s.num 0x200203 : Int) →
    exec (.setTime w v) s = .next ((u.mapFtu fun f => { f with pending := some d }).written w 0x20000A rOk 8 8)) ∧
  (∀ (w : Writer) (v : BitVec 64) (d : Int) (u : State) (s : State), s.mayWrite w 0x20000A = true → s.ftu.st = .hostset → d = (v.toNat : Int) - s.ftu.now → u = s.byHost.setTimeState .hostset → s.dev.st = .fenced → d < -(s.num 0x200203 : Int) →
    exec (.setTime w v) s = .next ((u.stepTime d).written w 0x20000A rOk 8 8)) ∧
  (∀ (w : Writer) (v : BitVec 64) (s : State), s.mayWrite w 0x20000A = true → s.dev.st ≠ .boot → s.dev.st ≠ .train → s.dev.st ≠ .readyEmpty → s.ftu.st ≠ .unset → s.ftu.st ≠ .hostset →
    exec (.setTime w v) s = .next ((s).written w 0x20000A rState 8 8)) ∧
  (∀ (s : State),
    s.byHost.ftu = { s.ftu with source := .host, sourceLink := 0xFF, lockRun := 0, hostSecs := true } ∧ s.byHost = { s with ftu := s.byHost.ftu }) ∧
  (∀ (v : Time) (s : State), s.ftu.st = .unset →
    (s.firstTime v .hostset).ftu.st = .hostset ∧ (s.firstTime v .hostset).ftu.now = v ∧ (s.firstTime v .hostset).ftu.slew = 0 ∧ (s.firstTime v .hostset).ftu.source = s.ftu.source) ∧
  (∀ (d : Int) (s : State),
    (s.moveTime d).ftu.now = ((s.ftu.now : Int) + d).toNat ∧ (s.moveTime d).ftu.slew = 0 ∧ (s.moveTime d).ftu.st = s.ftu.st ∧ (s.moveTime d).ftu.pending = s.ftu.pending) ∧
  (∀ (d : Int) (s : State), s.canonical → s.num 0x200207 < 0xFFFFFFFF →
    (s.moveTime d).num 0x200207 = s.num 0x200207 + 1) ∧
  (∀ (w : Writer) (d : Int) (s : State), s.mayWrite w 0x200206 = true → s.ftu.pending = some d → s.search.queries = [] → (∀ x ∈ s.spools.sub, x.unread = 0) → s.fabric.queue = [] → (∀ j ∈ s.muts.jobs, j.unacked = 0) →
    exec (.acceptBackwardStep w 1) s = .next (((s.stepTime d).mapFtu fun f => { f with pending := none }).written w 0x200206 rOk 1 1)) ∧
  (∀ (w : Writer) (d : Int) (s : State), s.mayWrite w 0x200206 = true → s.ftu.pending = some d → s.search.queries = [] → (∀ x ∈ s.spools.sub, x.unread = 0) → s.fabric.queue = [] → (∀ j ∈ s.muts.jobs, j.unacked = 0) →
    Answers (.acceptBackwardStep w 1) s fun t =>
      t.ftu.pending = none) ∧
  (∀ (w : Writer) (s : State), s.mayWrite w 0x200206 = true → (s.ftu.pending = none ∨ s.search.queries ≠ [] ∨ (∃ x ∈ s.spools.sub, x.unread ≠ 0) ∨ s.fabric.queue ≠ [] ∨ (∃ j ∈ s.muts.jobs, j.unacked ≠ 0)) →
    exec (.acceptBackwardStep w 1) s = .next ((s).written w 0x200206 rState 1 1))

/-- Handling, acknowledging, clearing and forcing events; FAULT_N's level and re-arming. HANDLE of an open event's sequence
closes it: it leaves the open list, and nothing else but the history's copy changes; one whose timer has ended is escalated
first (R387); of any other sequence it is refused with STATE. ACKNOWLEDGE of a slot takes away its unacknowledged mark, and
0xFFFF that of every slot. CLEAR gives an acknowledged slot back its initial contents, a fixed slot keeping its source code,
and is refused with STATE for one that is not acknowledged. FORCE records an event for each bit set. LEVEL sets PA110.01,
which drives FAULT_N while no pulse does. REARM with 1 arms FAULT_N, and with 0 does nothing. Each is counted and answered.
It rests on R386, R387, R388, R391, R397, R358. -/
def Obligations.ThimbleWrites : Prop :=
  (∀ (w : Writer) (sequence : BitVec 32) (u : State) (s : State), s.mayWrite w 0xA02003 = true → s.handleEvent sequence.toNat = some u →
    exec (.handle w sequence) s = .next ((u).written w 0xA02003 rOk 4 4)) ∧
  (∀ (w : Writer) (sequence : BitVec 32) (s : State), s.mayWrite w 0xA02003 = true → s.handleEvent sequence.toNat = none →
    exec (.handle w sequence) s = .next ((s).written w 0xA02003 rState 4 4)) ∧
  (∀ (q : Nat) (s : State), (s.thimble.opened.any fun e => e.sequence = q) = true → (∀ e ∈ s.thimble.opened, s.dueAt e = none) →
    ∃ u, s.handleEvent q = some u ∧ u.thimble.opened = (s.thimble.opened.filter fun e => e.sequence ≠ q) ∧ u = { s with thimble := u.thimble } ∧ u.thimble = { s.thimble with opened := u.thimble.opened, history := u.thimble.history }) ∧
  (∀ (q at_ : Nat) (e : Event) (s : State), (s.thimble.opened.find? fun e => e.sequence = q) = some e → s.dueAt e = some at_ →
    s.escalateDue q = s.escalate e at_ ∧ s.handleEvent q = ((s.escalate e at_).escalateDue q).closeEvent q) ∧
  (∀ (w : Writer) (slot : BitVec 16) (s : State), s.mayWrite w 0xA03002 = true → slot.toNat ≤ 0xFF →
    exec (.acknowledge w slot) s = .next ((s.setAlarm slot.toNat { s.alarm slot.toNat with unacked := false }).written w 0xA03002 rOk 3 2)) ∧
  (∀ (w : Writer) (s : State), s.mayWrite w 0xA03002 = true →
    exec (.acknowledge w 0xFFFF) s = .next (((List.range 256).foldl (fun u n => u.setAlarm n { u.alarm n with unacked := false }) s).written w 0xA03002 rOk 3 2)) ∧
  (∀ (w : Writer) (slot : BitVec 16) (s : State), s.mayWrite w 0xA03003 = true → slot.toNat ≤ 0xFF → (s.alarm slot.toNat).unacked = false →
    exec (.clear w slot) s = .next ((s.setAlarm slot.toNat ((if slot.toNat < 128 then { source := (s.alarm slot.toNat).source } else {}))).written w 0xA03003 rOk 3 2)) ∧
  (∀ (w : Writer) (slot : BitVec 16) (s : State), s.mayWrite w 0xA03003 = true → slot.toNat ≤ 0xFF → (s.alarm slot.toNat).unacked = true →
    exec (.clear w slot) s = .next ((s).written w 0xA03003 rState 3 2)) ∧
  (∀ (w : Writer) (bits : Bytes) (u : State) (s : State), s.mayWrite w 0xA00006 = true → bits.length ≤ sourceLimit w.src → u = s.unstage w.src → bits.length = 16 →
    exec (.force w bits) s = .next ((((bitList 128 (leNat bits)).foldl (fun u c => u.record c 0xFFFF 0 true none) u).settle).written w 0xA00006 rOk 0x0A bits.length)) ∧
  (∀ (w : Writer) (v : Byte) (s : State), s.mayWrite w 0xA11001 = true → v.toNat ≤ 1 →
    exec (.level w v) s = .next (((if s.thimble.pulse.isSome then s.setNum 0xA11001 v.toNat else { s.setNum 0xA11001 v.toNat with thimble := { s.thimble with faultLow := v.toNat = 1 } })).written w 0xA11001 rOk 2 1)) ∧
  (∀ (w : Writer) (s : State), s.mayWrite w 0xA11002 = true →
    exec (.rearm w 1) s = .next (({ s with thimble := { s.thimble with armed := true } }).written w 0xA11002 rOk 1 1)) ∧
  (∀ (w : Writer) (s : State), s.mayWrite w 0xA11002 = true →
    exec (.rearm w 0) s = .next ((s).written w 0xA11002 rOk 1 1))

/-- The signature policy, the SVN, recovery and the tenant bindings. A write of PE000.02 rewrites the security record with the
policy, and one of 1 to PE000.08 raises its min_svn to the running image's, each adding one to the record's sequence: the
new record goes with its code under the record key to the area of the two that was not written last, 100 ms long, and an
area whose code is not of its record holds none. In recovery, a piece of PE010.03 that lies inside the slot of PE010.01 is
written at the offset of PE010.02, and a piece beyond it is refused with RANGE; a write of 1 to PE010.04 verifies the slot.
Bindings that list the port's own tenant and take away nothing held become the port's permits; those that leave the port's
own tenant out are refused with RANGE (log entry 32, the model's choice), and those that take away a held tenant or shrink
its fence with STATE. It rests on R420, R421, R422, R424, R425. -/
def Obligations.SecurityWrites : Prop :=
  (∀ (w : Writer) (v : Byte) (s : State), s.mayWrite w 0xE00002 = true → v.toNat ≤ 1 →
    exec (.setSigPolicy w v) s = .next ((s.setRecord fun r => { r with either := v.toNat = 1 }).written w 0xE00002 rOk 2 1)) ∧
  (∀ (w : Writer) (s : State), s.mayWrite w 0xE00008 = true →
    exec (.commitSvn w 1) s = .next ((s.setRecord fun r => { r with minSvn := max r.minSvn s.sec.svn.toNat }).written w 0xE00008 rOk 1 1)) ∧
  (∀ (f : SecRecord → SecRecord) (r : SecRecord) (s u : State), r = { f s.sec.record with sequence := (f s.sec.record).sequence + 1 } → s.hasFlash = true → u = s.setRecord f →
    u.sec.record = r ∧ (∃ due, u.sec.writes = s.sec.writes ++ [⟨s.nextArea, ⟨r, Config.hmacSha256 s.recordKey r.bytes⟩, due⟩] ∧ s.aonNs + 100000000 ≤ due) ∧ u.sec.lastB = s.nextArea ∧ u = { s with sec := u.sec }) ∧
  (∀ (s : State), s.slotThere false = true → s.slotThere true = true →
    s.nextArea = !s.sec.lastB) ∧
  (∀ (r : SecRecord) (m : Bytes) (s : State),
    s.areaValid (some ⟨r, m⟩) = (if m = Config.hmacSha256 s.recordKey r.bytes then some r else none)) ∧
  (∀ (w : Writer) (value : Bytes) (u : State) (s : State), s.mayWrite w 0xE01003 = true → value.length ≤ sourceLimit w.src → u = s.unstage w.src → s.sec.recovery = true → s.num 0xE01002 + value.length ≤ slotBytes →
    exec (.recoveryData w value) s = .next ((u.writeSlot s.recoverySlot (s.num 0xE01002) value).written w 0xE01003 rOk 0x0A value.length)) ∧
  (∀ (w : Writer) (value : Bytes) (u : State) (s : State), s.mayWrite w 0xE01003 = true → value.length ≤ sourceLimit w.src → u = s.unstage w.src → s.sec.recovery = true → slotBytes < s.num 0xE01002 + value.length →
    exec (.recoveryData w value) s = .next ((u).written w 0xE01003 rRange 0x0A value.length)) ∧
  (∀ (w : Writer) (s : State), s.mayWrite w 0xE01004 = true → s.sec.recovery = true →
    exec (.recoveryVerify w 1) s = .next (({ s with sec := { s.sec with recoveryStatus := if s.slotVerifies s.recoverySlot then 1 else 2 } }).written w 0xE01004 rOk 1 1)) ∧
  (∀ (w : Writer) (value : Bytes) (u : State) (s : State), s.mayWrite w 0xE02002 = true → value.length ≤ sourceLimit w.src → u = s.unstage w.src → textOk 0xE02002 value = true → s.bindingsShort .a value = false → s.bindingsRefused .a value = false →
    exec (.bindings w .a value) s = .next ((u.setBlob 0xE02002 value).written w 0xE02002 rOk 0x0A value.length)) ∧
  (∀ (w : Writer) (value : Bytes) (u : State) (s : State), s.mayWrite w 0xE02002 = true → value.length ≤ sourceLimit w.src → u = s.unstage w.src → textOk 0xE02002 value = true → s.bindingsShort .a value = true →
    exec (.bindings w .a value) s = .next ((u).written w 0xE02002 rRange 0x0A value.length)) ∧
  (∀ (w : Writer) (value : Bytes) (u : State) (s : State), s.mayWrite w 0xE02102 = true → value.length ≤ sourceLimit w.src → u = s.unstage w.src → textOk 0xE02102 value = true → s.bindingsShort .b value = false → s.bindingsRefused .b value = false →
    exec (.bindings w .b value) s = .next ((u.setBlob 0xE02102 value).written w 0xE02102 rOk 0x0A value.length)) ∧
  (∀ (w : Writer) (value : Bytes) (u : State) (s : State), s.mayWrite w 0xE02102 = true → value.length ≤ sourceLimit w.src → u = s.unstage w.src → textOk 0xE02102 value = true → s.bindingsShort .b value = true →
    exec (.bindings w .b value) s = .next ((u).written w 0xE02102 rRange 0x0A value.length)) ∧
  (∀ (w : Writer) (value : Bytes) (u : State) (s : State), s.mayWrite w 0xE02002 = true → value.length ≤ sourceLimit w.src → u = s.unstage w.src → textOk 0xE02002 value = true → s.bindingsShort .a value = false → s.bindingsRefused .a value = true →
    exec (.bindings w .a value) s = .next ((u).written w 0xE02002 rState 0x0A value.length))

/-- Register writes, the generation counter, drift, the shard map and factory reset. A register write of a plain number in its
range stores it and takes effect as its entry says, and one of a plain byte string stores it and drops what its writer had
staged. While no collection exists SET_GENERATION with a value not below the current generation takes it, and at any other
time, or with a lower value, it is refused with STATE. REBASELINE clears the drift baseline of the selected collection.
SHARD_MAP gives the selected collection its rows. FACTORY_RESET commits an empty copy. It rests on R117, R212, R310, R356,
R368. -/
def Obligations.OtherWrites : Prop :=
  (∀ (w : Writer) (index : BitVec 16) (sub : Byte) (value : Bytes) (k n : Nat) (r : Row) (s : State), k = key index.toNat sub.toNat → s.mayWrite w k = true → sub ≠ 0 → rowOf k = some r → r.ty.size = some n → value.length = n → (switchable (k / 256) && k % 256 = 1) = false → s.rangeOk k (leNat value) = true → s.ownRule k (leNat value) = none → r.access ≠ .wo →
    exec (.registerWrite w index sub value) s = .next ((s.storeNum k (leNat value)).written w k rOk r.ty.code n)) ∧
  (∀ (w : Writer) (value : Bytes) (s : State), s.mayWrite w 0x810001 = true → value.length = 16384 → value.length ≤ sourceLimit w.src → (value.all fun x => x.toNat < 32 || x = 0xFF) = true →
    exec (.registerWrite w 0x8100 1 value) s = .next (((s.unstage w.src).setBlob 0x810001 value).written w 0x810001 rOk 0x0A value.length)) ∧
  (∀ (w : Writer) (v : BitVec 64) (s : State), s.mayWrite w 0x411003 = true → v.toNat < 2 ^ 48 → s.colls = [] → s.deferred = [] → s.muts.generation ≤ v.toNat →
    exec (.setGeneration w v) s = .next ((s.openGeneration v.toNat).written w 0x411003 rOk 5 8)) ∧
  (∀ (w : Writer) (v : BitVec 64) (s : State), s.mayWrite w 0x411003 = true → v.toNat < 2 ^ 48 → (s.colls ≠ [] ∨ s.deferred ≠ [] ∨ v.toNat < s.muts.generation) →
    exec (.setGeneration w v) s = .next ((s).written w 0x411003 rState 5 8)) ∧
  (∀ (w : Writer) (c : Coll) (s : State), s.mayWrite w 0x603007 = true → s.selected 0x603001 = some c →
    exec (.rebaseline w 1) s = .next ((s.mapColl c.d.handle fun c => { c with drift := { c.drift with flag := false, windows := 0, baseline := none } }).written w 0x603007 rOk 1 1)) ∧
  (∀ (w : Writer) (value : Bytes) (c : Coll) (u : State) (s : State), s.mayWrite w 0x830002 = true → value.length ≤ sourceLimit w.src → u = s.unstage w.src → textOk 0x830002 value = true → s.selected 0x830001 = some c →
    exec (.shardMap w value) s = .next ((u.mapColl c.d.handle fun c => { c with shardMap := (chunks 8 (value.length / 8 + 1) value).map fun r => (chunks 2 5 r).map leNat }).written w 0x830002 rOk 0x0A value.length)) ∧
  (∀ (w : Writer) (u : State) (r q : Nat) (s : State), s.mayWrite w 0x100307 = true → s.commit true = (u, r, q) →
    exec (.factoryReset w 1) s = .next ((u).written w 0x100307 r 1 1))

/-- Switching a function on and off. For every switchable function: a write of ON that passes the dictionary's checks, from OFF
and where no rule of the function's own refuses it, puts the function into STARTING and is answered OK; a write of OFF from
ON puts it into STOPPING and is answered OK. Calendar entry 0x00 cannot be switched off (R58), and its write of OFF is
refused with STATE. It rests on R57, R290, R361, R362. -/
def Obligations.FunctionSwitches : Prop :=
  (∀ (n : Fin 128),
    SwitchesOn (fun w => .calendarEntryOn w n) (calIndex n)) ∧
  (∀ (n : Fin 128), n ≠ 0 →
    SwitchesOff (fun w => .calendarEntryOff w n) (calIndex n)) ∧
  (∀ (w : Writer) (s : State), s.mayWrite w 0x210001 = true → (s.sw 0x2100).st = .on →
    exec (.calendarEntryOff w 0) s = .next (s.written w 0x210001 rState 2 1)) ∧
  (∀ (n : Fin 32),
    SwitchesOn (fun w => .linkOn w n) (linkIndex n)) ∧
  (∀ (n : Fin 32),
    SwitchesOff (fun w => .linkOff w n) (linkIndex n)) ∧
  (SwitchesOn .journalOn 0x4100) ∧
  (SwitchesOn .seamOn 0x4130) ∧
  (SwitchesOn .recipesOn 0x7020) ∧
  (SwitchesOn .lendOn 0x3400) ∧
  (SwitchesOn .tracesOn 0xB030) ∧
  (SwitchesOn .loopBackOn 0xD100) ∧
  (SwitchesOn .marginScanOn 0xD200) ∧
  (SwitchesOff .journalOff 0x4100) ∧
  (SwitchesOff .seamOff 0x4130) ∧
  (SwitchesOff .recipesOff 0x7020) ∧
  (SwitchesOff .lendOff 0x3400) ∧
  (SwitchesOff .tracesOff 0xB030) ∧
  (SwitchesOff .loopBackOff 0xD100) ∧
  (SwitchesOff .marginScanOff 0xD200)

/-- The table of switchable functions. A write to a function's state, where no rule of the function's own refuses it, is
answered and takes effect as the table of R362 says in each of its six rows: a write of OFF in STARTING and of ON in
STOPPING waits and is answered DEFERRED, the opposite write cancels it, and no pending change shows in the state; a write of
ON in STOPPING that the function's own rule refuses is refused with STATE. Calendar entry 0x00, which cannot be switched off
(R58), is left out. It rests on R361, R362. -/
def Obligations.SwitchTable : Prop :=
  (∀ (i : Nat) (s : State), (s.sw i).st = .off → s.startRefusal i = none →
    s.switchWrite i true = (s.goStarting i, rOk)) ∧
  (∀ (i : Nat) (s : State), i ≠ 0x2100 → (s.sw i).st = .off →
    s.switchWrite i false = (s, rOk)) ∧
  (∀ (i : Nat) (s : State), (s.sw i).st = .starting →
    (s.switchWrite i true).2 = rOk ∧ (s.switchWrite i true).1 = s.setSw i ⟨.starting, none⟩) ∧
  (∀ (i : Nat) (s : State), i ≠ 0x2100 → (s.sw i).st = .starting →
    (s.switchWrite i false).2 = rDeferred ∧ (s.switchWrite i false).1 = s.setSw i ⟨.starting, some false⟩) ∧
  (∀ (i : Nat) (s : State), (s.sw i).st = .on →
    s.switchWrite i true = (s, rOk)) ∧
  (∀ (i : Nat) (s : State), i ≠ 0x2100 → (s.sw i).st = .on →
    s.switchWrite i false = (s.goStopping i, rOk)) ∧
  (∀ (i : Nat) (s : State), (s.sw i).st = .stopping → s.restartRefused i = true →
    s.switchWrite i true = (s, rState)) ∧
  (∀ (i : Nat) (s : State), (s.sw i).st = .stopping → s.restartRefused i = false →
    (s.switchWrite i true).2 = rDeferred ∧ (s.switchWrite i true).1 = s.setSw i ⟨.stopping, some true⟩ ∧ (s.switchWrite i false).2 = rOk ∧ (s.switchWrite i false).1 = s.setSw i ⟨.stopping, none⟩) ∧
  (∀ (i : Nat) (x : Switch) (s : State), switchesWf s.switches = true →
    (s.setSw i x).sw i = x ∧ (∀ j, j ≠ i → (s.setSw i x).sw j = s.sw j) ∧ (∀ p, SameNums s (s.setSw i ⟨(s.sw i).st, p⟩) []) ∧ (s.sw i ≠ x → (s.sw i).st ≠ x.st → (s.setSw i x).num 0x100303 = (s.bump 0x100303).num 0x100303))

/-- The end of a start and of a stop. A start that completes puts the function ON, and begins a stop that is pending; one that
fails puts it OFF with START_FAILED (C0), the pending stop cleared. A stop that has nothing left to wait for puts the
function OFF, and begins a start that is pending, or raises START_FAILED where the function's own rules now refuse it. It
rests on R57, R361, R362. -/
def Obligations.FunctionCompletion : Prop :=
  (∀ (index : BitVec 16) (s : State), switchable index.toNat = true → (s.sw index.toNat).st = .starting → s.running = true → s.failing.contains index.toNat = false →
    exec (.functionStartComplete index true) s = .next ((if (s.sw index.toNat).pend = some false then ((s.setSw index.toNat ⟨.on, none⟩).startEnds index.toNat).goStopping index.toNat else (s.setSw index.toNat ⟨.on, none⟩).startEnds index.toNat))) ∧
  (∀ (index : BitVec 16) (ok : Bool) (s : State), switchable index.toNat = true → (s.sw index.toNat).st = .starting → s.running = true → (ok = false ∨ s.failing.contains index.toNat = true) →
    exec (.functionStartComplete index ok) s = .next (((s.startUndone index.toNat).setSw index.toNat ⟨.off, none⟩).event 0x6C index.toNat 0)) ∧
  (∀ (index : BitVec 16) (s : State), switchable index.toNat = true → (s.sw index.toNat).st = .stopping → s.running = true → s.stopReady index.toNat = true → (s.sw index.toNat).pend ≠ some true →
    exec (.functionStopComplete index) s = .next ((s.stopEnds index.toNat).setSw index.toNat ⟨.off, none⟩)) ∧
  (∀ (index : BitVec 16) (u : State) (s : State), switchable index.toNat = true → (s.sw index.toNat).st = .stopping → s.running = true → s.stopReady index.toNat = true → (s.sw index.toNat).pend = some true → u = (s.stopEnds index.toNat).setSw index.toNat ⟨.off, none⟩ →
    exec (.functionStopComplete index) s = .next ((if (u.startRefusal index.toNat).isSome then u.event 0x6C index.toNat 0 else u.goStarting index.toNat)))

/-- Bells and windows of the calendar. When an entry of the calendar fires, its count goes up: a GENERATION_BELL, which is entry
0x00, then advances the generation, a MERGE_BELL has the lead evaluate its records, and a window opens to the end of its
occurrence, or has passed where that lies behind. A window closes at its end. What falls on one fleet time happens in its
turn, in the order of R59. An entry that does not fire, and a window whose end has not come, does nothing. It rests on R53,
R55, R59, R210. -/
def Obligations.Calendar : Prop :=
  (∀ (at_ : Time) (u : State) (s : State), s.calKind 0 = 1 → s.fire 0 = some (at_, u) →
    exec (.generationBell) s = .next ((u.bump 0x210008).ringGeneration at_)) ∧
  (∀ (s : State), (s.calKind 0 ≠ 1 ∨ s.fire 0 = none) →
    exec (.generationBell) s = .next (s)) ∧
  (∀ (entry : Fin 128) (at_ : Time) (u : State) (s : State), s.calKind entry = 2 → s.fire entry = some (at_, u) →
    exec (.mergeBell entry) s = .next ((u.bump (key (calIndex entry) 8)).ringMerge entry)) ∧
  (∀ (entry : Fin 128) (at_ : Time) (u v : State) (s : State), s.windowEntry entry = true → s.fire entry = some (at_, u) → v = (if (u.calEntry entry).openUntil.isSome then u.closeWindow entry else u) →
    exec (.windowStart entry) s = .next ((if at_ + (s.calEntry entry).length ≤ v.now then v.bump (key (calIndex entry) 8) else v.openWindow entry (at_ + (s.calEntry entry).length)))) ∧
  (∀ (entry : Fin 128) (until_ : Time) (s : State), (s.calEntry entry).openUntil = some until_ → until_ ≤ s.now → s.calRuns = true → s.inTurn until_ 0 entry = true →
    exec (.windowEnd entry) s = .next (s.closeWindow entry)) ∧
  (∀ (entry : Fin 128) (until_ : Time) (s : State), (s.calEntry entry).openUntil = some until_ → s.now < until_ →
    exec (.windowEnd entry) s = .next (s)) ∧
  (∀ (n : Nat) (s : State) (at_ : Time) (u : State), s.fire n = some (at_, u) →
    (s.calEntry n).next = some at_ ∧ at_ ≤ s.now ∧ s.calFires n = true ∧ s.inTurn at_ (kindRank (s.calKind n)) n = true ∧ u.ftu = s.ftu ∧ u.muts = s.muts) ∧
  (∀ (at_ : Time) (u : State) (s : State), s.calKind 0 = 1 → s.fire 0 = some (at_, u) → s.muts.baste = [] →
    Answers (.generationBell) s fun t =>
      t.muts.generation = (s.muts.generation + 1) % 2 ^ 48 ∧
      t.muts.lastBell = at_) ∧
  (∀ (entry : Fin 128) (s : State), (s.calKind entry ≠ 2 ∨ s.fire entry = none) →
    exec (.mergeBell entry) s = .next (s)) ∧
  (∀ (entry : Fin 128) (s : State), (s.windowEntry entry = false ∨ s.fire entry = none) →
    exec (.windowStart entry) s = .next (s))

/-- Submission, completion and coalescing. A submission doorbell on an active spool moves its tail to a value ahead of the
present one by no more than the ring holds, and is load; a value behind is ignored and counted, a value beyond the ring is
ignored, counted and raises SPOOL_ERROR, and a doorbell of a spool that does not exist is counted for the port. A completion
head moves within the entries that the ring holds, and is ignored and counted otherwise. The coalescing time, once it has
passed since the first entry not signalled, signals the spool. A message of a vector leaves where the port's MSI-X
capability is enabled and neither it nor the vector is masked, and stays pending while one of them is; of a frozen device,
or of a port whose capability is disabled, it is not made. That the three bits of MSI-X act so is the model's choice (log
entry 17). Bus mastering is as the host sets it. It rests on R332, R335, R336. -/
def Obligations.Doorbells : Prop :=
  (∀ (p : Port) (n : Byte) (v : BitVec 64) (x : SubSpool) (s : State), s.upstream.contains p = true → s.windowsUp = true → s.subSpool p n = some x → x.resetting = false → ahead x.head (v.setWidth 32) ≤ x.entries → ahead x.head x.tail < ahead x.head (v.setWidth 32) →
    exec (.submissionDoorbell p n v) s = .next ((s.mapSub p n fun x => { x with tail := v.setWidth 32 }).loadAppears)) ∧
  (∀ (p : Port) (n : Byte) (v : BitVec 64) (x : SubSpool) (s : State), s.upstream.contains p = true → s.windowsUp = true → s.subSpool p n = some x → x.resetting = false → ahead x.head (v.setWidth 32) ≤ x.entries → ahead x.head (v.setWidth 32) ≤ ahead x.head x.tail →
    exec (.submissionDoorbell p n v) s = .next (s.mapSub p n fun x => { x with ignored := min (x.ignored + 1) 0xFFFFFFFF })) ∧
  (∀ (p : Port) (n : Byte) (v : BitVec 64) (x : SubSpool) (s : State), s.upstream.contains p = true → s.windowsUp = true → s.subSpool p n = some x → x.resetting = false → x.entries < ahead x.head (v.setWidth 32) →
    exec (.submissionDoorbell p n v) s = .next ((s.mapSub p n fun x => { x with ignored := min (x.ignored + 1) 0xFFFFFFFF }).event 0x70 (256 * Port.num p + n.toNat) 0)) ∧
  (∀ (p : Port) (n : Byte) (v : BitVec 64) (s : State), s.upstream.contains p = true → s.windowsUp = true → (s.subSpool p n).all (fun x => x.resetting) = true →
    exec (.submissionDoorbell p n v) s = .next (s.bump (ignoredKey p))) ∧
  (∀ (p : Port) (n : Byte) (v : BitVec 64) (c : CompSpool) (s : State), s.upstream.contains p = true → s.windowsUp = true → s.compSpool p n = some c → 0 < ahead c.head (v.setWidth 32) → ahead c.head (v.setWidth 32) ≤ c.occupied →
    exec (.completionHeadDoorbell p n v) s = .next (s.mapComp p n fun c => { c with head := v.setWidth 32 })) ∧
  (∀ (p : Port) (n : Byte) (v : BitVec 64) (c : CompSpool) (s : State), s.upstream.contains p = true → s.windowsUp = true → s.compSpool p n = some c → (ahead c.head (v.setWidth 32) = 0 ∨ c.occupied < ahead c.head (v.setWidth 32)) →
    exec (.completionHeadDoorbell p n v) s = .next (s.mapComp p n fun c => { c with ignored := min (c.ignored + 1) 0xFFFFFFFF })) ∧
  (∀ (p : Port) (n : Byte) (c : CompSpool) (s : State), s.upstream.contains p = true → s.compSpool p n = some c → s.running = true → c.unsignalled ≠ 0 → c.firstUnsignalled + c.coalesceTime ≤ s.now →
    exec (.coalesceTimer p n) s = .next (s.signalComp p n)) ∧
  (∀ (p : Port) (n : Byte) (c : CompSpool) (v : Nat) (s : State), s.compSpool p n = some c → c.msix = some v → c.unsignalled ≠ 0 →
    s.signalComp p n = (s.mapComp p n fun c => { c with unsignalled := 0 }).msix p v) ∧
  (∀ (p : Port) (v : Nat) (m : Msix) (s : State), s.dev.frozen = false → m = (s.port p).msix → m.enabled = true → m.maskAll = false → m.unmasked.contains v = true →
    s.msix p v = s.emit (.msix p v)) ∧
  (∀ (p : Port) (v : Nat) (m : Msix) (s : State), s.dev.frozen = false → m = (s.port p).msix → m.enabled = true → (m.maskAll = true ∨ m.unmasked.contains v = false) →
    s.msix p v = s.setPort p { s.port p with msix := { m with pending := insertNat v m.pending } }) ∧
  (∀ (p : Port) (v : Nat) (s : State), (s.dev.frozen = true ∨ (s.port p).msix.enabled = false) →
    s.msix p v = s) ∧
  (∀ (p : Port) (on : Bool) (s : State), s.upstream.contains p = true →
    exec (.busMasterEnable p on) s = .next (s.setPort p { s.port p with busMaster := on }))

/-- Host reads and writes, link and decoder events. A host read of memory behind the host area returns its bytes, and a write of
it stores them; every byte outside keeps its value. A read that no window backs returns poison, and a write of such an
address is dropped; both are counted once the windows are up. A write to the port's MSI-X capability acts on it, and a read
of the GPF DVSEC returns its two values (log entry 13). Committing an HDM decoder keeps what it maps, and a link that goes
down, to train again or to stay down, or for a Loopback that the host leads, loses speed, width, flit mode and its IDE
streams and raises CXL_LINK_DOWN. It rests on R326, R327, R328, R352. -/
def Obligations.HostAccess : Prop :=
  (∀ (p : Port) (dpa off n : Nat) (s : State), s.upstream.contains p = true → s.windowsUp = true → s.windowOf p dpa n = some (.hostArea, off) → s.rangeOffline (s.hostBase p + off) n = false →
    exec (.hostAccess p dpa (.read n)) s = .next (s.emit (.hostRead p (some (s.mem.read (s.hostBase p + off) n))))) ∧
  (∀ (p : Port) (dpa off : Nat) (b : Bytes) (s : State), s.upstream.contains p = true → s.windowsUp = true → s.windowOf p dpa b.length = some (.hostArea, off) → s.rangeOffline (s.hostBase p + off) b.length = false →
    exec (.hostAccess p dpa (.write b)) s = .next (s.devWrite (s.hostBase p + off) b)) ∧
  (∀ (p : Port) (dpa n : Nat) (s : State), s.upstream.contains p = true → s.windowsUp = true → s.windowOf p dpa n = none →
    exec (.hostAccess p dpa (.read n)) s = .next (s.unbacked.emit (.hostRead p none))) ∧
  (∀ (p : Port) (dpa : Nat) (b : Bytes) (s : State), s.upstream.contains p = true → s.windowsUp = true → s.windowOf p dpa b.length = none →
    exec (.hostAccess p dpa (.write b)) s = .next (s.unbacked)) ∧
  (∀ (p : Port) (dpa : Nat) (o : MsixOp) (s : State), s.upstream.contains p = true → s.configUp p = true →
    exec (.hostAccess p dpa (.msix o)) s = .next (s.msixWrite p o)) ∧
  (∀ (p : Port) (dpa : Nat) (s : State), s.upstream.contains p = true → s.configUp p = true →
    exec (.hostAccess p dpa .gpfDvsec) s = .next (s.emit (.hostRead p (some (natLE 2 0x0201 ++ natLE 4 450000))))) ∧
  (∀ (p : Port) (n : Fin 8) (d : HdmDecoder) (s : State), s.upstream.contains p = true →
    exec (.hdmDecoderCommit p n d) s = .next (s.setPort p { s.port p with decoders := put n.val d (s.port p).decoders })) ∧
  (∀ (p : Port) (training loopback : Bool) (s : State), s.upstream.contains p = true → (s.port p).linkState = 2 →
    exec (.cxlLinkDown ⟨p, training, loopback⟩) s = .next ((s.setPort p { s.port p with linkState := if training then 1 else 0, speed := 0, width := 0, flit := false, ide := false, follower := loopback }).raise 0x28 (Port.num p) 0 none))

/-- Creating, deleting, resetting and flushing spools. CREATE_SPOOL of a well-formed, free, well-placed and permitted definition
makes the spool over a zeroed ring and answers Success. DELETE_SPOOL removes an idle submission spool, or a completion spool
that no submission spool uses. RESET_SPOOL starts in the background, ends the spool's entries in flight, and completes once
every unread entry has its RING_RESET completion. FLUSH of kind 1 closes the open journal block, and of kind 2 waits for
seam, both in the background. Reserved bytes that are not zero are refused with FIELD. It rests on R338, R344, R346. -/
def Obligations.Spools : Prop :=
  (∀ (p : Port) (kind n : Byte) (reserved : Bytes) (s : State), s.takes p false = true → reserved.any (· ≠ 0) = true →
    exec (.deleteSpool p kind ⟨n, reserved⟩) s = .next (s.deny p .field)) ∧
  (∀ (p : Port) (d : Bytes) (s : State), s.takes p false = true → d.length = 64 → (parseSpool d).rangesOk = true → s.spoolState p (parseSpool d) = false → s.ringPlaced p (parseSpool d) = true → s.spoolTenant p (parseSpool d) = true →
    exec (.createSpool p d) s = .next ((s.addSpool p (parseSpool d)).ok p [])) ∧
  (∀ (p : Port) (n : Byte) (c : CompSpool) (reserved : Bytes) (s : State), s.takes p false = true → reserved.any (· ≠ 0) = false → s.compSpool p n = some c → (s.spools.sub.any fun x => x.port = p && x.completion = n) = false →
    exec (.deleteSpool p 3 ⟨n, reserved⟩) s = .next (({ s with spools := { s.spools with comp := s.spools.comp.filter fun c => !(c.port = p && c.num = n) } }).ok p [])) ∧
  (∀ (p : Port) (kind n : Byte) (x : SubSpool) (reserved : Bytes) (s : State), s.takes p false = true → reserved.any (· ≠ 0) = false → (kind = 1 ∨ kind = 2) → s.spoolOfKind p kind n = some x → x.idle = true → x.resetting = false →
    exec (.deleteSpool p kind ⟨n, reserved⟩) s = .next (({ s with spools := { s.spools with sub := s.spools.sub.filter fun y => !(y.port = p && y.num = n) } }).ok p [])) ∧
  (∀ (p : Port) (kind n : Byte) (x : SubSpool) (reserved : Bytes) (s : State), s.takes p false = true → reserved.any (· ≠ 0) = false → (kind = 1 ∨ kind = 2) → s.spoolOfKind p kind n = some x → x.resetting = false → (s.port p).bg = none →
    exec (.resetSpool p kind ⟨n, reserved⟩) s = .next ((((s.setPort p { s.port p with bg := some ⟨0xC012, n.toNat⟩ }).reply p .backgroundStarted 0 []).mapSub p n fun x => { x with resetting := true }).endSpoolWork p n)) ∧
  (∀ (p : Port) (n : Byte) (x : SubSpool) (u : State) (s : State), s.upstream.contains p = true → s.subSpool p n = some x → x.resetting = true → s.mailboxUp = true → u = s.drainReset p n x.unread → (u.subSpool p n).all SubSpool.idle = true →
    exec (.spoolResetComplete p n) s = .next ((u.mapSub p n fun x => { x with resetting := false, resets := x.resets + 1 }).endBg p 0xC012 .success 0)) ∧
  (∀ (p : Port) (h : Handle) (reserved : Bytes) (s : State), s.takes p false = true → reserved.any (· ≠ 0) = false → (s.port p).bg = none →
    exec (.flush p 1 ⟨h, reserved⟩) s = .next ((((s.setPort p { s.port p with bg := some ⟨0xC030, 1⟩ }).reply p .backgroundStarted 0 []).addJob { id := 0, client := .mailbox p, opcode := 0x21, coll := if h = 0xFFFF then none else some h, work := .flushJournal false, arrival := s.now }).closeBlock closedFlush)) ∧
  (∀ (p : Port) (h : Handle) (reserved : Bytes) (s : State), s.takes p false = true → reserved.any (· ≠ 0) = false → (s.port p).bg = none →
    exec (.flush p 2 ⟨h, reserved⟩) s = .next (((s.setPort p { s.port p with bg := some ⟨0xC030, 2⟩ }).reply p .backgroundStarted 0 []).addJob { id := 0, client := .mailbox p, opcode := 0x22, coll := if h = 0xFFFF then none else some h, work := .flushSeam, arrival := s.now }))

/-- Setting a power state and reaching it. SET_POWER_STATE to another state, with no transition in progress, outside PS4, with
no lent memory for PS3 and PS4, and for PS2 to PS4 with nothing unread or outstanding or with FORCE, starts the transition
in the background: the target shows, and for PS2 to PS4 a self-test and every run end. The transition is complete for PS0 to
PS2 at once but that PS2 waits for Tun's batches, of a baste or flat scan or of an encoding with dimension statistics, and
for PS3 and PS4 once every entry has completed and every journal block is durable; the state then reads the target; entering
PS2 the runs end, the clusters hold nothing and the queries that need them complete; entering PS3 or PS4 the links stop, and
start on the return from PS3; PS4 turns the journal OFF and discards what memory held; the transition is counted and
recorded, a forced one is counted as such, and the command ends with Success. It rests on R350, R351. -/
def Obligations.PowerStates : Prop :=
  (∀ (p : Port) (target flags : Byte) (reserved : Bytes) (s : State), s.takes p false = true → reserved.any (· ≠ 0) = false → target.toNat ≤ 4 → flags.toNat ≤ 1 → s.dev.transition = none → s.dev.power ≠ 4 → target.toNat ≠ s.dev.power → (3 ≤ target.toNat → (s.sw 0x3400).st = .off) → (2 ≤ target.toNat → flags.getLsbD 0 = false → s.spoolsBusy = false) → (s.port p).bg = none →
    exec (.setPowerState p target ⟨flags, reserved⟩) s = .next (((s.setPort p { s.port p with bg := some ⟨0xC050, target.toNat⟩ }).reply p .backgroundStarted 0 []).beginPower p target.toNat (flags.getLsbD 0))) ∧
  (∀ (p : Port) (k : Nat) (force : Bool) (s : State), k < 2 →
    s.beginPower p k force = { s with dev := { s.dev with transition := some ⟨p, k, false⟩, target := k } }) ∧
  (∀ (x : Transition) (s : State), s.dev.transition = some x → s.serves = true → x.target ≤ 2 → (x.target = 2 → s.dev.power < 2 → s.tunBatches = false) →
    exec (.powerTransitionComplete) s = .next (s.reachPower x)) ∧
  (∀ (x : Transition) (s : State), s.dev.transition = some x → s.serves = true → 2 < x.target → s.allDone = true → s.muts.journal.current = none → s.muts.journal.unwritten = [] →
    exec (.powerTransitionComplete) s = .next (s.reachPower x)) ∧
  (∀ (x : Transition) (k : Nat) (w v : State) (s : State), x.target ≤ 1 → s.dev.power ≤ 2 → w = { s with dev := { s.dev with power := x.target, transition := none, target := x.target } } → v = (w.bump 0xC00003).logChange 2 s.dev.power x.target 0 → (s.port x.port).bg = some ⟨0xC050, k⟩ →
    s.reachPower x = (if x.forced then v.bump 0xC00004 else v).endBg x.port 0xC050 .success 0) ∧
  (∀ (x : Transition) (k : Nat) (w v : State) (s : State), x.target = 2 → s.dev.power ≤ 2 → w = ((({ s with dev := { s.dev with power := x.target, transition := none, target := x.target } } : State).endRuns runPower).clearTun).endQueries (fun q => q.stage == .flat || q.stage == .flatWait) (fun q => { q with degraded := true, powerLimited := true }) → v = (w.bump 0xC00003).logChange 2 s.dev.power x.target 0 → (s.port x.port).bg = some ⟨0xC050, k⟩ →
    s.reachPower x = (if x.forced then v.bump 0xC00004 else v).endBg x.port 0xC050 .success 0) ∧
  (∀ (x : Transition) (k : Nat) (w v : State) (s : State), x.target = 3 → w = (((({ s with dev := { s.dev with power := x.target, transition := none, target := x.target } } : State).endRuns runPower).clearTun).endQueries (fun q => q.stage == .flat || q.stage == .flatWait) (fun q => { q with degraded := true, powerLimited := true })).linksStop → v = (w.bump 0xC00003).logChange 2 s.dev.power x.target 0 → (s.port x.port).bg = some ⟨0xC050, k⟩ →
    s.reachPower x = (if x.forced then v.bump 0xC00004 else v).endBg x.port 0xC050 .success 0) ∧
  (∀ (x : Transition) (k : Nat) (w v : State) (s : State), x.target = 4 → w = ((((({ s with dev := { s.dev with power := x.target, transition := none, target := x.target } } : State).endRuns runPower).clearTun).endQueries (fun q => q.stage == .flat || q.stage == .flatWait) (fun q => { q with degraded := true, powerLimited := true })).linksStop).enterPs4 → v = (w.bump 0xC00003).logChange 2 s.dev.power x.target 0 → (s.port x.port).bg = some ⟨0xC050, k⟩ →
    s.reachPower x = (if x.forced then v.bump 0xC00004 else v).endBg x.port 0xC050 .success 0) ∧
  (∀ (x : Transition) (k : Nat) (w v : State) (s : State), x.target ≤ 1 → s.dev.power = 3 → w = ({ s with dev := { s.dev with power := x.target, transition := none, target := x.target } } : State).linksStart → v = (w.bump 0xC00003).logChange 2 s.dev.power x.target 0 → (s.port x.port).bg = some ⟨0xC050, k⟩ →
    s.reachPower x = (if x.forced then v.bump 0xC00004 else v).endBg x.port 0xC050 .success 0) ∧
  (∀ (x : Transition) (k : Nat) (w v : State) (s : State), x.target = 2 → s.dev.power = 3 → w = (((({ s with dev := { s.dev with power := x.target, transition := none, target := x.target } } : State).endRuns runPower).clearTun).endQueries (fun q => q.stage == .flat || q.stage == .flatWait) (fun q => { q with degraded := true, powerLimited := true })).linksStart → v = (w.bump 0xC00003).logChange 2 s.dev.power x.target 0 → (s.port x.port).bg = some ⟨0xC050, k⟩ →
    s.reachPower x = (if x.forced then v.bump 0xC00004 else v).endBg x.port 0xC050 .success 0) ∧
  (∀ (p : Port) (k : Nat) (rc : Rc) (e : Nat) (s : State), (s.port p).bg = some ⟨0xC050, k⟩ →
    s.endBg p 0xC050 rc e = ((s.setPort p { s.port p with bg := none, lastOpcode := 0xC050, lastRc := rc, lastExt := e }).emit (.background p rc e)).msix p 0) ∧
  (∀ (p : Port) (k : Nat) (force : Bool) (u : State) (s : State), 2 ≤ k → u = (s.endSelfTest selfAborted).endRuns runPower →
    s.beginPower p k force = { u with dev := { u.dev with transition := some ⟨p, k, force && s.spoolsHold⟩, target := k } } ∧ u.test.selfTest = none ∧ u.tun.run = none ∧ u.tun.queue = [])

/-- The dictionary's mailbox commands, commits and retained copies. RESYNCHRONISE returns a new Device Summary Record and
advances its token. GET_ENTRY returns the result, type, length and value of an entry that may be read. SET_ENTRY of a number
that passes every check stores it, counts it and returns OK. COMMIT_RETAINED with no copy being written captures every
retained value into a new copy and returns OK and its sequence, laid out as the model chooses (log entry 32). A copy whose
read-back passes lies in its area of the flash and ends the write; one that does not is tried once more, and fails with
COMMIT_FAILED the second time. It rests on R343, R356, R366, R367, R375. -/
def Obligations.DictionaryMailbox : Prop :=
  (∀ (p : Port) (s : State), s.takes p true = true →
    exec (.resynchronise p) s = .next (({ s with trans := { s.trans with token := s.trans.token + 1 } }).ok p s.summary)) ∧
  (∀ (p : Port) (index : BitVec 16) (sub_ : Byte) (length : BitVec 32) (reserved : Bytes) (k n : Nat) (r : Row) (s : State), s.takes p true = true → reserved.any (· ≠ 0) = false → k = key index.toNat sub_.toNat → s.served (k / 256) = true → s.row k = some r → r.access ≠ .wo → r.ty.size = some n → n ≤ 8 → length.toNat = n → s.openEntry k = false →
    exec (.getEntry p index sub_ 0 ⟨length, reserved⟩) s = .next (s.ok p ([0x00, r.ty.code, 0, 0] ++ natLE 4 n ++ natLE n (s.value k)))) ∧
  (∀ (p : Port) (index : BitVec 16) (sub_ flags : Byte) (reserved value : Bytes) (k n : Nat) (r : Row) (s : State), s.takes p true = true → reserved.any (· ≠ 0) = false → k = key index.toNat sub_.toNat → flags.toNat ≤ 1 → s.writeGate (.mailbox p) (flags.getLsbD 0) k = none → sub_ ≠ 0 → rowOf k = some r → r.ty.size = some n → value.length = n → (switchable index.toNat && sub_ = 1) = false → s.rangeOk k (leNat value) = true → s.ownRule k (leNat value) = none → r.access ≠ .wo →
    exec (.setEntry p index sub_ flags ⟨0, reserved⟩ value) s = .next (((s.storeNum k (leNat value)).countSet k rOk).ok p (zeros 8))) ∧
  (∀ (p : Port) (q : Nat) (s : State), s.takes p true = true → s.dev.stepsDone = true → s.hasFlash = true → s.ret.writing = none → q = (s.newerCopy.map RetCopy.sequence).getD 0 + 1 →
    exec (.commitRetained p) s = .next ((s.startCopy q false).ok p ([0x00, 0, 0, 0] ++ natLE 4 q))) ∧
  (∀ (w : RetWrite) (s : State), s.ret.writing = some w → s.dev.st ≠ .off → s.dev.st ≠ .boot →
    exec (.retainedCopyWritten true) s = .next (({ s.storeCopy w.toA w.copy with ret := { (s.storeCopy w.toA w.copy).ret with writing := none, lastSequence := w.copy.sequence } }).nextCopy)) ∧
  (∀ (w : RetWrite) (s : State), s.ret.writing = some w → s.dev.st ≠ .off → w.retried = false →
    exec (.retainedCopyWritten false) s = .next ({ s with ret := { s.ret with writing := some { w with retried := true } } })) ∧
  (∀ (w : RetWrite) (s : State), s.ret.writing = some w → s.dev.st ≠ .off → s.dev.st ≠ .boot → w.retried = true →
    exec (.retainedCopyWritten false) s = .next ((({ s with ret := { s.ret with writing := none, failed := true } }).event 0x6B 0xFFFF 0).nextCopy))

/-- The standard mailbox commands. On a mailbox that takes them: IDENTIFY, GET_SUPPORTED_LOGS and IDENTIFY_MEMORY_DEVICE answer
Success (their bytes are those of CXL 3.1, log entry 13) and change nothing else. BACKGROUND_OPERATION_STATUS reports the
last command's opcode and how it ended where none runs, and the running one otherwise. REQUEST_ABORT ends an extended self-
test of its port, and is Unsupported otherwise. GET_LOG returns a part of the Command Effects Log, and Invalid Log for
another. The timestamp commands are Unsupported. It rests on R339, R341, R439. -/
def Obligations.StandardMailbox : Prop :=
  (∀ (p : Port) (s : State), s.takes p true = true →
    exec (.identify p) s = .next (s.ok p (cxlOpen 1 18))) ∧
  (∀ (p : Port) (s : State), s.takes p true = true → (s.port p).bg = none →
    exec (.backgroundOperationStatus p) s = .next (s.ok p ([0, 0] ++ natLE 2 (s.port p).lastOpcode ++ natLE 2 (s.port p).lastRc.code ++ natLE 2 (s.port p).lastExt))) ∧
  (∀ (p : Port) (b : BgCommand) (s : State), s.takes p true = true → (s.port p).bg = some b →
    Answers (.backgroundOperationStatus p) s fun t =>
      ∃ d, t = (s.ok p d).spend ∧ d.length = 8 ∧ sub d 2 2 = natLE 2 b.opcode) ∧
  (∀ (p : Port) (k : SelfTest) (s : State), s.takes p false = true → s.test.selfTest = some k → k.extended = true → k.port = p →
    exec (.requestAbort p) s = .next ((s.ok p []).endSelfTest selfAborted)) ∧
  (∀ (p : Port) (s : State), s.takes p false = true → (s.test.selfTest.any (fun k => k.extended && k.port = p)) = false →
    exec (.requestAbort p) s = .next (s.reply p .unsupported 0 [])) ∧
  (∀ (p : Port) (s : State), s.takes p true = true →
    exec (.getSupportedLogs p) s = .next (s.ok p (natLE 2 1 ++ zeros 6 ++ cxlOpen 2 16 ++ natLE 4 effectsLog.length))) ∧
  (∀ (p : Port) (offset length : Nat) (s : State), s.takes p true = true → offset + length ≤ effectsLog.length →
    exec (.getLog p true offset length) s = .next (s.ok p (sub effectsLog offset length))) ∧
  (∀ (p : Port) (offset length : Nat) (s : State), s.takes p true = true →
    exec (.getLog p false offset length) s = .next (s.reply p .invalidLog 0 [])) ∧
  (∀ (p : Port) (s : State), s.takes p true = true →
    Answers (.identifyMemoryDevice p) s fun t =>
      ∃ d, t = s.ok p d) ∧
  (∀ (p : Port) (s : State), s.takes p true = true →
    exec (.getTimestamp p) s = .next (s.reply p .unsupported 0 [])) ∧
  (∀ (p : Port) (s : State), s.takes p true = true →
    exec (.setTimestamp p) s = .next (s.reply p .unsupported 0 []))

/-- The CXL event logs. GET_EVENT_RECORDS returns the log of its class, oldest first, with its overflow fields, and removes
nothing; the 32 bytes before the records and the form of a record are the model's choice, as CXL 3.1 has them (log entry
13). CLEAR_EVENT_RECORDS removes the oldest records named by their handles, or all of them, and answers Invalid Handle where
the handles are not those. The interrupt policy reads as it was set. It rests on R352, R386. -/
def Obligations.EventLogCommands : Prop :=
  (∀ (p : Port) (log : EventLog) (l : CxlLog) (s : State), s.takes p true = true → l = (s.port p).log (EventLog.place log) →
    Answers (.getEventRecords p log) s fun t =>
      ∃ d, t = s.ok p (d ++ l.records.flatMap fun r => cxlRecord r.1 r.2) ∧ d.length = 32 ∧ sub d 2 2 = natLE 2 l.overflow ∧ sub d 20 2 = natLE 2 l.records.length) ∧
  (∀ (p : Port) (log : EventLog) (l u : CxlLog) (handles : Option (List Nat)) (s : State), s.takes p false = true → l = (s.port p).log (EventLog.place log) → l.clear handles = some u →
    exec (.clearEventRecords p log handles) s = .next ((s.setPort p ((s.port p).setLog (EventLog.place log) u)).ok p [])) ∧
  (∀ (p : Port) (log : EventLog) (handles : Option (List Nat)) (s : State), s.takes p false = true → ((s.port p).log (EventLog.place log)).clear handles = none →
    exec (.clearEventRecords p log handles) s = .next (s.reply p .invalidHandle 0 [])) ∧
  (∀ (l : CxlLog) (hs : List Nat), hs = (l.records.take hs.length).map Prod.fst → hs.length < l.records.length →
    l.clear (some hs) = some { l with records := l.records.drop hs.length }) ∧
  (∀ (p : Port) (s : State), s.takes p true = true →
    exec (.getEventInterruptPolicy p) s = .next (s.ok p (natLE 4 (s.port p).policy.toNat))) ∧
  (∀ (p : Port) (policy : BitVec 32) (s : State), s.takes p false = true →
    exec (.setEventInterruptPolicy p policy) s = .next ((s.setPort p { s.port p with policy := policy }).ok p []))

/-- Firmware update and the SPDM responder. A full transfer into the slot that does not run writes it and answers Success where
the slot verifies and FW Verification Failed where not; a transfer in parts begins, goes on in order and finishes the same
way, and ABORT ends it. ACTIVATE_FW at the next start-up records the slot as active, on trial; the running slot is accepted
without a change. GET_FW_INFO returns 80 bytes with two slots. An unsigned measurement is returned for its block; a request
that needs the identity, without an identity that is OK, is answered Unspecified, and one for a certificate slot other than
0 Invalid Request. FINISH opens a session of its transport, END_SESSION closes it, and both leave the sessions of the other
transports as they are. The layout of GET_FW_INFO's answer is the model's choice (log entry 13), and so are the SPDM error
codes and that each transport has its session (log entry 12). It rests on R417, R421, R423. -/
def Obligations.Firmware : Prop :=
  (∀ (p : Port) (slot : Byte) (b : Bool) (offset : Nat) (data : Bytes) (s : State), s.takes p true = true → fwSlot slot = some b → s.sec.running ≠ some b → s.ports.fw = none → offset + data.length ≤ slotBytes →
    exec (.transferFw p .full slot offset data) s = .next ((s.writeSlot b offset data).fwFinish p b)) ∧
  (∀ (p : Port) (slot : Byte) (b : Bool) (offset : Nat) (data : Bytes) (s : State), s.takes p true = true → fwSlot slot = some b → s.sec.running ≠ some b → s.ports.fw = none → offset + data.length ≤ slotBytes →
    exec (.transferFw p .initiate slot offset data) s = .next (({ s.writeSlot b offset data with ports := { (s.writeSlot b offset data).ports with fw := some ⟨p, b, offset + data.length⟩ } }).ok p [])) ∧
  (∀ (p : Port) (slot : Byte) (f : FwTransfer) (data : Bytes) (s : State), s.takes p true = true → s.ports.fw = some f → f.port = p → f.next + data.length ≤ slotBytes →
    exec (.transferFw p .continue slot f.next data) s = .next (({ s.writeSlot f.slotB f.next data with ports := { (s.writeSlot f.slotB f.next data).ports with fw := some { f with next := f.next + data.length } } }).ok p [])) ∧
  (∀ (p : Port) (slot : Byte) (f : FwTransfer) (data : Bytes) (s : State), s.takes p true = true → s.ports.fw = some f → f.port = p → f.next + data.length ≤ slotBytes →
    exec (.transferFw p .finish slot f.next data) s = .next ((s.writeSlot f.slotB f.next data).fwFinish p f.slotB)) ∧
  (∀ (p : Port) (slot : Byte) (f : FwTransfer) (offset : Nat) (data : Bytes) (s : State), s.takes p true = true → s.ports.fw = some f → f.port = p →
    exec (.transferFw p .abort slot offset data) s = .next (({ s with ports := { s.ports with fw := none } }).ok p [])) ∧
  (∀ (p : Port) (slot : Byte) (b : Bool) (s : State), s.takes p true = true → fwSlot slot = some b → s.sec.running ≠ some b →
    exec (.activateFw p false slot) s = .next ((s.setRecord fun r => { r with activeB := b, trial := true, trialStarted := false }).ok p [])) ∧
  (∀ (p : Port) (slot : Byte) (b : Bool) (s : State), s.takes p true = true → fwSlot slot = some b → s.sec.running = some b →
    exec (.activateFw p false slot) s = .next (s.ok p [])) ∧
  (∀ (p : Port) (s : State), s.takes p true = true →
    Answers (.getFwInfo p) s fun t =>
      ∃ d, t = s.ok p d ∧ d.length = 80 ∧ d.head? = some 2) ∧
  (∀ (via : Source) (i : Byte) (s : State), s.spdmHeard via = true → 1 ≤ i.toNat → i.toNat ≤ 8 →
    exec (.spdmRequest via (.getMeasurements i false)) s = .next (s.emit (.spdm via false (s.measurement i.toNat)))) ∧
  (∀ (via : Source) (r : SpdmRequest) (s : State), s.spdmHeard via = true → needsIdentity r = true → s.sec.identity ≠ 0 →
    exec (.spdmRequest via r) s = .next (s.emit (.spdm via true [spdmUnspecified]))) ∧
  (∀ (via : Source) (slot : Byte) (s : State), s.spdmHeard via = true → s.sec.identity = 0 → slot ≠ 0 →
    exec (.spdmRequest via (.challenge slot)) s = .next (s.emit (.spdm via true [spdmInvalid]))) ∧
  (∀ (via : Source) (s : State), s.spdmHeard via = true →
    exec (.spdmRequest via .finish) s = .next ((s.setSession via true).spdmOpen via [])) ∧
  (∀ (via : Source) (s : State), s.spdmHeard via = true →
    exec (.spdmRequest via .endSession) s = .next ((s.setSession via false).spdmOpen via [])) ∧
  (∀ (via x : Source) (s : State), x ≠ via →
    (s.setSession via true).sec.sessions.contains via = true ∧ (s.setSession via false).sec.sessions.contains via = false ∧ (s.setSession via true).sec.sessions.contains x = s.sec.sessions.contains x)

/-- Reading a query entry and its arrival checks. A control core reads the entry at the head of the query spool whose turn it
is, where it carries the row's opcode: the turn and the entry are taken, and the entry arrives with the collection its
handle and tenant name. In the fleet query queue's turn its descriptor arrives as a shard's; one whose collection's shard
map does not list this device, or the source, ends with NO_COLLECTION, and one of no known opcode with INVALID_INPUT; the
shard index of an answer for a map that does not list this device is a free value, and an entry of no known opcode is read
by GRAPH_SEARCH's row, as the model chooses (log entry 21). A spool entry of no known opcode completes with INVALID_INPUT,
and a spool whose turn it is not is left alone. The arrival checks answer in the order of R149: no collection, offline,
invalid (for a lead its own checks too), expired, past its cutoff; GET_BY_VID is answered at its arrival. It rests on R144,
R148, R149, R168, R311, R333. -/
def Obligations.QueryIntake : Prop :=
  (∀ (p : Port) (n : Byte) (needle : Fin 64) (x : SubSpool) (s : State), s.subSpool p n = some x → x.mutation = false → s.hasTurn (.spool p n) = true → field (s.headEntry x) 0 1 = 1 →
    exec (.graphSearch (.spool p n) needle) s = .next (((s.takeTurn (intakePlace (.spool p n)) x.weight).takeEntry p n).arrive ⟨.spool p n (x.head + 1).toNat, some (p, x.tenant.toNat), portHalf p⟩ (parseQuery (s.headEntry x)) (s.collFor (parseQuery (s.headEntry x)).coll x.tenant.toNat) needle.val)) ∧
  (∀ (needle : Fin 64) (b : Bytes) (dev : DevNum) (link shard : Nat) (rest : List (Bytes × DevNum × Nat)) (c : Coll) (s : State), s.fabric.queue = (b, dev, link) :: rest → s.hasTurn .fleet = true → field b 0 1 = 1 → s.coll (parseQuery b).coll = some c → c.shardOf s.devNum = some shard → c.st ≠ .deleting → c.shardOf dev.toNat ≠ none → (parseQuery b).fleet = true →
    exec (.graphSearch .fleet needle) s = .next (({ (s.takeTurn (intakePlace .fleet) 1).hostWork with fabric := { s.fabric with queue := rest } }).arrive ⟨.peer dev link shard, none, halfOfLink link⟩ (parseQuery b) (some c) needle.val)) ∧
  (∀ (p : Port) (n : Byte) (x : SubSpool) (s : State), s.subSpool p n = some x → x.mutation = false → s.hasTurn (.spool p n) = true → field (s.headEntry x) 0 1 = 2 →
    exec (.flatScan (.spool p n)) s = .next (((s.takeTurn (intakePlace (.spool p n)) x.weight).takeEntry p n).arrive ⟨.spool p n (x.head + 1).toNat, some (p, x.tenant.toNat), portHalf p⟩ (parseQuery (s.headEntry x)) (s.collFor (parseQuery (s.headEntry x)).coll x.tenant.toNat) 0)) ∧
  (∀ (b : Bytes) (dev : DevNum) (link shard : Nat) (rest : List (Bytes × DevNum × Nat)) (c : Coll) (s : State), s.fabric.queue = (b, dev, link) :: rest → s.hasTurn .fleet = true → field b 0 1 = 2 → s.coll (parseQuery b).coll = some c → c.shardOf s.devNum = some shard → c.st ≠ .deleting → c.shardOf dev.toNat ≠ none → (parseQuery b).fleet = true →
    exec (.flatScan .fleet) s = .next (({ (s.takeTurn (intakePlace .fleet) 1).hostWork with fabric := { s.fabric with queue := rest } }).arrive ⟨.peer dev link shard, none, halfOfLink link⟩ (parseQuery b) (some c) 0)) ∧
  (∀ (p : Port) (n : Byte) (x : SubSpool) (s : State), s.subSpool p n = some x → x.mutation = false → s.hasTurn (.spool p n) = true → field (s.headEntry x) 0 1 = 3 →
    exec (.getByVid (.spool p n)) s = .next (((s.takeTurn (intakePlace (.spool p n)) x.weight).takeEntry p n).arrive ⟨.spool p n (x.head + 1).toNat, some (p, x.tenant.toNat), portHalf p⟩ (parseQuery (s.headEntry x)) (s.collFor (parseQuery (s.headEntry x)).coll x.tenant.toNat) 0)) ∧
  (∀ (p : Port) (n : Byte) (needle : Fin 64) (x : SubSpool) (s : State), s.subSpool p n = some x → x.mutation = false → s.hasTurn (.spool p n) = true → field (s.headEntry x) 0 1 = 4 →
    exec (.hybrid (.spool p n) needle) s = .next (((s.takeTurn (intakePlace (.spool p n)) x.weight).takeEntry p n).arrive ⟨.spool p n (x.head + 1).toNat, some (p, x.tenant.toNat), portHalf p⟩ (parseQuery (s.headEntry x)) (s.collFor (parseQuery (s.headEntry x)).coll x.tenant.toNat) needle.val)) ∧
  (∀ (needle : Fin 64) (b : Bytes) (dev : DevNum) (link shard : Nat) (rest : List (Bytes × DevNum × Nat)) (c : Coll) (s : State), s.fabric.queue = (b, dev, link) :: rest → s.hasTurn .fleet = true → field b 0 1 = 4 → s.coll (parseQuery b).coll = some c → c.shardOf s.devNum = some shard → c.st ≠ .deleting → c.shardOf dev.toNat ≠ none → (parseQuery b).fleet = true →
    exec (.hybrid .fleet needle) s = .next (({ (s.takeTurn (intakePlace .fleet) 1).hostWork with fabric := { s.fabric with queue := rest } }).arrive ⟨.peer dev link shard, none, halfOfLink link⟩ (parseQuery b) (some c) needle.val)) ∧
  (∀ (p : Port) (n : Byte) (needle : Fin 64) (x : SubSpool) (s : State), s.subSpool p n = some x → x.mutation = false → s.hasTurn (.spool p n) = true → isQueryOpcode (field (s.headEntry x) 0 1) = false → field (s.headEntry x) 0 1 ≠ 0x40 →
    exec (.graphSearch (.spool p n) needle) s = .next ((((s.takeTurn (intakePlace (.spool p n)) x.weight).takeEntry p n).complete p n (x.head + 1).toNat (field (s.headEntry x) 4 4) 0 0 (field (s.headEntry x) 0 1) stInvalid).bump 0x502001)) ∧
  (∀ (p : Port) (n : Byte) (needle : Fin 64) (s : State), (∀ x, s.subSpool p n = some x → x.mutation = true ∨ s.hasTurn (.spool p n) = false) →
    exec (.hybrid (.spool p n) needle) s = .next (s)) ∧
  (∀ (needle : Fin 64) (b : Bytes) (dev : DevNum) (link : Nat) (rest : List (Bytes × DevNum × Nat)) (c : Coll) (shard : Nat) (s : State), s.fabric.queue = (b, dev, link) :: rest → s.hasTurn .fleet = true → field b 0 1 = 1 → s.coll (parseQuery b).coll = some c → c.shardOf s.devNum = some shard → (c.st = .deleting ∨ c.shardOf dev.toNat = none) →
    exec (.graphSearch .fleet needle) s = .next (({ (s.takeTurn (intakePlace .fleet) 1).hostWork with fabric := { s.fabric with queue := rest } }).endEarly ⟨.peer dev link shard, none, halfOfLink link⟩ (parseQuery b) stNoColl 0 0)) ∧
  (∀ (needle : Fin 64) (b : Bytes) (dev : DevNum) (link : Nat) (rest : List (Bytes × DevNum × Nat)) (s : State), s.fabric.queue = (b, dev, link) :: rest → s.hasTurn .fleet = true → field b 0 1 = 1 → ((s.coll (parseQuery b).coll).bind fun c => c.shardOf s.devNum) = none →
    exec (.graphSearch .fleet needle) s = .next (({ (s.takeTurn (intakePlace .fleet) 1).hostWork with fabric := { s.fabric with queue := rest } }).spend.endEarly ⟨.peer dev link (s.fresh.toNat % 2 ^ 16), none, halfOfLink link⟩ (parseQuery b) stNoColl 0 0)) ∧
  (∀ (needle : Fin 64) (b : Bytes) (dev : DevNum) (link : Nat) (rest : List (Bytes × DevNum × Nat)) (c : Coll) (shard : Nat) (s : State), s.fabric.queue = (b, dev, link) :: rest → s.hasTurn .fleet = true → isQueryOpcode (field b 0 1) = false → s.coll (parseQuery b).coll = some c → c.shardOf s.devNum = some shard →
    exec (.graphSearch .fleet needle) s = .next (({ (s.takeTurn (intakePlace .fleet) 1).hostWork with fabric := { s.fabric with queue := rest } }).endEarly ⟨.peer dev link shard, none, halfOfLink link⟩ (parseQuery b) stInvalid 0 0)) ∧
  (∀ (r : Asker) (d : QueryDesc) (c : Option Coll) (needle st fl : Nat) (s : State), s.arrivalStatus r.who d c = some (st, fl) →
    s.arrive r d c needle = s.endEarly r d st fl 0) ∧
  (∀ (r : Asker) (d : QueryDesc) (c : Coll) (needle : Nat) (s : State), s.arrivalStatus r.who d (some c) = none → d.opcode = 3 →
    s.arrive r d (some c) needle = s.answerGet r d c) ∧
  (∀ (who : Option (Port × Nat)) (d : QueryDesc) (s : State),
    s.arrivalStatus who d none = some (stNoColl, 0)) ∧
  (∀ (who : Option (Port × Nat)) (d : QueryDesc) (c : Coll) (s : State), c.st ≠ .online →
    s.arrivalStatus who d (some c) = some (stOffline, 0)) ∧
  (∀ (who : Option (Port × Nat)) (d : QueryDesc) (c : Coll) (s : State), c.st = .online → (!s.entryOk who d c.d || (d.fleet && who.isSome && !s.leadOk d c)) = true →
    s.arrivalStatus who d (some c) = some (stInvalid, 0)) ∧
  (∀ (who : Option (Port × Nat)) (d : QueryDesc) (c : Coll) (s : State), c.st = .online → s.entryOk who d c.d = true → (d.fleet && who.isSome && !s.leadOk d c) = false → d.deadline ≤ s.now →
    s.arrivalStatus who d (some c) = some (stExpired, 0)) ∧
  (∀ (who : Option (Port × Nat)) (d : QueryDesc) (c : Coll) (s : State), c.st = .online → s.entryOk who d c.d = true → (d.fleet && who.isSome && !s.leadOk d c) = false → s.now < d.deadline → d.deadline - s.num 0x200301 ≤ s.now →
    s.arrivalStatus who d (some c) = some (stDeadline, 0))

/-- The stages of a query in flight. The arrival of a neighbour list completes its hop: the slot is marked as expanded, its
neighbours are considered in order on a score unit, and the next hop follows. Prefetched code lines join the query's lines
once. A rerank batch of a query without listed VIDs gives the next sixteen candidates their rerank distances and, where they
are the last, the list is sorted again and the query joins a baste batch. A query that waits for space makes its check
again, and is cut at its cutoff. A query that is not there, or is at another stage, is left alone. It rests on R153, R154,
R164, R183. -/
def Obligations.QueryStages : Prop :=
  (∀ (qid : Nat) (q : Query) (v : Nat) (c : Coll) (u : State) (s : State), s.query qid = some q → q.stage = .hops → q.current = some v → s.coll q.d.coll = some c → u = (s.countHop q v).mapQuery qid (fun q => { q with hops := q.hops + 1, current := none, requested := q.requested.filter (· ≠ v), lines := q.lines.filter fun l => !(c.slot v).nbrs.contains l, list := update (fun e => e.ref = v) (fun e => { e with expanded := true }) q.list }) →
    exec (.neighbourListArrival qid) s = .next (((u.scoreSlots q (c.slot v).nbrs).considerAll qid (c.slot v).nbrs).nextHop qid)) ∧
  (∀ (qid : Nat)  (s : State), s.query qid = none →
    exec (.neighbourListArrival qid) s = .next (s)) ∧
  (∀ (qid : Nat) (q : Query) (slot : Nat) (unit : Fin 3) (c : Coll) (s : State), s.query qid = some q → q.stage = .hops → s.coll q.d.coll = some c → (q.requested.any fun v => (c.slot v).nbrs.contains slot) = true → q.visited.contains slot = false → q.lines.contains slot = false → (s.unitsOf q.needle).contains (3 * q.needle + unit.val) = true →
    exec (.codeLinesArrival qid slot unit) s = .next ((s.useUnit q (3 * q.needle + unit.val)).mapQuery qid fun q => { q with lines := q.lines ++ [slot] })) ∧
  (∀ (qid : Nat) (q : Query) (slot : Nat) (unit : Fin 3) (c : Coll) (s : State), s.query qid = some q → q.stage = .hops → s.coll q.d.coll = some c → ((q.requested.any fun v => (c.slot v).nbrs.contains slot) = false ∨ q.visited.contains slot = true ∨ q.lines.contains slot = true) →
    exec (.codeLinesArrival qid slot unit) s = .next (s)) ∧
  (∀ (qid : Nat) (q : Query) (c : Coll) (now_ : List Nat) (r : List LEntry × List ConvMark) (s : State), s.query qid = some q → q.stage = .rerank → s.coll q.d.coll = some c → now_ = (q.rerankPlaces.drop q.reranked).take 16 → q.listedVids = [] → q.rerankPlaces.length ≤ q.reranked + 16 → q.reranked ≤ q.rerankPlaces.length → r = rerankList c (q.prep c) now_ q.list →
    Answers (.rerankBatchComplete qid) s fun t =>
      t = ((((s.mapQuery qid fun _ => { q with list := r.1, reranked := q.reranked + now_.length }).countScores r.2).bumpBy 0x504006 0).mapQuery qid fun q => { q with list := sortBy LEntry.before q.list }).joinBaste qid) ∧
  (∀ (qid : Nat)  (s : State), s.query qid = none →
    exec (.rerankBatchComplete qid) s = .next (s)) ∧
  (∀ (qid : Nat) (q : Query)  (s : State), s.query qid = some q → q.stage = .waiting → s.now < q.cutoff →
    exec (.listSpaceReleased qid) s = .next (s.launch qid)) ∧
  (∀ (qid : Nat) (q : Query)  (s : State), s.query qid = some q → q.stage = .waiting → q.cutoff ≤ s.now →
    exec (.listSpaceReleased qid) s = .next (s.cutQuery qid)) ∧
  (∀ (qid : Nat) (q : Query)  (s : State), s.query qid = some q → q.stage = .waiting → q.cutoff ≤ s.now →
    exec (.queryWaitCutoff qid) s = .next (s.cutQuery qid)) ∧
  (∀ (qid : Nat) (q : Query)  (s : State), s.query qid = some q → (q.stage ≠ .waiting ∨ s.now < q.cutoff) →
    exec (.queryWaitCutoff qid) s = .next (s))

/-- Baste batches, flat batches and the exhaustive pass. A baste batch starts when the set number of queries has joined or the
first has waited long enough: it is counted, every collection that its members ask is scanned for them, and the batch, with
the status of all its tiles, takes the next number while its members' stage is baste; before that, and with nothing waiting,
nothing changes. When it completes, its status is kept in P7000.08, it is gone, and each member ends with its baste scan
done. A flat batch starts on the same rule while Tun scans, with at most the set number of queries and those that fit the
scan region: it is counted and takes the next number, its members' stage is flat, each makes its check, and those that stop
leave it; before that, and while Tun does not scan, nothing changes. A flat batch's chunk is scanned where some online
cluster has no baste scan; a pass's chunk is scanned. A chunk of a batch or pass that is not there has no effect. It rests
on R22, R165, R166, R196. -/
def Obligations.ScanBatches : Prop :=
  (∀ (h : Half) (a : Query) (r : List Query) (s : State), s.basteWaiting h = a :: r → (s.num 0x500006 ≤ (a :: r).length ∨ a.joinedAt + s.num 0x500007 ≤ s.now) →
    exec (.basteBatchStart h) s = .next (((s.bump 0x502009).latchGrist.scanMembers h ((a :: r).take (s.num 0x500006))).1.openBatch
      { id := s.search.nextId, flat := false, half := h,
        coll := 0, rerank := false, members := ((a :: r).take (s.num 0x500006)).map Query.id, entries := [],
        status := BitVec.ofNat 8 ((s.bump 0x502009).latchGrist.scanMembers h ((a :: r).take (s.num 0x500006))).2,
        tun := s.scansOnTun ((a :: r).take (s.num 0x500006)) } .baste)) ∧
  (∀ (b : Batch) (x : Stage) (s : State),
    s.openBatch b x = { s with search := { s.search with nextId := s.search.nextId + 1, batches := s.search.batches ++ [b], queries := update (fun q => b.members.contains q.id) (fun q => { q with stage := x }) s.search.queries } }) ∧
  (∀ (h : Half) (s : State), s.basteWaiting h = [] →
    exec (.basteBatchStart h) s = .next (s)) ∧
  (∀ (h : Half) (a : Query) (r : List Query) (s : State), s.basteWaiting h = a :: r → (a :: r).length < s.num 0x500006 → s.now < a.joinedAt + s.num 0x500007 →
    exec (.basteBatchStart h) s = .next (s)) ∧
  (∀ (id : Nat) (b : Batch) (s : State), s.search.batches.find? (fun b => b.id = id && !b.flat) = some b →
    exec (.basteBatchComplete id) s = .next (b.members.foldl (fun (s : State) q => s.endQuery q fun q => { q with basteRan := true }) { s with search := { s.search with batches := s.search.batches.filter fun x => x.id ≠ id }, tun := { s.tun with lastScanStatus := b.status } })) ∧
  (∀ (id : Nat) (s : State), s.search.batches.find? (fun b => b.id = id && !b.flat) = none →
    exec (.basteBatchComplete id) s = .next (s)) ∧
  (∀ (h : Handle) (rerank : Bool) (c : Coll) (a : Query) (r : List Query) (ids : List Nat) (s : State), s.coll h = some c → s.flatWaiting h rerank = a :: r → s.tunScans = true → (s.num 0x500008 ≤ (a :: r).length ∨ a.joinedAt + s.num 0x500009 ≤ s.now) → ids = ((a :: r).take (min (s.num 0x500008) (max 1 (s.latchGrist.gristCap c.codeP.n)))).map Query.id →
    exec (.flatBatchStart h rerank) s = .next ((ids.foldl (fun (s : State) q => s.flatStep c.highWater rerank q) ((s.latchGrist.bump 0x50200A).openBatch
      { id := s.latchGrist.search.nextId, flat := true, half := a.half, coll := h, rerank := rerank, members := ids, entries := [],
        tun := tunDistance c.d.distance } .flat)).settleBatch s.latchGrist.search.nextId)) ∧
  (∀ (h : Handle) (rerank : Bool) (c : Coll) (a : Query) (r : List Query) (s : State), s.coll h = some c → s.flatWaiting h rerank = a :: r → (a :: r).length < s.num 0x500008 → s.now < a.joinedAt + s.num 0x500009 →
    exec (.flatBatchStart h rerank) s = .next (s)) ∧
  (∀ (h : Handle) (rerank : Bool) (s : State), (s.flatWaiting h rerank = [] ∨ s.tunScans = false) →
    exec (.flatBatchStart h rerank) s = .next (s)) ∧
  (∀ (id : Nat) (b : Batch) (c : Coll) (s : State), s.search.batches.find? (fun b => b.id = id && b.flat) = some b → s.coll b.coll = some c → s.tunScans = true → s.upClusters.all s.basteOn = false →
    exec (.scanChunkComplete (.flat id)) s = .next (s.flatChunk b c)) ∧
  (∀ (id : Nat) (b : Batch) (c : Coll) (s : State), s.search.batches.find? (fun b => b.id = id && b.flat) = some b → s.coll b.coll = some c → (s.tunScans = false ∨ s.upClusters.all s.basteOn = true) →
    exec (.scanChunkComplete (.flat id)) s = .next (s)) ∧
  (∀ (qid : Nat) (q : Query) (c : Coll) (s : State), s.query qid = some q → q.stage = .pass → s.coll q.d.coll = some c →
    exec (.scanChunkComplete (.pass qid)) s = .next (s.passChunk q c)) ∧
  (∀ (qid : Nat) (s : State), s.query qid = none →
    exec (.scanChunkComplete (.pass qid)) s = .next (s)) ∧
  (∀ (id : Nat) (s : State), s.search.batches.find? (fun b => b.id = id && b.flat) = none →
    exec (.scanChunkComplete (.flat id)) s = .next (s))

/-- Mutation spool entries. A control core reads the entry at the head of the mutation spool whose turn it is, where it carries
the row's opcode: the turn and the entry are taken and a job is added with the work its checks give. MUTATE then accepts its
records; FLUSH_JOURNAL closes the open block and waits for it; FLUSH_SEAM waits; REPLAY applies records; SAVE takes its
snapshot. An entry whose checks fail is taken and its job ends with the status they give, and a spool whose turn it is not
is left alone. A mutation entry is not ready while a record waits, nor a MUTATE entry while its collection is replayed. It
rests on R200, R202, R208, R222, R227, R228. -/
def Obligations.MutationEntries : Prop :=
  (∀ (p : Port) (n : Byte) (x : SubSpool) (e : MutEntry) (w : MutWork) (u : State) (s : State), s.subSpool p n = some x → x.mutation = true → s.hasTurn (.spool p n) = true → e = parseMutEntry (s.headEntry x) → e.opcode = 0x20 → mutateWork p s x.tenant.toNat e = .ok w → u = ((s.takeTurn (intakePlace (.spool p n)) x.weight).takeEntry p n).addJob (e.job p n (x.head + 1).toNat w none s.now) →
    exec (.mutate p n) s = .next ((u.mutateRun u.lastJob 65540).settleJobs)) ∧
  (∀ (p : Port) (n : Byte) (x : SubSpool) (e : MutEntry) (w : MutWork) (u : State) (s : State), s.subSpool p n = some x → x.mutation = true → s.hasTurn (.spool p n) = true → e = parseMutEntry (s.headEntry x) → e.opcode = 0x21 → (∀ j ∈ s.muts.jobs, j.id < s.muts.nextId) → w = (.flushJournal false) → u = ((s.takeTurn (intakePlace (.spool p n)) x.weight).takeEntry p n).addJob (e.job p n (x.head + 1).toNat w none s.now) →
    exec (.flushJournal p n) s = .next ((u.closeBlock closedFlush).mapJob (u.closeBlock closedFlush).lastJob fun j => { j with aux := (u.closeBlock closedFlush).muts.journal.lastClosed })) ∧
  (∀ (p : Port) (n : Byte) (x : SubSpool) (e : MutEntry) (w : MutWork) (u : State) (s : State), s.subSpool p n = some x → x.mutation = true → s.hasTurn (.spool p n) = true → e = parseMutEntry (s.headEntry x) → e.opcode = 0x22 → w = .flushSeam → u = ((s.takeTurn (intakePlace (.spool p n)) x.weight).takeEntry p n).addJob (e.job p n (x.head + 1).toNat w none s.now) →
    exec (.flushSeam p n) s = .next (u)) ∧
  (∀ (p : Port) (n : Byte) (x : SubSpool) (e : MutEntry) (w : MutWork) (u : State) (s : State), s.subSpool p n = some x → x.mutation = true → s.hasTurn (.spool p n) = true → e = parseMutEntry (s.headEntry x) → e.opcode = 0x23 → replayWork p s x.tenant.toNat e = .ok w → u = ((s.takeTurn (intakePlace (.spool p n)) x.weight).takeEntry p n).addJob (e.job p n (x.head + 1).toNat w none s.now) →
    exec (.replay p n) s = .next ((u.replayRun u.lastJob (u.windowLength / 128 + 2)).settleJobs)) ∧
  (∀ (p : Port) (n : Byte) (x : SubSpool) (e : MutEntry) (w : MutWork) (u : State) (s : State), s.subSpool p n = some x → x.mutation = true → s.hasTurn (.spool p n) = true → e = parseMutEntry (s.headEntry x) → e.opcode = 0x24 → saveWork p s x.tenant.toNat e = .ok w → u = ((s.takeTurn (intakePlace (.spool p n)) x.weight).takeEntry p n).addJob (e.job p n (x.head + 1).toNat w none s.now) →
    exec (.save p n) s = .next (u)) ∧
  (∀ (p : Port) (n : Byte) (x : SubSpool) (op : Nat) (f : State → Nat → MutEntry → Except Nat MutWork) (e : MutEntry) (st : Nat) (s : State), s.subSpool p n = some x → x.mutation = true → s.hasTurn (.spool p n) = true → e = parseMutEntry (s.headEntry x) → e.opcode = op → 0x20 ≤ op → op ≤ 0x24 → f s x.tenant.toNat e = .error st →
    s.readMutation p n op f = (((s.takeTurn (intakePlace (.spool p n)) x.weight).takeEntry p n).addJob (e.job p n (x.head + 1).toNat .refused (some st) s.now)).settleJobs) ∧
  (∀ (p : Port) (n : Byte) (s : State), s.hasTurn (.spool p n) = false →
    exec (.flushSeam p n) s = .next (s)) ∧
  (∀ (x : SubSpool) (s : State), x.mutation = true → (s.muts.jobs.any MutJob.waiting = true ∨ (field (s.headEntry x) 0 1 = 0x20 ∧ s.replaying (field (s.headEntry x) 2 2) = true)) →
    s.headReady x = false) ∧
  (∀ (p : Port) (tenant : Nat) (e : MutEntry) (s : State), s.collFor (BitVec.ofNat 16 e.coll) tenant = none →
    mutateWork p s tenant e = .error stNoColl ∧ replayWork p s tenant e = .error stNoColl ∧ saveWork p s tenant e = .error stNoColl)

/-- Waiting records, flushes, replay and save. A waiting job goes on where it waited when room appears, and every waiting job
tries again when a journal block is written or journal space is released, after the release word is read; a job that does
not wait is left alone. A flush whose condition holds completes. A replay that has ended writes its report of 64 bytes and
completes, and one that has not goes on waiting. A SAVE whose snapshot is in place writes the image, counts its bytes as
accepted and completes, or ends with INVALID_INPUT where the image does not fit, and until then it waits. It rests on R208,
R222, R223, R227, R228. -/
def Obligations.MutationProgress : Prop :=
  (∀ (job : Nat) (j : MutJob) (w : MutateWork) (s : State), s.job job = some j → j.waiting = true → j.work = .mutate w →
    exec (.basteRoom job) s = .next ((s.mutateRun job (w.count + 2)).settleJobs)) ∧
  (∀ (job : Nat) (j : MutJob) (s : State), s.job job = some j → j.waiting = false →
    exec (.basteRoom job) s = .next (s)) ∧
  (∀ (ok : Bool) (s : State),
    exec (.journalBlockWriteComplete ok) s = .next ((s.readRelease.blockOutcome ok).resumeJobs)) ∧
  (∀ (s : State),
    exec (.journalSpaceReleased) s = .next (s.readRelease.resumeJobs)) ∧
  (∀ (s : State),
    s.readRelease = { s with muts := { s.muts with journal := { s.muts.journal with release := leNat (s.mem.read s.releaseWord 8) } } }) ∧
  (∀ (job : Nat) (j : MutJob) (s : State), s.job job = some j → j.status = none → s.flushDone j = true →
    exec (.flushSatisfied job) s = .next ((s.mapJob job fun j => { j with status := some stOk }).settleJobs)) ∧
  (∀ (job : Nat) (j : MutJob) (s : State), s.job job = some j → s.flushDone j = false →
    exec (.flushSatisfied job) s = .next (s)) ∧
  (∀ (job : Nat) (j : MutJob) (w : ReplayWork) (s : State), s.job job = some j → j.status = none → j.work = .replay w → w.ended = true →
    exec (.replayComplete job) s = .next (((s.devWrite w.report (replayReport j.accepted w.position w)).finishJob job stOk).settleJobs)) ∧
  (∀ (applied start : Nat) (w : ReplayWork),
    (replayReport applied start w).length = 64) ∧
  (∀ (job : Nat) (j : MutJob) (w : ReplayWork) (s : State), s.job job = some j → j.work = .replay w → w.ended = false →
    exec (.replayComplete job) s = .next (s)) ∧
  (∀ (job : Nat) (j : MutJob) (w : SaveWork) (h : Handle) (c : Coll) (u : State) (x : Bytes × Nat) (s : State), s.job job = some j → j.work = .save w → j.status = none → j.coll = some h → s.coll h = some c → s.saveReady c.d.handle w.snapshot = true → x = c.image w.snapshot (s.savePosition w.snapshot) (fun i => Config.freeValue (s.free + i)) → x.1.length ≤ w.capacity → u = { s with free := s.free + c.highWater } →
    exec (.saveComplete job) s = .next (((((u.devWrite w.dest x.1).mapJob job fun j => { j with accepted := x.2 }).finishJob job stOk).settleJobs).trimBaste)) ∧
  (∀ (job : Nat) (j : MutJob) (w : SaveWork) (h : Handle) (c : Coll) (u : State) (x : Bytes × Nat) (s : State), s.job job = some j → j.work = .save w → j.status = none → j.coll = some h → s.coll h = some c → s.saveReady c.d.handle w.snapshot = true → x = c.image w.snapshot (s.savePosition w.snapshot) (fun i => Config.freeValue (s.free + i)) → w.capacity < x.1.length → u = { s with free := s.free + c.highWater } →
    exec (.saveComplete job) s = .next (((u.finishJob job stInvalid).settleJobs).trimBaste)) ∧
  (∀ (job : Nat) (j : MutJob) (w : SaveWork) (h : Handle) (c : Coll) (s : State), s.job job = some j → j.work = .save w → j.status = none → j.coll = some h → s.coll h = some c → s.saveReady c.d.handle w.snapshot = false →
    exec (.saveComplete job) s = .next (s))

/-- Journal blocks. The timer of an open block that is due closes it with CLOSED_TIMER; a block not due, and no block, are left
alone. Closing gives the block the next sequence and its place in the window. A first write failure marks the oldest
unwritten block as retried; a good write puts the block's bytes into the window, counts it, acknowledges its records and
completes what that settles. A second failure turns the journal off and records event 0x60. It rests on R220, R222, R223. -/
def Obligations.Journal : Prop :=
  (∀ (b : JBlock) (s : State), s.muts.journal.current = some b → s.blockDue b = true →
    exec (.journalBlockTimer) s = .next (s.closeBlock closedTimer)) ∧
  (∀ (b : JBlock) (s : State), s.muts.journal.current = some b → s.blockDue b = false →
    exec (.journalBlockTimer) s = .next (s)) ∧
  (∀ (s : State), s.muts.journal.current = none →
    exec (.journalBlockTimer) s = .next (s)) ∧
  (∀ (flag p : Nat) (b : JBlock) (s : State), s.muts.journal.current = some b → p = placeBlock s.windowLength s.muts.journal.append b.length →
    (s.closeBlock flag).muts.journal = { s.muts.journal with current := none, unwritten := s.muts.journal.unwritten ++ [{ b with flags := b.flags + flag, sequence := s.muts.journal.nextSequence, position := p }], append := p + b.length, lastClosed := p, nextSequence := s.muts.journal.nextSequence + 1, written := s.muts.journal.written ++ [(p, b.lastGeneration)] }) ∧
  (∀ (b : JBlock) (r : List JBlock) (s : State), s.muts.journal.unwritten = b :: r → s.windowFits (b.position + b.length) = true → b.retried = false →
    s.blockOutcome false = s.mapJournal fun j => { j with unwritten := { b with retried := true } :: r }) ∧
  (∀ (b : JBlock) (r : List JBlock) (s u : State), s.muts.journal.unwritten = b :: r → s.windowFits (b.position + b.length) = true → u = (s.windowWrite b.position b.bytes).mapJournal (fun j => { j with unwritten := r, durable := b.position + b.length }) →
    s.blockOutcome true = (((u.bump 0x41000C).setNum 0x41000E b.sequence).ackBlock b).settleJobs) ∧
  (∀ (b : JBlock) (r : List JBlock) (s : State), s.muts.journal.unwritten = b :: r → s.windowFits (b.position + b.length) = true → b.retried = true →
    s.blockOutcome false = s.journalFail)

/-- Encode batches and drift. A control core reads the encode entry at the head of the query spool whose turn it is: the turn
and the entry are taken and carried out. An entry with an unknown collection completes with NO_COLLECTION and one whose
parameters are not valid with INVALID_INPUT; one whose units are online starts a batch with the next number, or, with no
Kiln unit online, completes with DEGRADED. A batch's end removes it and runs it to its results. A full drift window of a
collection sets the baseline where there is none; a collection without one is left alone. It rests on R94, R95, R96, R116,
R117. -/
def Obligations.EncodeCommands : Prop :=
  (∀ (p : Port) (n : Byte) (x : SubSpool) (s : State), s.subSpool p n = some x → x.mutation = false → s.hasTurn (.spool p n) = true → field (s.headEntry x) 0 1 = 0x40 →
    exec (.encode p n) s = .next (((s.takeTurn (intakePlace (.spool p n)) x.weight).takeEntry p n).startEncode p n (x.head + 1).toNat x.tenant.toNat (parseEncode (s.headEntry x)))) ∧
  (∀ (p : Port) (n : Byte) (s : State), s.subSpool p n = none →
    exec (.encode p n) s = .next (s)) ∧
  (∀ (p : Port) (n : Byte) (head tenant : Nat) (e : EncodeEntry) (s : State), e.coll ≠ 0xFFFF → s.collFor (BitVec.ofNat 16 e.coll) tenant = none →
    s.startEncode p n head tenant e = s.complete p n head e.tag 0 0 0x40 stNoColl) ∧
  (∀ (p : Port) (n : Byte) (head tenant : Nat) (e : EncodeEntry) (s : State), e.coll = 0xFFFF → s.encodeParams p tenant e none = none →
    s.startEncode p n head tenant e = s.complete p n head e.tag 0 0 0x40 stInvalid) ∧
  (∀ (p : Port) (n : Byte) (head tenant : Nat) (e : EncodeEntry) (x : EncP) (s : State), e.coll = 0xFFFF → s.encodeParams p tenant e none = some x → s.anyKiln = true → (e.flag 1 = false ∨ s.tunScans = true) →
    s.startEncode p n head tenant e = { s with search := { s.search with nextId := s.search.nextId + 1 }, encodes := s.encodes ++ [{ e.job s.search.nextId p n head none x with unit := s.encodeUnit }] }) ∧
  (∀ (p : Port) (n : Byte) (head tenant : Nat) (e : EncodeEntry) (x : EncP) (s : State), e.coll = 0xFFFF → s.encodeParams p tenant e none = some x → s.anyKiln = false →
    s.startEncode p n head tenant e = s.endEncode (e.job s.search.nextId p n head none x) x stDegraded {}) ∧
  (∀ (id : Nat) (j : EncodeJob) (s : State), s.encodes.find? (fun j => j.id = id) = some j →
    exec (.encodeBatchComplete id) s = .next (({ s with encodes := s.encodes.filter fun x => x.id ≠ id }).runEncode j)) ∧
  (∀ (id : Nat) (s : State), s.encodes.find? (fun j => j.id = id) = none →
    exec (.encodeBatchComplete id) s = .next (s)) ∧
  (∀ (h : Handle) (c : Coll) (w : F32 × F32) (r : List (F32 × F32)) (s : State), s.coll h = some c → c.drift.ready = w :: r → c.drift.baseline = none →
    exec (.driftWindow h) s = .next (s.mapColl h fun c => { c with drift := { c.drift with ready := r, lastNmse := w.1, lastSat := w.2, baseline := some w.1 } })) ∧
  (∀ (h : Handle) (s : State), s.coll h = none →
    exec (.driftWindow h) s = .next (s))

/-- Seam: insert, delete and the freeing of slots. While seam works on a collection, a context is free for it and, where Tun
scores, a tile of Tun step has been given to it since its last entry, SEAM_INSERT takes the first insert entry that no
earlier entry of its VID stands before: the chosen slot takes the vector, linked into the graph, and the entry is retired;
with no slot to take, the entry is marked as held and counted once. SEAM_DELETE tombstones and repairs the LIVE slots of its
VID born at its version or before, and retires the entry. SLOT_FREE frees a repaired tombstone that no snapshot holds, and
otherwise counts it as held back. An entry uses up the tiles given. Where seam does not work, or where no context is free or
no tile given for an insert or delete, nothing changes. That an entry is one step, that it needs a free Needle context and
one tile at the least is the model's choice (log entry 24; R23 and R213 say what seam uses). It rests on R23, R209, R213,
R214, R215, R216, R217. -/
def Obligations.SeamSteps : Prop :=
  (∀ (h : Handle) (want : Option Nat) (c : Coll) (e : BasteEntry) (u v : State) (w : Nat) (s : State), s.seamWorks h = true → s.seamContext h = true → s.seamScored h = true → s.coll h = some c → firstOf true [] (s.seamEntries h) = some e → u = s.countHeld h (fun _ x => s.slotHeld x) → u.chooseSlot c want = some w → v = (u.bumpBy 0x41300A (if (c.slot w).used then 1 else 0)).mapColl h (fun c => c.place ((u.bumpBy 0x41300A (if (c.slot w).used then 1 else 0)).alpha) ((u.bumpBy 0x41300A (if (c.slot w).used then 1 else 0)).num 0x413003) (u.bumpBy 0x41300A (if (c.slot w).used then 1 else 0)).muts.generation e w) →
    Answers (.seamInsert h want) s fun t =>
      t = ((v.bump 0x413006).retire e.id).takeTiles h) ∧
  (∀ (h : Handle) (want : Option Nat) (c : Coll) (e : BasteEntry) (u : State) (s : State), s.seamWorks h = true → s.seamContext h = true → s.seamScored h = true → s.coll h = some c → firstOf true [] (s.seamEntries h) = some e → u = s.countHeld h (fun _ x => s.slotHeld x) → u.chooseSlot c want = none → e.held = false →
    exec (.seamInsert h want) s = .next (((u.mapBaste fun l => update (fun x => x.id = e.id) (fun x => { x with held := true, busy := true }) l).bump 0x41300C).takeTiles h)) ∧
  (∀ (h : Handle) (want : Option Nat) (s : State), s.seamWorks h = true → s.seamContext h = true → s.seamScored h = true → firstOf true [] (s.seamEntries h) = none →
    exec (.seamInsert h want) s = .next (s.takeTiles h)) ∧
  (∀ (h : Handle) (want : Option Nat) (s : State), (s.seamWorks h = false ∨ s.seamContext h = false ∨ s.seamScored h = false) →
    exec (.seamInsert h want) s = .next (s)) ∧
  (∀ (h : Handle) (c : Coll) (e : BasteEntry) (s : State), s.seamWorks h = true → s.seamContext h = true → s.seamScored h = true → s.coll h = some c → firstOf false [] (s.seamEntries h) = some e →
    exec (.seamDelete h) s = .next ((((c.victims e).foldl (fun (s : State) u => s.tombstone h e.version u) s).retire e.id).takeTiles h)) ∧
  (∀ (h : Handle) (s : State), (s.seamWorks h = false ∨ s.seamContext h = false ∨ s.seamScored h = false) →
    exec (.seamDelete h) s = .next (s)) ∧
  (∀ (h : Handle) (s : State),
    s.seamScored h = (!s.seamTun h || decide (0 < s.tun.seamTiles)) ∧ s.takeTiles h = (if s.seamTun h then { s with tun := { s.tun with seamTiles := 0 } } else s)) ∧
  (∀ (id : Nat) (s : State),
    s.retire id = (({ s with tele := { s.tele with retired := s.tele.retired + 1 } }).mapBaste fun l => update (fun e => e.id = id) (fun e => { e with retired := some s.now, busy := false }) l).trimBaste) ∧
  (∀ (h : Handle) (slot : Nat) (c : Coll) (s : State), s.seamWorks h = true → s.coll h = some c → (c.slot slot).st = .tombstone → s.mayFree (c.slot slot) = true →
    exec (.slotFree h slot) s = .next ((s.mapColl h fun c => { (c.removeVid slot) with slots := put slot { c.slot slot with st := .free, freeGen := some s.muts.generation } c.slots }).bump 0x413009)) ∧
  (∀ (h : Handle) (slot : Nat) (c : Coll) (s : State), s.seamWorks h = true → s.coll h = some c → (c.slot slot).st = .tombstone → s.mayFree (c.slot slot) = false →
    exec (.slotFree h slot) s = .next (s.countHeld h fun n _ => n = slot)) ∧
  (∀ (h : Handle) (slot : Nat) (c : Coll) (s : State), s.coll h = some c → (c.slot slot).st ≠ .tombstone →
    exec (.slotFree h slot) s = .next (s))

/-- Creating, deleting, loading and switching collections. A create whose definition keeps R125 adds the collection, or answers
CAPACITY where a tier cannot hold it; one that breaks a condition answers its cause; one on a handle whose collection drains
is held and answered as deferred. A delete is accepted unless the collection drains already, and is refused on an absent
handle. When nothing refers to a draining collection it becomes absent, and a create held for its handle runs after that. A
load begins into the first window that fits, its prefix refused with its cause; its end is checked in the background, and
gives CREATED with the image loaded or, on a failed check, CREATED and empty. An abort gives the latter at once. ONLINE and
OFFLINE change the state and are refused elsewhere. A command of a handle whose reserved bytes are not zero is refused with
FIELD. That STATE answers a handle that is ABSENT, and that a definition of another length than 256 bytes is an ill-formed
command, which ends in a fault, are the model's choice (log entry 26). It rests on R125, R128, R129, R130, R131, R140, R345. -/
def Obligations.CollectionLife : Prop :=
  (∀ (p : Port) (b : Bytes) (c : Cause) (u : State) (s : State), s.takes p false = true → u = s.loadAppears → b.length = 256 → c = u.createCause p (parseDef b) (u.defTables (parseDef b)) → c ≠ .none →
    exec (.createCollection p b) s = .next (u.collReply p c false)) ∧
  (∀ (p : Port) (b : Bytes) (v : State) (u : State) (s : State), s.takes p false = true → u = s.loadAppears → b.length = 256 → u.createCause p (parseDef b) (u.defTables (parseDef b)) = .none → (∀ c ∈ u.colls, c.d.handle ≠ (parseDef b).handle) → u.colls.length < 1024 → u.addColl (newColl (parseDef b) (u.defTables (parseDef b))) = some v →
    exec (.createCollection p b) s = .next (v.collReply p .none false)) ∧
  (∀ (p : Port) (b : Bytes)  (u : State) (s : State), s.takes p false = true → u = s.loadAppears → b.length = 256 → u.createCause p (parseDef b) (u.defTables (parseDef b)) = .none → (∀ c ∈ u.colls, c.d.handle ≠ (parseDef b).handle) → u.colls.length < 1024 → u.addColl (newColl (parseDef b) (u.defTables (parseDef b))) = none →
    exec (.createCollection p b) s = .next (u.collReply p .capacity false)) ∧
  (∀ (p : Port) (b : Bytes) (c : Coll) (u : State) (s : State), s.takes p false = true → u = s.loadAppears → b.length = 256 → u.createCause p (parseDef b) (u.defTables (parseDef b)) = .none → u.colls.contains c = true → c.d.handle = (parseDef b).handle →
    exec (.createCollection p b) s = .next ((State.bump 0x400008 { u with deferred := u.deferred ++ [{ coll := newColl (parseDef b) (u.defTables (parseDef b)), port := p }] }).collReply p .none true)) ∧
  (∀ (p : Port) (b : Bytes) (s : State), b.length ≠ 256 →
    exec (.createCollection p b) s = .fault .illFormed) ∧
  (∀ (p : Port) (h : Handle) (pad : Bytes) (s : State), s.takes p false = true → pad.any (· ≠ 0) = true →
    exec (.deleteCollection p ⟨h, pad⟩) s = .next (s.deny p .field)) ∧
  (∀ (p : Port) (h : Handle) (pad : Bytes) (pre : Bytes) (s : State), s.takes p false = true → pad.any (· ≠ 0) = true →
    exec (.loadBegin p ⟨h, pad⟩ pre) s = .next (s.deny p .field)) ∧
  (∀ (p : Port) (h : Handle) (pad : Bytes) (s : State), s.takes p false = true → pad.any (· ≠ 0) = true →
    exec (.loadEnd p ⟨h, pad⟩) s = .next (s.deny p .field)) ∧
  (∀ (p : Port) (h : Handle) (pad : Bytes) (s : State), s.takes p false = true → pad.any (· ≠ 0) = true →
    exec (.loadAbort p ⟨h, pad⟩) s = .next (s.deny p .field)) ∧
  (∀ (p : Port) (h : Handle) (pad : Bytes) (s : State), s.takes p false = true → pad.any (· ≠ 0) = true →
    exec (.collectionOnline p ⟨h, pad⟩) s = .next (s.deny p .field)) ∧
  (∀ (p : Port) (h : Handle) (pad : Bytes) (s : State), s.takes p false = true → pad.any (· ≠ 0) = true →
    exec (.collectionOffline p ⟨h, pad⟩) s = .next (s.deny p .field)) ∧
  (∀ (p : Port) (h : Handle) (pad : Bytes) (c : Coll) (u : State) (s : State), s.takes p false = true → u = s.loadAppears → u.deferred.find? (fun x => x.coll.d.handle = h) = none → u.coll h = some c → u.permitted p c.d.tenant.toNat = true → c.st ≠ .deleting → pad.any (· ≠ 0) = false →
    exec (.deleteCollection p ⟨h, pad⟩) s = .next ((u.startDelete h).collReply p .none false)) ∧
  (∀ (p : Port) (h : Handle) (pad : Bytes) (u : State) (s : State), s.takes p false = true → u = s.loadAppears → u.deferred.find? (fun x => x.coll.d.handle = h) = none → u.coll h = none → pad.any (· ≠ 0) = false →
    exec (.deleteCollection p ⟨h, pad⟩) s = .next (u.collReply p .state false)) ∧
  (∀ (p : Port) (h : Handle) (pad : Bytes) (x : Deferred) (u : State) (s : State), s.takes p false = true → u = s.loadAppears → u.deferred.find? (fun x => x.coll.d.handle = h) = some x → u.permitted p x.coll.d.tenant.toNat = true → pad.any (· ≠ 0) = false →
    exec (.deleteCollection p ⟨h, pad⟩) s = .next (({ u with deferred := update (fun y => y.coll.d.handle = h) (fun y => { y with thenDelete := true }) u.deferred }).collReply p .none true)) ∧
  (∀ (h : Handle) (c : Coll) (u v : State) (s : State), s.coll h = some c → c.st = .deleting → s.drained h = true → u = (s.logChange 3 c.st.code 0 h.toNat).release h.toNat → v = State.bump 0x400007 { u with colls := u.colls.filter fun c => c.d.handle ≠ h } → v.countColls.deferred.find? (fun x => x.coll.d.handle = h) = none →
    exec (.collectionDrained h) s = .next (v.countColls)) ∧
  (∀ (h : Handle) (c : Coll) (u v : State) (x : Deferred) (s : State), s.coll h = some c → c.st = .deleting → s.drained h = true → u = (s.logChange 3 c.st.code 0 h.toNat).release h.toNat → v = State.bump 0x400007 { u with colls := u.colls.filter fun c => c.d.handle ≠ h } → v.countColls.deferred.find? (fun x => x.coll.d.handle = h) = some x →
    exec (.collectionDrained h) s = .next ((v.countColls.runDeferred x).countColls)) ∧
  (∀ (h : Handle) (c : Coll) (s : State), s.coll h = some c → (c.st ≠ .deleting ∨ s.drained h = false) →
    exec (.collectionDrained h) s = .next (s)) ∧
  (∀ (p : Port) (h : Handle) (pad : Bytes) (pre : Bytes) (c : Coll) (u : State) (s : State), s.takes p false = true → u = s.loadAppears → u.coll h = some c → u.permitted p c.d.tenant.toNat = true → (c.st = .created ∨ c.st = .offline) → prefixCause c.d pre ≠ .none → pad.any (· ≠ 0) = false →
    exec (.loadBegin p ⟨h, pad⟩ pre) s = .next (u.collReply p (prefixCause c.d pre) false)) ∧
  (∀ (p : Port) (h : Handle) (pad : Bytes) (pre : Bytes) (c : Coll) (b : Nat) (u : State) (s : State), s.takes p false = true → u = s.loadAppears → u.coll h = some c → u.permitted p c.d.tenant.toNat = true → (c.st = .created ∨ c.st = .offline) → prefixCause c.d pre = .none → u.openLoads.length < 16 → u.imageBase p (field pre 0x18 8) = some b → pad.any (· ≠ 0) = false →
    exec (.loadBegin p ⟨h, pad⟩ pre) s = .next (((u.mapColl h fun c => { c.emptied with load := some (openLoad p b pre) }).setCollState h .loading).reply p .success 0 (collOut .none false ++ natLE 8 b))) ∧
  (∀ (p : Port) (h : Handle) (pad : Bytes) (pre : Bytes) (c : Coll) (u : State) (s : State), s.takes p false = true → u = s.loadAppears → u.coll h = some c → u.permitted p c.d.tenant.toNat = true → c.st = .online → pad.any (· ≠ 0) = false →
    exec (.loadBegin p ⟨h, pad⟩ pre) s = .next (u.collReply p .state false)) ∧
  (∀ (p : Port) (off : Nat) (data : Bytes) (x : Handle × Load) (s : State), s.upstream.contains p = true → s.running = true → s.windowsBacked = true → s.imageAt p off = some x →
    exec (.imageWindowWrite p off data) s = .next ((if (x.2.kept (off - x.2.base) data).length < data.length then State.bump 0x40000B else id) (s.mapColl x.1 fun c => { c with load := c.load.map fun l => { l with bytes := (x.2.kept (off - x.2.base) data).foldl (fun m y => m.setByte y.1 y.2) l.bytes } }))) ∧
  (∀ (p : Port) (off : Nat) (data : Bytes) (s : State), s.upstream.contains p = true → s.running = true → s.imageAt p off = none →
    exec (.imageWindowWrite p off data) s = .next (s.unbacked)) ∧
  (∀ (p : Port) (h : Handle) (pad : Bytes) (c : Coll) (l : Load) (u : State) (s : State), s.takes p false = true → u = s.loadAppears → u.coll h = some c → u.permitted p c.d.tenant.toNat = true → c.load = some l → c.st = .loading → l.checking = false → (u.port p).bg = none → pad.any (· ≠ 0) = false →
    exec (.loadEnd p ⟨h, pad⟩) s = .next ((((u.setPort p { u.port p with bg := some ⟨0xC023, h.toNat⟩ }).reply p .backgroundStarted 0 []).mapColl h fun c => { c with load := some { l with checking := true } }))) ∧
  (∀ (p : Port) (h : Handle) (pad : Bytes) (u : State) (s : State), s.takes p false = true → u = s.loadAppears → u.coll h = none → pad.any (· ≠ 0) = false →
    exec (.loadEnd p ⟨h, pad⟩) s = .next (u.reply p .invalidInput (0x100 + Cause.state.code) [])) ∧
  (∀ (h : Handle) (c : Coll) (l : Load) (s : State), s.coll h = some c → c.load = some l → l.checking = true → c.st = .loading → l.endCause ≠ .none →
    exec (.loadEndComplete h) s = .next ((s.failLoad h l.endCause).bump 0x40000A)) ∧
  (∀ (h : Handle) (c : Coll) (l : Load) (v : State) (s : State), s.coll h = some c → c.load = some l → l.checking = true → c.st = .loading → l.endCause = .none → v = ((if (c.loaded l s.muts.generation).2 then State.bump 0x504007 else id) (s.mapColl h fun _ => { (c.loaded l s.muts.generation).1 with load := none, imageLoaded := true, dataLost := false, imageGeneration := l.generation, journalPosition := l.position })).setCollState h .created → v.ports.a.bg = none → v.ports.b.bg = none →
    exec (.loadEndComplete h) s = .next (v)) ∧
  (∀ (h : Handle) (c : Coll) (l : Load) (v : State) (s : State), s.coll h = some c → c.load = some l → l.checking = true → c.st = .loading → l.endCause = .none → v = ((if (c.loaded l s.muts.generation).2 then State.bump 0x504007 else id) (s.mapColl h fun _ => { (c.loaded l s.muts.generation).1 with load := none, imageLoaded := true, dataLost := false, imageGeneration := l.generation, journalPosition := l.position })).setCollState h .created → v.ports.a.bg = some ⟨0xC023, h.toNat⟩ → v.ports.b.bg = none →
    exec (.loadEndComplete h) s = .next (v.endBg .a 0xC023 .success 0)) ∧
  (∀ (h : Handle) (s : State), s.coll h = none →
    exec (.loadEndComplete h) s = .next (s)) ∧
  (∀ (p : Port) (h : Handle) (pad : Bytes) (c : Coll) (u : State) (s : State), s.takes p false = true → u = s.loadAppears → u.coll h = some c → u.permitted p c.d.tenant.toNat = true → c.st = .loading → pad.any (· ≠ 0) = false →
    exec (.loadAbort p ⟨h, pad⟩) s = .next ((u.failLoad h .state).collReply p .none false)) ∧
  (∀ (p : Port) (h : Handle) (pad : Bytes) (c : Coll) (u : State) (s : State), s.takes p false = true → u = s.loadAppears → u.coll h = some c → u.permitted p c.d.tenant.toNat = true → c.st ≠ .loading → pad.any (· ≠ 0) = false →
    exec (.loadAbort p ⟨h, pad⟩) s = .next (u.collReply p .state false)) ∧
  (∀ (p : Port) (h : Handle) (pad : Bytes) (c : Coll) (u : State) (s : State), s.takes p false = true → u = s.loadAppears → u.coll h = some c → u.permitted p c.d.tenant.toNat = true → (c.st = .created ∨ c.st = .offline) → c.dataLost = false → pad.any (· ≠ 0) = false →
    exec (.collectionOnline p ⟨h, pad⟩) s = .next (((u.setCollState h .online).firstOnline).collReply p .none false)) ∧
  (∀ (p : Port) (h : Handle) (pad : Bytes) (c : Coll) (u : State) (s : State), s.takes p false = true → u = s.loadAppears → u.coll h = some c → u.permitted p c.d.tenant.toNat = true → c.dataLost = true → pad.any (· ≠ 0) = false →
    exec (.collectionOnline p ⟨h, pad⟩) s = .next (u.collReply p .state false)) ∧
  (∀ (p : Port) (h : Handle) (pad : Bytes) (c : Coll) (u : State) (s : State), s.takes p false = true → u = s.loadAppears → u.coll h = some c → u.permitted p c.d.tenant.toNat = true → c.st = .online → pad.any (· ≠ 0) = false →
    exec (.collectionOffline p ⟨h, pad⟩) s = .next (((u.setCollState h .offline).endOffline h).collReply p .none false)) ∧
  (∀ (p : Port) (h : Handle) (pad : Bytes) (c : Coll) (u : State) (s : State), s.takes p false = true → u = s.loadAppears → u.coll h = some c → u.permitted p c.d.tenant.toNat = true → c.st ≠ .online → pad.any (· ≠ 0) = false →
    exec (.collectionOffline p ⟨h, pad⟩) s = .next (u.collReply p .state false))

/-- Starting, stepping and ending recipe runs, and which refusal comes first. The next queued run starts when none runs, with
its recipe's tensors and steps read and its clusters those of its mask that are in service, or ends at once with the first
status that applies. A step goes to seam while its share has room; else it runs the next issue unit of the run on an online
cluster of its mask that no scan takes first, and with no run it has no effect. That its intervals of 10 microseconds are
fixed, that a seam tile takes 32 cycles and that any cluster of the mask takes the next issue unit is the model's choice
(log entry 25). The end of a run writes its 64-byte status record inside the arena and counts it. Of several reasons to
refuse Submit recipe, the first of FIELD, QUEUE_FULL, NOT_ON and POWER_STATE is answered (the model's choice, log entry 30);
an input that is not 32 bytes long is a fault. It rests on R242, R250, R251. -/
def Obligations.Recipes : Prop :=
  (∀ (p : Port) (d : Bytes) (u : State) (s : State), s.takes p false = true → u = s.loadAppears → d.length = 32 → (runReservedOk d = false ∨ (parseRun p d).recipe % 64 ≠ 0) →
    exec (.submitRecipe p d) s = .next (u.deny p .field)) ∧
  (∀ (p : Port) (d : Bytes) (u : State) (s : State), s.takes p false = true → u = s.loadAppears → d.length = 32 → runReservedOk d = true → (parseRun p d).recipe % 64 = 0 → 16 ≤ u.tun.queue.length →
    exec (.submitRecipe p d) s = .next (u.deny p .queueFull)) ∧
  (∀ (p : Port) (d : Bytes) (u : State) (s : State), s.takes p false = true → u = s.loadAppears → d.length = 32 → runReservedOk d = true → (parseRun p d).recipe % 64 = 0 → u.tun.queue.length < 16 → u.isOn 0x7020 = false →
    exec (.submitRecipe p d) s = .next (u.deny p .notOn)) ∧
  (∀ (p : Port) (d : Bytes) (s : State), d.length ≠ 32 →
    exec (.submitRecipe p d) s = .fault .illFormed) ∧
  (∀ (d : RunDesc) (q : List RunDesc) (u : State) (st : Nat) (s : State), s.tun.run = none → s.tun.queue = d :: q → s.serves = true → u = { s with tun := { s.tun with queue := q } } → u.runCheck d (u.recipeImage d.recipe) = some st →
    exec (.recipeRunStart) s = .next (u.endRun (newRun d [] [] 0 u.stamp) st none)) ∧
  (∀ (d : RunDesc) (q : List RunDesc) (u : State) (img : Bytes) (s : State), s.tun.run = none → s.tun.queue = d :: q → s.serves = true → u = { s with tun := { s.tun with queue := q } } → img = u.recipeImage d.recipe → u.runCheck d img = none →
    exec (.recipeRunStart) s = .next (({ u with tun := { u.tun with run := some (newRun { d with clusters := BitVec.ofNat 8 (maskOf (u.runClusters d.clusters)) } ((imageParts img).1.map readTensor) ((imageParts img).2.map readStep) (field img 0xC 4) u.stamp) } }).setNum 0x702007 d.tag.toNat)) ∧
  (∀ (d : RunDesc) (ts : List Tensor) (xs : List RStep) (n : Nat) (t : Time),
    (newRun d ts xs n t).step = 0 ∧ (newRun d ts xs n t).row = 0 ∧ (newRun d ts xs n t).executed = 0 ∧ (newRun d ts xs n t).repeats = n) ∧
  (∀ (r : Run) (s : State), s.tun.run = some r →
    exec (.recipeRunStart) s = .next (s)) ∧
  (∀ (cluster : Fin 8) (r : Run) (s : State), s.tun.run = some r → s.running = true → s.tunPowered = true → bit s.units.tun.toNat cluster = false → bit r.d.clusters.toNat cluster = true → s.seamTakes cluster = false → s.scanFirst cluster = false →
    exec (.tunStep cluster) s = .next (s.runUnit cluster r)) ∧
  (∀ (cluster : Fin 8) (t : State) (s : State), s.running = true → s.tunPowered = true → bit s.units.tun.toNat cluster = false → s.seamTakes cluster = true → t = s.setCluster cluster (fun c => { c with interval := s.now / 10000, seamCycles := s.seamUsed cluster + seamTile }) →
    exec (.tunStep cluster) s = .next (({ t with tun := { t.tun with seamTiles := t.tun.seamTiles + 1 } }).countUnits 0x700004 1 seamTile)) ∧
  (∀ (cluster : Fin 8) (s : State), s.seamTakes cluster = false → (s.tun.run = none ∨ s.scanFirst cluster = true) →
    exec (.tunStep cluster) s = .next (s)) ∧
  (∀ (cluster : Fin 8) (r : Run) (s : State), s.tun.run = some r → bit s.units.tun.toNat cluster = true →
    exec (.tunStep cluster) s = .next (s)) ∧
  (∀ (r : Run) (status : Nat) (failed : Option Nat) (t : Time),
    (statusRecord r status failed t).length = 64)

/-- Reads of memory lines and scrub reads. A read of a line on an offline unit is poisoned and counted; a line that the cache
holds, in a class that it serves, asks no memory. On an ONLINE HBM channel up to two wrong symbols are corrected, counted
and recorded as event 0x10, after the loss of the channel that too many of them come to; more of them, detected, are
reconstructed from parity where the group's other channels and their chunks are there, with event 0x11, and poisoned with
event 0x12 where parity does not hold, and force a FULL retrain. A line in a hold buffer is read from there; a channel that
is not ONLINE is reconstructed and counted, a bad chunk of another channel then being that channel's error, or the read
waits. A bulk line with a detected error is poisoned with event 0x21. A poisoned line that a host read takes is returned as
poison; one that a query takes ends the query with INTERNAL, as part of the unit's event where the unit is offline and else
as a contained fault with event 0x42. The retrains a read forces come last. A scrub read takes the next line of its unit's
pass in a window of the unit, when its share of the pass has come; before that, and any read in BOOT, has no effect. The
order of lines in a pass and of the events is the model's (log entry 31). It rests on R258, R266, R267, R268, R269, R278. -/
def Obligations.LineReads : Prop :=
  (∀ (addr : Nat) (e : LineErrors) (stripe : Stripe) (p : Port) (u : State) (x : LineRead) (s : State), s.running = true → s.dev.st ≠ .boot → s.dev.power < 4 → s.readVia .lend addr e stripe = (u, x) → x.outcome = .poison → u.dev.frozen = false →
    exec (.memoryReadComplete addr e stripe (.host p)) s = .next (((if u.inLend addr then u.bump 0x340006 else u).emit (.hostRead p none)).lineAfter x)) ∧
  (∀ (addr : Nat) (e : LineErrors) (stripe : Stripe) (q : Nat) (u : State) (x : LineRead) (s : State), s.running = true → s.dev.st ≠ .boot → s.dev.power < 4 → s.readVia (s.classOf (.query q)) addr e stripe = (u, x) → x.outcome = .poison → u.dev.frozen = false → x.ofUnit = true →
    exec (.memoryReadComplete addr e stripe (.query q)) s = .next ((u.endInternal (fun x => x.id = q)).lineAfter x)) ∧
  (∀ (addr : Nat) (e : LineErrors) (stripe : Stripe) (q : Nat) (u : State) (x : LineRead) (s : State), s.running = true → s.dev.st ≠ .boot → s.dev.power < 4 → s.readVia (s.classOf (.query q)) addr e stripe = (u, x) → x.outcome = .poison → u.dev.frozen = false → x.ofUnit = false →
    exec (.memoryReadComplete addr e stripe (.query q)) s = .next ((u.containQuery q x.holder).lineAfter x)) ∧
  (∀ (qid : Nat) (q : Query) (holder : Option Nat) (s : State), s.query qid = some q →
    s.containQuery qid holder = (s.endInternal fun x => x.id = qid).raise 0x42 (if q.d.graph then q.needle else 0xFFFF) q.detail holder) ∧
  (∀ (addr : Nat) (e : LineErrors) (stripe : Stripe) (r : Reader) (u : State) (x : LineRead) (s : State), s.running = true → s.dev.st ≠ .boot → s.dev.power < 4 → s.readVia (s.classOf r) addr e stripe = (u, x) → (x.outcome ≠ .poison ∨ u.dev.frozen = true) →
    exec (.memoryReadComplete addr e stripe r) s = .next (u.lineAfter x)) ∧
  (∀ (x : LineRead) (s : State), s.dev.frozen = false →
    s.lineAfter x = x.forced.foldl (fun (s : State) y => s.forceRetrain y.1 y.2.1 x.detail y.2.2) s) ∧
  (∀ (addr : Nat) (e : LineErrors) (stripe : Stripe) (r : Reader) (s : State), s.dev.st = .boot →
    exec (.memoryReadComplete addr e stripe r) s = .next (s)) ∧
  (∀ (c : TrafficClass) (addr : Nat) (e : LineErrors) (stripe : Stripe) (s : State), s.cacheable c addr = true → s.addrOffline addr = false → s.cacheHolds addr = true →
    s.readVia c addr e stripe = ((s.cacheUse addr).bump 0x320005, {})) ∧
  (∀ (addr : Nat) (e : LineErrors) (stripe : Stripe) (s : State), s.addrOffline addr = true →
    s.readLine addr e stripe = (s.bump 0x30000A, { outcome := .poison, ofUnit := true })) ∧
  (∀ (n c line : Nat) (addr : Option Nat) (e : LineErrors) (stripe : Stripe) (s : State), (s.channel n c).holds line = true →
    s.readHbm n c line addr e stripe = (s, {})) ∧
  (∀ (n c line : Nat) (addr : Option Nat) (stripe : Stripe) (s : State), (s.channel n c).holds line = false → (s.channel n c).st = .online →
    s.readHbm n c line addr .upToTwo stripe = ((s.countRead 0 1).bump 0x300008).corrected n c (lineDetail addr)) ∧
  (∀ (n c d : Nat) (s t : State), t = s.noteError n c →
    s.corrected n c d = (match t.verdict n c with | .fine => (t.raise 0x10 (32 * n + c) d none, {}) | .retrain k => (t.raise 0x10 (32 * n + c) d none, { detail := d, forced := [(n, c, k)] }) | .lost => ((t.raise 0x15 (32 * n + c) 0 none).raise 0x10 (32 * n + c) d none, {}))) ∧
  (∀ (n c line : Nat) (addr : Option Nat) (stripe : Stripe) (s : State), (s.channel n c).holds line = false → (s.channel n c).st = .online → (s.countRead 0 1).covered n c = true → badFor c stripe = none →
    s.readHbm n c line addr .threeOrFour stripe = (((s.countRead 0 1).bump 0x300009).raise 0x11 (32 * n + c) (lineDetail addr) none, { detail := lineDetail addr, forced := [(n, c, .full)] })) ∧
  (∀ (n c b line : Nat) (addr : Option Nat) (stripe : Stripe) (u s : State), (s.channel n c).holds line = false → (s.channel n c).st = .online → badFor c stripe = some b → c < b → (s.countRead 0 1).covered n c = true → u = ((s.countRead 0 1).bump 0x30000A).raise 0x12 (32 * n + c) (lineDetail addr) none →
    s.readHbm n c line addr .threeOrFour stripe = (u, { outcome := .poison, holder := u.thimble.holder, detail := lineDetail addr, forced := [(n, c, .full), (n, b, .full)] })) ∧
  (∀ (n c line : Nat) (addr : Option Nat) (stripe : Stripe) (u s : State), (s.channel n c).holds line = false → (s.channel n c).st = .online → badFor c stripe = none → s.chip.parity = false → u = ((s.countRead 0 1).bump 0x30000A).raise 0x12 (32 * n + c) (lineDetail addr) none →
    s.readHbm n c line addr .threeOrFour stripe = (u, { outcome := .poison, holder := u.thimble.holder, detail := lineDetail addr, forced := [(n, c, .full)] })) ∧
  (∀ (n c line : Nat) (addr : Option Nat) (e : LineErrors) (stripe : Stripe) (s : State), (s.channel n c).holds line = false → (s.channel n c).st ≠ .online → s.covered n c = true → badFor c stripe = none →
    s.readHbm n c line addr e stripe = ((s.bump (key (0x3010 + n) 6)).countRead 0 15, {})) ∧
  (∀ (n c b line : Nat) (addr : Option Nat) (e : LineErrors) (stripe : Stripe) (t u s : State), (s.channel n c).holds line = false → (s.channel n c).st ≠ .online → s.covered n c = true → badFor c stripe = some b → t = (s.bump (key (0x3010 + n) 6)).countRead 0 15 → u = (t.bump 0x30000A).raise 0x12 (32 * n + b) (lineDetail (t.hbmLine n b line)) (if (s.channel n c).st = .offline then (s.channel n c).lossEvent else none) →
    s.readHbm n c line addr e stripe = (u, { outcome := .poison, holder := u.thimble.holder, ofUnit := (s.channel n c).st = .offline, detail := lineDetail (t.hbmLine n b line), forced := [(n, b, .full)] })) ∧
  (∀ (n c line : Nat) (addr : Option Nat) (e : LineErrors) (stripe : Stripe) (s : State), (s.channel n c).holds line = false → (s.channel n c).st ≠ .online → s.covered n c = false →
    s.readHbm n c line addr e stripe = (s, { outcome := .wait })) ∧
  (∀ (pkg c : Nat) (addr : Option Nat) (u s : State), u = ((s.countRead 1 1).bump 0x30000A).raise 0x21 (4 * pkg + c) (lineDetail addr) none →
    s.readBulk pkg c addr .threeOrFour = (u, { outcome := .poison, holder := u.thimble.holder })) ∧
  (∀ (u : ScrubUnit) (e : LineErrors) (stripe : Stripe) (d : Bool) (s : State), (s.running = false ∨ s.scrubOpen u = false) →
    exec (.scrubRead u e stripe d) s = .next (s)) ∧
  (∀ (u : ScrubUnit) (e : LineErrors) (stripe : Stripe) (d : Bool) (t : State) (x : LineOutcome) (s : State), s.running = true → s.dev.power < 3 → s.scrubUp u = true → s.scrubOpen u = true → (s.scrubPass u).began + (s.scrubPass u).line * s.scrubNs / (ScrubUnit.channels u * s.rawLines u) ≤ s.aonNs → (s.scrubPass u).line + 1 < ScrubUnit.channels u * s.rawLines u → s.scrubLine u (s.scrubPass u).line e stripe d = (t, x) → x ≠ .wait →
    exec (.scrubRead u e stripe d) s = .next ({ t with tiers := { t.tiers with scrubs := put (ScrubUnit.key u) ⟨(s.scrubPass u).began, (s.scrubPass u).line + 1⟩ t.tiers.scrubs } })) ∧
  (∀ (n : Fin 12) (k line c : Nat) (stripe : Stripe) (s : State), s.rawPlace (.stack n) k = (c, some line) → (s.channel n c).holds line = false → (s.channel n c).st = .online → s.covered n c = true → s.dev.frozen = false →
    s.scrubLine (.stack n) k .none stripe true = ((s.countRead 0 1).raise 0x13 (32 * n + c) (lineDetail (s.rawAddr (.stack n) c line)) none, .good))

/-- Retrain of a memory channel. A forced retrain starts at once on an ONLINE channel for which errors asked one, with its kind.
A planned one, in a window of its stack, for the channel trained longest ago and at an instant the window allows its stack,
starts the kind the channel is due, or a PERIODIC one where a channel of its group is OFFLINE, once for the stack in the
occurrence, and puts the stack's count of deferrals back to zero; where another channel of the group is out it is counted as
deferred, and at an instant the window does not allow, or with no window, nothing changes. A retrain that verifies drains
its channel, notes the time and clears the channel's errors; a PERIODIC one that does not verify drains too and is FULL the
next time. A first timeout after 2 ms is retried, a second loses the channel, and one before that has no effect. That a
failed FULL or REPAIR waits for its time limit while a failed PERIODIC drains is the model's choice (log entry 31). When the
drain completes the channel is ONLINE with its hold buffer empty, and its retrain is counted. It rests on R60, R268, R271,
R272. -/
def Obligations.Retrain : Prop :=
  (∀ (stack : Fin 12) (channel : Fin 32)  (s : State), s.stackPresent stack = true → s.canRetrain stack channel = true → (s.channel stack channel).wanted = true →
    exec (.retrainStart stack channel .forced) s = .next ((s.mapChannel stack channel fun x => { x with nextKind := .periodic }).startRetrain stack channel (s.channel stack channel).nextKind true)) ∧
  (∀ (stack : Fin 12) (channel : Fin 32) (c : RetrainCause) (s : State), s.stackPresent stack = true → s.canRetrain stack channel = false →
    exec (.retrainStart stack channel c) s = .next (s)) ∧
  (∀ (stack : Fin 12) (channel : Fin 32) (k i : Nat) (u v : State) (s : State), s.stackPresent stack = true → s.canRetrain stack channel = true → s.retrainOpen stack = some k → s.startInstant (s.calEntry k) = some i → s.oldest stack channel = true → s.startAllowed stack (s.calEntry k) i = true → u = s.stackServed k stack i → u.groupOut stack channel = false → v = u.setStack stack { u.stack stack with deferrals := 0 } → (groupOf channel).any (fun i => (v.channel stack i).st == .offline) = false →
    exec (.retrainStart stack channel .planned) s = .next ((v.mapChannel stack channel fun x => { x with nextKind := .periodic }).startRetrain stack channel (v.channel stack channel).nextKind false)) ∧
  (∀ (stack : Fin 12) (channel : Fin 32) (k i : Nat) (u v : State) (s : State), s.stackPresent stack = true → s.canRetrain stack channel = true → s.retrainOpen stack = some k → s.startInstant (s.calEntry k) = some i → s.oldest stack channel = true → s.startAllowed stack (s.calEntry k) i = true → u = s.stackServed k stack i → u.groupOut stack channel = false → v = u.setStack stack { u.stack stack with deferrals := 0 } → (groupOf channel).any (fun i => (v.channel stack i).st == .offline) = true →
    exec (.retrainStart stack channel .planned) s = .next ((v.mapChannel stack channel fun x => { x with nextKind := .periodic }).startRetrain stack channel .periodic false)) ∧
  (∀ (stack : Fin 12) (channel : Fin 32) (k i : Nat) (s : State), s.stackPresent stack = true → s.canRetrain stack channel = true → s.retrainOpen stack = some k → s.startInstant (s.calEntry k) = some i → s.startAllowed stack (s.calEntry k) i = false →
    exec (.retrainStart stack channel .planned) s = .next (s)) ∧
  (∀ (stack : Fin 12) (channel : Fin 32) (k i : Nat) (u : State) (s : State), s.stackPresent stack = true → s.canRetrain stack channel = true → s.retrainOpen stack = some k → s.startInstant (s.calEntry k) = some i → s.oldest stack channel = true → s.startAllowed stack (s.calEntry k) i = true → u = s.stackServed k stack i → u.groupOut stack channel = true →
    exec (.retrainStart stack channel .planned) s = .next ((u.deferStack stack).bump 0x200402)) ∧
  (∀ (stack : Fin 12) (channel : Fin 32)  (s : State), s.stackPresent stack = true → s.retrainOpen stack = none →
    exec (.retrainStart stack channel .planned) s = .next (s)) ∧
  (∀ (stack : Fin 12) (channel : Fin 32)  (s : State), s.stackPresent stack = true → s.running = true → (s.channel stack channel).st = .reconstruct → (s.channel stack channel).forScan = false →
    exec (.retrainVerify stack channel true) s = .next (s.mapChannel stack channel fun x => { x with st := .draining, trained := s.aonNs, errors := [], lastFull := if x.kind == .full then some s.aonNs else x.lastFull, lastRepair := if x.kind == .repair then some s.aonNs else x.lastRepair })) ∧
  (∀ (stack : Fin 12) (channel : Fin 32)  (s : State), s.stackPresent stack = true → s.running = true → (s.channel stack channel).st = .reconstruct → (s.channel stack channel).forScan = false → (s.channel stack channel).kind = .periodic →
    exec (.retrainVerify stack channel false) s = .next (s.mapChannel stack channel fun x => { x with st := .draining, nextKind := .full })) ∧
  (∀ (stack : Fin 12) (channel : Fin 32)  (s : State), s.stackPresent stack = true → (s.channel stack channel).kind ≠ .periodic →
    exec (.retrainVerify stack channel false) s = .next (s)) ∧
  (∀ (stack : Fin 12) (channel : Fin 32)  (s : State), s.stackPresent stack = true → s.running = true → (s.channel stack channel).st = .reconstruct → (s.channel stack channel).forScan = false → (s.channel stack channel).retried = false → (s.channel stack channel).began + 2000000 ≤ s.aonNs →
    exec (.retrainTimeout stack channel) s = .next (s.mapChannel stack channel fun x => { x with retried := true, began := s.aonNs })) ∧
  (∀ (stack : Fin 12) (channel : Fin 32)  (s : State), s.stackPresent stack = true → s.running = true → (s.channel stack channel).st = .reconstruct → (s.channel stack channel).forScan = false → (s.channel stack channel).retried = true → (s.channel stack channel).began + 2000000 ≤ s.aonNs →
    exec (.retrainTimeout stack channel) s = .next (s.raise 0x15 (32 * stack + channel) 0 none)) ∧
  (∀ (stack : Fin 12) (channel : Fin 32)  (s : State), s.stackPresent stack = true → s.aonNs < (s.channel stack channel).began + 2000000 →
    exec (.retrainTimeout stack channel) s = .next (s)) ∧
  (∀ (stack : Fin 12) (channel : Fin 32)  (s : State), s.stackPresent stack = true → s.running = true → (s.channel stack channel).st = .draining →
    exec (.drainComplete stack channel) s = .next ((s.mapChannel stack channel fun x => { x with st := .online, hold := [], marked := [], retried := false }).bump (key (0x3010 + stack) 5))) ∧
  (∀ (stack : Fin 12) (channel : Fin 32)  (s : State), s.stackPresent stack = true → (s.channel stack channel).st ≠ .draining →
    exec (.drainComplete stack channel) s = .next (s))

/-- Temperature of the stacks and packages. A reading that reaches a higher tier than the stack's enters it, from NORMAL, WARM
or HOT; WARM, HOT and CRITICAL newly passed raise 0x17, 0x18 and 0x19, the highest first, and HOT and CRITICAL end a scan of
the stack. A reading that reaches no higher tier is kept with its counts; ten readings in a row below the threshold of WARM
or HOT, less the hysteresis, let the tier fall from it, and CRITICAL is left only by the stack's return. A CRITICAL stack
that has been below the limit for a second returns to a zero-fill, its channels online; one that has not stays. After the
zero-fill the stack is in service again and its tier is what its readings allow. A bulk package's refresh rate is what it
asks, and a package above its limit goes offline. It rests on R274, R275, R276. -/
def Obligations.Temperature : Prop :=
  (∀ (stack : Fin 12) (celsius : Int) (x : Stack) (s : State), s.stackPresent stack = true → s.running = true → s.dev.st ≠ .boot → s.dev.power < 4 → celsius < s.threshold 1 → celsius < s.threshold 2 → celsius < s.threshold 3 → (s.stack stack).tier = .normal → x = { s.stack stack with celsius := some celsius, belowWarm := countBelow (celsius < s.threshold 1 - (s.num 0x330004 : Int)) (s.stack stack).belowWarm, belowHot := countBelow (celsius < s.threshold 2 - (s.num 0x330004 : Int)) (s.stack stack).belowHot, belowCritical := countBelow (celsius < s.threshold 3 - 5) (s.stack stack).belowCritical } →
    exec (.hbmTemperatureReading stack celsius) s = .next (s.setStack stack x)) ∧
  (∀ (stack : Fin 12) (celsius : Int) (x : Stack) (s : State), s.stackPresent stack = true → s.running = true → s.dev.st ≠ .boot → s.dev.power < 4 → celsius < s.threshold 2 → celsius < s.threshold 3 → (s.stack stack).tier = .warm → x = { s.stack stack with celsius := some celsius, belowWarm := countBelow (celsius < s.threshold 1 - (s.num 0x330004 : Int)) (s.stack stack).belowWarm, belowHot := countBelow (celsius < s.threshold 2 - (s.num 0x330004 : Int)) (s.stack stack).belowHot, belowCritical := countBelow (celsius < s.threshold 3 - 5) (s.stack stack).belowCritical } →
    exec (.hbmTemperatureReading stack celsius) s = .next (s.setStack stack ({ x with tier := if 10 ≤ x.belowWarm then .normal else .warm }))) ∧
  (∀ (stack : Fin 12) (celsius : Int) (x : Stack) (s : State), s.stackPresent stack = true → s.running = true → s.dev.st ≠ .boot → s.dev.power < 4 → celsius < s.threshold 3 → (s.stack stack).tier = .hot → x = { s.stack stack with celsius := some celsius, belowWarm := countBelow (celsius < s.threshold 1 - (s.num 0x330004 : Int)) (s.stack stack).belowWarm, belowHot := countBelow (celsius < s.threshold 2 - (s.num 0x330004 : Int)) (s.stack stack).belowHot, belowCritical := countBelow (celsius < s.threshold 3 - 5) (s.stack stack).belowCritical } →
    exec (.hbmTemperatureReading stack celsius) s = .next (s.setStack stack ({ x with tier := if 10 ≤ x.belowHot then (if 10 ≤ x.belowWarm then .normal else .warm) else .hot }))) ∧
  (∀ (stack : Fin 12) (celsius : Int) (x : Stack) (s : State), s.stackPresent stack = true → s.running = true → s.dev.st ≠ .boot → s.dev.power < 4 → (s.stack stack).tier = .critical → x = { s.stack stack with celsius := some celsius, belowWarm := countBelow (celsius < s.threshold 1 - (s.num 0x330004 : Int)) (s.stack stack).belowWarm, belowHot := countBelow (celsius < s.threshold 2 - (s.num 0x330004 : Int)) (s.stack stack).belowHot, belowCritical := countBelow (celsius < s.threshold 3 - 5) (s.stack stack).belowCritical } →
    exec (.hbmTemperatureReading stack celsius) s = .next (s.setStack stack x)) ∧
  (∀ (stack : Fin 12) (celsius : Int) (x : Stack) (u : State) (s : State), s.stackPresent stack = true → s.running = true → s.dev.st ≠ .boot → s.dev.power < 4 → s.threshold 1 ≤ celsius → celsius < s.threshold 2 → celsius < s.threshold 3 → (s.stack stack).tier = .normal → x = { s.stack stack with celsius := some celsius, tier := .warm, belowWarm := countBelow (celsius < s.threshold 1 - (s.num 0x330004 : Int)) (s.stack stack).belowWarm, belowHot := countBelow (celsius < s.threshold 2 - (s.num 0x330004 : Int)) (s.stack stack).belowHot, belowCritical := countBelow (celsius < s.threshold 3 - 5) (s.stack stack).belowCritical } → u = s.setStack stack x →
    exec (.hbmTemperatureReading stack celsius) s = .next ((u.raise 0x17 stack 0 none))) ∧
  (∀ (stack : Fin 12) (celsius : Int) (x : Stack) (u : State) (s : State), s.stackPresent stack = true → s.running = true → s.dev.st ≠ .boot → s.dev.power < 4 → s.threshold 2 ≤ celsius → celsius < s.threshold 3 → (s.stack stack).tier = .normal → x = { s.stack stack with celsius := some celsius, tier := .hot, belowWarm := countBelow (celsius < s.threshold 1 - (s.num 0x330004 : Int)) (s.stack stack).belowWarm, belowHot := countBelow (celsius < s.threshold 2 - (s.num 0x330004 : Int)) (s.stack stack).belowHot, belowCritical := countBelow (celsius < s.threshold 3 - 5) (s.stack stack).belowCritical } → u = (s.setStack stack x).cutScan (fun i => i / 32 = stack) →
    exec (.hbmTemperatureReading stack celsius) s = .next (((u.raise 0x18 stack 0 none).raise 0x17 stack 0 none))) ∧
  (∀ (stack : Fin 12) (celsius : Int) (x : Stack) (u : State) (s : State), s.stackPresent stack = true → s.running = true → s.dev.st ≠ .boot → s.dev.power < 4 → s.threshold 3 ≤ celsius → (s.stack stack).tier = .normal → x = { s.stack stack with celsius := some celsius, tier := .critical, belowWarm := countBelow (celsius < s.threshold 1 - (s.num 0x330004 : Int)) (s.stack stack).belowWarm, belowHot := countBelow (celsius < s.threshold 2 - (s.num 0x330004 : Int)) (s.stack stack).belowHot, belowCritical := countBelow (celsius < s.threshold 3 - 5) (s.stack stack).belowCritical } → u = (s.setStack stack x).cutScan (fun i => i / 32 = stack) →
    exec (.hbmTemperatureReading stack celsius) s = .next ((((u.raise 0x19 stack 0 none).raise 0x18 stack 0 none).raise 0x17 stack 0 none))) ∧
  (∀ (stack : Fin 12) (celsius : Int) (x : Stack) (u : State) (s : State), s.stackPresent stack = true → s.running = true → s.dev.st ≠ .boot → s.dev.power < 4 → s.threshold 2 ≤ celsius → celsius < s.threshold 3 → (s.stack stack).tier = .warm → x = { s.stack stack with celsius := some celsius, tier := .hot, belowWarm := countBelow (celsius < s.threshold 1 - (s.num 0x330004 : Int)) (s.stack stack).belowWarm, belowHot := countBelow (celsius < s.threshold 2 - (s.num 0x330004 : Int)) (s.stack stack).belowHot, belowCritical := countBelow (celsius < s.threshold 3 - 5) (s.stack stack).belowCritical } → u = (s.setStack stack x).cutScan (fun i => i / 32 = stack) →
    exec (.hbmTemperatureReading stack celsius) s = .next ((u.raise 0x18 stack 0 none))) ∧
  (∀ (stack : Fin 12) (celsius : Int) (x : Stack) (u : State) (s : State), s.stackPresent stack = true → s.running = true → s.dev.st ≠ .boot → s.dev.power < 4 → s.threshold 3 ≤ celsius → (s.stack stack).tier = .warm → x = { s.stack stack with celsius := some celsius, tier := .critical, belowWarm := countBelow (celsius < s.threshold 1 - (s.num 0x330004 : Int)) (s.stack stack).belowWarm, belowHot := countBelow (celsius < s.threshold 2 - (s.num 0x330004 : Int)) (s.stack stack).belowHot, belowCritical := countBelow (celsius < s.threshold 3 - 5) (s.stack stack).belowCritical } → u = (s.setStack stack x).cutScan (fun i => i / 32 = stack) →
    exec (.hbmTemperatureReading stack celsius) s = .next (((u.raise 0x19 stack 0 none).raise 0x18 stack 0 none))) ∧
  (∀ (stack : Fin 12) (celsius : Int) (x : Stack) (u : State) (s : State), s.stackPresent stack = true → s.running = true → s.dev.st ≠ .boot → s.dev.power < 4 → s.threshold 3 ≤ celsius → (s.stack stack).tier = .hot → x = { s.stack stack with celsius := some celsius, tier := .critical, belowWarm := countBelow (celsius < s.threshold 1 - (s.num 0x330004 : Int)) (s.stack stack).belowWarm, belowHot := countBelow (celsius < s.threshold 2 - (s.num 0x330004 : Int)) (s.stack stack).belowHot, belowCritical := countBelow (celsius < s.threshold 3 - 5) (s.stack stack).belowCritical } → u = (s.setStack stack x).cutScan (fun i => i / 32 = stack) →
    exec (.hbmTemperatureReading stack celsius) s = .next ((u.raise 0x19 stack 0 none))) ∧
  (∀ (stack : Fin 12) (failed : BitVec 32) (s : State), s.stackPresent stack = true → (s.stack stack).belowCritical < 10000 →
    exec (.stackReturn stack failed) s = .next (s)) ∧
  (∀ (stack : Fin 12) (failed : BitVec 32) (s : State), s.stackPresent stack = true → ((s.stack stack).tier ≠ .critical ∨ (s.stack stack).zeroFilling = true) →
    exec (.stackReturn stack failed) s = .next (s)) ∧
  (∀ (stack : Fin 12) (u : State) (s : State), s.stackPresent stack = true → s.running = true → (s.stack stack).tier = .critical → 10000 ≤ (s.stack stack).belowCritical → (s.stack stack).zeroFilling = false → bit s.units.stack.toNat stack = true → u = (List.range 32).foldl (fun (s : State) c => if (s.channel stack c).st == .offline then s else (s.mapChannel stack c fun y => { y with st := .online, hold := [], marked := [], trained := s.aonNs, wanted := false, nextKind := .periodic, retried := false, errors := [], lastFull := some s.aonNs }).bump (key (0x3010 + stack) 5)) s → ((groupOf 0).filter fun c => (u.channel stack c).st == .offline) = [] → ((groupOf 16).filter fun c => (u.channel stack c).st == .offline) = [] →
    Answers (.stackReturn stack 0) s fun t =>
      t = u.setStack stack { u.stack stack with zeroFilling := true }) ∧
  (∀ (stack : Fin 12) (u : State) (s : State), s.stackPresent stack = true → s.running = true → (s.stack stack).zeroFilling = true → u = s.setStack stack { s.stack stack with zeroFilling := false, tier := tierOf ((s.stack stack).fallen 2) } →
    exec (.zeroFillComplete stack) s = .next (({ u with units := { u.units with stack := u.units.stack &&& ~~~ oneBit 12 stack }, mem := Memory.drop (u.liesOn 0 stack) u.mem }).restore)) ∧
  (∀ (stack : Fin 12)  (s : State), s.stackPresent stack = true → (s.stack stack).zeroFilling = false →
    exec (.zeroFillComplete stack) s = .next (s)) ∧
  (∀ (pkg : Fin 24) (rate : Byte) (s : State), bit s.chip.fitted.toNat pkg = true → s.running = true → s.dev.st ≠ .boot → s.dev.power < 4 → bit s.units.package.toNat pkg = false →
    exec (.bulkTemperatureRead pkg rate false) s = .next ({ s with tiers := { s.tiers with refresh := put pkg.val rate s.tiers.refresh } })) ∧
  (∀ (pkg : Fin 24) (rate : Byte) (s : State), bit s.chip.fitted.toNat pkg = true → s.running = true → s.dev.st ≠ .boot → s.dev.power < 4 → bit s.units.package.toNat pkg = false →
    exec (.bulkTemperatureRead pkg rate true) s = .next (({ s with tiers := { s.tiers with refresh := put pkg.val rate s.tiers.refresh } }).failUnit 0x22 pkg))

/-- Units that go offline. The failure of a unit that is online, while the device runs and is not in BOOT, raises the C3 event
of the unit's source, which takes the unit offline; of one that is offline already it has no effect. What the loss does to
the work that runs on the unit, package, expander or slice is the model's reading (log entry 27). A unit, package or
expander the part does not have is a fault. It rests on R15, R32, R264, R265, R281, R381. -/
def Obligations.UnitFailures : Prop :=
  (∀ (src n : Nat) (s : State), s.running = true → s.dev.st ≠ .boot → s.unitUp src n = true →
    s.failUnit src n = s.raise src n 0 none) ∧
  (∀ (src n : Nat) (s : State), s.unitUp src n = false →
    s.failUnit src n = s) ∧
  (∀ (u : UnitRef) (s : State), u.index < unitCount u.kind →
    exec (.unitOffline u) s = .next (s.failUnit (unitSource u.kind) u.index)) ∧
  (∀ (u : UnitRef) (s : State), unitCount u.kind ≤ u.index →
    exec (.unitOffline u) s = .fault .absentUnit) ∧
  (∀ (pkg : Fin 24) (s : State), bit s.chip.fitted.toNat pkg = true →
    exec (.bulkPackageOffline pkg) s = .next (s.failUnit 0x22 pkg)) ∧
  (∀ (e : Fin 4) (s : State), s.chip.portBRoot = true →
    exec (.expanderOffline e) s = .next (s.failUnit 0x29 e)) ∧
  (∀ (e : Fin 4) (s : State), s.chip.portBRoot = false →
    exec (.expanderOffline e) s = .fault .absentUnit) ∧
  (∀ (slice : Fin 32) (s : State),
    exec (.caskSliceOffline slice) s = .next (s.failUnit 0x31 slice)) ∧
  (∀ (group : Fin 16) (s : State),
    exec (.d2dLaneRetired group) s = .next (s.failUnit 0x54 group))

/-- The self-test. A short or extended self-test starts in the background, in PS0 to PS2 and with no test that occupies the
device, with the slices of its kind; any other kind, and a reserved byte that is not zero, is refused with FIELD. A listed
slice, in its turn and before a pause of more than 100 µs, is done with, once its unit is free for the test: it is counted
where it can be tested, and a failed one acts as its failure; after the last the test ends. A slice whose unit is in use
waits. A paused test resumes once it has been idle for the set time. At its limit it ends as aborted. The result is returned
in 24 bytes. It rests on R348, R435, R436, R437, R438. -/
def Obligations.SelfTestCommands : Prop :=
  (∀ (p : Port) (kind : Byte) (reserved : Bytes) (s : State), s.takes p false = true → reserved.any (· ≠ 0) = false → (kind = 1 ∨ kind = 2) → s.dev.power < 3 → s.testBusy = false → (s.port p).bg = none →
    exec (.startSelfTest p ⟨kind, reserved⟩) s = .next ({ (s.setPort p { s.port p with bg := some ⟨0xC060, kind.toNat⟩ }).reply p .backgroundStarted 0 [] with test := { s.test with selfTest := some { port := p, extended := kind = 2, started := s.stamp, begun := s.aonNs, left := if kind = 2 then s.shortSlices ++ s.longSlices else s.shortSlices } } })) ∧
  (∀ (p : Port) (kind : Byte) (reserved : Bytes) (s : State), s.takes p false = true → ((kind ≠ 1 ∧ kind ≠ 2) ∨ reserved.any (· ≠ 0) = true) →
    exec (.startSelfTest p ⟨kind, reserved⟩) s = .next (s.deny p .field)) ∧
  (∀ (p : Port) (s : State), s.takes p true = true →
    exec (.getSelfTestResult p) s = .next (s.ok p ([s.test.result.kind, s.test.result.outcome, 0, 0] ++ natLE 4 s.test.result.failures ++ natLE 8 s.test.result.started ++ natLE 8 s.test.result.completed))) ∧
  (∀ (r : SliceRef) (x : SelfTest) (s : State), s.test.selfTest = some x → s.slicePhase r ≠ 3 → x.left.contains r = true → x.phase ≤ s.slicePhase r → x.left.all (fun y => s.slicePhase r ≤ s.slicePhase y) = true → (x.paused = true → s.aonNs ≤ x.pausedAt + 100000) → s.sliceLater r = false → s.canTest r = true →
    exec (.selfTestSlice r true) s = .next (({ s.marchStarts r with test := { (s.marchStarts r).test with selfTest := some (x.past r (s.slicePhase r) true false) } }).testEnds)) ∧
  (∀ (r : SliceRef) (x : SelfTest) (s : State), s.test.selfTest = some x → s.slicePhase r ≠ 3 → x.left.contains r = true → x.phase ≤ s.slicePhase r → x.left.all (fun y => s.slicePhase r ≤ s.slicePhase y) = true → (x.paused = true → s.aonNs ≤ x.pausedAt + 100000) → s.sliceLater r = false → s.canTest r = true →
    exec (.selfTestSlice r false) s = .next ((({ s.marchStarts r with test := { (s.marchStarts r).test with selfTest := some (x.past r (s.slicePhase r) true true) } }).sliceFails r).testEnds)) ∧
  (∀ (r : SliceRef) (pass : Bool) (x : SelfTest) (s : State), s.test.selfTest = some x → s.slicePhase r ≠ 3 → x.left.contains r = true → x.phase ≤ s.slicePhase r → x.left.all (fun y => s.slicePhase r ≤ s.slicePhase y) = true → (x.paused = true → s.aonNs ≤ x.pausedAt + 100000) → s.sliceLater r = false → s.canTest r = false →
    exec (.selfTestSlice r pass) s = .next (({ s with test := { s.test with selfTest := some (x.past r (s.slicePhase r) false false) } }).testEnds)) ∧
  (∀ (r : SliceRef) (pass : Bool) (x : SelfTest) (s : State), s.test.selfTest = some x → s.sliceLater r = true →
    exec (.selfTestSlice r pass) s = .next (s)) ∧
  (∀ (r : SliceRef) (pass : Bool) (s : State), s.test.selfTest = none →
    exec (.selfTestSlice r pass) s = .next (s)) ∧
  (∀ (x : SelfTest) (s : State), s.test.selfTest = some x → x.paused = true → x.idleSince + s.num 0xD30003 ≤ s.aonNs → s.search.queries = [] → s.spools.sub.all (fun y => y.outstanding = 0) = true →
    exec (.selfTestResume) s = .next ({ s with test := { s.test with selfTest := some { x with paused := false } } })) ∧
  (∀ (x : SelfTest) (s : State), s.test.selfTest = some x → x.paused = false →
    exec (.selfTestResume) s = .next (s)) ∧
  (∀ (x : SelfTest) (s : State), s.test.selfTest = some x → x.begun + s.num (if x.extended then 0xD30005 else 0xD30004) * 1000000000 ≤ s.aonNs →
    exec (.selfTestLimit) s = .next (s.endSelfTest selfAborted)) ∧
  (∀ (x : SelfTest) (s : State), s.test.selfTest = some x → s.aonNs < x.begun + s.num (if x.extended then 0xD30005 else 0xD30004) * 1000000000 →
    exec (.selfTestLimit) s = .next (s))

/-- The test access port. With the device powered, each instruction of the test access port loads its code. IDCODE shifts out
the identification word. SAMPLE_PRELOAD captures the pins and shifts them out, while what EXTEST is to drive shifts in.
EXTEST, in a freeze or in BOOT before MAIN_EN, drives the pins from what was shifted in, and otherwise, in BOOT with MAIN_EN
too, it and BYPASS shift one 0. What SAMPLE captures, what EXTEST shifts out and how the chains shift is the model's choice
(log entries 7 and 33). FREEZE_STATUS shifts out the freeze, the chain and the policy in 32 bits. CHAIN_SELECT keeps the
chain, and CHAIN_READ shifts out its bits. In OFF the port does nothing. It rests on R443. -/
def Obligations.TestAccessPort : Prop :=
  (∀ (u : State) (s : State), s.dev.st ≠ .off → u = { s with test := { s.test with tap := { s.test.tap with ir := 0x01, driven := false } } } →
    exec (.idcode) s = .next (u.emit (.tdo (bitsOf 32 Config.idcodeWord.toNat)))) ∧
  (∀ (pins tdi : Bytes) (u : State) (s : State), s.dev.st ≠ .off → u = { s with test := { s.test with tap := { s.test.tap with ir := 0x02, driven := false } } } →
    exec (.samplePreload ⟨pins, tdi⟩) s = .next (({ u with test := { u.test with tap := { u.test.tap with sampled := pins, boundary := tdi } } }).emit (.tdo (pins.flatMap fun (b : Byte) => bitsOf 8 b.toNat)))) ∧
  (∀ (u : State) (s : State), s.dev.st ≠ .off → u = { s with test := { s.test with tap := { s.test.tap with ir := 0x03, driven := false } } } → (u.dev.frozen = true ∨ (u.dev.st = .boot ∧ u.dev.mainEn = false)) →
    exec (.extest) s = .next (({ u with test := { u.test with tap := { u.test.tap with driven := true } } }).emit (.tdo (u.test.tap.sampled.flatMap fun (b : Byte) => bitsOf 8 b.toNat)))) ∧
  (∀ (u : State) (s : State), s.dev.st ≠ .off → u = { s with test := { s.test with tap := { s.test.tap with ir := 0x03, driven := false } } } → u.dev.frozen = false → (u.dev.st ≠ .boot ∨ u.dev.mainEn = true) →
    exec (.extest) s = .next (u.emit (.tdo [false]))) ∧
  (∀ (u : State) (s : State), s.dev.st ≠ .off → u = { s with test := { s.test with tap := { s.test.tap with ir := 0x40, driven := false } } } →
    exec (.freezeStatus) s = .next (u.emit (.tdo (bitsOf 32 (bitIf u.dev.frozen 0 + 2 * u.test.tap.chain.toNat + 2 ^ 9 * (u.test.freezePolicy.toNat % 4)))))) ∧
  (∀ (chain : Byte) (u : State) (s : State), s.dev.st ≠ .off → u = { s with test := { s.test with tap := { s.test.tap with ir := 0x41, driven := false } } } →
    exec (.chainSelect chain) s = .next ({ u with test := { u.test with tap := { u.test.tap with chain := chain } } })) ∧
  (∀ (n : Nat) (u : State) (s : State), s.dev.st ≠ .off → u = { s with test := { s.test with tap := { s.test.tap with ir := 0x42, driven := false } } } →
    exec (.chainRead n) s = .next (u.emit (.tdo (u.chainBits u.test.tap.chain.toNat n)))) ∧
  (∀ (code : Byte) (s : State), s.dev.st ≠ .off → [(0x01 : Byte), 0x02, 0x03, 0x40, 0x41, 0x42].contains code = false →
    exec (.bypass code) s = .next (({ s with test := { s.test with tap := { s.test.tap with ir := code, driven := false } } }).emit (.tdo [false]))) ∧
  (∀ (s : State), s.dev.st = .off →
    exec (.idcode) s = .next (s))

/-- The Pattern Access Protocol, MCTP and their kept answers. A request of either transport that is heard, whose transport is
on, whose frame is right and that the rate allows, is performed, its answer, 24 bytes and the value, kept for its source and
request, and sent; one whose answer is still kept is answered from it and not performed again. A frame that is not right,
one over a transport that is off, and one beyond the rate are counted as discarded without an answer; one that nothing hears
has no effect. Staged bytes go when they have been idle for 10 s, and a kept answer a second after it was kept. It rests on
R370, R371, R372, R373. -/
def Obligations.Transports : Prop :=
  (∀ (ip : BitVec 32) (udp : BitVec 16) (b : Bytes) (u : State) (r : State × Answer) (x : Kept) (s : State), s.heard (.pap ip udp) = true → s.policy (.pap ip udp) ≠ 0 → papHead b = true → (parsePap b).op = PapOp.get.code → papLength PapOp.get (parsePap b) = true → u = s.rollSecond → u.rateLeft (.pap ip udp) = true → s.keptFor (.pap ip udp) (parsePap b).requestId = none → r = s.papPerform (.pap ip udp) PapOp.get (parsePap b) → x = ⟨(.pap ip udp), (parsePap b).requestId, r.1.aonNs, (parsePap b).answer r.2⟩ →
    exec (.papGet ip udp b) s = .next (((r.1.rollSecond.spendRate (.pap ip udp)).keep x).papAnswer (.pap ip udp) x)) ∧
  (∀ (ip : BitVec 32) (udp : BitVec 16) (b : Bytes) (u : State) (r : State × Answer) (x : Kept) (s : State), s.heard (.pap ip udp) = true → s.policy (.pap ip udp) ≠ 0 → papHead b = true → (parsePap b).op = PapOp.set.code → papLength PapOp.set (parsePap b) = true → u = s.rollSecond → u.rateLeft (.pap ip udp) = true → s.keptFor (.pap ip udp) (parsePap b).requestId = none → r = s.papPerform (.pap ip udp) PapOp.set (parsePap b) → x = ⟨(.pap ip udp), (parsePap b).requestId, r.1.aonNs, (parsePap b).answer r.2⟩ →
    exec (.papSet ip udp b) s = .next (((r.1.rollSecond.spendRate (.pap ip udp)).keep x).papAnswer (.pap ip udp) x)) ∧
  (∀ (ip : BitVec 32) (udp : BitVec 16) (b : Bytes) (u : State) (r : State × Answer) (x : Kept) (s : State), s.heard (.pap ip udp) = true → s.policy (.pap ip udp) ≠ 0 → papHead b = true → (parsePap b).op = PapOp.commit.code → papLength PapOp.commit (parsePap b) = true → u = s.rollSecond → u.rateLeft (.pap ip udp) = true → s.keptFor (.pap ip udp) (parsePap b).requestId = none → r = s.papPerform (.pap ip udp) PapOp.commit (parsePap b) → x = ⟨(.pap ip udp), (parsePap b).requestId, r.1.aonNs, (parsePap b).answer r.2⟩ →
    exec (.papCommit ip udp b) s = .next (((r.1.rollSecond.spendRate (.pap ip udp)).keep x).papAnswer (.pap ip udp) x)) ∧
  (∀ (ip : BitVec 32) (udp : BitVec 16) (b : Bytes) (u : State) (r : State × Answer) (x : Kept) (s : State), s.heard (.pap ip udp) = true → s.policy (.pap ip udp) ≠ 0 → papHead b = true → (parsePap b).op = PapOp.resync.code → papLength PapOp.resync (parsePap b) = true → u = s.rollSecond → u.rateLeft (.pap ip udp) = true → s.keptFor (.pap ip udp) (parsePap b).requestId = none → r = s.papPerform (.pap ip udp) PapOp.resync (parsePap b) → x = ⟨(.pap ip udp), (parsePap b).requestId, r.1.aonNs, (parsePap b).answer r.2⟩ →
    exec (.papResynchronise ip udp b) s = .next (((r.1.rollSecond.spendRate (.pap ip udp)).keep x).papAnswer (.pap ip udp) x)) ∧
  (∀ (eid : Byte) (b : Bytes) (u : State) (r : State × Answer) (x : Kept) (s : State), s.heard (.mctp eid) = true → s.policy (.mctp eid) ≠ 0 → papHead b = true → (parsePap b).op = PapOp.get.code → papLength PapOp.get (parsePap b) = true → u = s.rollSecond → u.rateLeft (.mctp eid) = true → s.keptFor (.mctp eid) (parsePap b).requestId = none → r = s.papPerform (.mctp eid) PapOp.get (parsePap b) → x = ⟨(.mctp eid), (parsePap b).requestId, r.1.aonNs, (parsePap b).answer r.2⟩ →
    exec (.mctpGet eid b) s = .next (((r.1.rollSecond.spendRate (.mctp eid)).keep x).papAnswer (.mctp eid) x)) ∧
  (∀ (eid : Byte) (b : Bytes) (u : State) (r : State × Answer) (x : Kept) (s : State), s.heard (.mctp eid) = true → s.policy (.mctp eid) ≠ 0 → papHead b = true → (parsePap b).op = PapOp.set.code → papLength PapOp.set (parsePap b) = true → u = s.rollSecond → u.rateLeft (.mctp eid) = true → s.keptFor (.mctp eid) (parsePap b).requestId = none → r = s.papPerform (.mctp eid) PapOp.set (parsePap b) → x = ⟨(.mctp eid), (parsePap b).requestId, r.1.aonNs, (parsePap b).answer r.2⟩ →
    exec (.mctpSet eid b) s = .next (((r.1.rollSecond.spendRate (.mctp eid)).keep x).papAnswer (.mctp eid) x)) ∧
  (∀ (eid : Byte) (b : Bytes) (u : State) (r : State × Answer) (x : Kept) (s : State), s.heard (.mctp eid) = true → s.policy (.mctp eid) ≠ 0 → papHead b = true → (parsePap b).op = PapOp.commit.code → papLength PapOp.commit (parsePap b) = true → u = s.rollSecond → u.rateLeft (.mctp eid) = true → s.keptFor (.mctp eid) (parsePap b).requestId = none → r = s.papPerform (.mctp eid) PapOp.commit (parsePap b) → x = ⟨(.mctp eid), (parsePap b).requestId, r.1.aonNs, (parsePap b).answer r.2⟩ →
    exec (.mctpCommit eid b) s = .next (((r.1.rollSecond.spendRate (.mctp eid)).keep x).papAnswer (.mctp eid) x)) ∧
  (∀ (eid : Byte) (b : Bytes) (u : State) (r : State × Answer) (x : Kept) (s : State), s.heard (.mctp eid) = true → s.policy (.mctp eid) ≠ 0 → papHead b = true → (parsePap b).op = PapOp.resync.code → papLength PapOp.resync (parsePap b) = true → u = s.rollSecond → u.rateLeft (.mctp eid) = true → s.keptFor (.mctp eid) (parsePap b).requestId = none → r = s.papPerform (.mctp eid) PapOp.resync (parsePap b) → x = ⟨(.mctp eid), (parsePap b).requestId, r.1.aonNs, (parsePap b).answer r.2⟩ →
    exec (.mctpResynchronise eid b) s = .next (((r.1.rollSecond.spendRate (.mctp eid)).keep x).papAnswer (.mctp eid) x)) ∧
  (∀ (src : Source) (op : PapOp) (b : Bytes) (s : State), s.heard src = false →
    s.papRequest src op b = s) ∧
  (∀ (src : Source) (op : PapOp) (b : Bytes) (s : State), s.heard src = true → (s.policy src = 0 ∨ papHead b = false) →
    s.papRequest src op b = s.countPap src false) ∧
  (∀ (src : Source) (op : PapOp) (b : Bytes) (s : State), s.heard src = true → s.policy src ≠ 0 → papHead b = true → (parsePap b).op = op.code → papLength op (parsePap b) = false →
    s.papRequest src op b = s.countPap src false) ∧
  (∀ (src : Source) (op : PapOp) (b : Bytes) (u : State) (s : State), s.heard src = true → s.policy src ≠ 0 → papHead b = true → (parsePap b).op = op.code → papLength op (parsePap b) = true → u = s.rollSecond → u.rateLeft src = false →
    s.papRequest src op b = u.countPap src false) ∧
  (∀ (src : Source) (op : PapOp) (b : Bytes) (u : State) (x : Kept) (s : State), s.heard src = true → s.policy src ≠ 0 → papHead b = true → (parsePap b).op = op.code → papLength op (parsePap b) = true → u = s.rollSecond → u.rateLeft src = true → s.keptFor src (parsePap b).requestId = some x →
    s.papRequest src op b = (u.spendRate src).papAnswer src x) ∧
  (∀ (ip : BitVec 32) (udp : BitVec 16) (x : Kept) (s : State),
    s.papAnswer (.pap ip udp) x = ((s.portSend x.datagram.length).countPap (.pap ip udp) true).emit (.pap (.pap ip udp) x.datagram)) ∧
  (∀ (eid : Byte) (x : Kept) (s : State),
    s.papAnswer (.mctp eid) x = (s.countPap (.mctp eid) true).emit (.pap (.mctp eid) x.datagram)) ∧
  (∀ (f : PapFrame) (a : Answer), a.value.length < 2 ^ 16 →
    ((f.answer a).take 24).length = 24 ∧ (f.answer a).drop 24 = a.value) ∧
  (∀ (src : Source) (s : State), s.stagingOf src = none →
    exec (.stagingDiscard src) s = .next (s.unstage src)) ∧
  (∀ (src : Source) (x : Staging) (s : State), s.stagingOf src = some x →
    exec (.stagingDiscard src) s = .next (s)) ∧
  (∀ (src : Source) (id : BitVec 32) (s : State),
    exec (.papAnswerExpiry src id) s = .next ({ s with trans := { s.trans with kept := s.trans.kept.filter fun x => !(x.src = src && x.requestId = id && x.time + 1000000000 ≤ s.aonNs) } }))

/-- Raised events, the fault pulse and escalation timers. EVENT_RAISED records its event with what its source does, and in OFF
has no effect; a RECIPE_CONTAINED also ends the run in progress with INTERNAL. The fault pulse ends at its time, and not
before: the pin is then low only where it is set to stay so. The reaction timer of an open event that has run out escalates
it, as of the instant at which it ran out, unless the device is frozen; before its time, or for an event that is not open,
nothing changes. It rests on R380, R387, R388, R390. -/
def Obligations.EventTimers : Prop :=
  (∀ (source : Byte) (inst : BitVec 16) (detail : BitVec 64) (r : Option Nat) (u : State) (s : State), s.dev.st ≠ .off → u = s.raise source.toNat inst.toNat detail.toNat r → source ≠ 0x39 → source ≠ 0x42 →
    exec (.eventRaised source inst detail r) s = .next (u)) ∧
  (∀ (inst : BitVec 16) (detail : BitVec 64) (r : Option Nat) (u : State) (x : Run) (s : State), s.dev.st ≠ .off → u = s.raise 0x39 inst.toNat detail.toNat r → u.dev.frozen = false → u.tun.run = some x →
    exec (.eventRaised 0x39 inst detail r) s = .next (u.endRun x runInternal (some x.step))) ∧
  (∀ (source : Byte) (inst : BitVec 16) (detail : BitVec 64) (r : Option Nat) (s : State), s.dev.st = .off →
    exec (.eventRaised source inst detail r) s = .next (s)) ∧
  (∀ (t : Nat) (s : State), s.thimble.pulse = some t → t ≤ s.aonNs →
    exec (.faultNPulseEnd) s = .next ({ s with thimble := { s.thimble with pulse := none, armed := false, faultLow := s.num 0xA11001 = 1 } })) ∧
  (∀ (t : Nat) (s : State), s.thimble.pulse = some t → s.aonNs < t →
    exec (.faultNPulseEnd) s = .next (s)) ∧
  (∀ (n t : Nat) (e : Event) (s : State), s.thimble.opened.find? (fun e => e.sequence = n) = some e → e.timer = some t → t ≤ s.aonNs → s.dev.frozen = false → s.dev.st ≠ .off →
    exec (.reactionTimer n) s = .next (s.escalate e t)) ∧
  (∀ (n t : Nat) (e : Event) (s : State), s.thimble.opened.find? (fun e => e.sequence = n) = some e → e.timer = some t → (s.aonNs < t ∨ s.dev.frozen = true) →
    exec (.reactionTimer n) s = .next (s)) ∧
  (∀ (n : Nat) (s : State), s.thimble.opened.find? (fun e => e.sequence = n) = none →
    exec (.reactionTimer n) s = .next (s))

/-- Link training and its faults. A link that runs goes from DETECT to MEASURE with a copper cable, from MEASURE to AUTONEG with
the cable's length kept and the pages of R291 sent, from AUTONEG to TRAIN with the partner's word, or to FAULT with cause 2
for another identifier, and from TRAIN with four lanes to ALIGN; the state it enters begins now. ALIGN sends the capability
word and goes to CONNECT, which makes its checks. A timed state that has lasted its limit (500 ms in AUTONEG, 3 s in TRAIN,
100 ms in ALIGN) goes back to DETECT, the third in a row to FAULT with cause 1, and before the limit nothing changes. FAULT
is left for DETECT after a second. Lost alignment takes an UP link to DETECT. A module's temperature is kept, and its fault
is a FAULT with cause 8. A number that stays invalid for 10 s is a FAULT with cause 4. A CONNECT of a link in another state
has no effect, and a link the part lacks is a fault. It rests on R289, R290, R291, R292, R294, R295, R307. -/
def Obligations.LinkTraining : Prop :=
  (∀ (link : Fin 32)  (s : State), s.linkPresent link = true → (s.link link).st = .detect → s.linkRuns link = true → s.dev.refclk.getLsbD 1 = true →
    exec (.detect link .copper) s = .next ((s.enterLink link .measure).mapLink link fun l => { l with optical := false })) ∧
  (∀ (link : Fin 32) (r : DetectResult) (s : State), s.linkPresent link = true → (s.link link).st = .detect → s.linkRuns link = true → s.dev.refclk.getLsbD 1 = false →
    exec (.detect link r) s = .next (s)) ∧
  (∀ (n : Nat) (st : LinkState) (s : State),
    s.enterLink n st = s.mapLink n fun l => { l with st := st, since := s.aonNs }) ∧
  (∀ (link : Fin 32) (cm : BitVec 16) (s : State), s.linkPresent link = true → (s.link link).st = .measure → s.linkRuns link = true →
    exec (.measure link cm) s = .next (((s.setNum (key (linkIndex link) 6) cm.toNat).enterLink link .autoneg).emitAll [.page link .base, .page link (.message s.chip.vendorOui), .page link (.unformatted ((s.capWord link).truncate 32)), .page link (.unformatted ((s.capWord link).extractLsb' 32 32))])) ∧
  (∀ (link : Fin 32) (oui : BitVec 24) (word : BitVec 64) (s : State), s.linkPresent link = true → (s.link link).st = .autoneg → s.linkRuns link = true → oui ≠ s.chip.vendorOui →
    exec (.autoneg link oui word) s = .next (s.linkFault link 2)) ∧
  (∀ (link : Fin 32) (word : BitVec 64) (s : State), s.linkPresent link = true → (s.link link).st = .autoneg → s.linkRuns link = true →
    exec (.autoneg link s.chip.vendorOui word) s = .next (((s.setPartner link word).enterLink link .train).mapLink link fun l => { l with invalidSince := none })) ∧
  (∀ (link : Fin 32) (loss : F32) (s : State), s.linkPresent link = true → (s.link link).st = .train → s.linkRuns link = true → (s.link link).optical = false →
    exec (.linkTrainingComplete link 0xF loss) s = .next (((s.setNum (key (linkIndex link) 7) loss.toNat).enterLink link .align).mapLink link fun l => { l with lanes := 4 })) ∧
  (∀ (link : Fin 32) (lanes : BitVec 4) (loss : F32) (s : State), s.linkPresent link = true → (s.link link).st = .train → s.linkRuns link = true → lanes ≠ 0xF → lanes ≠ 0x3 → lanes ≠ 0xC →
    exec (.linkTrainingComplete link lanes loss) s = .next (s)) ∧
  (∀ (link : Fin 32) (device w : BitVec 64) (s : State), s.linkPresent link = true → (s.link link).st = .align → s.linkRuns link = true → (s.link link).partner = some w → w.getLsbD 63 = true → (s.link link).optical = false →
    exec (.align ⟨link, device⟩) s = .next (((s.enterLink link .connect).mapLink link fun l => { l with device := device, credits := [0, 0, 1], timeouts := 0, invalidSince := none }).control link 4 (s.capWord link) [])) ∧
  (∀ (link : Fin 32)  (s : State), s.linkPresent link = true → (s.link link).st = .connect → s.linkRuns link = true →
    exec (.connect link) s = .next (s.tryConnect link)) ∧
  (∀ (link : Fin 32) (s : State), s.linkPresent link = true → (s.link link).st ≠ .connect →
    exec (.connect link) s = .next (s)) ∧
  (∀ (link : Nat) (w : BitVec 64) (c : Nat) (s : State), (s.link link).partner = some w → (s.link link).st = .connect → s.linkRuns link = true → s.numbered = true → s.connectCause link w = some c →
    s.tryConnect link = s.linkFault link c) ∧
  (∀ (st : LinkState),
    st.limit = (match st with | .autoneg => some 500000000 | .train => some 3000000000 | .align => some 100000000 | _ => none)) ∧
  (∀ (link : Fin 32) (n : Nat) (s : State), s.linkPresent link = true → s.linkRuns link = true → (s.link link).st.limit = some n → (s.link link).since + n ≤ s.aonNs → (s.link link).timeouts < 2 →
    exec (.linkTimeout link) s = .next ((s.linkDown link .detect).mapLink link fun l => { l with timeouts := l.timeouts + 1 })) ∧
  (∀ (link : Fin 32) (n : Nat) (s : State), s.linkPresent link = true → s.linkRuns link = true → (s.link link).st.limit = some n → (s.link link).since + n ≤ s.aonNs → 2 ≤ (s.link link).timeouts →
    exec (.linkTimeout link) s = .next (s.linkFault link 1)) ∧
  (∀ (link : Fin 32) (n : Nat) (s : State), s.linkPresent link = true → (s.link link).st.limit = some n → s.aonNs < (s.link link).since + n →
    exec (.linkTimeout link) s = .next (s)) ∧
  (∀ (n cause : Nat) (s : State),
    s.linkFault n cause = (((s.linkDown n .fault).mapLink n fun l => { l with cause := BitVec.ofNat 8 cause, faultAt := s.aonNs, timeouts := 0 })).event 0x58 n cause) ∧
  (∀ (link : Fin 32)  (s : State), s.linkPresent link = true → (s.link link).st = .fault → s.linkRuns link = true → (s.link link).faultAt + 1000000000 ≤ s.aonNs →
    exec (.faultRetry link) s = .next (s.enterLink link .detect)) ∧
  (∀ (link : Fin 32)  (s : State), s.linkPresent link = true → (s.link link).st = .fault → s.linkRuns link = true → s.aonNs < (s.link link).faultAt + 1000000000 →
    exec (.faultRetry link) s = .next (s)) ∧
  (∀ (link : Fin 32) (s : State), s.linkPresent link = true → (s.link link).st = .up → s.running = true →
    exec (.alignmentLost link) s = .next (s.linkDown link .detect)) ∧
  (∀ (link : Fin 32) (celsius : Int) (s : State), s.linkPresent link = true → (s.link link).optical = true → s.running = true →
    exec (.modulePoll link celsius false false) s = .next (s.setNum (key (linkIndex link) 0xF) (BitVec.ofInt 32 celsius).toNat)) ∧
  (∀ (link : Fin 32) (celsius : Int) (u : State) (s : State), s.linkPresent link = true → (s.link link).optical = true → s.running = true → u = s.setNum (key (linkIndex link) 0xF) (BitVec.ofInt 32 celsius).toNat → (u.link link).st ≠ .disabled → (u.link link).st ≠ .fault →
    exec (.modulePoll link celsius false true) s = .next (u.linkFault link 8)) ∧
  (∀ (link : Fin 32) (t : Nat) (s : State), s.linkPresent link = true → (s.link link).st = .connect → s.linkRuns link = true → (s.link link).invalidSince = some t → s.numbered = true → t + 10000000000 < s.aonNs →
    exec (.numberInvalid link) s = .next (s.linkFault link 4)) ∧
  (∀ (link : Fin 32) (device : BitVec 64) (s : State), s.linkPresent link = false →
    exec (.align ⟨link, device⟩) s = .fault .absentUnit ∧ exec (.linkTimeout link) s = .fault .absentUnit ∧ exec (.alignmentLost link) s = .fault .absentUnit)

/-- Credit, acknowledgement, replay, keys and SPDM on a link. A CREDIT frame that a link hears adds the frames in its operand to
the channel it names, and what waits leaves as credit allows. An ACK releases the replay buffer up to its sequence where the
buffer holds it. A REPLAY does so too, is counted, and sends the frames after it again as they were sent; the one that makes
more than 1,000 within a second takes the link to DETECT, counted and with event 0x59. A frame that fails its CRC is
discarded and a replay asked for, and one out of sequence is discarded. KEY_UPDATE on an encrypted link sends SPDM's message
and starts the next key with a frame counter of 0; on another it has no effect. Frames that have waited longer than P8100.04
for credit are discarded and counted, and a request of this device among them completes with TIMEOUT. The layouts of CREDIT,
of the frames of link control and of the capability operand are the model's choice (log entry 28). In CONNECT a CAPABILITY
frame keeps the partner's word and is acknowledged; an SPDM message is acknowledged and answered, a session that the link
must have is kept once established and CONNECT goes on, and one that fails is a FAULT with cause 7; with no session under
way its failure has no effect. On an UP link an SPDM message is acknowledged, and the partner's KEY_UPDATE on an encrypted
one starts its next key with a frame counter of 0 and is answered. It rests on R291, R296, R297, R298, R300, R321. -/
def Obligations.LinkControl : Prop :=
  (∀ (link : Fin 32) (r : Rx) (f : Frame) (s : State), s.linkPresent link = true → s.running = true → s.linkUp link = true → s.hears link r f = true → f.kind = .control → f.op = 1 →
    exec (.credit link r.wire r.fec) s = .next (((s.tookFrame link r).mapLink link fun l => { l with credits := l.credits.set (f.operand.toNat % 256) (((l.credits[f.operand.toNat % 256]?).getD 0) + f.operand.toNat / 256) }).drainWaiting link)) ∧
  (∀ (link : Fin 32) (r : Rx) (f : Frame) (s : State), s.linkPresent link = true → s.running = true → s.linkUp link = true → s.hears link r f = true → f.kind = .control → f.op = 2 →
    exec (.ack link r) s = .next ((((s.tookFrame link r).mapLink link (Link.release (f.operand.truncate 32))).drainWaiting link).giveCredit link 2)) ∧
  (∀ (q : BitVec 32) (l : Link), (l.replay.any fun x => x.1 = q) = false →
    l.release q = l) ∧
  (∀ (q : BitVec 32) (l : Link), (l.replay.any fun x => x.1 = q) = true →
    l.release q = { l with replay := (l.replay.dropWhile fun x => x.1 ≠ q).drop 1 }) ∧
  (∀ (link : Fin 32) (r : Rx) (f : Frame) (u v : State) (s : State), s.linkPresent link = true → s.running = true → s.linkUp link = true → s.hears link r f = true → f.kind = .control → f.op = 3 → u = (s.tookFrame link r).mapLink link (Link.release (f.operand.truncate 32)) → v = (u.mapLink link fun l => { l with replays := u.aonNs :: l.replays.filter fun t => u.aonNs < t + 1000000000 }).bump (key (linkIndex link) 0xB) → (v.link link).replays.length ≤ 1000 →
    exec (.linkReplay link r) s = .next ((v.emitAll ((v.link link).replay.map fun y => .frame link y.2)).giveCredit link 2)) ∧
  (∀ (link : Fin 32) (r : Rx) (f : Frame) (u v : State) (s : State), s.linkPresent link = true → s.running = true → s.linkUp link = true → s.hears link r f = true → f.kind = .control → f.op = 3 → u = (s.tookFrame link r).mapLink link (Link.release (f.operand.truncate 32)) → v = (u.mapLink link fun l => { l with replays := u.aonNs :: l.replays.filter fun t => u.aonNs < t + 1000000000 }).bump (key (linkIndex link) 0xB) → 1000 < (v.link link).replays.length → (v.link link).st = .up →
    exec (.linkReplay link r) s = .next (((v.linkDown link .detect).bump (key (linkIndex link) 0xC)).event 0x59 link (v.link link).cause.toNat)) ∧
  (∀ (link : Fin 32) (r : Rx) (s : State), s.linkPresent link = true → s.running = true → s.linkUp link = true → (s.link link).whole r.wire = false →
    exec (.credit link r.wire r.fec) s = .next ((s.countFec link r).askReplay link)) ∧
  (∀ (link : Fin 32) (r : Rx) (f : Frame) (s : State), s.linkPresent link = true → s.running = true → s.linkUp link = true → (s.link link).whole r.wire = true → (s.link link).frameOf r.wire = some f → f.kind = .control → f.op = 1 → wireSeq r.wire ≠ (s.link link).seqIn →
    exec (.credit link r.wire r.fec) s = .next (s.countFec link r)) ∧
  (∀ (n : Nat) (s : State),
    s.askReplay n = (if (s.countReplay n).2 then (s.countReplay n).1.control n 3 ((((s.countReplay n).1.link n).seqIn - 1).zeroExtend 64) [] else (s.countReplay n).1)) ∧
  (∀ (link : Fin 32)  (s : State), s.linkPresent link = true → s.running = true → s.linkUp link = true → (s.link link).encrypted = true →
    exec (.keyUpdate link) s = .next ((((s.mapLink link (Link.useCredit 2)).push link (s.controlFrame link 5 0 (Config.spdmBytes s.free))).spend).mapLink link fun l => { l with frameCounter := 0, keyEpoch := l.keyEpoch + 1 })) ∧
  (∀ (link : Fin 32)  (s : State), s.linkPresent link = true → s.running = true → s.linkUp link = true → (s.link link).encrypted = false →
    exec (.keyUpdate link) s = .next (s)) ∧
  (∀ (link : Fin 32) (late : List Sent) (u : State) (s : State), s.linkPresent link = true → s.running = true → s.linkUp link = true → late = ((s.link link).waiting.filter fun x => x.since + s.num 0x810004 < s.aonNs) → u = (s.mapLink link fun l => { l with waiting := l.waiting.filter fun x => s.aonNs ≤ x.since + s.num 0x810004 }).bumpBy 0x810007 late.length →
    exec (.creditStall link) s = .next (late.foldl (fun (s : State) x => if x.frame.kind != .request || x.frame.src.toNat ≠ s.devNum then s else match s.request x.frame.tag with | some r => s.settleRequest r rsTimeout | none => s) u)) ∧
  (∀ (link : Fin 32) (r : Rx) (f : Frame) (s : State), s.linkPresent link = true → (s.link link).st = .connect → s.linkRuns link = true → s.hears link r f = true → f.kind = .control → f.op = 4 →
    exec (.capability link r) s = .next (((s.tookFrame link r).setPartner link f.operand).accepted link (s.link link).seqIn (some 2))) ∧
  (∀ (n : Nat) (w : BitVec 64) (s : State), w.getLsbD 63 = true →
    s.setPartner n w = (s.mapLink n fun l => { l with partner := some w, invalidSince := none }).setNum (key (linkIndex n) 4) w.toNat) ∧
  (∀ (n : Nat) (q : BitVec 32) (vc : Nat) (s : State),
    s.accepted n q none = s.control n 2 (q.zeroExtend 64) [] ∧ s.accepted n q (some vc) = (s.control n 2 (q.zeroExtend 64) []).control n 1 (BitVec.ofNat 64 (vc + 256)) []) ∧
  (∀ (link : Fin 32) (r : Rx) (f : Frame) (u : State) (s : State), s.linkPresent link = true → (s.link link).st = .connect → s.linkRuns link = true → s.hears link r f = true → f.kind = .control → f.op = 5 → u = (s.tookFrame link r).accepted link (s.link link).seqIn (some 2) →
    exec (.linkSpdm link (.message r)) s = .next ((u.control link 5 0 (Config.spdmBytes (s.tookFrame link r).free)).spend)) ∧
  (∀ (link : Fin 32) (r : Rx) (f : Frame) (s : State), s.linkPresent link = true → s.running = true → s.linkUp link = true → s.hears link r f = true → f.kind = .control → f.op = 5 →
    exec (.linkSpdm link (.message r)) s = .next ((s.tookFrame link r).accepted link (s.link link).seqIn (some 2))) ∧
  (∀ (link : Fin 32) (r : Rx) (f : Frame) (u : State) (s : State), s.linkPresent link = true → s.running = true → s.linkUp link = true → s.hears link r f = true → f.kind = .control → f.op = 5 → (s.link link).encrypted = true → u = (s.tookFrame link r).mapLink link Link.rekeyIn →
    exec (.linkSpdm link (.keyUpdate r)) s = .next (((u.accepted link (s.link link).seqIn (some 2)).control link 5 0 (Config.spdmBytes u.free)).spend)) ∧
  (∀ (l : Link),
    l.rekeyIn = { l with counterIn := 0, keyEpochIn := l.keyEpochIn + 1 }) ∧
  (∀ (link : Fin 32)  (s : State), s.linkPresent link = true → (s.link link).st = .connect → s.linkRuns link = true → s.inSession link = true →
    exec (.linkSpdm link .established) s = .next (((s.mapLink link fun l => { l with session := true, secret := s.fresh, keyEpoch := 0, keyEpochIn := 0, frameCounter := 0, counterIn := 0 }).spend).tryConnect link)) ∧
  (∀ (link : Fin 32)  (s : State), s.linkPresent link = true → (s.link link).st = .connect → s.linkRuns link = true → s.inSession link = true →
    exec (.linkSpdm link .failed) s = .next (s.linkFault link 7)) ∧
  (∀ (link : Fin 32)  (s : State), s.linkPresent link = true → (s.link link).st = .connect → s.linkRuns link = true → s.inSession link = false →
    exec (.linkSpdm link .failed) s = .next (s))

/-- Operations of other devices. Each request that a link hears, whose frame is well formed and for this device, is
acknowledged, performed, counted, and answered with its status, data and old value; a FENCED device answers FENCED to each,
a malformed one is answered INVALID, and a frame for another device is forwarded. A request of no operation of R302 is
INVALID at its target. A FENCE is answered OK. That a FENCE is OK at any address, that the device a malformed frame arrives
at answers it, and that a frame's credit is given back as the frame is taken, is the model's choice (log entry 28). A
request whose shape breaks R302 is answered ALIGN. In the memory tiers an operation no grant allows is answered ACCESS, and
one on an address nothing backs UNBACKED, and whatever the answer an address nothing backs is counted; an allowed PUT stores
its payload; a GET returns the bytes and an 8-byte operation returns the old value and writes the sum, the new value where
the old one matches, or the operand, unless a line it reads is uncorrectable, which is answered POISON. A response to a
request in flight completes it. It rests on R301, R302, R303, R304, R306, R322. -/
def Obligations.RemoteOperations : Prop :=
  (∀ (link : Fin 32) (r : Rx) (f : Frame) (u : State) (x : State × RemoteAns) (s : State), s.linkPresent link = true → s.running = true → s.linkUp link = true → s.hears link r f = true → f.kind = .request → f.op = opPut → wireSound r.wire = true → u = (s.tookFrame link r).accepted link (s.link link).seqIn (some 0) → u.dev.st ≠ .fenced → f.dest.toNat = u.devNum → x = u.perform ⟨f.op, addrLocal f.address, f.operand, f.payload, f.operand.toNat, f.src.toNat⟩ true link [] →
    exec (.put link r) s = .next ((x.1.countAnswer x.2.status).respond x.2.status f x.2.data x.2.old)) ∧
  (∀ (link : Fin 32) (r : Rx) (f : Frame) (faults : List LineFault) (u : State) (x : State × RemoteAns) (s : State), s.linkPresent link = true → s.running = true → s.linkUp link = true → s.hears link r f = true → f.kind = .request → f.op = opGet → wireSound r.wire = true → u = (s.tookFrame link r).accepted link (s.link link).seqIn (some 0) → u.dev.st ≠ .fenced → f.dest.toNat = u.devNum → x = u.perform ⟨f.op, addrLocal f.address, f.operand, f.payload, f.operand.toNat, f.src.toNat⟩ true link faults →
    exec (.get link ⟨r, faults⟩) s = .next ((x.1.countAnswer x.2.status).respond x.2.status f x.2.data x.2.old)) ∧
  (∀ (link : Fin 32) (r : Rx) (f : Frame) (faults : List LineFault) (u : State) (x : State × RemoteAns) (s : State), s.linkPresent link = true → s.running = true → s.linkUp link = true → s.hears link r f = true → f.kind = .request → f.op = opAdd → wireSound r.wire = true → u = (s.tookFrame link r).accepted link (s.link link).seqIn (some 0) → u.dev.st ≠ .fenced → f.dest.toNat = u.devNum → x = u.perform ⟨f.op, addrLocal f.address, f.operand, f.payload, f.operand.toNat, f.src.toNat⟩ true link faults →
    exec (.add64 link ⟨r, faults⟩) s = .next ((x.1.countAnswer x.2.status).respond x.2.status f x.2.data x.2.old)) ∧
  (∀ (link : Fin 32) (r : Rx) (f : Frame) (faults : List LineFault) (u : State) (x : State × RemoteAns) (s : State), s.linkPresent link = true → s.running = true → s.linkUp link = true → s.hears link r f = true → f.kind = .request → f.op = opCas → wireSound r.wire = true → u = (s.tookFrame link r).accepted link (s.link link).seqIn (some 0) → u.dev.st ≠ .fenced → f.dest.toNat = u.devNum → x = u.perform ⟨f.op, addrLocal f.address, f.operand, f.payload, f.operand.toNat, f.src.toNat⟩ true link faults →
    exec (.cas64 link ⟨r, faults⟩) s = .next ((x.1.countAnswer x.2.status).respond x.2.status f x.2.data x.2.old)) ∧
  (∀ (link : Fin 32) (r : Rx) (f : Frame) (faults : List LineFault) (u : State) (x : State × RemoteAns) (s : State), s.linkPresent link = true → s.running = true → s.linkUp link = true → s.hears link r f = true → f.kind = .request → f.op = opSwap → wireSound r.wire = true → u = (s.tookFrame link r).accepted link (s.link link).seqIn (some 0) → u.dev.st ≠ .fenced → f.dest.toNat = u.devNum → x = u.perform ⟨f.op, addrLocal f.address, f.operand, f.payload, f.operand.toNat, f.src.toNat⟩ true link faults →
    exec (.swap64 link ⟨r, faults⟩) s = .next ((x.1.countAnswer x.2.status).respond x.2.status f x.2.data x.2.old)) ∧
  (∀ (link : Fin 32) (r : Rx) (f : Frame) (u : State) (x : State × RemoteAns) (s : State), s.linkPresent link = true → s.running = true → s.linkUp link = true → s.hears link r f = true → f.kind = .request → f.op = opMerge → wireSound r.wire = true → u = (s.tookFrame link r).accepted link (s.link link).seqIn (some 0) → u.dev.st ≠ .fenced → f.dest.toNat = u.devNum → x = u.perform ⟨f.op, addrLocal f.address, f.operand, f.payload, f.operand.toNat, f.src.toNat⟩ true link [] →
    exec (.merge link r) s = .next ((x.1.countAnswer x.2.status).respond x.2.status f x.2.data x.2.old)) ∧
  (∀ (link : Fin 32) (r : Rx) (f : Frame) (u : State) (x : State × RemoteAns) (s : State), s.linkPresent link = true → s.running = true → s.linkUp link = true → s.hears link r f = true → f.kind = .request → f.op = opFence → wireSound r.wire = true → u = (s.tookFrame link r).accepted link (s.link link).seqIn (some 0) → u.dev.st ≠ .fenced → f.dest.toNat = u.devNum → x = u.perform ⟨f.op, addrLocal f.address, f.operand, f.payload, f.operand.toNat, f.src.toNat⟩ true link [] →
    exec (.fence link r) s = .next ((x.1.countAnswer x.2.status).respond x.2.status f x.2.data x.2.old)) ∧
  (∀ (link : Fin 32) (r : Rx) (f : Frame) (u : State) (x : State × RemoteAns) (s : State), s.linkPresent link = true → s.running = true → s.linkUp link = true → s.hears link r f = true → f.kind = .request → f.op = opSignal → wireSound r.wire = true → u = (s.tookFrame link r).accepted link (s.link link).seqIn (some 0) → u.dev.st ≠ .fenced → f.dest.toNat = u.devNum → x = u.perform ⟨f.op, addrLocal f.address, f.operand, f.payload, f.operand.toNat, f.src.toNat⟩ true link [] →
    exec (.signal link r) s = .next ((x.1.countAnswer x.2.status).respond x.2.status f x.2.data x.2.old)) ∧
  (∀ (n : Nat) (sound : Bool) (fs : List LineFault) (f : Frame) (s : State), s.dev.st = .fenced →
    s.requestIn n sound fs f = s.respond rsFenced f [] 0) ∧
  (∀ (n : Nat) (fs : List LineFault) (f : Frame) (s : State), s.dev.st ≠ .fenced →
    s.requestIn n false fs f = s.respond rsInvalid f [] 0) ∧
  (∀ (n : Nat) (fs : List LineFault) (f : Frame) (s : State), s.dev.st ≠ .fenced → f.dest.toNat ≠ s.devNum →
    s.requestIn n true fs f = s.forward f) ∧
  (∀ (o : RemoteOp) (remote : Bool) (link : Nat) (fs : List LineFault) (s : State), o.op = opFence →
    s.perform o remote link fs = (s, ⟨rsOk, [], 0⟩)) ∧
  (∀ (o : RemoteOp) (remote : Bool) (link : Nat) (fs : List LineFault) (s : State), knownOp o.op = false →
    s.perform o remote link fs = (s, ⟨rsInvalid, [], 0⟩)) ∧
  (∀ (link : Fin 32) (r : Rx) (f : Frame) (u : State) (s : State), s.linkPresent link = true → s.running = true → s.linkUp link = true → s.hears link r f = true → f.kind = .request → knownOp f.op = false → wireSound r.wire = true → u = (s.tookFrame link r).accepted link (s.link link).seqIn (some 0) → u.dev.st ≠ .fenced → f.dest.toNat = u.devNum →
    exec (.put link r) s = .next (u.respond rsInvalid f [] 0)) ∧
  (∀ (o : RemoteOp) (remote : Bool) (link : Nat) (fs : List LineFault) (s : State), 1 ≤ o.op.toNat → o.op.toNat ≤ 8 → o.op ≠ opFence → shapeOk o.op o.addr o.len o.payload.length = false →
    s.perform o remote link fs = (s, ⟨rsAlign, [], 0⟩)) ∧
  (∀ (o : RemoteOp) (fs : List LineFault) (s u : State), u = s.loadAppears → u.granted o = false →
    s.tierOp o true fs = (if u.backedRange o.addr o.size then u else u.unbacked, ⟨rsAccess, [], 0⟩)) ∧
  (∀ (o : RemoteOp) (fs : List LineFault) (s u : State), u = s.loadAppears → u.granted o = true → rightOf o.op ≠ none → u.backedRange o.addr o.size = false →
    s.tierOp o true fs = (u.unbacked, ⟨rsUnbacked, [], 0⟩)) ∧
  (∀ (o : RemoteOp) (fs : List LineFault) (s u : State), u = s.loadAppears → u.granted o = true → o.op = opPut → u.backedRange o.addr o.size = true → u.addrOffline o.addr = false →
    s.tierOp o true fs = (u.devWrite o.addr o.payload, ⟨rsOk, [], 0⟩)) ∧
  (∀ (o : RemoteOp) (fs : List LineFault) (s u v : State), u = s.loadAppears → u.granted o = true → o.op = opGet → u.backedRange o.addr o.size = true → u.addrOffline o.addr = false → u.readLines fs (linesOf o.addr o.size) = (v, false) →
    s.tierOp o true fs = (v, ⟨rsOk, v.mem.read o.addr o.len, 0⟩)) ∧
  (∀ (o : RemoteOp) (fs : List LineFault) (s u v : State), u = s.loadAppears → u.granted o = true → (o.op = opAdd ∨ o.op = opCas ∨ o.op = opSwap) → u.backedRange o.addr o.size = true → u.addrOffline o.addr = false → u.readLines fs (linesOf o.addr o.size) = (v, false) →
    s.tierOp o true fs = ((v.wordOp o.op o.addr o.operand (BitVec.ofNat 64 (leNat o.payload))).1, ⟨rsOk, [], v.word o.addr⟩)) ∧
  (∀ (o : RemoteOp) (fs : List LineFault) (s u v : State), u = s.loadAppears → u.granted o = true → (o.op = opGet ∨ o.op = opAdd ∨ o.op = opCas ∨ o.op = opSwap) → u.backedRange o.addr o.size = true → u.addrOffline o.addr = false → u.readLines fs (linesOf o.addr o.size) = (v, true) →
    s.tierOp o true fs = (v, ⟨rsPoison, [], 0⟩)) ∧
  (∀ (old operand new : BitVec 64),
    newWord opAdd old operand new = old + operand ∧ newWord opSignal old operand new = old + operand ∧ newWord opCas old operand new = (if old = operand then new else old) ∧ newWord opSwap old operand new = operand) ∧
  (∀ (link : Fin 32) (r : Rx) (f : Frame) (u : State) (x : Req) (s : State), s.linkPresent link = true → s.running = true → s.linkUp link = true → s.hears link r f = true → f.kind = .response → f.status = 0 → u = (s.tookFrame link r).accepted link (s.link link).seqIn (some 1) → f.dest.toNat = u.devNum → u.request f.tag = some x →
    exec (.response link r.wire r.fec.corrected r.fec.uncorrected) s = .next (u.completeRequest x f)) ∧
  (∀ (link : Fin 32) (r : Rx) (s : State), s.linkPresent link = true → (s.link link).st ≠ .connect → s.linkUp link = false →
    exec (.response link r.wire r.fec.corrected r.fec.uncorrected) s = .next (s))

/-- Request timeouts, host request slots, hedging and the lead's cutoff. A request in flight longer than its limit completes
with TIMEOUT, and before that is left alone. HOST_REQUEST_GO clears the slot's go byte; a slot that is not a request
completes with INVALID, one on a FENCED device with FENCED, one whose data stops it with that status, and any other runs as
it then stands. A shard nothing of which has been heard P8300.05 after its dispatch, with a replica left, is counted and
dispatched again. At the lead's cutoff its record is evaluated, and not before. It rests on R303, R308, R317, R318. -/
def Obligations.Requests : Prop :=
  (∀ (tag : BitVec 32) (r : Req) (s : State), s.request tag = some r → s.running = true → r.issued + s.num 0x810003 ≤ s.aonNs →
    exec (.requestTimeout tag) s = .next (s.settleRequest r rsTimeout)) ∧
  (∀ (tag : BitVec 32) (r : Req) (s : State), s.request tag = some r → s.aonNs < r.issued + s.num 0x810003 →
    exec (.requestTimeout tag) s = .next (s)) ∧
  (∀ (tag : BitVec 32) (s : State), s.request tag = none →
    exec (.requestTimeout tag) s = .next (s)) ∧
  (∀ (slot : Fin 512) (faults : List LineFault) (u : State) (s : State), s.upstream.contains (slotPort slot) = true → s.running = true → (s.dev.st.ready = true ∨ s.dev.st = .fenced) → u = s.devWrite (slotBase slot + 0x3F) [0] → (u.readSlot slot).ok = false →
    exec (.hostRequestGo ⟨slot, faults⟩) s = .next (u.finishSlot slot (u.takeSlot slot) rsInvalid 0 [])) ∧
  (∀ (slot : Fin 512) (faults : List LineFault) (u v : State) (s : State), s.upstream.contains (slotPort slot) = true → s.running = true → s.dev.st.ready = true → u = s.devWrite (slotBase slot + 0x3F) [0] → (u.readSlot slot).ok = true → u.dev.st ≠ .fenced → u.sourceStop (u.readSlot slot) faults = (v, none) →
    exec (.hostRequestGo ⟨slot, faults⟩) s = .next (v.runSlot slot (u.readSlot slot) (u.takeSlot slot) faults)) ∧
  (∀ (slot : Fin 512) (faults : List LineFault) (u v : State) (st : Byte) (s : State), s.upstream.contains (slotPort slot) = true → s.running = true → s.dev.st.ready = true → u = s.devWrite (slotBase slot + 0x3F) [0] → (u.readSlot slot).ok = true → u.dev.st ≠ .fenced → u.sourceStop (u.readSlot slot) faults = (v, some st) →
    exec (.hostRequestGo ⟨slot, faults⟩) s = .next (v.finishSlot slot (u.takeSlot slot) st 0 [])) ∧
  (∀ (slot : Fin 512) (faults : List LineFault) (u : State) (s : State), s.upstream.contains (slotPort slot) = true → s.running = true → s.dev.st = .fenced → u = s.devWrite (slotBase slot + 0x3F) [0] → (u.readSlot slot).ok = true → u.dev.st = .fenced →
    exec (.hostRequestGo ⟨slot, faults⟩) s = .next (u.finishSlot slot (u.takeSlot slot) rsFenced 0 [])) ∧
  (∀ (window : Fin 64) (id : BitVec 32) (shard : Nat) (r : MergeRec) (x : ShardState) (s : State), s.mergeRec window id = some r → r.shards[shard]? = some x → s.running = true → s.num 0x830005 ≠ 0 → x.dispatched + s.num 0x830005 ≤ s.now → x.result = none → x.heard = false → x.current ≠ none → s.nextReplica x ≠ none →
    exec (.hedgeTimer window id shard) s = .next ((s.bump 0x83000C).redispatch window id shard)) ∧
  (∀ (window : Fin 64) (id : BitVec 32) (shard : Nat) (s : State), s.mergeRec window id = none →
    exec (.hedgeTimer window id shard) s = .next (s)) ∧
  (∀ (window : Fin 64) (id : BitVec 32) (r : MergeRec) (s : State), s.mergeRec window id = some r → s.running = true → r.cutoff ≤ s.now →
    exec (.leadCutoff window id) s = .next (s.checkRecord window id)) ∧
  (∀ (window : Fin 64) (id : BitVec 32) (r : MergeRec) (s : State), s.mergeRec window id = some r → s.now < r.cutoff →
    exec (.leadCutoff window id) s = .next (s))

/-- Loop-backs and margin scans. At the end of its duration a loop-back adds what was compared and the bits in error, keeps the
time of its first error, and ends with PASS where no bit is in error, or, at a depth that is not digital, where the ratio is
at or below PD100.09, and else with FAIL: its result is then kept and it reads OFF. A test on a memory channel that waits
begins at an instant that meets its conditions: the channel enters RECONSTRUCT for it and the test runs; without one for a
second it ends, a scan with BELL_CONFLICT and a loop-back with CUT, which is the model's choice (log entry 33). A margin
step that passes goes on, and one that fails or is the last ends its side; after the eighth side the scan ends with DONE and
its edges kept. It rests on R428, R430, R431, R432, R434. -/
def Obligations.InterfaceTests : Prop :=
  (∀ (bits errors : Nat) (t0 : Time) (x : TestRun) (b e : Nat) (u v : State) (s : State), s.test.loop = some x → x.waiting = false → x.deadline ≤ s.aonNs → s.running = true → b = min (s.num 0xD10007 + bits) (2 ^ 64 - 1) → e = min (s.num 0xD10008 + errors) b → u = (s.setNum 0xD10007 b).setNum 0xD10008 e → v = (if errors = 0 ∨ u.num 0xD1000A ≠ 0 then u else u.setNum 0xD1000A t0) →
    exec (.loopBackDuration bits errors t0) s = .next (v.endLoop (if v.loopPasses b e then testDone else testFailed))) ∧
  (∀ (bits errors : Nat) (s : State), (digitalDepth s.loopPort s.loopDepth = true ∨ bits = 0) →
    s.loopPasses bits errors = decide (errors = 0)) ∧
  (∀ (bits errors : Nat) (s : State), digitalDepth s.loopPort s.loopDepth = false → bits ≠ 0 →
    s.loopPasses bits errors = (Dy.ofInt errors).le ((f32 (BitVec.ofNat 32 (s.num 0xD10009))).val.mul (Dy.ofInt bits))) ∧
  (∀ (result : Nat) (x : TestRun) (s : State), s.test.loop = some x → s.num 0xD10002 ≠ 1 → s.scannedChannel = none →
    s.endLoop result = (({ s with test := { s.test with loop := none } }).setNum 0xD10006 result).setSw 0xD100 ⟨.off, none⟩) ∧
  (∀ (bits errors : Nat) (t0 : Time) (x : TestRun) (s : State), s.test.loop = some x → s.aonNs < x.deadline →
    exec (.loopBackDuration bits errors t0) s = .next (s)) ∧
  (∀ (i : Nat) (u v : State) (s : State), s.waitingChannel = some (false, i) → s.scanInstant (i / 32) (i % 32) = true → u = s.mapChannel (i / 32) (i % 32) (fun c => { c with st := .reconstruct, forScan := true, wanted := false }) → v = u.marginRuns → (v.sw 0xD200).st ≠ .starting →
    exec (.marginScanStart) s = .next (v)) ∧
  (∀ (i : Nat) (u v : State) (s : State), s.waitingChannel = some (false, i) → s.scanInstant (i / 32) (i % 32) = true → u = s.mapChannel (i / 32) (i % 32) (fun c => { c with st := .reconstruct, forScan := true, wanted := false }) → v = u.marginRuns → v.sw 0xD200 = ⟨.starting, none⟩ →
    exec (.marginScanStart) s = .next (v.setSw 0xD200 ⟨.on, none⟩)) ∧
  (∀ (s : State), s.waitingChannel = none →
    exec (.marginScanStart) s = .next (s)) ∧
  (∀ (i : Nat) (x : TestRun) (s : State), s.waitingChannel = some (false, i) → s.test.margin = some x → 1000000000 + x.since ≤ s.aonNs →
    exec (.bellConflict) s = .next (s.endMargin testFailed)) ∧
  (∀ (i : Nat) (x : TestRun) (s : State), s.waitingChannel = some (true, i) → s.test.loop = some x → 1000000000 + x.since ≤ s.aonNs →
    exec (.bellConflict) s = .next (s.endLoop testCut)) ∧
  (∀ (x : TestRun) (s : State), s.test.margin = some x → x.waiting = false → s.running = true → x.step ≠ s.sideSteps x.setting →
    exec (.marginStep true) s = .next ({ s with test := { s.test with margin := some { x with step := x.step + 1, best := x.step } } })) ∧
  (∀ (x : TestRun) (s : State), s.test.margin = some x → x.waiting = false → s.running = true → x.step = s.sideSteps x.setting →
    exec (.marginStep true) s = .next (s.sideDone x x.step)) ∧
  (∀ (x : TestRun) (s : State), s.test.margin = some x → x.waiting = false → s.running = true →
    exec (.marginStep false) s = .next (s.sideDone x x.best)) ∧
  (∀ (x : TestRun) (best : Nat) (s : State), x.setting ≠ 7 →
    s.sideDone x best = { s with test := { s.test with margin := some { x with setting := x.setting + 1, step := 1, best := 0, edges := x.edges ++ [edgeValue x.setting best] } } }) ∧
  (∀ (x : TestRun) (best : Nat) (s : State), x.setting = 7 →
    s.sideDone x best = ((s.setBlob 0xD20005 ((x.edges ++ [edgeValue 7 best]).flatMap fun x => natLE 2 (unsigned 16 x))).bump 0xD20006).endMargin testDone)

/-- Device reset on Port A and elsewhere. Where the mailbox answers, Device reset on Port A writes its completion with Success
and then takes the device through the same reset that PERSTA_N or a CXL reset of Port A takes it through, in every device
state, FENCED included: the straps are latched anew and the boot epoch goes up by one. On Port B it is refused with PORT and
nothing is reset. It formalises R349. -/
def Obligations.DeviceReset : Prop :=
  (∀ (straps : BitVec 2) (s : State), s.mailboxUp = true →
    Answers (.deviceReset .a straps) s fun t =>
      t = (s.ok .a []).reboot straps ∧
      t.dev.straps = straps ∧
      t.dev.epoch = ((s.ok .a []).dev.epoch + 1) % 2 ^ 32) ∧
  (∀ (straps : BitVec 2) (s : State), s.mailboxUp = true →
    exec (.deviceReset .b straps) s = .next (s.deny .b .port)) ∧
  (∀ (straps : BitVec 2) (s : State), s.dev.st ≠ .off →
    exec (.perstaN straps) s = .next (({ s with dev := { s.dev with perstA := true } }).reboot straps))

/-- Submit recipe and its refusals. Where the mailbox takes work, Submit recipe with a 32-byte run descriptor whose reserved
fields are zero and whose recipe is aligned puts the run at the end of the queue and returns its position, counted from 0,
and seven reserved bytes. With 16 runs queued it is refused with QUEUE_FULL, while P7020.01 is not ON with NOT_ON, and in
PS2, PS3 and PS4 with POWER_STATE, each where it is the only reason to refuse. Descriptors that break their form, and
several reasons at once, are in the statement Recipes. It formalises R347. -/
def Obligations.SubmitRecipe : Prop :=
  (∀ (p : Port) (d : Bytes) (u : State) (s : State), s.takes p false = true → u = s.loadAppears → d.length = 32 → runReservedOk d = true → (parseRun p d).recipe % 64 = 0 → u.tun.queue.length < 16 → u.isOn 0x7020 = true → u.dev.power < 2 →
    exec (.submitRecipe p d) s = .next (({ u with tun := { u.tun with queue := u.tun.queue ++ [parseRun p d] } }).ok p (natLE 1 u.tun.queue.length ++ zeros 7))) ∧
  (∀ (p : Port) (d : Bytes) (u : State) (s : State), s.takes p false = true → u = s.loadAppears → d.length = 32 → runReservedOk d = true → (parseRun p d).recipe % 64 = 0 → 16 ≤ u.tun.queue.length → u.isOn 0x7020 = true → u.dev.power < 2 →
    exec (.submitRecipe p d) s = .next (u.deny p .queueFull)) ∧
  (∀ (p : Port) (d : Bytes) (u : State) (s : State), s.takes p false = true → u = s.loadAppears → d.length = 32 → runReservedOk d = true → (parseRun p d).recipe % 64 = 0 → u.tun.queue.length < 16 → u.isOn 0x7020 = false → u.dev.power < 2 →
    exec (.submitRecipe p d) s = .next (u.deny p .notOn)) ∧
  (∀ (p : Port) (d : Bytes) (u : State) (s : State), s.takes p false = true → u = s.loadAppears → d.length = 32 → runReservedOk d = true → (parseRun p d).recipe % 64 = 0 → u.tun.queue.length < 16 → u.isOn 0x7020 = true → 2 ≤ u.dev.power →
    exec (.submitRecipe p d) s = .next (u.deny p .powerState))

/-- Collections survive no reset, no move to BOOT and no loss of VAUX. After PERSTA_N or a CXL reset of Port A in any state but
OFF, after Device reset, after the move to BOOT from OFF and after a loss of VAUX there is no collection, so that every
handle is ABSENT; and the state that is left is the same whatever the collections held before, so that no part of them is in
retained state. It formalises R133. -/
def Obligations.CollectionsAreLost : Prop :=
  (∀ (straps : BitVec 2) (s : State), s.dev.st ≠ .off →
    Answers (.perstaN straps) s fun t =>
      t.colls = []) ∧
  (∀ (straps : BitVec 2) (s : State), s.mailboxUp = true →
    Answers (.deviceReset .a straps) s fun t =>
      t.colls = []) ∧
  (∀ (straps : BitVec 2) (s : State), s.dev.st = .off →
    Answers (.powerGood straps) s fun t =>
      t.colls = []) ∧
  (∀ (s : State),
    Answers (.vauxLost) s fun t =>
      t.colls = []) ∧
  (∀ (straps : BitVec 2) (c : List Coll) (s : State),
    ({ s with colls := c }).reboot straps = ({ s with colls := [] }).reboot straps) ∧
  (∀ (straps : BitVec 2) (c : List Coll) (s : State), s.dev.st = .off →
    exec (.powerGood straps) { s with colls := c } = exec (.powerGood straps) { s with colls := [] }) ∧
  (∀ (c : List Coll) (s : State),
    exec .vauxLost { s with colls := c } = exec .vauxLost { s with colls := [] })
end

