-- ==== Sys2Proof/Laws/Maps.lean ====
section
/-!
SUPPORT. The laws of the sorted tables (Machine/Bytes.lean): what a key reads as after a put or a removal, and that
both keep the canonical form; and from them the laws of byte memory and of the numeric entries.
-/

namespace Sys2Proof.Machine

variable {α : Type}

/-! ## Reading after a put or a removal -/

@[simp] theorem look_nil (k : Nat) : look ([] : List (Nat × α)) k = none := rfl

theorem look_cons (a : Nat) (x : α) (r : List (Nat × α)) (k : Nat) :
    look ((a, x) :: r) k = if k = a then some x else look r k := by
  by_cases h : k = a
  · subst h; simp [look, List.lookup]
  · have h' : (k == a) = false := by simpa using h
    simp [look, List.lookup, h', h]

theorem rising_tail {a : Nat} {x : α} {r : List (Nat × α)} (h : rising ((a, x) :: r) = true) : rising r = true := by
  cases r with
  | nil => rfl
  | cons p r => simp [rising] at h; exact h.2

theorem rising_head {a : Nat} {x : α} {r : List (Nat × α)} (h : rising ((a, x) :: r) = true) :
    ∀ p ∈ r, a < p.1 := by
  induction r generalizing a x with
  | nil => simp
  | cons q r ih =>
    obtain ⟨b, y⟩ := q
    simp [rising] at h
    intro p hp
    rcases List.mem_cons.mp hp with rfl | hp
    · exact h.1
    · exact Nat.lt_trans h.1 (ih h.2 p hp)

theorem rising_cons {a : Nat} {x : α} {r : List (Nat × α)} (h : rising r = true) (hr : ∀ p ∈ r, a < p.1) :
    rising ((a, x) :: r) = true := by
  cases r with
  | nil => rfl
  | cons q r => obtain ⟨b, y⟩ := q; simp [rising]; exact ⟨hr (b, y) (by simp), h⟩

theorem look_none_of_lt {r : List (Nat × α)} {k : Nat} (h : ∀ p ∈ r, k < p.1) : look r k = none := by
  induction r with
  | nil => rfl
  | cons q r ih =>
    obtain ⟨b, y⟩ := q
    have hb := h (b, y) (by simp)
    rw [look_cons, if_neg (by simp at hb; omega)]
    exact ih fun p hp => h p (by simp [hp])

theorem look_put_same (k : Nat) (v : α) (l : List (Nat × α)) : look (put k v l) k = some v := by
  induction l with
  | nil => simp [put, look_cons]
  | cons q r ih =>
    obtain ⟨a, x⟩ := q
    simp only [put]
    split
    · simp [look_cons]
    · split
      · simp [look_cons]
      · rw [look_cons, if_neg ‹_›, ih]

theorem look_put_other {k j : Nat} (h : j ≠ k) (v : α) (l : List (Nat × α)) : look (put k v l) j = look l j := by
  induction l with
  | nil => simp [put, look_cons, h]
  | cons q r ih =>
    obtain ⟨a, x⟩ := q
    simp only [put]
    split
    · simp [look_cons, h]
    · split
      · subst k; simp [look_cons, h]
      · simp only [look_cons, ih]

theorem look_del_other {k j : Nat} (h : j ≠ k) (l : List (Nat × α)) : look (del k l) j = look l j := by
  induction l with
  | nil => rfl
  | cons q r ih =>
    obtain ⟨a, x⟩ := q
    simp only [del]
    split
    · rfl
    · split
      · subst k; simp [look_cons, h]
      · simp only [look_cons, ih]

theorem look_del_same {l : List (Nat × α)} (k : Nat) (h : rising l = true) : look (del k l) k = none := by
  induction l with
  | nil => rfl
  | cons q r ih =>
    obtain ⟨a, x⟩ := q
    simp only [del]
    split
    · refine look_none_of_lt fun p hp => ?_
      rcases List.mem_cons.mp hp with rfl | hp
      · assumption
      · exact Nat.lt_trans ‹_› (rising_head h p hp)
    · split
      · subst k; exact look_none_of_lt (rising_head h)
      · rw [look_cons, if_neg ‹_›]; exact ih (rising_tail h)

/-! ## The canonical form is kept -/

theorem mem_put {k : Nat} {v : α} {l : List (Nat × α)} {p : Nat × α} (h : p ∈ put k v l) : p = (k, v) ∨ p ∈ l := by
  induction l with
  | nil => simpa [put] using h
  | cons q r ih =>
    obtain ⟨a, x⟩ := q
    simp only [put] at h
    split at h
    · simpa using h
    · split at h
      · rcases List.mem_cons.mp h with h | h
        · exact .inl h
        · exact .inr (by simp [h])
      · rcases List.mem_cons.mp h with h | h
        · exact .inr (by simp [h])
        · rcases ih h with h | h
          · exact .inl h
          · exact .inr (by simp [h])

theorem mem_del {k : Nat} {l : List (Nat × α)} {p : Nat × α} (h : p ∈ del k l) : p ∈ l := by
  induction l with
  | nil => simp [del] at h
  | cons q r ih =>
    obtain ⟨a, x⟩ := q
    simp only [del] at h
    split at h
    · exact h
    · split at h
      · simp [h]
      · rcases List.mem_cons.mp h with h | h
        · simp [h]
        · simp [ih h]

theorem rising_put {l : List (Nat × α)} (k : Nat) (v : α) (h : rising l = true) : rising (put k v l) = true := by
  induction l with
  | nil => rfl
  | cons q r ih =>
    obtain ⟨a, x⟩ := q
    simp only [put]
    split
    · refine rising_cons h fun p hp => ?_
      rcases List.mem_cons.mp hp with rfl | hp
      · assumption
      · exact Nat.lt_trans ‹_› (rising_head h p hp)
    · split
      · subst k; exact rising_cons (rising_tail h) (rising_head h)
      · refine rising_cons (ih (rising_tail h)) fun p hp => ?_
        rcases mem_put hp with rfl | hp
        · simp; omega
        · exact rising_head h p hp

theorem rising_del {l : List (Nat × α)} (k : Nat) (h : rising l = true) : rising (del k l) = true := by
  induction l with
  | nil => rfl
  | cons q r ih =>
    obtain ⟨a, x⟩ := q
    simp only [del]
    split
    · exact h
    · split
      · exact rising_tail h
      · exact rising_cons (ih (rising_tail h)) fun p hp => rising_head h p (mem_del hp)

theorem rising_filter {l : List (Nat × α)} (p : Nat × α → Bool) (h : rising l = true) : rising (l.filter p) = true := by
  induction l with
  | nil => rfl
  | cons q r ih =>
    obtain ⟨a, x⟩ := q
    rw [List.filter_cons]
    split
    · exact rising_cons (ih (rising_tail h)) fun c hc => rising_head h c (List.mem_filter.mp hc).1
    · exact ih (rising_tail h)

/-! ## Lists that leave out a default -/

theorem look_filter (p : Nat → Bool) (a : Nat) (l : List (Nat × α)) :
    look (l.filter fun c => p c.1) a = if p a then look l a else none := by
  induction l with
  | nil => simp
  | cons c r ih =>
    obtain ⟨k, v⟩ := c
    by_cases hk : p k = true
    · simp only [List.filter, hk, look_cons, ih]
      grind
    · simp only [List.filter, hk, look_cons, ih]
      grind

theorem lookDef_putDef_other [DecidableEq α] {k j : Nat} (h : j ≠ k) (d e v : α) (l : List (Nat × α)) :
    lookDef e (putDef d k v l) j = lookDef e l j := by
  unfold lookDef putDef
  split
  · rw [look_del_other h]
  · rw [look_put_other h]

theorem lookDef_putDef_same [DecidableEq α] {l : List (Nat × α)} (d : α) (k : Nat) (v : α) (h : rising l = true) :
    lookDef d (putDef d k v l) k = v := by
  unfold lookDef putDef
  split
  · rw [look_del_same k h]; simp [*]
  · rw [look_put_same]; rfl

theorem lookDef_putDef_ne [DecidableEq α] {d v : α} (h : v ≠ d) (k : Nat) (l : List (Nat × α)) :
    lookDef d (putDef d k v l) k = v := by
  simp [lookDef, putDef, h, look_put_same]

/-- A link that is not as at reset reads as it was stored. -/
theorem State.link_setLink {n : Nat} {x : Link} (h : x ≠ {}) (s : State) : (s.setLink n x).link n = x := lookDef_putDef_ne h ..

theorem rising_putDef [DecidableEq α] {l : List (Nat × α)} (d : α) (k : Nat) (v : α) (h : rising l = true) :
    rising (putDef d k v l) = true := by
  unfold putDef
  split
  · exact rising_del k h
  · exact rising_put k v h

theorem mem_putDef [DecidableEq α] {d v : α} {k : Nat} {l : List (Nat × α)} {p : Nat × α} (h : p ∈ putDef d k v l) :
    (p = (k, v) ∧ v ≠ d) ∨ p ∈ l := by
  unfold putDef at h
  split at h
  · exact .inr (mem_del h)
  · rcases mem_put h with h | h
    · exact .inl ⟨h, ‹_›⟩
    · exact .inr h

/-! ## Byte memory -/

theorem Memory.wf_setByte (a : Nat) (v : Byte) {m : Memory} (h : m.wf = true) : (m.setByte a v).wf = true := by
  simp only [Memory.wf, Bool.and_eq_true, List.all_eq_true] at h ⊢
  refine ⟨rising_putDef _ _ _ h.1, fun c hc => ?_⟩
  rcases mem_putDef hc with ⟨rfl, hv⟩ | hc
  · simpa using hv
  · exact h.2 c hc

theorem Memory.wf_write (a : Nat) (b : Bytes) {m : Memory} (h : m.wf = true) : (m.write a b).wf = true := by
  induction b generalizing a m with
  | nil => exact h
  | cons v r ih => exact ih _ (Memory.wf_setByte a v h)

theorem Memory.wf_drop (p : Nat → Bool) {m : Memory} (h : m.wf = true) : (m.drop p).wf = true := by
  simp only [Memory.wf, Bool.and_eq_true, List.all_eq_true] at h ⊢
  exact ⟨rising_filter _ h.1, fun c hc => h.2 c (List.mem_filter.mp hc).1⟩

theorem Memory.byte_setByte_same (a : Nat) (v : Byte) {m : Memory} (h : m.wf = true) : (m.setByte a v).byte a = v := by
  simp only [Memory.wf, Bool.and_eq_true] at h
  exact lookDef_putDef_same 0 a v h.1

theorem Memory.byte_setByte_other {a j : Nat} (h : j ≠ a) (v : Byte) (m : Memory) : (m.setByte a v).byte j = m.byte j :=
  lookDef_putDef_other h 0 0 v m

theorem Memory.byte_write_outside {a j : Nat} {b : Bytes} (h : j < a ∨ a + b.length ≤ j) (m : Memory) :
    (m.write a b).byte j = m.byte j := by
  induction b generalizing a m with
  | nil => rfl
  | cons v r ih =>
    simp only [List.length_cons] at h
    rw [Memory.write, ih (by omega), Memory.byte_setByte_other (by omega)]

theorem Memory.byte_write_inside {a i : Nat} {b : Bytes} (h : i < b.length) {m : Memory} (hm : m.wf = true) :
    (m.write a b).byte (a + i) = b[i] := by
  induction b generalizing a i m with
  | nil => simp at h
  | cons v r ih =>
    rw [Memory.write]
    cases i with
    | zero =>
      rw [Memory.byte_write_outside (by omega), Nat.add_zero, Memory.byte_setByte_same _ _ hm]; rfl
    | succ i =>
      have := ih (a := a + 1) (i := i) (by simpa using h) (Memory.wf_setByte a v hm)
      rw [show a + (i + 1) = a + 1 + i by omega, this]; rfl

@[simp] theorem Memory.read_length (m : Memory) (a n : Nat) : (m.read a n).length = n := by
  induction n generalizing a with
  | zero => rfl
  | succ n ih => simp [Memory.read, ih]

/-- What is read after a write of as many bytes to the same place is what was written. -/
theorem Memory.read_write (a : Nat) (b : Bytes) {m : Memory} (hm : m.wf = true) : (m.write a b).read a b.length = b := by
  induction b generalizing a m with
  | nil => rfl
  | cons v r ih =>
    have h := ih (a + 1) (Memory.wf_setByte a v hm)
    rw [List.length_cons, Memory.read, Memory.write, h, Memory.byte_write_outside (by omega),
      Memory.byte_setByte_same _ _ hm]

/-! ## Numeric entries -/

theorem Memory.byte_drop (p : Nat → Bool) (m : Memory) (a : Nat) : (m.drop p).byte a = if p a then 0 else m.byte a := by
  have := look_filter (fun k => !p k) a m
  simp only [Memory.byte, Memory.drop, lookDef, this]
  cases p a <;> simp

@[simp] theorem natLE_length (n v : Nat) : (natLE n v).length = n := by
  induction n generalizing v with
  | zero => rfl
  | succ n ih => simp [natLE, ih]

@[simp] theorem zeros_length (n : Nat) : (zeros n).length = n := List.length_replicate

@[simp] theorem padTo_length (n : Nat) (b : Bytes) : (padTo n b).length = n := by
  simp [padTo, List.length_take]; omega

theorem State.num_setNum_other {k j : Nat} (h : j ≠ k) (v : Nat) (s : State) : (s.setNum k v).num j = s.num j := by
  unfold State.num State.setNum putDef
  dsimp only
  split
  · rw [look_del_other h]
  · rw [look_put_other h]

theorem State.num_setNum_same {s : State} (k v : Nat) (h : Book.wf s.book = true) (hv : v < 2 ^ 64)
    (hd : defaultOf k < 2 ^ 64) : (s.setNum k v).num k = v := by
  simp only [Book.wf, Bool.and_eq_true] at h
  unfold State.num State.setNum putDef
  dsimp only
  split
  · rename_i he
    rw [look_del_same k h.1]
    have := congrArg BitVec.toNat he
    simp only [BitVec.toNat_ofNat] at this
    rw [Nat.mod_eq_of_lt hv, Nat.mod_eq_of_lt hd] at this
    simp [this]
  · rw [look_put_same]; simp only [Option.map_some, Option.getD_some, BitVec.toNat_ofNat, Nat.mod_eq_of_lt hv]

theorem Book.wf_setNum (k v : Nat) {s : State} (h : Book.wf s.book = true) : Book.wf (s.setNum k v).book = true := by
  simp only [Book.wf, Bool.and_eq_true, List.all_eq_true] at h ⊢
  refine ⟨rising_putDef _ _ _ h.1, fun c hc => ?_⟩
  rcases mem_putDef hc with ⟨rfl, hv⟩ | hc
  · simpa using hv
  · exact h.2 c hc

theorem Book.wf_bumpBy (k n : Nat) {s : State} (h : Book.wf s.book = true) : Book.wf (s.bumpBy k n).book = true :=
  Book.wf_setNum _ _ h

theorem switchesWf_putDef (i : Nat) (x : Switch) {l : List (Nat × Switch)} (h : switchesWf l = true) :
    switchesWf (putDef (switchDefault i) i x l) = true := by
  simp only [switchesWf, Bool.and_eq_true, List.all_eq_true] at h ⊢
  refine ⟨rising_putDef _ _ _ h.1, fun c hc => ?_⟩
  rcases mem_putDef hc with ⟨rfl, hv⟩ | hc
  · simpa using hv
  · exact h.2 c hc

end Sys2Proof.Machine
end

