-- ==== Sys2Proof/Laws/State.lean ====
section
/-!
SUPPORT. What each named update of the state leaves alone: one lemma per field per update of Machine/Ops.lean.
-/

namespace Sys2Proof.Machine

/-! ## setNum: all but book -/

@[simp] theorem State.setNum_pending (k v : Nat) (s : State) : (s.setNum k v).pending = s.pending := rfl
@[simp] theorem State.setNum_out (k v : Nat) (s : State) : (s.setNum k v).out = s.out := rfl
@[simp] theorem State.setNum_free (k v : Nat) (s : State) : (s.setNum k v).free = s.free := rfl
@[simp] theorem State.setNum_dev (k v : Nat) (s : State) : (s.setNum k v).dev = s.dev := rfl
@[simp] theorem State.setNum_units (k v : Nat) (s : State) : (s.setNum k v).units = s.units := rfl
@[simp] theorem State.setNum_chip (k v : Nat) (s : State) : (s.setNum k v).chip = s.chip := rfl
@[simp] theorem State.setNum_ftu (k v : Nat) (s : State) : (s.setNum k v).ftu = s.ftu := rfl
@[simp] theorem State.setNum_cal (k v : Nat) (s : State) : (s.setNum k v).cal = s.cal := rfl
@[simp] theorem State.setNum_switches (k v : Nat) (s : State) : (s.setNum k v).switches = s.switches := rfl
@[simp] theorem State.setNum_failing (k v : Nat) (s : State) : (s.setNum k v).failing = s.failing := rfl
@[simp] theorem State.setNum_blobs (k v : Nat) (s : State) : (s.setNum k v).blobs = s.blobs := rfl
@[simp] theorem State.setNum_ret (k v : Nat) (s : State) : (s.setNum k v).ret = s.ret := rfl
@[simp] theorem State.setNum_trans (k v : Nat) (s : State) : (s.setNum k v).trans = s.trans := rfl
@[simp] theorem State.setNum_mem (k v : Nat) (s : State) : (s.setNum k v).mem = s.mem := rfl
@[simp] theorem State.setNum_hostMem (k v : Nat) (s : State) : (s.setNum k v).hostMem = s.hostMem := rfl
@[simp] theorem State.setNum_colls (k v : Nat) (s : State) : (s.setNum k v).colls = s.colls := rfl
@[simp] theorem State.setNum_deferred (k v : Nat) (s : State) : (s.setNum k v).deferred = s.deferred := rfl
@[simp] theorem State.setNum_search (k v : Nat) (s : State) : (s.setNum k v).search = s.search := rfl
@[simp] theorem State.setNum_encodes (k v : Nat) (s : State) : (s.setNum k v).encodes = s.encodes := rfl
@[simp] theorem State.setNum_muts (k v : Nat) (s : State) : (s.setNum k v).muts = s.muts := rfl
@[simp] theorem State.setNum_spools (k v : Nat) (s : State) : (s.setNum k v).spools = s.spools := rfl
@[simp] theorem State.setNum_ports (k v : Nat) (s : State) : (s.setNum k v).ports = s.ports := rfl
@[simp] theorem State.setNum_tun (k v : Nat) (s : State) : (s.setNum k v).tun = s.tun := rfl
@[simp] theorem State.setNum_tiers (k v : Nat) (s : State) : (s.setNum k v).tiers = s.tiers := rfl
@[simp] theorem State.setNum_fabric (k v : Nat) (s : State) : (s.setNum k v).fabric = s.fabric := rfl
@[simp] theorem State.setNum_sec (k v : Nat) (s : State) : (s.setNum k v).sec = s.sec := rfl
@[simp] theorem State.setNum_thimble (k v : Nat) (s : State) : (s.setNum k v).thimble = s.thimble := rfl
@[simp] theorem State.setNum_tele (k v : Nat) (s : State) : (s.setNum k v).tele = s.tele := rfl
@[simp] theorem State.setNum_test (k v : Nat) (s : State) : (s.setNum k v).test = s.test := rfl

/-! ## bumpBy: all but book -/

@[simp] theorem State.bumpBy_pending (k n : Nat) (s : State) : (s.bumpBy k n).pending = s.pending := by simp only [State.bumpBy, State.setNum_pending]
@[simp] theorem State.bumpBy_out (k n : Nat) (s : State) : (s.bumpBy k n).out = s.out := by simp only [State.bumpBy, State.setNum_out]
@[simp] theorem State.bumpBy_free (k n : Nat) (s : State) : (s.bumpBy k n).free = s.free := by simp only [State.bumpBy, State.setNum_free]
@[simp] theorem State.bumpBy_dev (k n : Nat) (s : State) : (s.bumpBy k n).dev = s.dev := by simp only [State.bumpBy, State.setNum_dev]
@[simp] theorem State.bumpBy_units (k n : Nat) (s : State) : (s.bumpBy k n).units = s.units := by simp only [State.bumpBy, State.setNum_units]
@[simp] theorem State.bumpBy_chip (k n : Nat) (s : State) : (s.bumpBy k n).chip = s.chip := by simp only [State.bumpBy, State.setNum_chip]
@[simp] theorem State.bumpBy_ftu (k n : Nat) (s : State) : (s.bumpBy k n).ftu = s.ftu := by simp only [State.bumpBy, State.setNum_ftu]
@[simp] theorem State.bumpBy_cal (k n : Nat) (s : State) : (s.bumpBy k n).cal = s.cal := by simp only [State.bumpBy, State.setNum_cal]
@[simp] theorem State.bumpBy_switches (k n : Nat) (s : State) : (s.bumpBy k n).switches = s.switches := by simp only [State.bumpBy, State.setNum_switches]
@[simp] theorem State.bumpBy_failing (k n : Nat) (s : State) : (s.bumpBy k n).failing = s.failing := by simp only [State.bumpBy, State.setNum_failing]
@[simp] theorem State.bumpBy_blobs (k n : Nat) (s : State) : (s.bumpBy k n).blobs = s.blobs := by simp only [State.bumpBy, State.setNum_blobs]
@[simp] theorem State.bumpBy_ret (k n : Nat) (s : State) : (s.bumpBy k n).ret = s.ret := by simp only [State.bumpBy, State.setNum_ret]
@[simp] theorem State.bumpBy_trans (k n : Nat) (s : State) : (s.bumpBy k n).trans = s.trans := by simp only [State.bumpBy, State.setNum_trans]
@[simp] theorem State.bumpBy_mem (k n : Nat) (s : State) : (s.bumpBy k n).mem = s.mem := by simp only [State.bumpBy, State.setNum_mem]
@[simp] theorem State.bumpBy_hostMem (k n : Nat) (s : State) : (s.bumpBy k n).hostMem = s.hostMem := by simp only [State.bumpBy, State.setNum_hostMem]
@[simp] theorem State.bumpBy_colls (k n : Nat) (s : State) : (s.bumpBy k n).colls = s.colls := by simp only [State.bumpBy, State.setNum_colls]
@[simp] theorem State.bumpBy_deferred (k n : Nat) (s : State) : (s.bumpBy k n).deferred = s.deferred := by simp only [State.bumpBy, State.setNum_deferred]
@[simp] theorem State.bumpBy_search (k n : Nat) (s : State) : (s.bumpBy k n).search = s.search := by simp only [State.bumpBy, State.setNum_search]
@[simp] theorem State.bumpBy_encodes (k n : Nat) (s : State) : (s.bumpBy k n).encodes = s.encodes := by simp only [State.bumpBy, State.setNum_encodes]
@[simp] theorem State.bumpBy_muts (k n : Nat) (s : State) : (s.bumpBy k n).muts = s.muts := by simp only [State.bumpBy, State.setNum_muts]
@[simp] theorem State.bumpBy_spools (k n : Nat) (s : State) : (s.bumpBy k n).spools = s.spools := by simp only [State.bumpBy, State.setNum_spools]
@[simp] theorem State.bumpBy_ports (k n : Nat) (s : State) : (s.bumpBy k n).ports = s.ports := by simp only [State.bumpBy, State.setNum_ports]
@[simp] theorem State.bumpBy_tun (k n : Nat) (s : State) : (s.bumpBy k n).tun = s.tun := by simp only [State.bumpBy, State.setNum_tun]
@[simp] theorem State.bumpBy_tiers (k n : Nat) (s : State) : (s.bumpBy k n).tiers = s.tiers := by simp only [State.bumpBy, State.setNum_tiers]
@[simp] theorem State.bumpBy_fabric (k n : Nat) (s : State) : (s.bumpBy k n).fabric = s.fabric := by simp only [State.bumpBy, State.setNum_fabric]
@[simp] theorem State.bumpBy_sec (k n : Nat) (s : State) : (s.bumpBy k n).sec = s.sec := by simp only [State.bumpBy, State.setNum_sec]
@[simp] theorem State.bumpBy_thimble (k n : Nat) (s : State) : (s.bumpBy k n).thimble = s.thimble := by simp only [State.bumpBy, State.setNum_thimble]
@[simp] theorem State.bumpBy_tele (k n : Nat) (s : State) : (s.bumpBy k n).tele = s.tele := by simp only [State.bumpBy, State.setNum_tele]
@[simp] theorem State.bumpBy_test (k n : Nat) (s : State) : (s.bumpBy k n).test = s.test := by simp only [State.bumpBy, State.setNum_test]

/-! ## bump: all but book -/

@[simp] theorem State.bump_pending (k : Nat) (s : State) : (s.bump k).pending = s.pending := State.bumpBy_pending k 1 s
@[simp] theorem State.bump_out (k : Nat) (s : State) : (s.bump k).out = s.out := State.bumpBy_out k 1 s
@[simp] theorem State.bump_free (k : Nat) (s : State) : (s.bump k).free = s.free := State.bumpBy_free k 1 s
@[simp] theorem State.bump_dev (k : Nat) (s : State) : (s.bump k).dev = s.dev := State.bumpBy_dev k 1 s
@[simp] theorem State.bump_units (k : Nat) (s : State) : (s.bump k).units = s.units := State.bumpBy_units k 1 s
@[simp] theorem State.bump_chip (k : Nat) (s : State) : (s.bump k).chip = s.chip := State.bumpBy_chip k 1 s
@[simp] theorem State.bump_ftu (k : Nat) (s : State) : (s.bump k).ftu = s.ftu := State.bumpBy_ftu k 1 s
@[simp] theorem State.bump_cal (k : Nat) (s : State) : (s.bump k).cal = s.cal := State.bumpBy_cal k 1 s
@[simp] theorem State.bump_switches (k : Nat) (s : State) : (s.bump k).switches = s.switches := State.bumpBy_switches k 1 s
@[simp] theorem State.bump_failing (k : Nat) (s : State) : (s.bump k).failing = s.failing := State.bumpBy_failing k 1 s
@[simp] theorem State.bump_blobs (k : Nat) (s : State) : (s.bump k).blobs = s.blobs := State.bumpBy_blobs k 1 s
@[simp] theorem State.bump_ret (k : Nat) (s : State) : (s.bump k).ret = s.ret := State.bumpBy_ret k 1 s
@[simp] theorem State.bump_trans (k : Nat) (s : State) : (s.bump k).trans = s.trans := State.bumpBy_trans k 1 s
@[simp] theorem State.bump_mem (k : Nat) (s : State) : (s.bump k).mem = s.mem := State.bumpBy_mem k 1 s
@[simp] theorem State.bump_hostMem (k : Nat) (s : State) : (s.bump k).hostMem = s.hostMem := State.bumpBy_hostMem k 1 s
@[simp] theorem State.bump_colls (k : Nat) (s : State) : (s.bump k).colls = s.colls := State.bumpBy_colls k 1 s
@[simp] theorem State.bump_deferred (k : Nat) (s : State) : (s.bump k).deferred = s.deferred := State.bumpBy_deferred k 1 s
@[simp] theorem State.bump_search (k : Nat) (s : State) : (s.bump k).search = s.search := State.bumpBy_search k 1 s
@[simp] theorem State.bump_encodes (k : Nat) (s : State) : (s.bump k).encodes = s.encodes := State.bumpBy_encodes k 1 s
@[simp] theorem State.bump_muts (k : Nat) (s : State) : (s.bump k).muts = s.muts := State.bumpBy_muts k 1 s
@[simp] theorem State.bump_spools (k : Nat) (s : State) : (s.bump k).spools = s.spools := State.bumpBy_spools k 1 s
@[simp] theorem State.bump_ports (k : Nat) (s : State) : (s.bump k).ports = s.ports := State.bumpBy_ports k 1 s
@[simp] theorem State.bump_tun (k : Nat) (s : State) : (s.bump k).tun = s.tun := State.bumpBy_tun k 1 s
@[simp] theorem State.bump_tiers (k : Nat) (s : State) : (s.bump k).tiers = s.tiers := State.bumpBy_tiers k 1 s
@[simp] theorem State.bump_fabric (k : Nat) (s : State) : (s.bump k).fabric = s.fabric := State.bumpBy_fabric k 1 s
@[simp] theorem State.bump_sec (k : Nat) (s : State) : (s.bump k).sec = s.sec := State.bumpBy_sec k 1 s
@[simp] theorem State.bump_thimble (k : Nat) (s : State) : (s.bump k).thimble = s.thimble := State.bumpBy_thimble k 1 s
@[simp] theorem State.bump_tele (k : Nat) (s : State) : (s.bump k).tele = s.tele := State.bumpBy_tele k 1 s
@[simp] theorem State.bump_test (k : Nat) (s : State) : (s.bump k).test = s.test := State.bumpBy_test k 1 s

/-! ## bumpSat: all but book -/

@[simp] theorem State.bumpSat_pending (k n : Nat) (s : State) : (s.bumpSat k n).pending = s.pending := by simp only [State.bumpSat, State.setNum_pending]
@[simp] theorem State.bumpSat_out (k n : Nat) (s : State) : (s.bumpSat k n).out = s.out := by simp only [State.bumpSat, State.setNum_out]
@[simp] theorem State.bumpSat_free (k n : Nat) (s : State) : (s.bumpSat k n).free = s.free := by simp only [State.bumpSat, State.setNum_free]
@[simp] theorem State.bumpSat_dev (k n : Nat) (s : State) : (s.bumpSat k n).dev = s.dev := by simp only [State.bumpSat, State.setNum_dev]
@[simp] theorem State.bumpSat_units (k n : Nat) (s : State) : (s.bumpSat k n).units = s.units := by simp only [State.bumpSat, State.setNum_units]
@[simp] theorem State.bumpSat_chip (k n : Nat) (s : State) : (s.bumpSat k n).chip = s.chip := by simp only [State.bumpSat, State.setNum_chip]
@[simp] theorem State.bumpSat_ftu (k n : Nat) (s : State) : (s.bumpSat k n).ftu = s.ftu := by simp only [State.bumpSat, State.setNum_ftu]
@[simp] theorem State.bumpSat_cal (k n : Nat) (s : State) : (s.bumpSat k n).cal = s.cal := by simp only [State.bumpSat, State.setNum_cal]
@[simp] theorem State.bumpSat_switches (k n : Nat) (s : State) : (s.bumpSat k n).switches = s.switches := by simp only [State.bumpSat, State.setNum_switches]
@[simp] theorem State.bumpSat_failing (k n : Nat) (s : State) : (s.bumpSat k n).failing = s.failing := by simp only [State.bumpSat, State.setNum_failing]
@[simp] theorem State.bumpSat_blobs (k n : Nat) (s : State) : (s.bumpSat k n).blobs = s.blobs := by simp only [State.bumpSat, State.setNum_blobs]
@[simp] theorem State.bumpSat_ret (k n : Nat) (s : State) : (s.bumpSat k n).ret = s.ret := by simp only [State.bumpSat, State.setNum_ret]
@[simp] theorem State.bumpSat_trans (k n : Nat) (s : State) : (s.bumpSat k n).trans = s.trans := by simp only [State.bumpSat, State.setNum_trans]
@[simp] theorem State.bumpSat_mem (k n : Nat) (s : State) : (s.bumpSat k n).mem = s.mem := by simp only [State.bumpSat, State.setNum_mem]
@[simp] theorem State.bumpSat_hostMem (k n : Nat) (s : State) : (s.bumpSat k n).hostMem = s.hostMem := by simp only [State.bumpSat, State.setNum_hostMem]
@[simp] theorem State.bumpSat_colls (k n : Nat) (s : State) : (s.bumpSat k n).colls = s.colls := by simp only [State.bumpSat, State.setNum_colls]
@[simp] theorem State.bumpSat_deferred (k n : Nat) (s : State) : (s.bumpSat k n).deferred = s.deferred := by simp only [State.bumpSat, State.setNum_deferred]
@[simp] theorem State.bumpSat_search (k n : Nat) (s : State) : (s.bumpSat k n).search = s.search := by simp only [State.bumpSat, State.setNum_search]
@[simp] theorem State.bumpSat_encodes (k n : Nat) (s : State) : (s.bumpSat k n).encodes = s.encodes := by simp only [State.bumpSat, State.setNum_encodes]
@[simp] theorem State.bumpSat_muts (k n : Nat) (s : State) : (s.bumpSat k n).muts = s.muts := by simp only [State.bumpSat, State.setNum_muts]
@[simp] theorem State.bumpSat_spools (k n : Nat) (s : State) : (s.bumpSat k n).spools = s.spools := by simp only [State.bumpSat, State.setNum_spools]
@[simp] theorem State.bumpSat_ports (k n : Nat) (s : State) : (s.bumpSat k n).ports = s.ports := by simp only [State.bumpSat, State.setNum_ports]
@[simp] theorem State.bumpSat_tun (k n : Nat) (s : State) : (s.bumpSat k n).tun = s.tun := by simp only [State.bumpSat, State.setNum_tun]
@[simp] theorem State.bumpSat_tiers (k n : Nat) (s : State) : (s.bumpSat k n).tiers = s.tiers := by simp only [State.bumpSat, State.setNum_tiers]
@[simp] theorem State.bumpSat_fabric (k n : Nat) (s : State) : (s.bumpSat k n).fabric = s.fabric := by simp only [State.bumpSat, State.setNum_fabric]
@[simp] theorem State.bumpSat_sec (k n : Nat) (s : State) : (s.bumpSat k n).sec = s.sec := by simp only [State.bumpSat, State.setNum_sec]
@[simp] theorem State.bumpSat_thimble (k n : Nat) (s : State) : (s.bumpSat k n).thimble = s.thimble := by simp only [State.bumpSat, State.setNum_thimble]
@[simp] theorem State.bumpSat_tele (k n : Nat) (s : State) : (s.bumpSat k n).tele = s.tele := by simp only [State.bumpSat, State.setNum_tele]
@[simp] theorem State.bumpSat_test (k n : Nat) (s : State) : (s.bumpSat k n).test = s.test := by simp only [State.bumpSat, State.setNum_test]

/-! ## raiseTo: all but book -/

@[simp] theorem State.raiseTo_pending (k v : Nat) (s : State) : (s.raiseTo k v).pending = s.pending := by simp only [State.raiseTo, State.setNum_pending]
@[simp] theorem State.raiseTo_out (k v : Nat) (s : State) : (s.raiseTo k v).out = s.out := by simp only [State.raiseTo, State.setNum_out]
@[simp] theorem State.raiseTo_free (k v : Nat) (s : State) : (s.raiseTo k v).free = s.free := by simp only [State.raiseTo, State.setNum_free]
@[simp] theorem State.raiseTo_dev (k v : Nat) (s : State) : (s.raiseTo k v).dev = s.dev := by simp only [State.raiseTo, State.setNum_dev]
@[simp] theorem State.raiseTo_units (k v : Nat) (s : State) : (s.raiseTo k v).units = s.units := by simp only [State.raiseTo, State.setNum_units]
@[simp] theorem State.raiseTo_chip (k v : Nat) (s : State) : (s.raiseTo k v).chip = s.chip := by simp only [State.raiseTo, State.setNum_chip]
@[simp] theorem State.raiseTo_ftu (k v : Nat) (s : State) : (s.raiseTo k v).ftu = s.ftu := by simp only [State.raiseTo, State.setNum_ftu]
@[simp] theorem State.raiseTo_cal (k v : Nat) (s : State) : (s.raiseTo k v).cal = s.cal := by simp only [State.raiseTo, State.setNum_cal]
@[simp] theorem State.raiseTo_switches (k v : Nat) (s : State) : (s.raiseTo k v).switches = s.switches := by simp only [State.raiseTo, State.setNum_switches]
@[simp] theorem State.raiseTo_failing (k v : Nat) (s : State) : (s.raiseTo k v).failing = s.failing := by simp only [State.raiseTo, State.setNum_failing]
@[simp] theorem State.raiseTo_blobs (k v : Nat) (s : State) : (s.raiseTo k v).blobs = s.blobs := by simp only [State.raiseTo, State.setNum_blobs]
@[simp] theorem State.raiseTo_ret (k v : Nat) (s : State) : (s.raiseTo k v).ret = s.ret := by simp only [State.raiseTo, State.setNum_ret]
@[simp] theorem State.raiseTo_trans (k v : Nat) (s : State) : (s.raiseTo k v).trans = s.trans := by simp only [State.raiseTo, State.setNum_trans]
@[simp] theorem State.raiseTo_mem (k v : Nat) (s : State) : (s.raiseTo k v).mem = s.mem := by simp only [State.raiseTo, State.setNum_mem]
@[simp] theorem State.raiseTo_hostMem (k v : Nat) (s : State) : (s.raiseTo k v).hostMem = s.hostMem := by simp only [State.raiseTo, State.setNum_hostMem]
@[simp] theorem State.raiseTo_colls (k v : Nat) (s : State) : (s.raiseTo k v).colls = s.colls := by simp only [State.raiseTo, State.setNum_colls]
@[simp] theorem State.raiseTo_deferred (k v : Nat) (s : State) : (s.raiseTo k v).deferred = s.deferred := by simp only [State.raiseTo, State.setNum_deferred]
@[simp] theorem State.raiseTo_search (k v : Nat) (s : State) : (s.raiseTo k v).search = s.search := by simp only [State.raiseTo, State.setNum_search]
@[simp] theorem State.raiseTo_encodes (k v : Nat) (s : State) : (s.raiseTo k v).encodes = s.encodes := by simp only [State.raiseTo, State.setNum_encodes]
@[simp] theorem State.raiseTo_muts (k v : Nat) (s : State) : (s.raiseTo k v).muts = s.muts := by simp only [State.raiseTo, State.setNum_muts]
@[simp] theorem State.raiseTo_spools (k v : Nat) (s : State) : (s.raiseTo k v).spools = s.spools := by simp only [State.raiseTo, State.setNum_spools]
@[simp] theorem State.raiseTo_ports (k v : Nat) (s : State) : (s.raiseTo k v).ports = s.ports := by simp only [State.raiseTo, State.setNum_ports]
@[simp] theorem State.raiseTo_tun (k v : Nat) (s : State) : (s.raiseTo k v).tun = s.tun := by simp only [State.raiseTo, State.setNum_tun]
@[simp] theorem State.raiseTo_tiers (k v : Nat) (s : State) : (s.raiseTo k v).tiers = s.tiers := by simp only [State.raiseTo, State.setNum_tiers]
@[simp] theorem State.raiseTo_fabric (k v : Nat) (s : State) : (s.raiseTo k v).fabric = s.fabric := by simp only [State.raiseTo, State.setNum_fabric]
@[simp] theorem State.raiseTo_sec (k v : Nat) (s : State) : (s.raiseTo k v).sec = s.sec := by simp only [State.raiseTo, State.setNum_sec]
@[simp] theorem State.raiseTo_thimble (k v : Nat) (s : State) : (s.raiseTo k v).thimble = s.thimble := by simp only [State.raiseTo, State.setNum_thimble]
@[simp] theorem State.raiseTo_tele (k v : Nat) (s : State) : (s.raiseTo k v).tele = s.tele := by simp only [State.raiseTo, State.setNum_tele]
@[simp] theorem State.raiseTo_test (k v : Nat) (s : State) : (s.raiseTo k v).test = s.test := by simp only [State.raiseTo, State.setNum_test]

/-! ## setBlob: all but blobs -/

@[simp] theorem State.setBlob_pending (k : Nat) (v : Bytes) (s : State) : (s.setBlob k v).pending = s.pending := rfl
@[simp] theorem State.setBlob_out (k : Nat) (v : Bytes) (s : State) : (s.setBlob k v).out = s.out := rfl
@[simp] theorem State.setBlob_free (k : Nat) (v : Bytes) (s : State) : (s.setBlob k v).free = s.free := rfl
@[simp] theorem State.setBlob_dev (k : Nat) (v : Bytes) (s : State) : (s.setBlob k v).dev = s.dev := rfl
@[simp] theorem State.setBlob_units (k : Nat) (v : Bytes) (s : State) : (s.setBlob k v).units = s.units := rfl
@[simp] theorem State.setBlob_chip (k : Nat) (v : Bytes) (s : State) : (s.setBlob k v).chip = s.chip := rfl
@[simp] theorem State.setBlob_ftu (k : Nat) (v : Bytes) (s : State) : (s.setBlob k v).ftu = s.ftu := rfl
@[simp] theorem State.setBlob_cal (k : Nat) (v : Bytes) (s : State) : (s.setBlob k v).cal = s.cal := rfl
@[simp] theorem State.setBlob_switches (k : Nat) (v : Bytes) (s : State) : (s.setBlob k v).switches = s.switches := rfl
@[simp] theorem State.setBlob_failing (k : Nat) (v : Bytes) (s : State) : (s.setBlob k v).failing = s.failing := rfl
@[simp] theorem State.setBlob_book (k : Nat) (v : Bytes) (s : State) : (s.setBlob k v).book = s.book := rfl
@[simp] theorem State.setBlob_ret (k : Nat) (v : Bytes) (s : State) : (s.setBlob k v).ret = s.ret := rfl
@[simp] theorem State.setBlob_trans (k : Nat) (v : Bytes) (s : State) : (s.setBlob k v).trans = s.trans := rfl
@[simp] theorem State.setBlob_mem (k : Nat) (v : Bytes) (s : State) : (s.setBlob k v).mem = s.mem := rfl
@[simp] theorem State.setBlob_hostMem (k : Nat) (v : Bytes) (s : State) : (s.setBlob k v).hostMem = s.hostMem := rfl
@[simp] theorem State.setBlob_colls (k : Nat) (v : Bytes) (s : State) : (s.setBlob k v).colls = s.colls := rfl
@[simp] theorem State.setBlob_deferred (k : Nat) (v : Bytes) (s : State) : (s.setBlob k v).deferred = s.deferred := rfl
@[simp] theorem State.setBlob_search (k : Nat) (v : Bytes) (s : State) : (s.setBlob k v).search = s.search := rfl
@[simp] theorem State.setBlob_encodes (k : Nat) (v : Bytes) (s : State) : (s.setBlob k v).encodes = s.encodes := rfl
@[simp] theorem State.setBlob_muts (k : Nat) (v : Bytes) (s : State) : (s.setBlob k v).muts = s.muts := rfl
@[simp] theorem State.setBlob_spools (k : Nat) (v : Bytes) (s : State) : (s.setBlob k v).spools = s.spools := rfl
@[simp] theorem State.setBlob_ports (k : Nat) (v : Bytes) (s : State) : (s.setBlob k v).ports = s.ports := rfl
@[simp] theorem State.setBlob_tun (k : Nat) (v : Bytes) (s : State) : (s.setBlob k v).tun = s.tun := rfl
@[simp] theorem State.setBlob_tiers (k : Nat) (v : Bytes) (s : State) : (s.setBlob k v).tiers = s.tiers := rfl
@[simp] theorem State.setBlob_fabric (k : Nat) (v : Bytes) (s : State) : (s.setBlob k v).fabric = s.fabric := rfl
@[simp] theorem State.setBlob_sec (k : Nat) (v : Bytes) (s : State) : (s.setBlob k v).sec = s.sec := rfl
@[simp] theorem State.setBlob_thimble (k : Nat) (v : Bytes) (s : State) : (s.setBlob k v).thimble = s.thimble := rfl
@[simp] theorem State.setBlob_tele (k : Nat) (v : Bytes) (s : State) : (s.setBlob k v).tele = s.tele := rfl
@[simp] theorem State.setBlob_test (k : Nat) (v : Bytes) (s : State) : (s.setBlob k v).test = s.test := rfl

/-! ## emit: all but out -/

@[simp] theorem State.emit_pending (o : Out) (s : State) : (s.emit o).pending = s.pending := rfl
@[simp] theorem State.emit_free (o : Out) (s : State) : (s.emit o).free = s.free := rfl
@[simp] theorem State.emit_dev (o : Out) (s : State) : (s.emit o).dev = s.dev := rfl
@[simp] theorem State.emit_units (o : Out) (s : State) : (s.emit o).units = s.units := rfl
@[simp] theorem State.emit_chip (o : Out) (s : State) : (s.emit o).chip = s.chip := rfl
@[simp] theorem State.emit_ftu (o : Out) (s : State) : (s.emit o).ftu = s.ftu := rfl
@[simp] theorem State.emit_cal (o : Out) (s : State) : (s.emit o).cal = s.cal := rfl
@[simp] theorem State.emit_switches (o : Out) (s : State) : (s.emit o).switches = s.switches := rfl
@[simp] theorem State.emit_failing (o : Out) (s : State) : (s.emit o).failing = s.failing := rfl
@[simp] theorem State.emit_book (o : Out) (s : State) : (s.emit o).book = s.book := rfl
@[simp] theorem State.emit_blobs (o : Out) (s : State) : (s.emit o).blobs = s.blobs := rfl
@[simp] theorem State.emit_ret (o : Out) (s : State) : (s.emit o).ret = s.ret := rfl
@[simp] theorem State.emit_trans (o : Out) (s : State) : (s.emit o).trans = s.trans := rfl
@[simp] theorem State.emit_mem (o : Out) (s : State) : (s.emit o).mem = s.mem := rfl
@[simp] theorem State.emit_hostMem (o : Out) (s : State) : (s.emit o).hostMem = s.hostMem := rfl
@[simp] theorem State.emit_colls (o : Out) (s : State) : (s.emit o).colls = s.colls := rfl
@[simp] theorem State.emit_deferred (o : Out) (s : State) : (s.emit o).deferred = s.deferred := rfl
@[simp] theorem State.emit_search (o : Out) (s : State) : (s.emit o).search = s.search := rfl
@[simp] theorem State.emit_encodes (o : Out) (s : State) : (s.emit o).encodes = s.encodes := rfl
@[simp] theorem State.emit_muts (o : Out) (s : State) : (s.emit o).muts = s.muts := rfl
@[simp] theorem State.emit_spools (o : Out) (s : State) : (s.emit o).spools = s.spools := rfl
@[simp] theorem State.emit_ports (o : Out) (s : State) : (s.emit o).ports = s.ports := rfl
@[simp] theorem State.emit_tun (o : Out) (s : State) : (s.emit o).tun = s.tun := rfl
@[simp] theorem State.emit_tiers (o : Out) (s : State) : (s.emit o).tiers = s.tiers := rfl
@[simp] theorem State.emit_fabric (o : Out) (s : State) : (s.emit o).fabric = s.fabric := rfl
@[simp] theorem State.emit_sec (o : Out) (s : State) : (s.emit o).sec = s.sec := rfl
@[simp] theorem State.emit_thimble (o : Out) (s : State) : (s.emit o).thimble = s.thimble := rfl
@[simp] theorem State.emit_tele (o : Out) (s : State) : (s.emit o).tele = s.tele := rfl
@[simp] theorem State.emit_test (o : Out) (s : State) : (s.emit o).test = s.test := rfl

/-! ## emitAll: all but out -/

@[simp] theorem State.emitAll_pending (os : List Out) (s : State) : (s.emitAll os).pending = s.pending := rfl
@[simp] theorem State.emitAll_free (os : List Out) (s : State) : (s.emitAll os).free = s.free := rfl
@[simp] theorem State.emitAll_dev (os : List Out) (s : State) : (s.emitAll os).dev = s.dev := rfl
@[simp] theorem State.emitAll_units (os : List Out) (s : State) : (s.emitAll os).units = s.units := rfl
@[simp] theorem State.emitAll_chip (os : List Out) (s : State) : (s.emitAll os).chip = s.chip := rfl
@[simp] theorem State.emitAll_ftu (os : List Out) (s : State) : (s.emitAll os).ftu = s.ftu := rfl
@[simp] theorem State.emitAll_cal (os : List Out) (s : State) : (s.emitAll os).cal = s.cal := rfl
@[simp] theorem State.emitAll_switches (os : List Out) (s : State) : (s.emitAll os).switches = s.switches := rfl
@[simp] theorem State.emitAll_failing (os : List Out) (s : State) : (s.emitAll os).failing = s.failing := rfl
@[simp] theorem State.emitAll_book (os : List Out) (s : State) : (s.emitAll os).book = s.book := rfl
@[simp] theorem State.emitAll_blobs (os : List Out) (s : State) : (s.emitAll os).blobs = s.blobs := rfl
@[simp] theorem State.emitAll_ret (os : List Out) (s : State) : (s.emitAll os).ret = s.ret := rfl
@[simp] theorem State.emitAll_trans (os : List Out) (s : State) : (s.emitAll os).trans = s.trans := rfl
@[simp] theorem State.emitAll_mem (os : List Out) (s : State) : (s.emitAll os).mem = s.mem := rfl
@[simp] theorem State.emitAll_hostMem (os : List Out) (s : State) : (s.emitAll os).hostMem = s.hostMem := rfl
@[simp] theorem State.emitAll_colls (os : List Out) (s : State) : (s.emitAll os).colls = s.colls := rfl
@[simp] theorem State.emitAll_deferred (os : List Out) (s : State) : (s.emitAll os).deferred = s.deferred := rfl
@[simp] theorem State.emitAll_search (os : List Out) (s : State) : (s.emitAll os).search = s.search := rfl
@[simp] theorem State.emitAll_encodes (os : List Out) (s : State) : (s.emitAll os).encodes = s.encodes := rfl
@[simp] theorem State.emitAll_muts (os : List Out) (s : State) : (s.emitAll os).muts = s.muts := rfl
@[simp] theorem State.emitAll_spools (os : List Out) (s : State) : (s.emitAll os).spools = s.spools := rfl
@[simp] theorem State.emitAll_ports (os : List Out) (s : State) : (s.emitAll os).ports = s.ports := rfl
@[simp] theorem State.emitAll_tun (os : List Out) (s : State) : (s.emitAll os).tun = s.tun := rfl
@[simp] theorem State.emitAll_tiers (os : List Out) (s : State) : (s.emitAll os).tiers = s.tiers := rfl
@[simp] theorem State.emitAll_fabric (os : List Out) (s : State) : (s.emitAll os).fabric = s.fabric := rfl
@[simp] theorem State.emitAll_sec (os : List Out) (s : State) : (s.emitAll os).sec = s.sec := rfl
@[simp] theorem State.emitAll_thimble (os : List Out) (s : State) : (s.emitAll os).thimble = s.thimble := rfl
@[simp] theorem State.emitAll_tele (os : List Out) (s : State) : (s.emitAll os).tele = s.tele := rfl
@[simp] theorem State.emitAll_test (os : List Out) (s : State) : (s.emitAll os).test = s.test := rfl

/-! ## msix: all but out and ports -/

@[simp] theorem State.msix_pending (p : Port) (v : Nat) (s : State) : (s.msix p v).pending = s.pending := by
  unfold State.msix; cases p <;> (dsimp only; repeat' split) <;> rfl
@[simp] theorem State.msix_free (p : Port) (v : Nat) (s : State) : (s.msix p v).free = s.free := by
  unfold State.msix; cases p <;> (dsimp only; repeat' split) <;> rfl
@[simp] theorem State.msix_dev (p : Port) (v : Nat) (s : State) : (s.msix p v).dev = s.dev := by
  unfold State.msix; cases p <;> (dsimp only; repeat' split) <;> rfl
@[simp] theorem State.msix_units (p : Port) (v : Nat) (s : State) : (s.msix p v).units = s.units := by
  unfold State.msix; cases p <;> (dsimp only; repeat' split) <;> rfl
@[simp] theorem State.msix_chip (p : Port) (v : Nat) (s : State) : (s.msix p v).chip = s.chip := by
  unfold State.msix; cases p <;> (dsimp only; repeat' split) <;> rfl
@[simp] theorem State.msix_ftu (p : Port) (v : Nat) (s : State) : (s.msix p v).ftu = s.ftu := by
  unfold State.msix; cases p <;> (dsimp only; repeat' split) <;> rfl
@[simp] theorem State.msix_cal (p : Port) (v : Nat) (s : State) : (s.msix p v).cal = s.cal := by
  unfold State.msix; cases p <;> (dsimp only; repeat' split) <;> rfl
@[simp] theorem State.msix_switches (p : Port) (v : Nat) (s : State) : (s.msix p v).switches = s.switches := by
  unfold State.msix; cases p <;> (dsimp only; repeat' split) <;> rfl
@[simp] theorem State.msix_failing (p : Port) (v : Nat) (s : State) : (s.msix p v).failing = s.failing := by
  unfold State.msix; cases p <;> (dsimp only; repeat' split) <;> rfl
@[simp] theorem State.msix_book (p : Port) (v : Nat) (s : State) : (s.msix p v).book = s.book := by
  unfold State.msix; cases p <;> (dsimp only; repeat' split) <;> rfl
@[simp] theorem State.msix_blobs (p : Port) (v : Nat) (s : State) : (s.msix p v).blobs = s.blobs := by
  unfold State.msix; cases p <;> (dsimp only; repeat' split) <;> rfl
@[simp] theorem State.msix_ret (p : Port) (v : Nat) (s : State) : (s.msix p v).ret = s.ret := by
  unfold State.msix; cases p <;> (dsimp only; repeat' split) <;> rfl
@[simp] theorem State.msix_trans (p : Port) (v : Nat) (s : State) : (s.msix p v).trans = s.trans := by
  unfold State.msix; cases p <;> (dsimp only; repeat' split) <;> rfl
@[simp] theorem State.msix_mem (p : Port) (v : Nat) (s : State) : (s.msix p v).mem = s.mem := by
  unfold State.msix; cases p <;> (dsimp only; repeat' split) <;> rfl
@[simp] theorem State.msix_hostMem (p : Port) (v : Nat) (s : State) : (s.msix p v).hostMem = s.hostMem := by
  unfold State.msix; cases p <;> (dsimp only; repeat' split) <;> rfl
@[simp] theorem State.msix_colls (p : Port) (v : Nat) (s : State) : (s.msix p v).colls = s.colls := by
  unfold State.msix; cases p <;> (dsimp only; repeat' split) <;> rfl
@[simp] theorem State.msix_deferred (p : Port) (v : Nat) (s : State) : (s.msix p v).deferred = s.deferred := by
  unfold State.msix; cases p <;> (dsimp only; repeat' split) <;> rfl
@[simp] theorem State.msix_search (p : Port) (v : Nat) (s : State) : (s.msix p v).search = s.search := by
  unfold State.msix; cases p <;> (dsimp only; repeat' split) <;> rfl
@[simp] theorem State.msix_encodes (p : Port) (v : Nat) (s : State) : (s.msix p v).encodes = s.encodes := by
  unfold State.msix; cases p <;> (dsimp only; repeat' split) <;> rfl
@[simp] theorem State.msix_muts (p : Port) (v : Nat) (s : State) : (s.msix p v).muts = s.muts := by
  unfold State.msix; cases p <;> (dsimp only; repeat' split) <;> rfl
@[simp] theorem State.msix_spools (p : Port) (v : Nat) (s : State) : (s.msix p v).spools = s.spools := by
  unfold State.msix; cases p <;> (dsimp only; repeat' split) <;> rfl
@[simp] theorem State.msix_tun (p : Port) (v : Nat) (s : State) : (s.msix p v).tun = s.tun := by
  unfold State.msix; cases p <;> (dsimp only; repeat' split) <;> rfl
@[simp] theorem State.msix_tiers (p : Port) (v : Nat) (s : State) : (s.msix p v).tiers = s.tiers := by
  unfold State.msix; cases p <;> (dsimp only; repeat' split) <;> rfl
@[simp] theorem State.msix_fabric (p : Port) (v : Nat) (s : State) : (s.msix p v).fabric = s.fabric := by
  unfold State.msix; cases p <;> (dsimp only; repeat' split) <;> rfl
@[simp] theorem State.msix_sec (p : Port) (v : Nat) (s : State) : (s.msix p v).sec = s.sec := by
  unfold State.msix; cases p <;> (dsimp only; repeat' split) <;> rfl
@[simp] theorem State.msix_thimble (p : Port) (v : Nat) (s : State) : (s.msix p v).thimble = s.thimble := by
  unfold State.msix; cases p <;> (dsimp only; repeat' split) <;> rfl
@[simp] theorem State.msix_tele (p : Port) (v : Nat) (s : State) : (s.msix p v).tele = s.tele := by
  unfold State.msix; cases p <;> (dsimp only; repeat' split) <;> rfl
@[simp] theorem State.msix_test (p : Port) (v : Nat) (s : State) : (s.msix p v).test = s.test := by
  unfold State.msix; cases p <;> (dsimp only; repeat' split) <;> rfl

/-! ## spend: all but free -/

@[simp] theorem State.spend_pending (s : State) : (s.spend).pending = s.pending := rfl
@[simp] theorem State.spend_out (s : State) : (s.spend).out = s.out := rfl
@[simp] theorem State.spend_dev (s : State) : (s.spend).dev = s.dev := rfl
@[simp] theorem State.spend_units (s : State) : (s.spend).units = s.units := rfl
@[simp] theorem State.spend_chip (s : State) : (s.spend).chip = s.chip := rfl
@[simp] theorem State.spend_ftu (s : State) : (s.spend).ftu = s.ftu := rfl
@[simp] theorem State.spend_cal (s : State) : (s.spend).cal = s.cal := rfl
@[simp] theorem State.spend_switches (s : State) : (s.spend).switches = s.switches := rfl
@[simp] theorem State.spend_failing (s : State) : (s.spend).failing = s.failing := rfl
@[simp] theorem State.spend_book (s : State) : (s.spend).book = s.book := rfl
@[simp] theorem State.spend_blobs (s : State) : (s.spend).blobs = s.blobs := rfl
@[simp] theorem State.spend_ret (s : State) : (s.spend).ret = s.ret := rfl
@[simp] theorem State.spend_trans (s : State) : (s.spend).trans = s.trans := rfl
@[simp] theorem State.spend_mem (s : State) : (s.spend).mem = s.mem := rfl
@[simp] theorem State.spend_hostMem (s : State) : (s.spend).hostMem = s.hostMem := rfl
@[simp] theorem State.spend_colls (s : State) : (s.spend).colls = s.colls := rfl
@[simp] theorem State.spend_deferred (s : State) : (s.spend).deferred = s.deferred := rfl
@[simp] theorem State.spend_search (s : State) : (s.spend).search = s.search := rfl
@[simp] theorem State.spend_encodes (s : State) : (s.spend).encodes = s.encodes := rfl
@[simp] theorem State.spend_muts (s : State) : (s.spend).muts = s.muts := rfl
@[simp] theorem State.spend_spools (s : State) : (s.spend).spools = s.spools := rfl
@[simp] theorem State.spend_ports (s : State) : (s.spend).ports = s.ports := rfl
@[simp] theorem State.spend_tun (s : State) : (s.spend).tun = s.tun := rfl
@[simp] theorem State.spend_tiers (s : State) : (s.spend).tiers = s.tiers := rfl
@[simp] theorem State.spend_fabric (s : State) : (s.spend).fabric = s.fabric := rfl
@[simp] theorem State.spend_sec (s : State) : (s.spend).sec = s.sec := rfl
@[simp] theorem State.spend_thimble (s : State) : (s.spend).thimble = s.thimble := rfl
@[simp] theorem State.spend_tele (s : State) : (s.spend).tele = s.tele := rfl
@[simp] theorem State.spend_test (s : State) : (s.spend).test = s.test := rfl

/-! ## setPort: all but ports -/

@[simp] theorem State.setPort_pending (p : Port) (x : PortState) (s : State) : (s.setPort p x).pending = s.pending := by cases p <;> rfl
@[simp] theorem State.setPort_out (p : Port) (x : PortState) (s : State) : (s.setPort p x).out = s.out := by cases p <;> rfl
@[simp] theorem State.setPort_free (p : Port) (x : PortState) (s : State) : (s.setPort p x).free = s.free := by cases p <;> rfl
@[simp] theorem State.setPort_dev (p : Port) (x : PortState) (s : State) : (s.setPort p x).dev = s.dev := by cases p <;> rfl
@[simp] theorem State.setPort_units (p : Port) (x : PortState) (s : State) : (s.setPort p x).units = s.units := by cases p <;> rfl
@[simp] theorem State.setPort_chip (p : Port) (x : PortState) (s : State) : (s.setPort p x).chip = s.chip := by cases p <;> rfl
@[simp] theorem State.setPort_ftu (p : Port) (x : PortState) (s : State) : (s.setPort p x).ftu = s.ftu := by cases p <;> rfl
@[simp] theorem State.setPort_cal (p : Port) (x : PortState) (s : State) : (s.setPort p x).cal = s.cal := by cases p <;> rfl
@[simp] theorem State.setPort_switches (p : Port) (x : PortState) (s : State) : (s.setPort p x).switches = s.switches := by cases p <;> rfl
@[simp] theorem State.setPort_failing (p : Port) (x : PortState) (s : State) : (s.setPort p x).failing = s.failing := by cases p <;> rfl
@[simp] theorem State.setPort_book (p : Port) (x : PortState) (s : State) : (s.setPort p x).book = s.book := by cases p <;> rfl
@[simp] theorem State.setPort_blobs (p : Port) (x : PortState) (s : State) : (s.setPort p x).blobs = s.blobs := by cases p <;> rfl
@[simp] theorem State.setPort_ret (p : Port) (x : PortState) (s : State) : (s.setPort p x).ret = s.ret := by cases p <;> rfl
@[simp] theorem State.setPort_trans (p : Port) (x : PortState) (s : State) : (s.setPort p x).trans = s.trans := by cases p <;> rfl
@[simp] theorem State.setPort_mem (p : Port) (x : PortState) (s : State) : (s.setPort p x).mem = s.mem := by cases p <;> rfl
@[simp] theorem State.setPort_hostMem (p : Port) (x : PortState) (s : State) : (s.setPort p x).hostMem = s.hostMem := by cases p <;> rfl
@[simp] theorem State.setPort_colls (p : Port) (x : PortState) (s : State) : (s.setPort p x).colls = s.colls := by cases p <;> rfl
@[simp] theorem State.setPort_deferred (p : Port) (x : PortState) (s : State) : (s.setPort p x).deferred = s.deferred := by cases p <;> rfl
@[simp] theorem State.setPort_search (p : Port) (x : PortState) (s : State) : (s.setPort p x).search = s.search := by cases p <;> rfl
@[simp] theorem State.setPort_encodes (p : Port) (x : PortState) (s : State) : (s.setPort p x).encodes = s.encodes := by cases p <;> rfl
@[simp] theorem State.setPort_muts (p : Port) (x : PortState) (s : State) : (s.setPort p x).muts = s.muts := by cases p <;> rfl
@[simp] theorem State.setPort_spools (p : Port) (x : PortState) (s : State) : (s.setPort p x).spools = s.spools := by cases p <;> rfl
@[simp] theorem State.setPort_tun (p : Port) (x : PortState) (s : State) : (s.setPort p x).tun = s.tun := by cases p <;> rfl
@[simp] theorem State.setPort_tiers (p : Port) (x : PortState) (s : State) : (s.setPort p x).tiers = s.tiers := by cases p <;> rfl
@[simp] theorem State.setPort_fabric (p : Port) (x : PortState) (s : State) : (s.setPort p x).fabric = s.fabric := by cases p <;> rfl
@[simp] theorem State.setPort_sec (p : Port) (x : PortState) (s : State) : (s.setPort p x).sec = s.sec := by cases p <;> rfl
@[simp] theorem State.setPort_thimble (p : Port) (x : PortState) (s : State) : (s.setPort p x).thimble = s.thimble := by cases p <;> rfl
@[simp] theorem State.setPort_tele (p : Port) (x : PortState) (s : State) : (s.setPort p x).tele = s.tele := by cases p <;> rfl
@[simp] theorem State.setPort_test (p : Port) (x : PortState) (s : State) : (s.setPort p x).test = s.test := by cases p <;> rfl

/-! ## hostWork: all but test -/

@[simp] theorem State.hostWork_pending (s : State) : (s.hostWork).pending = s.pending := by unfold State.hostWork; split <;> rfl
@[simp] theorem State.hostWork_out (s : State) : (s.hostWork).out = s.out := by unfold State.hostWork; split <;> rfl
@[simp] theorem State.hostWork_free (s : State) : (s.hostWork).free = s.free := by unfold State.hostWork; split <;> rfl
@[simp] theorem State.hostWork_dev (s : State) : (s.hostWork).dev = s.dev := by unfold State.hostWork; split <;> rfl
@[simp] theorem State.hostWork_units (s : State) : (s.hostWork).units = s.units := by unfold State.hostWork; split <;> rfl
@[simp] theorem State.hostWork_chip (s : State) : (s.hostWork).chip = s.chip := by unfold State.hostWork; split <;> rfl
@[simp] theorem State.hostWork_ftu (s : State) : (s.hostWork).ftu = s.ftu := by unfold State.hostWork; split <;> rfl
@[simp] theorem State.hostWork_cal (s : State) : (s.hostWork).cal = s.cal := by unfold State.hostWork; split <;> rfl
@[simp] theorem State.hostWork_switches (s : State) : (s.hostWork).switches = s.switches := by unfold State.hostWork; split <;> rfl
@[simp] theorem State.hostWork_failing (s : State) : (s.hostWork).failing = s.failing := by unfold State.hostWork; split <;> rfl
@[simp] theorem State.hostWork_book (s : State) : (s.hostWork).book = s.book := by unfold State.hostWork; split <;> rfl
@[simp] theorem State.hostWork_blobs (s : State) : (s.hostWork).blobs = s.blobs := by unfold State.hostWork; split <;> rfl
@[simp] theorem State.hostWork_ret (s : State) : (s.hostWork).ret = s.ret := by unfold State.hostWork; split <;> rfl
@[simp] theorem State.hostWork_trans (s : State) : (s.hostWork).trans = s.trans := by unfold State.hostWork; split <;> rfl
@[simp] theorem State.hostWork_mem (s : State) : (s.hostWork).mem = s.mem := by unfold State.hostWork; split <;> rfl
@[simp] theorem State.hostWork_hostMem (s : State) : (s.hostWork).hostMem = s.hostMem := by unfold State.hostWork; split <;> rfl
@[simp] theorem State.hostWork_colls (s : State) : (s.hostWork).colls = s.colls := by unfold State.hostWork; split <;> rfl
@[simp] theorem State.hostWork_deferred (s : State) : (s.hostWork).deferred = s.deferred := by unfold State.hostWork; split <;> rfl
@[simp] theorem State.hostWork_search (s : State) : (s.hostWork).search = s.search := by unfold State.hostWork; split <;> rfl
@[simp] theorem State.hostWork_encodes (s : State) : (s.hostWork).encodes = s.encodes := by unfold State.hostWork; split <;> rfl
@[simp] theorem State.hostWork_muts (s : State) : (s.hostWork).muts = s.muts := by unfold State.hostWork; split <;> rfl
@[simp] theorem State.hostWork_spools (s : State) : (s.hostWork).spools = s.spools := by unfold State.hostWork; split <;> rfl
@[simp] theorem State.hostWork_ports (s : State) : (s.hostWork).ports = s.ports := by unfold State.hostWork; split <;> rfl
@[simp] theorem State.hostWork_tun (s : State) : (s.hostWork).tun = s.tun := by unfold State.hostWork; split <;> rfl
@[simp] theorem State.hostWork_tiers (s : State) : (s.hostWork).tiers = s.tiers := by unfold State.hostWork; split <;> rfl
@[simp] theorem State.hostWork_fabric (s : State) : (s.hostWork).fabric = s.fabric := by unfold State.hostWork; split <;> rfl
@[simp] theorem State.hostWork_sec (s : State) : (s.hostWork).sec = s.sec := by unfold State.hostWork; split <;> rfl
@[simp] theorem State.hostWork_thimble (s : State) : (s.hostWork).thimble = s.thimble := by unfold State.hostWork; split <;> rfl
@[simp] theorem State.hostWork_tele (s : State) : (s.hostWork).tele = s.tele := by unfold State.hostWork; split <;> rfl

/-! ## loadAppears: all but test and book -/

@[simp] theorem State.loadAppears_pending (s : State) : (s.loadAppears).pending = s.pending := by
  unfold State.loadAppears; split <;> (try split) <;> rfl
@[simp] theorem State.loadAppears_out (s : State) : (s.loadAppears).out = s.out := by
  unfold State.loadAppears; split <;> (try split) <;> rfl
@[simp] theorem State.loadAppears_free (s : State) : (s.loadAppears).free = s.free := by
  unfold State.loadAppears; split <;> (try split) <;> rfl
@[simp] theorem State.loadAppears_dev (s : State) : (s.loadAppears).dev = s.dev := by
  unfold State.loadAppears; split <;> (try split) <;> rfl
@[simp] theorem State.loadAppears_units (s : State) : (s.loadAppears).units = s.units := by
  unfold State.loadAppears; split <;> (try split) <;> rfl
@[simp] theorem State.loadAppears_chip (s : State) : (s.loadAppears).chip = s.chip := by
  unfold State.loadAppears; split <;> (try split) <;> rfl
@[simp] theorem State.loadAppears_ftu (s : State) : (s.loadAppears).ftu = s.ftu := by
  unfold State.loadAppears; split <;> (try split) <;> rfl
@[simp] theorem State.loadAppears_cal (s : State) : (s.loadAppears).cal = s.cal := by
  unfold State.loadAppears; split <;> (try split) <;> rfl
@[simp] theorem State.loadAppears_switches (s : State) : (s.loadAppears).switches = s.switches := by
  unfold State.loadAppears; split <;> (try split) <;> rfl
@[simp] theorem State.loadAppears_failing (s : State) : (s.loadAppears).failing = s.failing := by
  unfold State.loadAppears; split <;> (try split) <;> rfl
@[simp] theorem State.loadAppears_blobs (s : State) : (s.loadAppears).blobs = s.blobs := by
  unfold State.loadAppears; split <;> (try split) <;> rfl
@[simp] theorem State.loadAppears_ret (s : State) : (s.loadAppears).ret = s.ret := by
  unfold State.loadAppears; split <;> (try split) <;> rfl
@[simp] theorem State.loadAppears_trans (s : State) : (s.loadAppears).trans = s.trans := by
  unfold State.loadAppears; split <;> (try split) <;> rfl
@[simp] theorem State.loadAppears_mem (s : State) : (s.loadAppears).mem = s.mem := by
  unfold State.loadAppears; split <;> (try split) <;> rfl
@[simp] theorem State.loadAppears_hostMem (s : State) : (s.loadAppears).hostMem = s.hostMem := by
  unfold State.loadAppears; split <;> (try split) <;> rfl
@[simp] theorem State.loadAppears_colls (s : State) : (s.loadAppears).colls = s.colls := by
  unfold State.loadAppears; split <;> (try split) <;> rfl
@[simp] theorem State.loadAppears_deferred (s : State) : (s.loadAppears).deferred = s.deferred := by
  unfold State.loadAppears; split <;> (try split) <;> rfl
@[simp] theorem State.loadAppears_search (s : State) : (s.loadAppears).search = s.search := by
  unfold State.loadAppears; split <;> (try split) <;> rfl
@[simp] theorem State.loadAppears_encodes (s : State) : (s.loadAppears).encodes = s.encodes := by
  unfold State.loadAppears; split <;> (try split) <;> rfl
@[simp] theorem State.loadAppears_muts (s : State) : (s.loadAppears).muts = s.muts := by
  unfold State.loadAppears; split <;> (try split) <;> rfl
@[simp] theorem State.loadAppears_spools (s : State) : (s.loadAppears).spools = s.spools := by
  unfold State.loadAppears; split <;> (try split) <;> rfl
@[simp] theorem State.loadAppears_ports (s : State) : (s.loadAppears).ports = s.ports := by
  unfold State.loadAppears; split <;> (try split) <;> rfl
@[simp] theorem State.loadAppears_tun (s : State) : (s.loadAppears).tun = s.tun := by
  unfold State.loadAppears; split <;> (try split) <;> rfl
@[simp] theorem State.loadAppears_tiers (s : State) : (s.loadAppears).tiers = s.tiers := by
  unfold State.loadAppears; split <;> (try split) <;> rfl
@[simp] theorem State.loadAppears_fabric (s : State) : (s.loadAppears).fabric = s.fabric := by
  unfold State.loadAppears; split <;> (try split) <;> rfl
@[simp] theorem State.loadAppears_sec (s : State) : (s.loadAppears).sec = s.sec := by
  unfold State.loadAppears; split <;> (try split) <;> rfl
@[simp] theorem State.loadAppears_thimble (s : State) : (s.loadAppears).thimble = s.thimble := by
  unfold State.loadAppears; split <;> (try split) <;> rfl
@[simp] theorem State.loadAppears_tele (s : State) : (s.loadAppears).tele = s.tele := by
  unfold State.loadAppears; split <;> (try split) <;> rfl

/-! ## setSw: all but switches and book -/

@[simp] theorem State.setSw_pending (i : Nat) (x : Switch) (s : State) : (s.setSw i x).pending = s.pending := by unfold State.setSw; dsimp only; split <;> rfl
@[simp] theorem State.setSw_out (i : Nat) (x : Switch) (s : State) : (s.setSw i x).out = s.out := by unfold State.setSw; dsimp only; split <;> rfl
@[simp] theorem State.setSw_free (i : Nat) (x : Switch) (s : State) : (s.setSw i x).free = s.free := by unfold State.setSw; dsimp only; split <;> rfl
@[simp] theorem State.setSw_dev (i : Nat) (x : Switch) (s : State) : (s.setSw i x).dev = s.dev := by unfold State.setSw; dsimp only; split <;> rfl
@[simp] theorem State.setSw_units (i : Nat) (x : Switch) (s : State) : (s.setSw i x).units = s.units := by unfold State.setSw; dsimp only; split <;> rfl
@[simp] theorem State.setSw_chip (i : Nat) (x : Switch) (s : State) : (s.setSw i x).chip = s.chip := by unfold State.setSw; dsimp only; split <;> rfl
@[simp] theorem State.setSw_ftu (i : Nat) (x : Switch) (s : State) : (s.setSw i x).ftu = s.ftu := by unfold State.setSw; dsimp only; split <;> rfl
@[simp] theorem State.setSw_cal (i : Nat) (x : Switch) (s : State) : (s.setSw i x).cal = s.cal := by unfold State.setSw; dsimp only; split <;> rfl
@[simp] theorem State.setSw_failing (i : Nat) (x : Switch) (s : State) : (s.setSw i x).failing = s.failing := by unfold State.setSw; dsimp only; split <;> rfl
@[simp] theorem State.setSw_blobs (i : Nat) (x : Switch) (s : State) : (s.setSw i x).blobs = s.blobs := by unfold State.setSw; dsimp only; split <;> rfl
@[simp] theorem State.setSw_ret (i : Nat) (x : Switch) (s : State) : (s.setSw i x).ret = s.ret := by unfold State.setSw; dsimp only; split <;> rfl
@[simp] theorem State.setSw_trans (i : Nat) (x : Switch) (s : State) : (s.setSw i x).trans = s.trans := by unfold State.setSw; dsimp only; split <;> rfl
@[simp] theorem State.setSw_mem (i : Nat) (x : Switch) (s : State) : (s.setSw i x).mem = s.mem := by unfold State.setSw; dsimp only; split <;> rfl
@[simp] theorem State.setSw_hostMem (i : Nat) (x : Switch) (s : State) : (s.setSw i x).hostMem = s.hostMem := by unfold State.setSw; dsimp only; split <;> rfl
@[simp] theorem State.setSw_colls (i : Nat) (x : Switch) (s : State) : (s.setSw i x).colls = s.colls := by unfold State.setSw; dsimp only; split <;> rfl
@[simp] theorem State.setSw_deferred (i : Nat) (x : Switch) (s : State) : (s.setSw i x).deferred = s.deferred := by unfold State.setSw; dsimp only; split <;> rfl
@[simp] theorem State.setSw_search (i : Nat) (x : Switch) (s : State) : (s.setSw i x).search = s.search := by unfold State.setSw; dsimp only; split <;> rfl
@[simp] theorem State.setSw_encodes (i : Nat) (x : Switch) (s : State) : (s.setSw i x).encodes = s.encodes := by unfold State.setSw; dsimp only; split <;> rfl
@[simp] theorem State.setSw_muts (i : Nat) (x : Switch) (s : State) : (s.setSw i x).muts = s.muts := by unfold State.setSw; dsimp only; split <;> rfl
@[simp] theorem State.setSw_spools (i : Nat) (x : Switch) (s : State) : (s.setSw i x).spools = s.spools := by unfold State.setSw; dsimp only; split <;> rfl
@[simp] theorem State.setSw_ports (i : Nat) (x : Switch) (s : State) : (s.setSw i x).ports = s.ports := by unfold State.setSw; dsimp only; split <;> rfl
@[simp] theorem State.setSw_tun (i : Nat) (x : Switch) (s : State) : (s.setSw i x).tun = s.tun := by unfold State.setSw; dsimp only; split <;> rfl
@[simp] theorem State.setSw_tiers (i : Nat) (x : Switch) (s : State) : (s.setSw i x).tiers = s.tiers := by unfold State.setSw; dsimp only; split <;> rfl
@[simp] theorem State.setSw_fabric (i : Nat) (x : Switch) (s : State) : (s.setSw i x).fabric = s.fabric := by unfold State.setSw; dsimp only; split <;> rfl
@[simp] theorem State.setSw_sec (i : Nat) (x : Switch) (s : State) : (s.setSw i x).sec = s.sec := by unfold State.setSw; dsimp only; split <;> rfl
@[simp] theorem State.setSw_thimble (i : Nat) (x : Switch) (s : State) : (s.setSw i x).thimble = s.thimble := by unfold State.setSw; dsimp only; split <;> rfl
@[simp] theorem State.setSw_tele (i : Nat) (x : Switch) (s : State) : (s.setSw i x).tele = s.tele := by unfold State.setSw; dsimp only; split <;> rfl
@[simp] theorem State.setSw_test (i : Nat) (x : Switch) (s : State) : (s.setSw i x).test = s.test := by unfold State.setSw; dsimp only; split <;> rfl

/-! ## mapColl: all but colls -/

@[simp] theorem State.mapColl_pending (h : Handle) (f : Coll → Coll) (s : State) : (s.mapColl h f).pending = s.pending := rfl
@[simp] theorem State.mapColl_out (h : Handle) (f : Coll → Coll) (s : State) : (s.mapColl h f).out = s.out := rfl
@[simp] theorem State.mapColl_free (h : Handle) (f : Coll → Coll) (s : State) : (s.mapColl h f).free = s.free := rfl
@[simp] theorem State.mapColl_dev (h : Handle) (f : Coll → Coll) (s : State) : (s.mapColl h f).dev = s.dev := rfl
@[simp] theorem State.mapColl_units (h : Handle) (f : Coll → Coll) (s : State) : (s.mapColl h f).units = s.units := rfl
@[simp] theorem State.mapColl_chip (h : Handle) (f : Coll → Coll) (s : State) : (s.mapColl h f).chip = s.chip := rfl
@[simp] theorem State.mapColl_ftu (h : Handle) (f : Coll → Coll) (s : State) : (s.mapColl h f).ftu = s.ftu := rfl
@[simp] theorem State.mapColl_cal (h : Handle) (f : Coll → Coll) (s : State) : (s.mapColl h f).cal = s.cal := rfl
@[simp] theorem State.mapColl_switches (h : Handle) (f : Coll → Coll) (s : State) : (s.mapColl h f).switches = s.switches := rfl
@[simp] theorem State.mapColl_failing (h : Handle) (f : Coll → Coll) (s : State) : (s.mapColl h f).failing = s.failing := rfl
@[simp] theorem State.mapColl_book (h : Handle) (f : Coll → Coll) (s : State) : (s.mapColl h f).book = s.book := rfl
@[simp] theorem State.mapColl_blobs (h : Handle) (f : Coll → Coll) (s : State) : (s.mapColl h f).blobs = s.blobs := rfl
@[simp] theorem State.mapColl_ret (h : Handle) (f : Coll → Coll) (s : State) : (s.mapColl h f).ret = s.ret := rfl
@[simp] theorem State.mapColl_trans (h : Handle) (f : Coll → Coll) (s : State) : (s.mapColl h f).trans = s.trans := rfl
@[simp] theorem State.mapColl_mem (h : Handle) (f : Coll → Coll) (s : State) : (s.mapColl h f).mem = s.mem := rfl
@[simp] theorem State.mapColl_hostMem (h : Handle) (f : Coll → Coll) (s : State) : (s.mapColl h f).hostMem = s.hostMem := rfl
@[simp] theorem State.mapColl_deferred (h : Handle) (f : Coll → Coll) (s : State) : (s.mapColl h f).deferred = s.deferred := rfl
@[simp] theorem State.mapColl_search (h : Handle) (f : Coll → Coll) (s : State) : (s.mapColl h f).search = s.search := rfl
@[simp] theorem State.mapColl_encodes (h : Handle) (f : Coll → Coll) (s : State) : (s.mapColl h f).encodes = s.encodes := rfl
@[simp] theorem State.mapColl_muts (h : Handle) (f : Coll → Coll) (s : State) : (s.mapColl h f).muts = s.muts := rfl
@[simp] theorem State.mapColl_spools (h : Handle) (f : Coll → Coll) (s : State) : (s.mapColl h f).spools = s.spools := rfl
@[simp] theorem State.mapColl_ports (h : Handle) (f : Coll → Coll) (s : State) : (s.mapColl h f).ports = s.ports := rfl
@[simp] theorem State.mapColl_tun (h : Handle) (f : Coll → Coll) (s : State) : (s.mapColl h f).tun = s.tun := rfl
@[simp] theorem State.mapColl_tiers (h : Handle) (f : Coll → Coll) (s : State) : (s.mapColl h f).tiers = s.tiers := rfl
@[simp] theorem State.mapColl_fabric (h : Handle) (f : Coll → Coll) (s : State) : (s.mapColl h f).fabric = s.fabric := rfl
@[simp] theorem State.mapColl_sec (h : Handle) (f : Coll → Coll) (s : State) : (s.mapColl h f).sec = s.sec := rfl
@[simp] theorem State.mapColl_thimble (h : Handle) (f : Coll → Coll) (s : State) : (s.mapColl h f).thimble = s.thimble := rfl
@[simp] theorem State.mapColl_tele (h : Handle) (f : Coll → Coll) (s : State) : (s.mapColl h f).tele = s.tele := rfl
@[simp] theorem State.mapColl_test (h : Handle) (f : Coll → Coll) (s : State) : (s.mapColl h f).test = s.test := rfl

/-! ## mapQuery: all but search -/

@[simp] theorem State.mapQuery_pending (q : Nat) (f : Query → Query) (s : State) : (s.mapQuery q f).pending = s.pending := rfl
@[simp] theorem State.mapQuery_out (q : Nat) (f : Query → Query) (s : State) : (s.mapQuery q f).out = s.out := rfl
@[simp] theorem State.mapQuery_free (q : Nat) (f : Query → Query) (s : State) : (s.mapQuery q f).free = s.free := rfl
@[simp] theorem State.mapQuery_dev (q : Nat) (f : Query → Query) (s : State) : (s.mapQuery q f).dev = s.dev := rfl
@[simp] theorem State.mapQuery_units (q : Nat) (f : Query → Query) (s : State) : (s.mapQuery q f).units = s.units := rfl
@[simp] theorem State.mapQuery_chip (q : Nat) (f : Query → Query) (s : State) : (s.mapQuery q f).chip = s.chip := rfl
@[simp] theorem State.mapQuery_ftu (q : Nat) (f : Query → Query) (s : State) : (s.mapQuery q f).ftu = s.ftu := rfl
@[simp] theorem State.mapQuery_cal (q : Nat) (f : Query → Query) (s : State) : (s.mapQuery q f).cal = s.cal := rfl
@[simp] theorem State.mapQuery_switches (q : Nat) (f : Query → Query) (s : State) : (s.mapQuery q f).switches = s.switches := rfl
@[simp] theorem State.mapQuery_failing (q : Nat) (f : Query → Query) (s : State) : (s.mapQuery q f).failing = s.failing := rfl
@[simp] theorem State.mapQuery_book (q : Nat) (f : Query → Query) (s : State) : (s.mapQuery q f).book = s.book := rfl
@[simp] theorem State.mapQuery_blobs (q : Nat) (f : Query → Query) (s : State) : (s.mapQuery q f).blobs = s.blobs := rfl
@[simp] theorem State.mapQuery_ret (q : Nat) (f : Query → Query) (s : State) : (s.mapQuery q f).ret = s.ret := rfl
@[simp] theorem State.mapQuery_trans (q : Nat) (f : Query → Query) (s : State) : (s.mapQuery q f).trans = s.trans := rfl
@[simp] theorem State.mapQuery_mem (q : Nat) (f : Query → Query) (s : State) : (s.mapQuery q f).mem = s.mem := rfl
@[simp] theorem State.mapQuery_hostMem (q : Nat) (f : Query → Query) (s : State) : (s.mapQuery q f).hostMem = s.hostMem := rfl
@[simp] theorem State.mapQuery_colls (q : Nat) (f : Query → Query) (s : State) : (s.mapQuery q f).colls = s.colls := rfl
@[simp] theorem State.mapQuery_deferred (q : Nat) (f : Query → Query) (s : State) : (s.mapQuery q f).deferred = s.deferred := rfl
@[simp] theorem State.mapQuery_encodes (q : Nat) (f : Query → Query) (s : State) : (s.mapQuery q f).encodes = s.encodes := rfl
@[simp] theorem State.mapQuery_muts (q : Nat) (f : Query → Query) (s : State) : (s.mapQuery q f).muts = s.muts := rfl
@[simp] theorem State.mapQuery_spools (q : Nat) (f : Query → Query) (s : State) : (s.mapQuery q f).spools = s.spools := rfl
@[simp] theorem State.mapQuery_ports (q : Nat) (f : Query → Query) (s : State) : (s.mapQuery q f).ports = s.ports := rfl
@[simp] theorem State.mapQuery_tun (q : Nat) (f : Query → Query) (s : State) : (s.mapQuery q f).tun = s.tun := rfl
@[simp] theorem State.mapQuery_tiers (q : Nat) (f : Query → Query) (s : State) : (s.mapQuery q f).tiers = s.tiers := rfl
@[simp] theorem State.mapQuery_fabric (q : Nat) (f : Query → Query) (s : State) : (s.mapQuery q f).fabric = s.fabric := rfl
@[simp] theorem State.mapQuery_sec (q : Nat) (f : Query → Query) (s : State) : (s.mapQuery q f).sec = s.sec := rfl
@[simp] theorem State.mapQuery_thimble (q : Nat) (f : Query → Query) (s : State) : (s.mapQuery q f).thimble = s.thimble := rfl
@[simp] theorem State.mapQuery_tele (q : Nat) (f : Query → Query) (s : State) : (s.mapQuery q f).tele = s.tele := rfl
@[simp] theorem State.mapQuery_test (q : Nat) (f : Query → Query) (s : State) : (s.mapQuery q f).test = s.test := rfl

/-! ## setStack: all but tiers -/

@[simp] theorem State.setStack_pending (n : Nat) (x : Stack) (s : State) : (s.setStack n x).pending = s.pending := rfl
@[simp] theorem State.setStack_out (n : Nat) (x : Stack) (s : State) : (s.setStack n x).out = s.out := rfl
@[simp] theorem State.setStack_free (n : Nat) (x : Stack) (s : State) : (s.setStack n x).free = s.free := rfl
@[simp] theorem State.setStack_dev (n : Nat) (x : Stack) (s : State) : (s.setStack n x).dev = s.dev := rfl
@[simp] theorem State.setStack_units (n : Nat) (x : Stack) (s : State) : (s.setStack n x).units = s.units := rfl
@[simp] theorem State.setStack_chip (n : Nat) (x : Stack) (s : State) : (s.setStack n x).chip = s.chip := rfl
@[simp] theorem State.setStack_ftu (n : Nat) (x : Stack) (s : State) : (s.setStack n x).ftu = s.ftu := rfl
@[simp] theorem State.setStack_cal (n : Nat) (x : Stack) (s : State) : (s.setStack n x).cal = s.cal := rfl
@[simp] theorem State.setStack_switches (n : Nat) (x : Stack) (s : State) : (s.setStack n x).switches = s.switches := rfl
@[simp] theorem State.setStack_failing (n : Nat) (x : Stack) (s : State) : (s.setStack n x).failing = s.failing := rfl
@[simp] theorem State.setStack_book (n : Nat) (x : Stack) (s : State) : (s.setStack n x).book = s.book := rfl
@[simp] theorem State.setStack_blobs (n : Nat) (x : Stack) (s : State) : (s.setStack n x).blobs = s.blobs := rfl
@[simp] theorem State.setStack_ret (n : Nat) (x : Stack) (s : State) : (s.setStack n x).ret = s.ret := rfl
@[simp] theorem State.setStack_trans (n : Nat) (x : Stack) (s : State) : (s.setStack n x).trans = s.trans := rfl
@[simp] theorem State.setStack_mem (n : Nat) (x : Stack) (s : State) : (s.setStack n x).mem = s.mem := rfl
@[simp] theorem State.setStack_hostMem (n : Nat) (x : Stack) (s : State) : (s.setStack n x).hostMem = s.hostMem := rfl
@[simp] theorem State.setStack_colls (n : Nat) (x : Stack) (s : State) : (s.setStack n x).colls = s.colls := rfl
@[simp] theorem State.setStack_deferred (n : Nat) (x : Stack) (s : State) : (s.setStack n x).deferred = s.deferred := rfl
@[simp] theorem State.setStack_search (n : Nat) (x : Stack) (s : State) : (s.setStack n x).search = s.search := rfl
@[simp] theorem State.setStack_encodes (n : Nat) (x : Stack) (s : State) : (s.setStack n x).encodes = s.encodes := rfl
@[simp] theorem State.setStack_muts (n : Nat) (x : Stack) (s : State) : (s.setStack n x).muts = s.muts := rfl
@[simp] theorem State.setStack_spools (n : Nat) (x : Stack) (s : State) : (s.setStack n x).spools = s.spools := rfl
@[simp] theorem State.setStack_ports (n : Nat) (x : Stack) (s : State) : (s.setStack n x).ports = s.ports := rfl
@[simp] theorem State.setStack_tun (n : Nat) (x : Stack) (s : State) : (s.setStack n x).tun = s.tun := rfl
@[simp] theorem State.setStack_fabric (n : Nat) (x : Stack) (s : State) : (s.setStack n x).fabric = s.fabric := rfl
@[simp] theorem State.setStack_sec (n : Nat) (x : Stack) (s : State) : (s.setStack n x).sec = s.sec := rfl
@[simp] theorem State.setStack_thimble (n : Nat) (x : Stack) (s : State) : (s.setStack n x).thimble = s.thimble := rfl
@[simp] theorem State.setStack_tele (n : Nat) (x : Stack) (s : State) : (s.setStack n x).tele = s.tele := rfl
@[simp] theorem State.setStack_test (n : Nat) (x : Stack) (s : State) : (s.setStack n x).test = s.test := rfl

/-! ## setChannel: all but tiers -/

@[simp] theorem State.setChannel_pending (n c : Nat) (x : Channel) (s : State) : (s.setChannel n c x).pending = s.pending := rfl
@[simp] theorem State.setChannel_out (n c : Nat) (x : Channel) (s : State) : (s.setChannel n c x).out = s.out := rfl
@[simp] theorem State.setChannel_free (n c : Nat) (x : Channel) (s : State) : (s.setChannel n c x).free = s.free := rfl
@[simp] theorem State.setChannel_dev (n c : Nat) (x : Channel) (s : State) : (s.setChannel n c x).dev = s.dev := rfl
@[simp] theorem State.setChannel_units (n c : Nat) (x : Channel) (s : State) : (s.setChannel n c x).units = s.units := rfl
@[simp] theorem State.setChannel_chip (n c : Nat) (x : Channel) (s : State) : (s.setChannel n c x).chip = s.chip := rfl
@[simp] theorem State.setChannel_ftu (n c : Nat) (x : Channel) (s : State) : (s.setChannel n c x).ftu = s.ftu := rfl
@[simp] theorem State.setChannel_cal (n c : Nat) (x : Channel) (s : State) : (s.setChannel n c x).cal = s.cal := rfl
@[simp] theorem State.setChannel_switches (n c : Nat) (x : Channel) (s : State) : (s.setChannel n c x).switches = s.switches := rfl
@[simp] theorem State.setChannel_failing (n c : Nat) (x : Channel) (s : State) : (s.setChannel n c x).failing = s.failing := rfl
@[simp] theorem State.setChannel_book (n c : Nat) (x : Channel) (s : State) : (s.setChannel n c x).book = s.book := rfl
@[simp] theorem State.setChannel_blobs (n c : Nat) (x : Channel) (s : State) : (s.setChannel n c x).blobs = s.blobs := rfl
@[simp] theorem State.setChannel_ret (n c : Nat) (x : Channel) (s : State) : (s.setChannel n c x).ret = s.ret := rfl
@[simp] theorem State.setChannel_trans (n c : Nat) (x : Channel) (s : State) : (s.setChannel n c x).trans = s.trans := rfl
@[simp] theorem State.setChannel_mem (n c : Nat) (x : Channel) (s : State) : (s.setChannel n c x).mem = s.mem := rfl
@[simp] theorem State.setChannel_hostMem (n c : Nat) (x : Channel) (s : State) : (s.setChannel n c x).hostMem = s.hostMem := rfl
@[simp] theorem State.setChannel_colls (n c : Nat) (x : Channel) (s : State) : (s.setChannel n c x).colls = s.colls := rfl
@[simp] theorem State.setChannel_deferred (n c : Nat) (x : Channel) (s : State) : (s.setChannel n c x).deferred = s.deferred := rfl
@[simp] theorem State.setChannel_search (n c : Nat) (x : Channel) (s : State) : (s.setChannel n c x).search = s.search := rfl
@[simp] theorem State.setChannel_encodes (n c : Nat) (x : Channel) (s : State) : (s.setChannel n c x).encodes = s.encodes := rfl
@[simp] theorem State.setChannel_muts (n c : Nat) (x : Channel) (s : State) : (s.setChannel n c x).muts = s.muts := rfl
@[simp] theorem State.setChannel_spools (n c : Nat) (x : Channel) (s : State) : (s.setChannel n c x).spools = s.spools := rfl
@[simp] theorem State.setChannel_ports (n c : Nat) (x : Channel) (s : State) : (s.setChannel n c x).ports = s.ports := rfl
@[simp] theorem State.setChannel_tun (n c : Nat) (x : Channel) (s : State) : (s.setChannel n c x).tun = s.tun := rfl
@[simp] theorem State.setChannel_fabric (n c : Nat) (x : Channel) (s : State) : (s.setChannel n c x).fabric = s.fabric := rfl
@[simp] theorem State.setChannel_sec (n c : Nat) (x : Channel) (s : State) : (s.setChannel n c x).sec = s.sec := rfl
@[simp] theorem State.setChannel_thimble (n c : Nat) (x : Channel) (s : State) : (s.setChannel n c x).thimble = s.thimble := rfl
@[simp] theorem State.setChannel_tele (n c : Nat) (x : Channel) (s : State) : (s.setChannel n c x).tele = s.tele := rfl
@[simp] theorem State.setChannel_test (n c : Nat) (x : Channel) (s : State) : (s.setChannel n c x).test = s.test := rfl

/-! ## setLink: all but fabric -/

@[simp] theorem State.setLink_pending (n : Nat) (x : Link) (s : State) : (s.setLink n x).pending = s.pending := rfl
@[simp] theorem State.setLink_out (n : Nat) (x : Link) (s : State) : (s.setLink n x).out = s.out := rfl
@[simp] theorem State.setLink_free (n : Nat) (x : Link) (s : State) : (s.setLink n x).free = s.free := rfl
@[simp] theorem State.setLink_dev (n : Nat) (x : Link) (s : State) : (s.setLink n x).dev = s.dev := rfl
@[simp] theorem State.setLink_units (n : Nat) (x : Link) (s : State) : (s.setLink n x).units = s.units := rfl
@[simp] theorem State.setLink_chip (n : Nat) (x : Link) (s : State) : (s.setLink n x).chip = s.chip := rfl
@[simp] theorem State.setLink_ftu (n : Nat) (x : Link) (s : State) : (s.setLink n x).ftu = s.ftu := rfl
@[simp] theorem State.setLink_cal (n : Nat) (x : Link) (s : State) : (s.setLink n x).cal = s.cal := rfl
@[simp] theorem State.setLink_switches (n : Nat) (x : Link) (s : State) : (s.setLink n x).switches = s.switches := rfl
@[simp] theorem State.setLink_failing (n : Nat) (x : Link) (s : State) : (s.setLink n x).failing = s.failing := rfl
@[simp] theorem State.setLink_book (n : Nat) (x : Link) (s : State) : (s.setLink n x).book = s.book := rfl
@[simp] theorem State.setLink_blobs (n : Nat) (x : Link) (s : State) : (s.setLink n x).blobs = s.blobs := rfl
@[simp] theorem State.setLink_ret (n : Nat) (x : Link) (s : State) : (s.setLink n x).ret = s.ret := rfl
@[simp] theorem State.setLink_trans (n : Nat) (x : Link) (s : State) : (s.setLink n x).trans = s.trans := rfl
@[simp] theorem State.setLink_mem (n : Nat) (x : Link) (s : State) : (s.setLink n x).mem = s.mem := rfl
@[simp] theorem State.setLink_hostMem (n : Nat) (x : Link) (s : State) : (s.setLink n x).hostMem = s.hostMem := rfl
@[simp] theorem State.setLink_colls (n : Nat) (x : Link) (s : State) : (s.setLink n x).colls = s.colls := rfl
@[simp] theorem State.setLink_deferred (n : Nat) (x : Link) (s : State) : (s.setLink n x).deferred = s.deferred := rfl
@[simp] theorem State.setLink_search (n : Nat) (x : Link) (s : State) : (s.setLink n x).search = s.search := rfl
@[simp] theorem State.setLink_encodes (n : Nat) (x : Link) (s : State) : (s.setLink n x).encodes = s.encodes := rfl
@[simp] theorem State.setLink_muts (n : Nat) (x : Link) (s : State) : (s.setLink n x).muts = s.muts := rfl
@[simp] theorem State.setLink_spools (n : Nat) (x : Link) (s : State) : (s.setLink n x).spools = s.spools := rfl
@[simp] theorem State.setLink_ports (n : Nat) (x : Link) (s : State) : (s.setLink n x).ports = s.ports := rfl
@[simp] theorem State.setLink_tun (n : Nat) (x : Link) (s : State) : (s.setLink n x).tun = s.tun := rfl
@[simp] theorem State.setLink_tiers (n : Nat) (x : Link) (s : State) : (s.setLink n x).tiers = s.tiers := rfl
@[simp] theorem State.setLink_sec (n : Nat) (x : Link) (s : State) : (s.setLink n x).sec = s.sec := rfl
@[simp] theorem State.setLink_thimble (n : Nat) (x : Link) (s : State) : (s.setLink n x).thimble = s.thimble := rfl
@[simp] theorem State.setLink_tele (n : Nat) (x : Link) (s : State) : (s.setLink n x).tele = s.tele := rfl
@[simp] theorem State.setLink_test (n : Nat) (x : Link) (s : State) : (s.setLink n x).test = s.test := rfl

/-! ## mapLink: all but fabric -/

@[simp] theorem State.mapLink_pending (n : Nat) (f : Link → Link) (s : State) : (s.mapLink n f).pending = s.pending := rfl
@[simp] theorem State.mapLink_out (n : Nat) (f : Link → Link) (s : State) : (s.mapLink n f).out = s.out := rfl
@[simp] theorem State.mapLink_free (n : Nat) (f : Link → Link) (s : State) : (s.mapLink n f).free = s.free := rfl
@[simp] theorem State.mapLink_dev (n : Nat) (f : Link → Link) (s : State) : (s.mapLink n f).dev = s.dev := rfl
@[simp] theorem State.mapLink_units (n : Nat) (f : Link → Link) (s : State) : (s.mapLink n f).units = s.units := rfl
@[simp] theorem State.mapLink_chip (n : Nat) (f : Link → Link) (s : State) : (s.mapLink n f).chip = s.chip := rfl
@[simp] theorem State.mapLink_ftu (n : Nat) (f : Link → Link) (s : State) : (s.mapLink n f).ftu = s.ftu := rfl
@[simp] theorem State.mapLink_cal (n : Nat) (f : Link → Link) (s : State) : (s.mapLink n f).cal = s.cal := rfl
@[simp] theorem State.mapLink_switches (n : Nat) (f : Link → Link) (s : State) : (s.mapLink n f).switches = s.switches := rfl
@[simp] theorem State.mapLink_failing (n : Nat) (f : Link → Link) (s : State) : (s.mapLink n f).failing = s.failing := rfl
@[simp] theorem State.mapLink_book (n : Nat) (f : Link → Link) (s : State) : (s.mapLink n f).book = s.book := rfl
@[simp] theorem State.mapLink_blobs (n : Nat) (f : Link → Link) (s : State) : (s.mapLink n f).blobs = s.blobs := rfl
@[simp] theorem State.mapLink_ret (n : Nat) (f : Link → Link) (s : State) : (s.mapLink n f).ret = s.ret := rfl
@[simp] theorem State.mapLink_trans (n : Nat) (f : Link → Link) (s : State) : (s.mapLink n f).trans = s.trans := rfl
@[simp] theorem State.mapLink_mem (n : Nat) (f : Link → Link) (s : State) : (s.mapLink n f).mem = s.mem := rfl
@[simp] theorem State.mapLink_hostMem (n : Nat) (f : Link → Link) (s : State) : (s.mapLink n f).hostMem = s.hostMem := rfl
@[simp] theorem State.mapLink_colls (n : Nat) (f : Link → Link) (s : State) : (s.mapLink n f).colls = s.colls := rfl
@[simp] theorem State.mapLink_deferred (n : Nat) (f : Link → Link) (s : State) : (s.mapLink n f).deferred = s.deferred := rfl
@[simp] theorem State.mapLink_search (n : Nat) (f : Link → Link) (s : State) : (s.mapLink n f).search = s.search := rfl
@[simp] theorem State.mapLink_encodes (n : Nat) (f : Link → Link) (s : State) : (s.mapLink n f).encodes = s.encodes := rfl
@[simp] theorem State.mapLink_muts (n : Nat) (f : Link → Link) (s : State) : (s.mapLink n f).muts = s.muts := rfl
@[simp] theorem State.mapLink_spools (n : Nat) (f : Link → Link) (s : State) : (s.mapLink n f).spools = s.spools := rfl
@[simp] theorem State.mapLink_ports (n : Nat) (f : Link → Link) (s : State) : (s.mapLink n f).ports = s.ports := rfl
@[simp] theorem State.mapLink_tun (n : Nat) (f : Link → Link) (s : State) : (s.mapLink n f).tun = s.tun := rfl
@[simp] theorem State.mapLink_tiers (n : Nat) (f : Link → Link) (s : State) : (s.mapLink n f).tiers = s.tiers := rfl
@[simp] theorem State.mapLink_sec (n : Nat) (f : Link → Link) (s : State) : (s.mapLink n f).sec = s.sec := rfl
@[simp] theorem State.mapLink_thimble (n : Nat) (f : Link → Link) (s : State) : (s.mapLink n f).thimble = s.thimble := rfl
@[simp] theorem State.mapLink_tele (n : Nat) (f : Link → Link) (s : State) : (s.mapLink n f).tele = s.tele := rfl
@[simp] theorem State.mapLink_test (n : Nat) (f : Link → Link) (s : State) : (s.mapLink n f).test = s.test := rfl

/-! ## mapSub: all but spools -/

@[simp] theorem State.mapSub_pending (p : Port) (n : Byte) (f : SubSpool → SubSpool) (s : State) : (s.mapSub p n f).pending = s.pending := rfl
@[simp] theorem State.mapSub_out (p : Port) (n : Byte) (f : SubSpool → SubSpool) (s : State) : (s.mapSub p n f).out = s.out := rfl
@[simp] theorem State.mapSub_free (p : Port) (n : Byte) (f : SubSpool → SubSpool) (s : State) : (s.mapSub p n f).free = s.free := rfl
@[simp] theorem State.mapSub_dev (p : Port) (n : Byte) (f : SubSpool → SubSpool) (s : State) : (s.mapSub p n f).dev = s.dev := rfl
@[simp] theorem State.mapSub_units (p : Port) (n : Byte) (f : SubSpool → SubSpool) (s : State) : (s.mapSub p n f).units = s.units := rfl
@[simp] theorem State.mapSub_chip (p : Port) (n : Byte) (f : SubSpool → SubSpool) (s : State) : (s.mapSub p n f).chip = s.chip := rfl
@[simp] theorem State.mapSub_ftu (p : Port) (n : Byte) (f : SubSpool → SubSpool) (s : State) : (s.mapSub p n f).ftu = s.ftu := rfl
@[simp] theorem State.mapSub_cal (p : Port) (n : Byte) (f : SubSpool → SubSpool) (s : State) : (s.mapSub p n f).cal = s.cal := rfl
@[simp] theorem State.mapSub_switches (p : Port) (n : Byte) (f : SubSpool → SubSpool) (s : State) : (s.mapSub p n f).switches = s.switches := rfl
@[simp] theorem State.mapSub_failing (p : Port) (n : Byte) (f : SubSpool → SubSpool) (s : State) : (s.mapSub p n f).failing = s.failing := rfl
@[simp] theorem State.mapSub_book (p : Port) (n : Byte) (f : SubSpool → SubSpool) (s : State) : (s.mapSub p n f).book = s.book := rfl
@[simp] theorem State.mapSub_blobs (p : Port) (n : Byte) (f : SubSpool → SubSpool) (s : State) : (s.mapSub p n f).blobs = s.blobs := rfl
@[simp] theorem State.mapSub_ret (p : Port) (n : Byte) (f : SubSpool → SubSpool) (s : State) : (s.mapSub p n f).ret = s.ret := rfl
@[simp] theorem State.mapSub_trans (p : Port) (n : Byte) (f : SubSpool → SubSpool) (s : State) : (s.mapSub p n f).trans = s.trans := rfl
@[simp] theorem State.mapSub_mem (p : Port) (n : Byte) (f : SubSpool → SubSpool) (s : State) : (s.mapSub p n f).mem = s.mem := rfl
@[simp] theorem State.mapSub_hostMem (p : Port) (n : Byte) (f : SubSpool → SubSpool) (s : State) : (s.mapSub p n f).hostMem = s.hostMem := rfl
@[simp] theorem State.mapSub_colls (p : Port) (n : Byte) (f : SubSpool → SubSpool) (s : State) : (s.mapSub p n f).colls = s.colls := rfl
@[simp] theorem State.mapSub_deferred (p : Port) (n : Byte) (f : SubSpool → SubSpool) (s : State) : (s.mapSub p n f).deferred = s.deferred := rfl
@[simp] theorem State.mapSub_search (p : Port) (n : Byte) (f : SubSpool → SubSpool) (s : State) : (s.mapSub p n f).search = s.search := rfl
@[simp] theorem State.mapSub_encodes (p : Port) (n : Byte) (f : SubSpool → SubSpool) (s : State) : (s.mapSub p n f).encodes = s.encodes := rfl
@[simp] theorem State.mapSub_muts (p : Port) (n : Byte) (f : SubSpool → SubSpool) (s : State) : (s.mapSub p n f).muts = s.muts := rfl
@[simp] theorem State.mapSub_ports (p : Port) (n : Byte) (f : SubSpool → SubSpool) (s : State) : (s.mapSub p n f).ports = s.ports := rfl
@[simp] theorem State.mapSub_tun (p : Port) (n : Byte) (f : SubSpool → SubSpool) (s : State) : (s.mapSub p n f).tun = s.tun := rfl
@[simp] theorem State.mapSub_tiers (p : Port) (n : Byte) (f : SubSpool → SubSpool) (s : State) : (s.mapSub p n f).tiers = s.tiers := rfl
@[simp] theorem State.mapSub_fabric (p : Port) (n : Byte) (f : SubSpool → SubSpool) (s : State) : (s.mapSub p n f).fabric = s.fabric := rfl
@[simp] theorem State.mapSub_sec (p : Port) (n : Byte) (f : SubSpool → SubSpool) (s : State) : (s.mapSub p n f).sec = s.sec := rfl
@[simp] theorem State.mapSub_thimble (p : Port) (n : Byte) (f : SubSpool → SubSpool) (s : State) : (s.mapSub p n f).thimble = s.thimble := rfl
@[simp] theorem State.mapSub_tele (p : Port) (n : Byte) (f : SubSpool → SubSpool) (s : State) : (s.mapSub p n f).tele = s.tele := rfl
@[simp] theorem State.mapSub_test (p : Port) (n : Byte) (f : SubSpool → SubSpool) (s : State) : (s.mapSub p n f).test = s.test := rfl

/-! ## mapComp: all but spools -/

@[simp] theorem State.mapComp_pending (p : Port) (n : Byte) (f : CompSpool → CompSpool) (s : State) : (s.mapComp p n f).pending = s.pending := rfl
@[simp] theorem State.mapComp_out (p : Port) (n : Byte) (f : CompSpool → CompSpool) (s : State) : (s.mapComp p n f).out = s.out := rfl
@[simp] theorem State.mapComp_free (p : Port) (n : Byte) (f : CompSpool → CompSpool) (s : State) : (s.mapComp p n f).free = s.free := rfl
@[simp] theorem State.mapComp_dev (p : Port) (n : Byte) (f : CompSpool → CompSpool) (s : State) : (s.mapComp p n f).dev = s.dev := rfl
@[simp] theorem State.mapComp_units (p : Port) (n : Byte) (f : CompSpool → CompSpool) (s : State) : (s.mapComp p n f).units = s.units := rfl
@[simp] theorem State.mapComp_chip (p : Port) (n : Byte) (f : CompSpool → CompSpool) (s : State) : (s.mapComp p n f).chip = s.chip := rfl
@[simp] theorem State.mapComp_ftu (p : Port) (n : Byte) (f : CompSpool → CompSpool) (s : State) : (s.mapComp p n f).ftu = s.ftu := rfl
@[simp] theorem State.mapComp_cal (p : Port) (n : Byte) (f : CompSpool → CompSpool) (s : State) : (s.mapComp p n f).cal = s.cal := rfl
@[simp] theorem State.mapComp_switches (p : Port) (n : Byte) (f : CompSpool → CompSpool) (s : State) : (s.mapComp p n f).switches = s.switches := rfl
@[simp] theorem State.mapComp_failing (p : Port) (n : Byte) (f : CompSpool → CompSpool) (s : State) : (s.mapComp p n f).failing = s.failing := rfl
@[simp] theorem State.mapComp_book (p : Port) (n : Byte) (f : CompSpool → CompSpool) (s : State) : (s.mapComp p n f).book = s.book := rfl
@[simp] theorem State.mapComp_blobs (p : Port) (n : Byte) (f : CompSpool → CompSpool) (s : State) : (s.mapComp p n f).blobs = s.blobs := rfl
@[simp] theorem State.mapComp_ret (p : Port) (n : Byte) (f : CompSpool → CompSpool) (s : State) : (s.mapComp p n f).ret = s.ret := rfl
@[simp] theorem State.mapComp_trans (p : Port) (n : Byte) (f : CompSpool → CompSpool) (s : State) : (s.mapComp p n f).trans = s.trans := rfl
@[simp] theorem State.mapComp_mem (p : Port) (n : Byte) (f : CompSpool → CompSpool) (s : State) : (s.mapComp p n f).mem = s.mem := rfl
@[simp] theorem State.mapComp_hostMem (p : Port) (n : Byte) (f : CompSpool → CompSpool) (s : State) : (s.mapComp p n f).hostMem = s.hostMem := rfl
@[simp] theorem State.mapComp_colls (p : Port) (n : Byte) (f : CompSpool → CompSpool) (s : State) : (s.mapComp p n f).colls = s.colls := rfl
@[simp] theorem State.mapComp_deferred (p : Port) (n : Byte) (f : CompSpool → CompSpool) (s : State) : (s.mapComp p n f).deferred = s.deferred := rfl
@[simp] theorem State.mapComp_search (p : Port) (n : Byte) (f : CompSpool → CompSpool) (s : State) : (s.mapComp p n f).search = s.search := rfl
@[simp] theorem State.mapComp_encodes (p : Port) (n : Byte) (f : CompSpool → CompSpool) (s : State) : (s.mapComp p n f).encodes = s.encodes := rfl
@[simp] theorem State.mapComp_muts (p : Port) (n : Byte) (f : CompSpool → CompSpool) (s : State) : (s.mapComp p n f).muts = s.muts := rfl
@[simp] theorem State.mapComp_ports (p : Port) (n : Byte) (f : CompSpool → CompSpool) (s : State) : (s.mapComp p n f).ports = s.ports := rfl
@[simp] theorem State.mapComp_tun (p : Port) (n : Byte) (f : CompSpool → CompSpool) (s : State) : (s.mapComp p n f).tun = s.tun := rfl
@[simp] theorem State.mapComp_tiers (p : Port) (n : Byte) (f : CompSpool → CompSpool) (s : State) : (s.mapComp p n f).tiers = s.tiers := rfl
@[simp] theorem State.mapComp_fabric (p : Port) (n : Byte) (f : CompSpool → CompSpool) (s : State) : (s.mapComp p n f).fabric = s.fabric := rfl
@[simp] theorem State.mapComp_sec (p : Port) (n : Byte) (f : CompSpool → CompSpool) (s : State) : (s.mapComp p n f).sec = s.sec := rfl
@[simp] theorem State.mapComp_thimble (p : Port) (n : Byte) (f : CompSpool → CompSpool) (s : State) : (s.mapComp p n f).thimble = s.thimble := rfl
@[simp] theorem State.mapComp_tele (p : Port) (n : Byte) (f : CompSpool → CompSpool) (s : State) : (s.mapComp p n f).tele = s.tele := rfl
@[simp] theorem State.mapComp_test (p : Port) (n : Byte) (f : CompSpool → CompSpool) (s : State) : (s.mapComp p n f).test = s.test := rfl

end Sys2Proof.Machine
end

