-- ==== Sys2Proof/Laws/Events.lean ====
section
/-!
SUPPORT. What logging and recording an event can change: a log record only Thimble and the book, an event besides them the host
ports, what leaves the device, the trace path, and, where it freezes the device, the device, the tests with their functions, and
memory.
-/

namespace Sys2Proof.Machine

/-- Only Thimble and the book differ. -/
def LogOnly (s t : State) : Prop := t = { s with book := t.book, thimble := t.thimble }

/-- Only what recording an event can change differs; of the device, only whether it is frozen. -/
def EventOnly (s t : State) : Prop :=
  t = { s with out := t.out, dev := { s.dev with frozen := t.dev.frozen }, switches := t.switches, book := t.book, mem := t.mem,
               ports := t.ports, thimble := t.thimble, tele := t.tele, test := t.test }

theorem LogOnly.refl (s : State) : LogOnly s s := rfl

theorem LogOnly.trans {s t u : State} (h : LogOnly s t) (k : LogOnly t u) : LogOnly s u := by
  unfold LogOnly at *; rw [k, h]

theorem EventOnly.refl (s : State) : EventOnly s s := rfl

theorem EventOnly.trans {s t u : State} (h : EventOnly s t) (k : EventOnly t u) : EventOnly s u := by
  unfold EventOnly at *; rw [k, h]

theorem EventOnly.st {s t : State} (h : EventOnly s t) : t.dev.st = s.dev.st := by
  unfold EventOnly at h; rw [h]

theorem LogOnly.event {s t : State} (h : LogOnly s t) : EventOnly s t := by
  unfold LogOnly EventOnly at *; rw [h]

theorem State.logWrite_only (cls kind code : Nat) (body : Bytes) (into : Nat) (s : State) :
    LogOnly s (s.logWrite cls kind code body into) := by
  unfold State.logWrite
  split
  · rfl
  · dsimp only
    split <;> rfl

theorem State.logChange_only (code old new handle : Nat) (s : State) : LogOnly s (s.logChange code old new handle) :=
  State.logWrite_only ..

/-- Entering a device state: the state and its time, and the log record. -/
theorem State.setDevState_only (x : DevState) (s : State) :
    s.setDevState x = { s with dev := (s.setDevState x).dev, book := (s.setDevState x).book, thimble := (s.setDevState x).thimble } ∧
      (s.setDevState x).dev = if s.dev.st = x then s.dev else { s.dev with st := x, since := s.stamp } := by
  unfold State.setDevState
  split
  · exact ⟨rfl, rfl⟩
  · have h := State.logChange_only 1 s.dev.st.code x.code 0 { s with dev := { s.dev with st := x, since := s.stamp } }
    unfold LogOnly at h
    rw [h]
    exact ⟨rfl, rfl⟩

/-- The entry to BOOT: of the device, its state and what the entry latches, and Thimble anew. -/
theorem State.beginBoot_only {straps : BitVec 2} {e : Nat} {s t : State} (h : t = s.beginBoot straps e) :
    t = { s with dev := t.dev, book := t.book, thimble := t.thimble } ∧
      t.dev = { s.dev with st := .boot, since := t.dev.since, straps := straps, epoch := e, previous := s.dev.st,
                           freezeWait := s.dev.freezePin } ∧
      t.thimble = { log := t.thimble.log, logNext := t.thimble.logNext, armed := true } := by
  subst h
  unfold State.beginBoot State.setDevState State.logChange State.logWrite
  dsimp only
  repeat' split
  all_goals first
    | exact ⟨rfl, rfl, rfl⟩
    | (rename_i h _; exact ⟨rfl, by simp [h], rfl⟩)

/-- Entering a time state: the state, the pulse output that the state may hold low, and the log record. -/
theorem State.setTimeState_only (x : TimeState) (s : State) :
    s.setTimeState x =
        { s with ftu := { s.ftu with st := x }, dev := (s.setTimeState x).dev, book := (s.setTimeState x).book,
                 thimble := (s.setTimeState x).thimble } ∧
      (s.setTimeState x).dev = if s.ftu.st = x then s.dev else { s.dev with ppsOut := s.dev.ppsOut && x.drives } := by
  unfold State.setTimeState
  split
  · rename_i h; rw [← h]; exact ⟨rfl, rfl⟩
  · have h := State.logChange_only 4 s.ftu.st.code x.code 0
      { s with ftu := { s.ftu with st := x }, dev := { s.dev with ppsOut := s.dev.ppsOut && x.drives } }
    unfold LogOnly at h
    rw [h]
    exact ⟨rfl, rfl⟩

/-- A log record changes no entry before those that count lost records. -/
theorem State.num_logWrite {k : Nat} (hk : k < 0xB02006) (cls kind code : Nat) (body : Bytes) (into : Nat) (s : State) :
    (s.logWrite cls kind code body into).num k = s.num k := by
  unfold State.logWrite
  split
  · exact State.num_setNum_other (by omega) _ _
  · dsimp only
    split
    · exact State.num_setNum_other (by unfold dropKey; omega) _ _
    · rfl

/-- The host's time: the state HOSTSET, fleet time and the thresholds of corrections as before. -/
theorem State.byHost_hostset {s u : State} (h : u = s.byHost.setTimeState .hostset) :
    u.now = s.ftu.now ∧ u.dev.st = s.dev.st ∧ u.num 0x200202 = s.num 0x200202 ∧ u.num 0x200203 = s.num 0x200203 := by
  subst h
  refine ⟨?_, ?_, ?_, ?_⟩
  · rw [(State.setTimeState_only ..).1]; rfl
  · rw [(State.setTimeState_only ..).2]; split <;> rfl
  all_goals
    unfold State.setTimeState
    split
    · rfl
    · exact State.num_logWrite (by decide) ..

theorem State.countAlarm_only (e : Event) (s : State) : LogOnly s (s.countAlarm e) := by
  unfold State.countAlarm; dsimp only; split <;> rfl

theorem State.pushHistory_only (e : Event) (s : State) : LogOnly s (s.pushHistory e) := rfl

theorem State.mapOpen_only (q : Nat) (f : Event → Event) (s : State) : LogOnly s (s.mapOpen q f) := rfl

theorem State.faultAction_only (cls : Nat) (s : State) : LogOnly s (s.faultAction cls) := by
  unfold State.faultAction; dsimp only; repeat' split
  all_goals rfl

theorem State.bump_log (k : Nat) (s : State) : LogOnly s (s.bump k) := by
  unfold State.bump State.bumpBy; rfl

theorem State.refill_only (s : State) : EventOnly s s.refill := rfl

theorem State.sendTrace_only (n : Nat) (s : State) : EventOnly s (s.sendTrace n) := by
  unfold State.sendTrace
  dsimp only
  repeat' split
  all_goals rfl

theorem State.holdTrace_only (n : Nat) (b : Bytes) (s : State) : EventOnly s (s.holdTrace n b) := by
  unfold State.holdTrace
  split
  · rfl
  · dsimp only
    split
    · exact (EventOnly.refl s).trans (State.sendTrace_only n _)
    · rfl

theorem State.marked_only (src : Nat) (at_ : Time) (s : State) :
    EventOnly s { s with thimble := { s.thimble with logMarks := put src at_ s.thimble.logMarks } } := rfl

theorem State.logEvent_only (e : Event) (into : Nat) (s : State) : EventOnly s (s.logEvent e into) := by
  unfold State.logEvent
  dsimp only
  have h := (State.logWrite_only (logClassOf e.cls) 1 0 e.bytes into s).event
  split
  · exact h
  · exact (h.trans (State.marked_only e.source _ _)).trans (State.holdTrace_only 2 e.bytes _)

theorem State.msix_only (p : Port) (v : Nat) (s : State) : EventOnly s (s.msix p v) := by
  unfold State.msix State.setPort
  dsimp only
  repeat' split
  all_goals rfl

theorem State.cxlEventOn_only (e : Event) (p : Port) (s : State) : EventOnly s (s.cxlEventOn e p) := by
  unfold State.cxlEventOn State.setPort State.msix State.emit
  dsimp only
  repeat' split
  all_goals rfl

theorem EventOnly.foldl {α : Type} (f : State → α → State) (hf : ∀ s a, EventOnly s (f s a)) (l : List α) (s : State) :
    EventOnly s (l.foldl f s) := by
  induction l generalizing s with
  | nil => rfl
  | cons a l ih => exact (hf s a).trans (ih _)

theorem State.cxlEvent_only (e : Event) (s : State) : EventOnly s (s.cxlEvent e) :=
  EventOnly.foldl _ (fun s p => State.cxlEventOn_only e p s) _ _

/-- A test that ends without a result: its function and its result. -/
theorem State.dropTest_frame (x res : Nat) (s : State) :
    s.dropTest x res = { s with switches := (s.dropTest x res).switches, book := (s.dropTest x res).book } := by
  unfold State.dropTest State.setSw; dsimp only; repeat' split
  all_goals rfl

theorem State.dropTest_only (x res : Nat) (s : State) : EventOnly s (s.dropTest x res) := by
  unfold State.dropTest State.setSw; dsimp only; repeat' split
  all_goals rfl

theorem State.freezeNow_only (cause seq : Nat) (s : State) : EventOnly s (s.freezeNow cause seq) := by
  unfold State.freezeNow
  split
  · rfl
  · split
    · split <;> rfl
    · have h : EventOnly s ((s.dropTest 0xD100 0xD10006).dropTest 0xD200 0xD20004) :=
        (State.dropTest_only ..).trans (State.dropTest_only ..)
      exact h.trans rfl

theorem State.fencedBy_only (q : Nat) (s : State) : LogOnly s (s.fencedBy q) := by
  unfold State.fencedBy; split <;> rfl

theorem State.reach_only (q cls at_ : Nat) (s : State) : LogOnly s (s.reach q cls at_) := by
  have h := (State.mapOpen_only q (fun e => { e with timer := s.timerFor cls at_ }) s).trans (State.faultAction_only cls _)
  unfold State.reach
  dsimp only
  split
  · exact h.trans (State.fencedBy_only q _)
  · exact h

theorem State.recordAlone_only (e : Event) (fresh first : Bool) (s : State) : EventOnly s (s.recordAlone e fresh first) := by
  unfold State.recordAlone
  extract_lets opens e th s1 s2 s3 s4
  have h1 : EventOnly s s1 := by unfold s1; split <;> rfl
  have h2 : EventOnly s1 s2 := by
    unfold s2; split
    · exact (State.pushHistory_only ..).event
    · rfl
  have h3 : EventOnly s2 s3 := by
    unfold s3; split
    · exact State.logEvent_only ..
    · rfl
  have h4 : EventOnly s s4 := ((h1.trans h2).trans h3).trans (State.cxlEvent_only ..)
  split
  · exact (h4.trans (EventOnly.foldl (fun s p => s.msix p 0) (fun s p => State.msix_only p 0 s) _ _)).trans (State.reach_only ..).event
  · exact h4

theorem State.recordMerged_only (e o : Event) (full fresh : Bool) (s : State) : EventOnly s (s.recordMerged e o full fresh) := by
  unfold State.recordMerged
  extract_lets e s1 s2 s3
  have h1 : EventOnly s s1 := rfl
  have h2 : EventOnly s1 s2 := by
    unfold s2; split
    · exact State.logEvent_only ..
    · rfl
  have h3 : EventOnly s s3 := (h1.trans h2).trans (State.cxlEvent_only ..)
  split
  · exact h3.trans (State.reach_only ..).event
  · split
    · exact h3.trans (State.fencedBy_only ..).event
    · exact h3

/-- Recording an event. -/
theorem State.record_only (src : Nat) (inst : BitVec 16) (detail : BitVec 64) (forced : Bool) (reaction : Option Nat) (s : State) :
    EventOnly s (s.record src inst detail forced reaction) := by
  unfold State.record
  split
  · rfl
  · extract_lets q fz e fresh first target th t1 t2 th3 t3
    have h1 : EventOnly s t1 := by
      have h0 : EventOnly s (({ s with thimble := { s.thimble with sequence := q } } : State).bump 0xA00002) := rfl
      exact h0.trans (State.countAlarm_only ..).event
    have h2 : EventOnly t1 t2 := by
      unfold t2
      cases target with
      | some x => exact State.recordMerged_only ..
      | none => exact State.recordAlone_only ..
    have h3 : EventOnly s t3 := (h1.trans h2).trans rfl
    split
    · exact h3.trans (State.freezeNow_only ..)
    · exact h3

/-- Recording an event of a unit. -/
theorem State.event_only (src inst detail : Nat) (s : State) : EventOnly s (s.event src inst detail) := State.record_only ..

/-- A calendar that comes into service leaves the FTU alone. -/
theorem State.calArmAll_ftu (s : State) : s.calArmAll.ftu = s.ftu := by
  unfold State.calArmAll
  generalize List.range 128 = l
  induction l generalizing s with
  | nil => rfl
  | cons n l ih =>
    simp only [List.foldl_cons]
    rw [ih]
    split
    · simp only [State.calArm, State.openWindow]
      repeat' split
      all_goals simp [State.setCal]
    · rfl

/-- It leaves the device alone, too. -/
@[simp] theorem State.calArmAll_dev (s : State) : s.calArmAll.dev = s.dev := by
  unfold State.calArmAll
  generalize List.range 128 = l
  induction l generalizing s with
  | nil => rfl
  | cons n l ih =>
    simp only [List.foldl_cons]
    rw [ih]
    split
    · simp only [State.calArm, State.openWindow]
      repeat' split
      all_goals simp [State.setCal]
    · rfl

/-! ## Frames that arrive -/

/-- A frame that a link hears is taken by the command of its row. -/
theorem State.receive_hears {s : State} {n : Nat} {r : Rx} {f : Frame} (want : Frame → Bool) (take : Frame → BitVec 32 → State → State)
    (h : s.hears n r f = true) (hw : want f = true) :
    s.receive n r want take = take f (s.link n).seqIn (s.tookFrame n r) := by
  simp only [State.hears, Bool.and_eq_true, beq_iff_eq] at h
  obtain ⟨⟨⟨h1, h2⟩, h3⟩, h4⟩ := h
  obtain ⟨h1, h0⟩ := h1
  simp only [Bool.not_eq_true'] at h2
  simp [State.receive, State.tookFrame, h1, h0, h2, h3, h4, hw, Option.filter]

/-- The link once a frame has been taken. -/
theorem State.tookFrame_link {s : State} {n : Nat} (r : Rx) (h : (s.link n).st ≠ .disabled) :
    (s.tookFrame n r).link n = (s.link n).took := by
  have hl : (s.countFec n r).link n = s.link n := rfl
  unfold State.tookFrame State.mapLink
  rw [hl]
  exact State.link_setLink (fun hx => h (by rw [show (s.link n).st = (s.link n).took.st from rfl, hx])) _

/-- A frame that fails its check is discarded, and a replay asked for. -/
theorem State.receive_torn {s : State} {n : Nat} {r : Rx} (want : Frame → Bool) (take : Frame → BitVec 32 → State → State)
    (h : (s.link n).whole r.wire = false) : s.receive n r want take = (s.countFec n r).askReplay n := by
  simp [State.receive, h]

/-- A command about a link that carries frames. -/
theorem State.onUp_next {s : State} {n : Nat} (f : State → State) (h1 : s.linkPresent n = true) (h2 : s.running = true)
    (h3 : s.linkUp n = true) : s.onUp n f = .next (f s) := by
  simp [State.onUp, h1, h2, h3]

/-- A command that brings a frame to a link that carries frames. -/
theorem State.onFrames_up {s : State} {n : Nat} (f : State → State) (h1 : s.linkPresent n = true) (h2 : s.running = true)
    (h3 : s.linkUp n = true) : s.onFrames n f = .next (f s) := by
  have : ((s.link n).st == .connect) = false := by
    simp only [State.linkUp, Bool.and_eq_true, beq_iff_eq] at h3
    simp [h3.1.1.2]
  rw [State.onFrames, this]
  exact State.onUp_next f h1 h2 h3

end Sys2Proof.Machine
end

