-- ==== Sys2Proof/Laws/Keeps.lean ====
section
/-!
SUPPORT. What the shared operations can do to the machine as a whole, one lemma per operation. `Keeps s t` says what stays from `s`
to `t`: the queue, the part, the always-on count and the boot count; open values are only passed, outputs only added, units only
lost; FENCED and the freeze are not left; and every table keeps its canonical form. The lemmas of the commands themselves are not
here.
-/

set_option linter.unusedTactic false
set_option linter.unreachableTactic false
set_option linter.unusedVariables false

namespace Sys2Proof.Machine

theorem Units.within.refl (u : Units) : u.within u := by constructor <;> simp

theorem or_within {n : Nat} {a b c : BitVec n} (h : a ||| b = b) (k : b ||| c = c) : a ||| c = c := by
  rw [← k, ← BitVec.or_assoc, h]

theorem Units.within.trans {u v w : Units} (h : u.within v) (k : v.within w) : u.within w :=
  ⟨or_within h.1 k.1, or_within h.2 k.2, or_within h.3 k.3, or_within h.4 k.4, or_within h.5 k.5, or_within h.6 k.6,
   or_within h.7 k.7, or_within h.8 k.8, or_within h.9 k.9, or_within h.10 k.10, or_within h.11 k.11, or_within h.12 k.12⟩

/-- What stays from one state to another. -/
structure Keeps (s t : State) : Prop where
  pending : t.pending = s.pending
  part : t.chip.part = s.chip.part
  aon : t.ftu.aon = s.ftu.aon
  free : s.free ≤ t.free
  out : s.out <:+ t.out
  epoch : t.dev.epoch = s.dev.epoch
  straps : t.dev.straps = s.dev.straps
  fenced : s.dev.st = .fenced → t.dev.st = .fenced
  frozen : s.dev.frozen = true → t.dev.frozen = true
  book : Book.wf s.book = true → Book.wf t.book = true
  switches : switchesWf s.switches = true → switchesWf t.switches = true
  mem : s.mem.wf = true → t.mem.wf = true
  hostMem : s.hostMem.wf = true → t.hostMem.wf = true
  units : s.units.within t.units

theorem Keeps.refl (s : State) : Keeps s s :=
  ⟨rfl, rfl, rfl, Nat.le_refl _, List.suffix_refl _, rfl, rfl, id, id, id, id, id, id, .refl _⟩

theorem Keeps.trans {s t u : State} (h : Keeps s t) (k : Keeps t u) : Keeps s u :=
  ⟨k.1.trans h.1, k.2.trans h.2, k.3.trans h.3, Nat.le_trans h.4 k.4, h.5.trans k.5, k.6.trans h.6, k.7.trans h.7,
   k.8 ∘ h.8, k.9 ∘ h.9, k.10 ∘ h.10, k.11 ∘ h.11, k.12 ∘ h.12, k.13 ∘ h.13, h.14.trans k.14⟩

/-- A change of fields that the relation does not name. -/
theorem Keeps.upd {s t : State} {xunits : Units} {xcal : List (Nat × CalEntry)} {xfailing : List Nat} {xblobs : Blobs}
    {xret : Retention} {xtrans : Transports} {xcolls : List Coll} {xdeferred : List Deferred} {xsearch : Search}
    {xencodes : List EncodeJob} {xmuts : Mut} {xspools : Spools} {xports : HostPorts} {xtun : Tun} {xtiers : Tiers}
    {xfabric : Fabric} {xsec : Security} {xthimble : Thimble} {xtele : Telemetry} {xtest : TestState} {xmem : Memory}
    {xhostMem : Memory} {dev : Dev} {chip : Chip} {ftu : Ftu} {xfree : Nat} (h : Keeps s t)
    (h1 : chip.part = t.chip.part) (h2 : ftu.aon = t.ftu.aon) (h3 : dev.epoch = t.dev.epoch) (h4 : dev.straps = t.dev.straps)
    (h5 : t.dev.st = .fenced → dev.st = .fenced) (h6 : t.dev.frozen = true → dev.frozen = true)
    (h7 : t.mem.wf = true → xmem.wf = true) (h8 : t.hostMem.wf = true → xhostMem.wf = true) (h9 : t.free ≤ xfree)
    (h10 : t.units.within xunits) :
    Keeps s { t with free := xfree, dev := dev, chip := chip, ftu := ftu, units := xunits, cal := xcal, failing := xfailing,
                     blobs := xblobs, ret := xret, trans := xtrans, colls := xcolls, deferred := xdeferred, search := xsearch, encodes := xencodes,
                     muts := xmuts, spools := xspools, ports := xports, tun := xtun, tiers := xtiers, fabric := xfabric, sec := xsec,
                     thimble := xthimble, tele := xtele, test := xtest, mem := xmem, hostMem := xhostMem } :=
  h.trans ⟨rfl, h1, h2, h9, List.suffix_refl _, h3, h4, h5, h6, id, id, h7, h8, h10⟩

/-- A change of fields that the relation does not name at all. -/
theorem Keeps.side {s t : State} {xcal : List (Nat × CalEntry)} {xfailing : List Nat} {xblobs : Blobs} {xret : Retention} {xtrans : Transports}
    {xcolls : List Coll} {xdeferred : List Deferred} {xsearch : Search} {xencodes : List EncodeJob} {xmuts : Mut}
    {xspools : Spools} {xports : HostPorts} {xtun : Tun} {xtiers : Tiers} {xfabric : Fabric} {xsec : Security}
    {xthimble : Thimble} {xtele : Telemetry} {xtest : TestState} (h : Keeps s t) :
    Keeps s { t with cal := xcal, failing := xfailing, blobs := xblobs, ret := xret, trans := xtrans, colls := xcolls, deferred := xdeferred,
                     search := xsearch, encodes := xencodes, muts := xmuts, spools := xspools, ports := xports, tun := xtun,
                     tiers := xtiers, fabric := xfabric, sec := xsec, thimble := xthimble, tele := xtele, test := xtest } :=
  h.trans ⟨rfl, rfl, rfl, Nat.le_refl _, List.suffix_refl _, rfl, rfl, id, id, id, id, id, id, .refl _⟩

theorem Memory.wf_zero (a n : Nat) {m : Memory} (h : m.wf = true) : (m.zero a n).wf = true := Memory.wf_drop _ h


variable {s₀ s : State}

theorem Keeps.ite {c : Prop} [Decidable c] {a b : State} (h : c → Keeps s₀ a) (k : ¬c → Keeps s₀ b) :
    Keeps s₀ (if c then a else b) := by split <;> simp_all

theorem Keeps.foldl {α : Type} {f : State → α → State} {l : List α} (h : Keeps s₀ s) (k : ∀ t x, Keeps s₀ t → Keeps s₀ (f t x)) :
    Keeps s₀ (l.foldl f s) := by
  induction l generalizing s with
  | nil => exact h
  | cons x l ih => exact ih (k s x h)

theorem Keeps.foldl1 {α β : Type} {f : State × β → α → State × β} {l : List α} {p : State × β} (h : Keeps s₀ p.1)
    (k : ∀ p x, Keeps s₀ p.1 → Keeps s₀ (f p x).1) : Keeps s₀ (l.foldl f p).1 := by
  induction l generalizing p with
  | nil => exact h
  | cons x l ih => exact ih (k p x h)

theorem Keeps.setNum (k v : Nat) (h : Keeps s₀ s) : Keeps s₀ (s.setNum k v) :=
  h.trans ⟨rfl, rfl, rfl, Nat.le_refl _, List.suffix_refl _, rfl, rfl, id, id, Book.wf_setNum k v, id, id, id, .refl _⟩

theorem Keeps.emit (o : Out) (h : Keeps s₀ s) : Keeps s₀ (s.emit o) :=
  h.trans ⟨rfl, rfl, rfl, Nat.le_refl _, List.suffix_cons _ _, rfl, rfl, id, id, id, id, id, id, .refl _⟩

theorem Keeps.emitAll (o : List Out) (h : Keeps s₀ s) : Keeps s₀ (s.emitAll o) :=
  h.trans ⟨rfl, rfl, rfl, Nat.le_refl _, List.suffix_append _ _, rfl, rfl, id, id, id, id, id, id, .refl _⟩

theorem Keeps.spend (h : Keeps s₀ s) : Keeps s₀ s.spend :=
  h.trans ⟨rfl, rfl, rfl, Nat.le_succ _, List.suffix_refl _, rfl, rfl, id, id, id, id, id, id, .refl _⟩

theorem Keeps.of_pair {β : Type} {p : State × β} {t : State} {n : β} (e : p = (t, n)) (h : Keeps s₀ p.1) : Keeps s₀ t := by
  subst e; exact h

theorem Keeps.of_pair2 {β : Type} {p : β × State} {t : State} {n : β} (e : p = (n, t)) (h : Keeps s₀ p.2) : Keeps s₀ t := by
  subst e; exact h

/-- Where the option holds a state, that state keeps. -/
structure KeepsO (s : State) (o : Option State) : Prop where
  all : ∀ t, o = some t → Keeps s t

theorem KeepsO.some {t : State} (h : Keeps s₀ t) : KeepsO s₀ (some t) := ⟨fun u e => by cases e; exact h⟩
theorem KeepsO.none : KeepsO s₀ none := ⟨fun u e => by cases e⟩
theorem KeepsO.map {α : Type} {o : Option α} {f : α → State} (h : ∀ a, Keeps s₀ (f a)) : KeepsO s₀ (o.map f) := by
  cases o with
  | none => exact KeepsO.none
  | some a => exact KeepsO.some (h a)

theorem KeepsO.mapS {o : Option State} {f : State → State} (h : KeepsO s₀ o) (k : ∀ a, Keeps s₀ a → Keeps s₀ (f a)) : KeepsO s₀ (o.map f) := by
  cases o with
  | none => exact KeepsO.none
  | some a => exact KeepsO.some (k a (h.all a rfl))

theorem KeepsO.foldl {α : Type} {f : Option State → α → Option State} {l : List α} {o : Option State} (h : KeepsO s₀ o)
    (k : ∀ o x, KeepsO s₀ o → KeepsO s₀ (f o x)) : KeepsO s₀ (l.foldl f o) := by
  induction l generalizing o with
  | nil => exact h
  | cons x l ih => exact ih (k o x h)

theorem Keeps.of_some {o : Option State} {t : State} (e : o = some t) (h : KeepsO s₀ o) : Keeps s₀ t := h.all t e
theorem Keeps.of_hyp {t : State} (h : KeepsO s₀ (Option.some t)) : Keeps s₀ t := h.all t rfl
theorem Keeps.getD {o : Option State} {t : State} (h : KeepsO s₀ o) (k : Keeps s₀ t) : Keeps s₀ (o.getD t) := by
  cases o with
  | none => exact k
  | some u => exact h.all u rfl

/-- Where the outcome is a next state, that state keeps. -/
structure KeepsR (s : State) (r : Result) : Prop where
  all : ∀ t, r = .next t → Keeps s t

theorem KeepsR.next {t : State} (h : Keeps s₀ t) : KeepsR s₀ (.next t) := ⟨fun u e => by cases e; exact h⟩
theorem KeepsR.fault (f : Fault) : KeepsR s₀ (.fault f) := ⟨fun u e => by cases e⟩

theorem Keeps.bind {v : State} {b : State → State} (h : Keeps s₀ v) (k : ∀ t, Keeps s₀ t → Keeps s₀ (b t)) :
    Keeps s₀ (let t := v; b t) := k v h
theorem Keeps.bindO {v : Option State} {b : Option State → State} (h : KeepsO s₀ v) (k : ∀ t, KeepsO s₀ t → Keeps s₀ (b t)) :
    Keeps s₀ (let t := v; b t) := k v h
theorem Keeps.bind1 {β : Type} {v : State × β} {b : State × β → State} (h : Keeps s₀ v.1) (k : ∀ t : State × β, Keeps s₀ t.1 → Keeps s₀ (b t)) :
    Keeps s₀ (let t := v; b t) := k v h
theorem Keeps.bindA {α : Type} {v : α} {b : α → State} (k : ∀ t, Keeps s₀ (b t)) :
    Keeps s₀ (let t := v; b t) := k v

theorem KeepsO.bind {v : State} {b : State → Option State} (h : Keeps s₀ v) (k : ∀ t, Keeps s₀ t → KeepsO s₀ (b t)) :
    KeepsO s₀ (let t := v; b t) := k v h
theorem KeepsO.bindO {v : Option State} {b : Option State → Option State} (h : KeepsO s₀ v) (k : ∀ t, KeepsO s₀ t → KeepsO s₀ (b t)) :
    KeepsO s₀ (let t := v; b t) := k v h
theorem KeepsO.bind1 {β : Type} {v : State × β} {b : State × β → Option State} (h : Keeps s₀ v.1) (k : ∀ t : State × β, Keeps s₀ t.1 → KeepsO s₀ (b t)) :
    KeepsO s₀ (let t := v; b t) := k v h
theorem KeepsO.bindA {α : Type} {v : α} {b : α → Option State} (k : ∀ t, KeepsO s₀ (b t)) :
    KeepsO s₀ (let t := v; b t) := k v

theorem KeepsR.bind {v : State} {b : State → Result} (h : Keeps s₀ v) (k : ∀ t, Keeps s₀ t → KeepsR s₀ (b t)) :
    KeepsR s₀ (let t := v; b t) := k v h
theorem KeepsR.bindO {v : Option State} {b : Option State → Result} (h : KeepsO s₀ v) (k : ∀ t, KeepsO s₀ t → KeepsR s₀ (b t)) :
    KeepsR s₀ (let t := v; b t) := k v h
theorem KeepsR.bind1 {β : Type} {v : State × β} {b : State × β → Result} (h : Keeps s₀ v.1) (k : ∀ t : State × β, Keeps s₀ t.1 → KeepsR s₀ (b t)) :
    KeepsR s₀ (let t := v; b t) := k v h
theorem KeepsR.bindA {α : Type} {v : α} {b : α → Result} (k : ∀ t, KeepsR s₀ (b t)) :
    KeepsR s₀ (let t := v; b t) := k v

theorem Keeps.fbind {β : Type} {v : State} {b : State → State × β} (h : Keeps s₀ v) (k : ∀ t, Keeps s₀ t → Keeps s₀ (b t).1) :
    Keeps s₀ (let t := v; b t).1 := k v h
theorem Keeps.fbindO {β : Type} {v : Option State} {b : Option State → State × β} (h : KeepsO s₀ v) (k : ∀ t, KeepsO s₀ t → Keeps s₀ (b t).1) :
    Keeps s₀ (let t := v; b t).1 := k v h
theorem Keeps.fbind1 {β γ : Type} {v : State × γ} {b : State × γ → State × β} (h : Keeps s₀ v.1) (k : ∀ t : State × γ, Keeps s₀ t.1 → Keeps s₀ (b t).1) :
    Keeps s₀ (let t := v; b t).1 := k v h
theorem Keeps.fbindA {α β : Type} {v : α} {b : α → State × β} (k : ∀ t, Keeps s₀ (b t).1) :
    Keeps s₀ (let t := v; b t).1 := k v
theorem Keeps.pair {β : Type} {v : State} {n : β} (h : Keeps s₀ v) : Keeps s₀ (v, n).1 := h

/-! ## Machine/Ops.lean -/

theorem Keeps.bumpBy (k : ℕ) (n : ℕ) (h : Keeps s₀ s) : Keeps s₀ (State.bumpBy k n s) := by
  unfold State.bumpBy
  (try dsimp only)
  repeat' with_reducible first | assumption | apply Keeps.setNum

theorem Keeps.bump (k : ℕ) (h : Keeps s₀ s) : Keeps s₀ (State.bump k s) := by
  unfold State.bump
  (try dsimp only)
  repeat' with_reducible first | assumption | apply Keeps.bumpBy

theorem Keeps.bumpSat (k : ℕ) (n : ℕ) (h : Keeps s₀ s) : Keeps s₀ (State.bumpSat k n s) := by
  unfold State.bumpSat
  (try dsimp only)
  repeat' with_reducible first | assumption | apply Keeps.setNum

theorem Keeps.raiseTo (k : ℕ) (v : ℕ) (h : Keeps s₀ s) : Keeps s₀ (State.raiseTo k v s) := by
  unfold State.raiseTo
  (try dsimp only)
  repeat' with_reducible first | assumption | apply Keeps.setNum

theorem Keeps.setBlob (k : ℕ) (v : Bytes) (h : Keeps s₀ s) : Keeps s₀ (State.setBlob k v s) := by
  unfold State.setBlob
  (try dsimp only)
  repeat' with_reducible first | assumption | apply Keeps.side

theorem Keeps.setPort (p : Port) (x : PortState) (h : Keeps s₀ s) : Keeps s₀ (State.setPort p x s) := by
  unfold State.setPort
  (try dsimp only)
  repeat' with_reducible first | assumption | split | apply Keeps.side

theorem Keeps.msix (p : Port) (v : ℕ) (h : Keeps s₀ s) : Keeps s₀ (State.msix p v s) := by
  unfold State.msix
  (try dsimp only)
  repeat' with_reducible first | assumption | apply Keeps.setPort | apply Keeps.emit | split

theorem Keeps.msixWrite (p : Port) (o : MsixOp) (h : Keeps s₀ s) : Keeps s₀ (State.msixWrite p o s) := by
  unfold State.msixWrite
  (try dsimp only)
  repeat' with_reducible first | assumption | intro _ | apply Keeps.foldl | apply Keeps.emit | apply Keeps.setPort

theorem Keeps.hostWork  (h : Keeps s₀ s) : Keeps s₀ (State.hostWork s) := by
  unfold State.hostWork
  (try dsimp only)
  repeat' with_reducible first | assumption | split | apply Keeps.side

theorem Keeps.loadAppears  (h : Keeps s₀ s) : Keeps s₀ (State.loadAppears s) := by
  unfold State.loadAppears
  (try dsimp only)
  repeat' with_reducible first | assumption | apply Keeps.bump | split | apply Keeps.side

theorem Keeps.setSw (i : Nat) (x : Switch) (h : Keeps s₀ s) : Keeps s₀ (s.setSw i x) := by
  have : Keeps s₀ { s with switches := putDef (switchDefault i) i x s.switches } :=
    h.trans ⟨rfl, rfl, rfl, Nat.le_refl _, List.suffix_refl _, rfl, rfl, id, id, id, switchesWf_putDef i x, id, id, .refl _⟩
  unfold State.setSw
  dsimp only
  split
  · exact this
  · exact Keeps.bump _ this

theorem Keeps.mapColl (h' : Handle) (f : Coll → Coll) (h : Keeps s₀ s) : Keeps s₀ (State.mapColl h' f s) := by
  unfold State.mapColl
  (try dsimp only)
  repeat' with_reducible first | assumption | apply Keeps.side

theorem Keeps.mapQuery (q : ℕ) (f : Query → Query) (h : Keeps s₀ s) : Keeps s₀ (State.mapQuery q f s) := by
  unfold State.mapQuery
  (try dsimp only)
  repeat' with_reducible first | assumption | apply Keeps.side

theorem Keeps.setStack (n : ℕ) (x : Stack) (h : Keeps s₀ s) : Keeps s₀ (State.setStack n x s) := by
  unfold State.setStack
  (try dsimp only)
  repeat' with_reducible first | assumption | apply Keeps.side

theorem Keeps.setChannel (n : ℕ) (c : ℕ) (x : Channel) (h : Keeps s₀ s) : Keeps s₀ (State.setChannel n c x s) := by
  unfold State.setChannel
  (try dsimp only)
  repeat' with_reducible first | assumption | apply Keeps.setStack

theorem Keeps.setLink (n : ℕ) (x : Link) (h : Keeps s₀ s) : Keeps s₀ (State.setLink n x s) := by
  unfold State.setLink
  (try dsimp only)
  repeat' with_reducible first | assumption | apply Keeps.side

theorem Keeps.mapLink (n : ℕ) (f : Link → Link) (h : Keeps s₀ s) : Keeps s₀ (State.mapLink n f s) := by
  unfold State.mapLink
  (try dsimp only)
  repeat' with_reducible first | assumption | apply Keeps.setLink

theorem Keeps.mapSub (p : Port) (n : Byte) (f : SubSpool → SubSpool) (h : Keeps s₀ s) : Keeps s₀ (State.mapSub p n f s) := by
  unfold State.mapSub
  (try dsimp only)
  repeat' with_reducible first | assumption | apply Keeps.side

theorem Keeps.mapComp (p : Port) (n : Byte) (f : CompSpool → CompSpool) (h : Keeps s₀ s) : Keeps s₀ (State.mapComp p n f s) := by
  unfold State.mapComp
  (try dsimp only)
  repeat' with_reducible first | assumption | apply Keeps.side

/-! ## Machine/Clock.lean -/

theorem Keeps.keepCounts  (h : Keeps s₀ s) : Keeps s₀ (State.keepCounts s) := by
  unfold State.keepCounts
  (try dsimp only)
  repeat' with_reducible first | assumption | split | apply Keeps.side

/-! ## Machine/Trace.lean -/

theorem Keeps.refill  (h : Keeps s₀ s) : Keeps s₀ (State.refill s) := by
  unfold State.refill
  (try dsimp only)
  repeat' with_reducible first | assumption | apply Keeps.side

theorem Keeps.portSend (n : ℕ) (h : Keeps s₀ s) : Keeps s₀ (State.portSend n s) := by
  unfold State.portSend
  (try dsimp only)
  repeat' with_reducible first | assumption | apply Keeps.refill | apply Keeps.side

theorem Keeps.sendTrace (n : ℕ) (h : Keeps s₀ s) : Keeps s₀ (State.sendTrace n s) := by
  unfold State.sendTrace
  (try dsimp only)
  repeat' with_reducible first
    | assumption | apply Keeps.bumpBy | apply Keeps.bump | apply Keeps.emit | split | apply Keeps.side

theorem Keeps.sendStream (n : ℕ) (x1 : ℕ) (h : Keeps s₀ s) : Keeps s₀ (State.sendStream n x1 s) := by
  induction x1 generalizing s with
  | zero =>
    rw [State.sendStream]
    (try dsimp only)
    repeat' with_reducible first | assumption
  | succ n ih =>
    rw [State.sendStream]
    (try dsimp only)
    repeat' with_reducible first | assumption | apply Keeps.sendTrace | apply ih | split

theorem Keeps.sendTraces  (h : Keeps s₀ s) : Keeps s₀ (State.sendTraces s) := by
  unfold State.sendTraces
  (try dsimp only)
  repeat' with_reducible first | assumption | intro _ | apply Keeps.foldl | apply Keeps.sendStream | apply Keeps.refill | split

theorem Keeps.holdTrace (n : ℕ) (b : Bytes) (h : Keeps s₀ s) : Keeps s₀ (State.holdTrace n b s) := by
  unfold State.holdTrace
  (try dsimp only)
  repeat' with_reducible first | assumption | apply Keeps.sendTrace | apply Keeps.refill | split | apply Keeps.side

/-! ## Machine/Thimble.lean -/

theorem Keeps.logWrite (cls : ℕ) (kind : ℕ) (code : ℕ) (body : Bytes) (into : ℕ) (h : Keeps s₀ s) : Keeps s₀ (State.logWrite cls kind code body into s) := by
  unfold State.logWrite
  (try dsimp only)
  repeat' with_reducible first | assumption | apply Keeps.bump | split | apply Keeps.side

theorem Keeps.logChange (code : ℕ) (old : ℕ) (new : ℕ) (handle : ℕ) (h : Keeps s₀ s) : Keeps s₀ (State.logChange code old new handle s) := by
  unfold State.logChange
  (try dsimp only)
  repeat' with_reducible first | assumption | apply Keeps.logWrite

theorem Keeps.setDevState (x : DevState) (h : Keeps s₀ s) (hx : s.dev.st = .fenced → x = .fenced) : Keeps s₀ (s.setDevState x) := by
  unfold State.setDevState
  split
  · exact h
  · refine Keeps.logChange _ _ _ _ (Keeps.upd h rfl rfl rfl rfl hx id id id (Nat.le_refl _) (.refl _))

theorem Keeps.setTimeState (x : TimeState) (h : Keeps s₀ s) : Keeps s₀ (State.setTimeState x s) := by
  unfold State.setTimeState
  (try dsimp only)
  repeat' with_reducible first
    | assumption | intro _ | apply Keeps.logChange | split
    | refine Keeps.upd ?_ rfl rfl rfl rfl (fun x => x) (fun x => x) ?_ ?_ ?_ ?_ | exact Units.within.refl _
    | exact Nat.le_refl _

theorem Keeps.setCollState (h' : Handle) (x : CollState) (h : Keeps s₀ s) : Keeps s₀ (State.setCollState h' x s) := by
  unfold State.setCollState
  (try dsimp only)
  repeat' with_reducible first | assumption | apply Keeps.logChange | apply Keeps.mapColl | split

theorem Keeps.setAlarm (n : ℕ) (a : Alarm) (h : Keeps s₀ s) : Keeps s₀ (State.setAlarm n a s) := by
  unfold State.setAlarm
  (try dsimp only)
  repeat' with_reducible first | assumption | apply Keeps.side

theorem Keeps.countAlarm (e : Event) (h : Keeps s₀ s) : Keeps s₀ (State.countAlarm e s) := by
  unfold State.countAlarm
  (try dsimp only)
  repeat' with_reducible first | assumption | apply Keeps.setAlarm | apply Keeps.bump | split

theorem Keeps.pushHistory (e : Event) (h : Keeps s₀ s) : Keeps s₀ (State.pushHistory e s) := by
  unfold State.pushHistory
  (try dsimp only)
  repeat' with_reducible first | assumption | apply Keeps.bump | apply Keeps.side

theorem Keeps.mapOpen (q : ℕ) (f : Event → Event) (h : Keeps s₀ s) : Keeps s₀ (State.mapOpen q f s) := by
  unfold State.mapOpen
  (try dsimp only)
  repeat' with_reducible first | assumption | apply Keeps.side

theorem Keeps.cxlEventOn (e : Event) (p : Port) (h : Keeps s₀ s) : Keeps s₀ (State.cxlEventOn e p s) := by
  unfold State.cxlEventOn
  (try dsimp only)
  repeat' with_reducible first | assumption | apply Keeps.setPort | apply Keeps.msix | split

theorem Keeps.cxlEvent (e : Event) (h : Keeps s₀ s) : Keeps s₀ (State.cxlEvent e s) := by
  unfold State.cxlEvent
  (try dsimp only)
  repeat' with_reducible first | assumption | intro _ | apply Keeps.foldl | apply Keeps.cxlEventOn

theorem Keeps.traceEvent (e : Event) (h : Keeps s₀ s) : Keeps s₀ (State.traceEvent e s) := by
  unfold State.traceEvent
  (try dsimp only)
  repeat' with_reducible first | assumption | apply Keeps.holdTrace

theorem Keeps.logEvent (e : Event) (into : ℕ) (h : Keeps s₀ s) : Keeps s₀ (State.logEvent e into s) := by
  unfold State.logEvent
  (try dsimp only)
  repeat' with_reducible first | assumption | apply Keeps.logWrite | apply Keeps.traceEvent | split | apply Keeps.side

theorem Keeps.faultAction (cls : ℕ) (h : Keeps s₀ s) : Keeps s₀ (State.faultAction cls s) := by
  unfold State.faultAction
  (try dsimp only)
  repeat' with_reducible first | assumption | apply Keeps.setNum | apply Keeps.bump | split | apply Keeps.side

theorem Keeps.dropTest (x : ℕ) (res : ℕ) (h : Keeps s₀ s) : Keeps s₀ (State.dropTest x res s) := by
  unfold State.dropTest
  (try dsimp only)
  repeat' with_reducible first | assumption | apply Keeps.setNum | apply Keeps.setSw | split

theorem Keeps.freezeNow (cause seq : Nat) (h : Keeps s₀ s) : Keeps s₀ (s.freezeNow cause seq) := by
  unfold State.freezeNow
  split
  · exact h
  · split
    · split
      · exact Keeps.side h
      · exact h
    · have h2 : Keeps s₀ ((s.dropTest 0xD100 0xD10006).dropTest 0xD200 0xD20004) := Keeps.dropTest _ _ (Keeps.dropTest _ _ h)
      generalize (s.dropTest 0xD100 0xD10006).dropTest 0xD200 0xD20004 = u at h2
      exact Keeps.upd h2 rfl rfl rfl rfl id (fun _ => rfl) (fun x => Memory.wf_drop _ x) id (Nat.le_refl _) (.refl _)

theorem Keeps.fencedBy (q : ℕ) (h : Keeps s₀ s) : Keeps s₀ (State.fencedBy q s) := by
  unfold State.fencedBy
  (try dsimp only)
  repeat' with_reducible first | assumption | split | apply Keeps.side

theorem Keeps.reach (q : ℕ) (cls : ℕ) (at_ : ℕ) (h : Keeps s₀ s) : Keeps s₀ (State.reach q cls at_ s) := by
  unfold State.reach
  (try dsimp only)
  repeat' with_reducible first | assumption | apply Keeps.faultAction | apply Keeps.mapOpen | apply Keeps.fencedBy | split

theorem Keeps.recordAlone (e : Event) (fresh : Bool) (first : Bool) (h : Keeps s₀ s) : Keeps s₀ (State.recordAlone e fresh first s) := by
  unfold State.recordAlone
  (try dsimp only)
  repeat' with_reducible first
    | assumption | intro _ | apply Keeps.foldl | apply Keeps.pushHistory | apply Keeps.logEvent | apply Keeps.bump
    | apply Keeps.cxlEvent | apply Keeps.reach | apply Keeps.msix | split | apply Keeps.side

theorem Keeps.recordMerged (e : Event) (o : Event) (full : Bool) (fresh : Bool) (h : Keeps s₀ s) : Keeps s₀ (State.recordMerged e o full fresh s) := by
  unfold State.recordMerged
  (try dsimp only)
  repeat' with_reducible first
    | assumption | apply Keeps.bump | apply Keeps.mapOpen | apply Keeps.logEvent | apply Keeps.cxlEvent | apply Keeps.reach
    | apply Keeps.fencedBy | split

theorem Keeps.record (src : ℕ) (inst : BitVec 16) (detail : BitVec 64) (forced : Bool) (reaction : Option ℕ) (h : Keeps s₀ s) : Keeps s₀ (State.record src inst detail forced reaction s) := by
  unfold State.record
  (try dsimp only)
  repeat' with_reducible first
    | assumption | apply Keeps.countAlarm | apply Keeps.bump | apply Keeps.recordMerged | apply Keeps.recordAlone
    | apply Keeps.freezeNow | split | apply Keeps.side

theorem Keeps.event (src : ℕ) (inst : ℕ) (detail : ℕ) (h : Keeps s₀ s) : Keeps s₀ (State.event src inst detail s) := by
  unfold State.event
  (try dsimp only)
  repeat' with_reducible first | assumption | apply Keeps.record

/-! ## Machine/MemMap.lean -/

theorem Keeps.takeExtentAt (base : ℕ) (owner : ℕ) (tier : ℕ) (set : List ℕ) (h : Keeps s₀ s) : KeepsO s₀ (State.takeExtentAt base owner tier set s) := by
  unfold State.takeExtentAt
  (try dsimp only)
  repeat' with_reducible first | assumption | exact KeepsO.none | apply KeepsO.some | split | apply Keeps.side

theorem Keeps.takeExtent (owner : Nat) (tier : Nat) (set : List Nat) (h : Keeps s₀ s) : KeepsO s₀ (State.takeExtent owner tier set s) := by
  unfold State.takeExtent
  generalize State.freeBase _ _ _ = o
  cases o with
  | none => exact KeepsO.none
  | some b => exact Keeps.takeExtentAt b owner tier set h

theorem Keeps.takeBytes (x0 : ℕ) (x1 : ℕ) (x2 : ℕ) (x3 : List ℕ) (x4 : ℕ) (h : Keeps s₀ s) : KeepsO s₀ (State.takeBytes x0 x1 x2 x3 x4 s) := by
  induction x0 generalizing x1 x2 x3 x4 s with
  | zero =>
    rw [State.takeBytes]
    (try dsimp only)
    repeat' with_reducible first | assumption | exact KeepsO.none | apply KeepsO.some | split
  | succ n ih =>
    rw [State.takeBytes]
    (try dsimp only)
    repeat' with_reducible first
      | assumption | exact KeepsO.none | apply KeepsO.some | apply Keeps.takeExtent
      | refine Keeps.of_some (by with_reducible assumption) ?_ | apply ih | split

theorem Keeps.alloc (owner : ℕ) (tier : ℕ) (set : List ℕ) (bytes : ℕ) (h : Keeps s₀ s) : KeepsO s₀ (State.alloc owner tier set bytes s) := by
  unfold State.alloc
  (try dsimp only)
  repeat' with_reducible first | assumption | apply Keeps.takeBytes

theorem Keeps.takeRow (x0 : ℕ) (x1 : ℕ) (x2 : ℕ) (x3 : ℕ) (x4 : List ℕ) (x5 : ℕ) (h : Keeps s₀ s) : KeepsO s₀ (State.takeRow x0 x1 x2 x3 x4 x5 s) := by
  induction x0 generalizing x1 x2 x3 x4 x5 s with
  | zero =>
    rw [State.takeRow]
    (try dsimp only)
    repeat' with_reducible first | assumption | exact KeepsO.none | apply KeepsO.some | split
  | succ n ih =>
    rw [State.takeRow]
    (try dsimp only)
    repeat' with_reducible first
      | assumption | exact KeepsO.none | apply KeepsO.some | apply Keeps.takeExtentAt
      | refine Keeps.of_some (by with_reducible assumption) ?_ | apply ih | split

theorem Keeps.placeArea {owner tier bytes b : Nat} {t : State} (h : Keeps s₀ s) (e : s.placeArea owner tier bytes = some (b, t)) :
    Keeps s₀ t := by
  unfold State.placeArea at e
  dsimp only at e
  split at e
  · cases e; exact h
  · generalize State.takeRow _ 0 _ _ _ _ _ = r at e
    cases r with
    | none => cases e
    | some u =>
      dsimp only at e
      generalize State.freeBase _ _ _ = o at e
      cases o with
      | none => cases e
      | some x =>
        dsimp only at e
        generalize hr : State.takeRow _ _ _ _ _ _ _ = q at e
        cases q with
        | none => cases e
        | some u => cases e; exact (Keeps.takeRow _ _ _ _ _ _ h).all _ hr

theorem Keeps.release (owner : ℕ) (h : Keeps s₀ s) : Keeps s₀ (State.release owner s) := by
  unfold State.release
  (try dsimp only)
  repeat' with_reducible first | assumption | apply Keeps.side

theorem Keeps.holdLine (n : ℕ) (c : ℕ) (line : ℕ) (data : Bytes) (h : Keeps s₀ s) : Keeps s₀ (State.holdLine n c line data s) := by
  unfold State.holdLine
  (try dsimp only)
  repeat' with_reducible first | assumption | apply Keeps.setChannel | apply Keeps.raiseTo | apply Keeps.bump | split

theorem Keeps.holdWrite (a : ℕ) (h : Keeps s₀ s) : Keeps s₀ (State.holdWrite a s) := by
  unfold State.holdWrite
  (try dsimp only)
  repeat' with_reducible first | assumption | apply Keeps.holdLine | split

theorem Keeps.holdRange (a : ℕ) (n : ℕ) (h : Keeps s₀ s) : Keeps s₀ (State.holdRange a n s) := by
  unfold State.holdRange
  (try dsimp only)
  repeat' with_reducible first | assumption | intro _ | apply Keeps.foldl | apply Keeps.holdWrite | split

theorem Keeps.devWrite (a : ℕ) (b : Bytes) (h : Keeps s₀ s) : Keeps s₀ (State.devWrite a b s) := by
  unfold State.devWrite
  (try dsimp only)
  repeat' with_reducible first
    | assumption | intro _ | apply Keeps.holdRange | refine Keeps.upd ?_ rfl rfl rfl rfl (fun x => x) (fun x => x) ?_ ?_ ?_ ?_
    | exact Units.within.refl _ | exact Nat.le_refl _ | apply Memory.wf_write

theorem Keeps.unbacked  (h : Keeps s₀ s) : Keeps s₀ (State.unbacked s) := by
  unfold State.unbacked
  (try dsimp only)
  repeat' with_reducible first | assumption | apply Keeps.bump

/-! ## Machine/Spool.lean -/

theorem Keeps.reply (p : Port) (rc : Rc) (ext : ℕ) (data : Bytes) (h : Keeps s₀ s) : Keeps s₀ (State.reply p rc ext data s) := by
  unfold State.reply
  (try dsimp only)
  repeat' with_reducible first | assumption | apply Keeps.emit

theorem Keeps.ok (p : Port) (data : Bytes) (h : Keeps s₀ s) : Keeps s₀ (State.ok p data s) := by
  unfold State.ok
  (try dsimp only)
  repeat' with_reducible first | assumption | apply Keeps.reply

theorem Keeps.deny (p : Port) (e : Ext) (h : Keeps s₀ s) : Keeps s₀ (State.deny p e s) := by
  unfold State.deny
  (try dsimp only)
  repeat' with_reducible first | assumption | apply Keeps.reply

theorem Keeps.onMailbox (p : Port) (inFenced : Bool) (f : State → State) (hf : ∀ t, Keeps s₀ t → Keeps s₀ (f t)) (h : Keeps s₀ s) : KeepsR s₀ (State.onMailbox p inFenced f s) := by
  unfold State.onMailbox
  (try dsimp only)
  repeat' with_reducible first | assumption | apply KeepsR.next | apply hf | apply Keeps.deny | split

theorem Keeps.onWork (p : Port) (f : State → State) (hf : ∀ t, Keeps s₀ t → Keeps s₀ (f t)) (h : Keeps s₀ s) : KeepsR s₀ (State.onWork p f s) := by
  unfold State.onWork
  (try dsimp only)
  repeat' with_reducible first | assumption | intro _ | apply hf | apply Keeps.onMailbox | apply Keeps.loadAppears

theorem Keeps.startBg (p : Port) (opcode : ℕ) (arg : ℕ) (f : State → State) (hf : ∀ t, Keeps s₀ t → Keeps s₀ (f t)) (h : Keeps s₀ s) : Keeps s₀ (State.startBg p opcode arg f s) := by
  unfold State.startBg
  (try dsimp only)
  repeat' with_reducible first | assumption | apply hf | apply Keeps.deny | apply Keeps.reply | apply Keeps.setPort | split

theorem Keeps.endBg (p : Port) (opcode : ℕ) (rc : Rc) (ext : ℕ) (h : Keeps s₀ s) : Keeps s₀ (State.endBg p opcode rc ext s) := by
  unfold State.endBg
  (try dsimp only)
  repeat' with_reducible first | assumption | apply Keeps.msix | apply Keeps.emit | apply Keeps.setPort | split

theorem Keeps.ignoreSub (p : Port) (n : Byte) (h : Keeps s₀ s) : Keeps s₀ (State.ignoreSub p n s) := by
  unfold State.ignoreSub
  (try dsimp only)
  repeat' with_reducible first | assumption | apply Keeps.mapSub

theorem Keeps.ringSub (p : Port) (n : Byte) (t' : BitVec 32) (h : Keeps s₀ s) : Keeps s₀ (State.ringSub p n t' s) := by
  unfold State.ringSub
  (try dsimp only)
  repeat' with_reducible first
    | assumption | apply Keeps.bump | apply Keeps.event | apply Keeps.ignoreSub | apply Keeps.loadAppears | apply Keeps.mapSub
    | split

theorem Keeps.ringComp (p : Port) (n : Byte) (h' : BitVec 32) (h : Keeps s₀ s) : Keeps s₀ (State.ringComp p n h' s) := by
  unfold State.ringComp
  (try dsimp only)
  repeat' with_reducible first | assumption | apply Keeps.bump | apply Keeps.mapComp | split

theorem Keeps.takeTurn (place : ℕ) (weight : ℕ) (h : Keeps s₀ s) : Keeps s₀ (State.takeTurn place weight s) := by
  unfold State.takeTurn
  (try dsimp only)
  repeat' with_reducible first | assumption | split | apply Keeps.side

theorem Keeps.takeEntry (p : Port) (n : Byte) (h : Keeps s₀ s) : Keeps s₀ (State.takeEntry p n s) := by
  unfold State.takeEntry
  (try dsimp only)
  repeat' with_reducible first | assumption | apply Keeps.mapComp | apply Keeps.mapSub | apply Keeps.hostWork | split

theorem Keeps.signalComp (p : Port) (n : Byte) (h : Keeps s₀ s) : Keeps s₀ (State.signalComp p n s) := by
  unfold State.signalComp
  (try dsimp only)
  repeat' with_reducible first | assumption | apply Keeps.msix | apply Keeps.mapComp | split

theorem Keeps.pushComp (p : Port) (n : Byte) (e : CompEntry) (h : Keeps s₀ s) : Keeps s₀ (State.pushComp p n e s) := by
  unfold State.pushComp
  (try dsimp only)
  repeat' with_reducible first
    | assumption | intro _ | apply Keeps.devWrite | apply Keeps.mapComp | apply Keeps.signalComp | split
    | refine Keeps.upd ?_ rfl rfl rfl rfl (fun x => x) (fun x => x) ?_ ?_ ?_ ?_ | exact Units.within.refl _
    | exact Nat.le_refl _ | apply Memory.wf_write

theorem Keeps.complete (p : Port) (n : Byte) (head : ℕ) (tag : ℕ) (count : ℕ) (aux : ℕ) (opcode : ℕ) (status : ℕ) (h : Keeps s₀ s) : Keeps s₀ (State.complete p n head tag count aux opcode status s) := by
  unfold State.complete
  (try dsimp only)
  repeat' with_reducible first
    | assumption | apply Keeps.mapComp | apply Keeps.mapSub | apply Keeps.hostWork | apply Keeps.pushComp | split

/-! ## Machine/Fabric.lean -/

theorem Keeps.push (n : ℕ) (f : Frame) (h : Keeps s₀ s) : Keeps s₀ (State.push n f s) := by
  unfold State.push
  (try dsimp only)
  repeat' with_reducible first | assumption | apply Keeps.emit | apply Keeps.setLink

theorem Keeps.rekey (n : ℕ) (h : Keeps s₀ s) : Keeps s₀ (State.rekey n s) := by
  unfold State.rekey
  (try dsimp only)
  repeat' with_reducible first | assumption | apply Keeps.mapLink | apply Keeps.spend | apply Keeps.push

theorem Keeps.send (n : ℕ) (f : Frame) (h : Keeps s₀ s) : Keeps s₀ (State.send n f s) := by
  unfold State.send
  (try dsimp only)
  repeat' with_reducible first | assumption | apply Keeps.push | apply Keeps.rekey | split

theorem Keeps.transmit (n : ℕ) (f : Frame) (h : Keeps s₀ s) : Keeps s₀ (State.transmit n f s) := by
  unfold State.transmit
  (try dsimp only)
  repeat' with_reducible first | assumption | apply Keeps.send | apply Keeps.mapLink

theorem Keeps.drainWaiting (n : ℕ) (h : Keeps s₀ s) : Keeps s₀ (State.drainWaiting n s) := by
  unfold State.drainWaiting
  (try dsimp only)
  repeat' with_reducible first | assumption | intro _ | apply Keeps.foldl1 | apply Keeps.transmit | apply Keeps.mapLink | split

theorem Keeps.sendOn (n : ℕ) (f : Frame) (h : Keeps s₀ s) : Keeps s₀ (State.sendOn n f s) := by
  unfold State.sendOn
  (try dsimp only)
  repeat' with_reducible first | assumption | apply Keeps.drainWaiting | apply Keeps.mapLink

theorem Keeps.control (n : ℕ) (op : Byte) (operand : BitVec 64) (payload : Bytes) (h : Keeps s₀ s) : Keeps s₀ (State.control n op operand payload s) := by
  unfold State.control
  (try dsimp only)
  repeat' with_reducible first | assumption | apply Keeps.send | apply Keeps.sendOn | split

theorem Keeps.giveCredit (n : ℕ) (vc : ℕ) (h : Keeps s₀ s) : Keeps s₀ (State.giveCredit n vc s) := by
  unfold State.giveCredit
  (try dsimp only)
  repeat' with_reducible first | assumption | apply Keeps.control

theorem Keeps.respond (status : Byte) (f : Frame) (data : Bytes) (old : BitVec 64) (h : Keeps s₀ s) : Keeps s₀ (State.respond status f data old s) := by
  unfold State.respond
  (try dsimp only)
  repeat' with_reducible first | assumption | apply Keeps.sendOn | apply Keeps.bump | split

theorem Keeps.issueVia (n : ℕ) (op : Byte) (ordered : Bool) (dest : ℕ) (addr : BitVec 64) (operand : BitVec 64) (payload : Bytes) (w : ReqFor) (length : ℕ) (h : Keeps s₀ s) : Keeps s₀ (State.issueVia n op ordered dest addr operand payload w length s) := by
  unfold State.issueVia
  (try dsimp only)
  repeat' with_reducible first | assumption | apply Keeps.sendOn | apply Keeps.bump | apply Keeps.side

theorem Keeps.issue (op : Byte) (ordered : Bool) (dest : ℕ) (addr : BitVec 64) (operand : BitVec 64) (payload : Bytes) (w : ReqFor) (length : ℕ) (h : Keeps s₀ s) : KeepsO s₀ (State.issue op ordered dest addr operand payload w length s) := by
  unfold State.issue
  (try dsimp only)
  repeat' with_reducible first | assumption | intro _ | exact KeepsO.none | apply KeepsO.map | apply Keeps.issueVia | split

theorem Keeps.dropRequest (t' : BitVec 32) (h : Keeps s₀ s) : Keeps s₀ (State.dropRequest t' s) := by
  unfold State.dropRequest
  (try dsimp only)
  repeat' with_reducible first | assumption | apply Keeps.side

theorem Keeps.setWord (a : ℕ) (v : BitVec 64) (h : Keeps s₀ s) : Keeps s₀ (State.setWord a v s) := by
  unfold State.setWord
  (try dsimp only)
  repeat' with_reducible first | assumption | apply Keeps.devWrite

theorem Keeps.wordOp (op : Byte) (a : ℕ) (operand : BitVec 64) (new : BitVec 64) (h : Keeps s₀ s) : Keeps s₀ (State.wordOp op a operand new s).1 := by
  unfold State.wordOp
  (try dsimp only)
  repeat' with_reducible first | assumption | apply Keeps.setWord | split

theorem Keeps.probe  (h : Keeps s₀ s) : Keeps s₀ (State.probe s) := by
  unfold State.probe
  (try dsimp only)
  repeat' with_reducible first | assumption | apply Keeps.issueVia | split

theorem Keeps.probed (r : Option Bytes) (h : Keeps s₀ s) : Keeps s₀ (State.probed r s) := by
  unfold State.probed
  (try dsimp only)
  repeat' with_reducible first
    | assumption | apply Keeps.bumpBy | apply Keeps.setNum | apply Keeps.probe | split | apply Keeps.side

theorem Keeps.controlWrite (p : Port) (off : ℕ) (b : Bytes) (h : Keeps s₀ s) : Keeps s₀ (State.controlWrite p off b s) := by
  unfold State.controlWrite
  (try dsimp only)
  repeat' with_reducible first | assumption | apply Keeps.devWrite | apply Keeps.ringSub | apply Keeps.ringComp | split

theorem Keeps.localWrite (a : ℕ) (b : Bytes) (h : Keeps s₀ s) : Keeps s₀ (State.localWrite a b s) := by
  unfold State.localWrite
  (try dsimp only)
  repeat' with_reducible first | assumption | apply Keeps.controlWrite | apply Keeps.devWrite | split

theorem Keeps.finishSlot (j : ℕ) (q : SlotTaken) (status : Byte) (old : BitVec 64) (data : Bytes) (h : Keeps s₀ s) : Keeps s₀ (State.finishSlot j q status old data s) := by
  unfold State.finishSlot
  (try dsimp only)
  repeat' with_reducible first
    | assumption | apply Keeps.localWrite | apply Keeps.unbacked | apply Keeps.devWrite | apply Keeps.msix | split

/-! ## Machine/Records.lean -/

theorem Keeps.allocColl (d : CollDef) (h : Keeps s₀ s) : KeepsO s₀ (State.allocColl d s) := by
  unfold State.allocColl
  (try dsimp only)
  repeat' with_reducible first
    | assumption | intro _ | apply KeepsO.some | apply KeepsO.foldl | apply Keeps.alloc
    | (with_reducible apply Keeps.of_hyp;  assumption) | split

/-! ## Machine/Shared.lean -/

theorem Keeps.resize (code : ℕ) (n : ℕ) (h : Keeps s₀ s) : Keeps s₀ (State.resize code n s) := by
  unfold State.resize
  (try dsimp only)
  repeat' with_reducible first | assumption | split | apply Keeps.side

theorem Keeps.setCal (n : ℕ) (e : CalEntry) (h : Keeps s₀ s) : Keeps s₀ (State.setCal n e s) := by
  unfold State.setCal
  (try dsimp only)
  repeat' with_reducible first | assumption | apply Keeps.side

theorem Keeps.mapBaste (f : List BasteEntry → List BasteEntry) (h : Keeps s₀ s) : Keeps s₀ (State.mapBaste f s) := by
  unfold State.mapBaste
  (try dsimp only)
  repeat' with_reducible first | assumption | apply Keeps.side

theorem Keeps.placePayload (gib : ℕ) (h : Keeps s₀ s) : KeepsO s₀ (State.placePayload gib s) := by
  unfold State.placePayload
  (try dsimp only)
  repeat' with_reducible first | assumption | apply Keeps.release | apply Keeps.alloc

theorem Keeps.applyBaste  (h : Keeps s₀ s) : Keeps s₀ (State.applyBaste s) := by
  unfold State.applyBaste
  (try dsimp only)
  repeat' with_reducible first | assumption | apply Keeps.getD | apply Keeps.resize | apply Keeps.placePayload | split

theorem Keeps.trimBaste  (h : Keeps s₀ s) : Keeps s₀ (State.trimBaste s) := by
  unfold State.trimBaste
  (try dsimp only)
  repeat' with_reducible first | assumption | apply Keeps.applyBaste | apply Keeps.mapBaste | split

/-! ## Machine/Flags.lean -/

theorem Keeps.countScore (m : ConvMark) (h : Keeps s₀ s) : Keeps s₀ (State.countScore m s) := by
  unfold State.countScore
  (try dsimp only)
  repeat' with_reducible first | assumption | apply Keeps.bumpSat | split

theorem Keeps.countScores (ms : List ConvMark) (h : Keeps s₀ s) : Keeps s₀ (State.countScores ms s) := by
  unfold State.countScores
  (try dsimp only)
  repeat' with_reducible first | assumption | intro _ | apply Keeps.foldl | apply Keeps.countScore

theorem Keeps.countTile (status : ℕ) (h : Keeps s₀ s) : Keeps s₀ (State.countTile status s) := by
  unfold State.countTile
  (try dsimp only)
  repeat' with_reducible first | assumption | intro _ | apply Keeps.foldl | apply Keeps.bump

theorem Keeps.countKiln (c : ConvCount) (h : Keeps s₀ s) : Keeps s₀ (State.countKiln c s) := by
  unfold State.countKiln
  (try dsimp only)
  repeat' with_reducible first | assumption | apply Keeps.bumpSat

theorem Keeps.countTun (c : ConvCount) (h : Keeps s₀ s) : Keeps s₀ (State.countTun c s) := by
  unfold State.countTun
  (try dsimp only)
  repeat' with_reducible first | assumption | apply Keeps.bumpSat

/-! ## Machine/Query.lean -/

theorem Keeps.countFinalise (cutoff : ℕ) (h : Keeps s₀ s) : Keeps s₀ (State.countFinalise cutoff s) := by
  unfold State.countFinalise
  (try dsimp only)
  repeat' with_reducible first | assumption | apply Keeps.raiseTo | split

theorem Keeps.countWrite (cutoff : ℕ) (deadline : ℕ) (h : Keeps s₀ s) : Keeps s₀ (State.countWrite cutoff deadline s) := by
  unfold State.countWrite
  (try dsimp only)
  repeat' with_reducible first | assumption | apply Keeps.countFinalise | apply Keeps.bump | split

theorem Keeps.countQuery (status : ℕ) (flags : ℕ) (h : Keeps s₀ s) : Keeps s₀ (State.countQuery status flags s) := by
  unfold State.countQuery
  (try dsimp only)
  repeat' with_reducible first | assumption | intro _ | apply Keeps.foldl | apply Keeps.bump | split

theorem Keeps.endEntry (p : Port) (n : Byte) (head : ℕ) (x : Done) (h : Keeps s₀ s) : Keeps s₀ (State.endEntry p n head x s) := by
  unfold State.endEntry
  (try dsimp only)
  repeat' with_reducible first
    | assumption | apply Keeps.bump | apply Keeps.complete | apply Keeps.holdTrace | split | apply Keeps.side

theorem Keeps.writeArea (d : QueryDesc) (records : Bytes) (x : Done) (tie : ℕ) (missing : ℕ) (h : Keeps s₀ s) : Keeps s₀ (State.writeArea d records x tie missing s) := by
  unfold State.writeArea
  (try dsimp only)
  repeat' with_reducible first | assumption | apply Keeps.devWrite

theorem Keeps.endEmpty (p : Port) (n : Byte) (head : ℕ) (tenant : ℕ) (x : Done) (h : Keeps s₀ s) : Keeps s₀ (State.endEmpty p n head tenant x s) := by
  unfold State.endEmpty
  (try dsimp only)
  repeat' with_reducible first
    | assumption | apply Keeps.writeArea | apply Keeps.endEntry | apply Keeps.countQuery | apply Keeps.countWrite | split

theorem Keeps.applySlices (code : ℕ) (k : ℕ) (empty : Bool) (h : Keeps s₀ s) : Keeps s₀ (State.applySlices code k empty s) := by
  unfold State.applySlices
  (try dsimp only)
  repeat' with_reducible first | assumption | apply Keeps.resize | split

theorem Keeps.applyAreas  (h : Keeps s₀ s) : Keeps s₀ (State.applyAreas s) := by
  unfold State.applyAreas
  (try dsimp only)
  repeat' with_reducible first
    | assumption | apply Keeps.applySlices | apply Keeps.setNum | apply Keeps.resize | apply Keeps.release | apply Keeps.alloc
    | refine Keeps.of_some (by with_reducible assumption) ?_ | split

theorem Keeps.setTables (u : ℕ) (l : List ℕ) (h : Keeps s₀ s) : Keeps s₀ (State.setTables u l s) := by
  unfold State.setTables
  (try dsimp only)
  repeat' with_reducible first | assumption | apply Keeps.side

theorem Keeps.placeTable (q : ℕ) (needle : ℕ) (n : ℕ) (h : Keeps s₀ s) : Keeps s₀ (State.placeTable q needle n s) := by
  unfold State.placeTable
  (try dsimp only)
  repeat' with_reducible first | assumption | apply Keeps.setTables | split

theorem Keeps.residence (q : ℕ) (u : ℕ) (n : ℕ) (h : Keeps s₀ s) : Keeps s₀ (State.residence q u n s) := by
  unfold State.residence
  (try dsimp only)
  repeat' with_reducible first | assumption | apply Keeps.setTables | apply Keeps.bump | split

theorem Keeps.dropTables (q : ℕ) (h : Keeps s₀ s) : Keeps s₀ (State.dropTables q s) := by
  unfold State.dropTables
  (try dsimp only)
  repeat' with_reducible first | assumption | apply Keeps.side

theorem Keeps.dropPrefetch (qid : ℕ) (h : Keeps s₀ s) : Keeps s₀ (State.dropPrefetch qid s) := by
  unfold State.dropPrefetch
  (try dsimp only)
  repeat' with_reducible first | assumption | apply Keeps.bumpBy | apply Keeps.mapQuery | split

theorem Keeps.leave (q : ℕ) (h : Keeps s₀ s) : Keeps s₀ (State.leave q s) := by
  unfold State.leave
  (try dsimp only)
  repeat' with_reducible first
    | assumption | apply Keeps.dropTables | apply Keeps.hostWork | apply Keeps.applyAreas | apply Keeps.trimBaste
    | apply Keeps.side

theorem Keeps.countFinal (filtered : Bool) (f : Final) (h : Keeps s₀ s) : Keeps s₀ (State.countFinal filtered f s) := by
  unfold State.countFinal
  (try dsimp only)
  repeat' with_reducible first | assumption | apply Keeps.bumpBy | split

theorem Keeps.deliver (p : Port) (n : Byte) (head : ℕ) (q : Query) (f : Final) (status : ℕ) (flags : ℕ) (missing : ℕ) (hops : ℕ) (h : Keeps s₀ s) : Keeps s₀ (State.deliver p n head q f status flags missing hops s) := by
  unfold State.deliver
  (try dsimp only)
  repeat' with_reducible first
    | assumption | apply Keeps.writeArea | apply Keeps.endEntry | apply Keeps.countQuery | apply Keeps.countWrite

/-! ## Machine/Fleet.lean -/

theorem Keeps.sendFrames (lead : ℕ) (window : BitVec 64) (frames : List Bytes) (last : Bool) (h : Keeps s₀ s) : Keeps s₀ (State.sendFrames lead window frames last s) := by
  unfold State.sendFrames
  (try dsimp only)
  repeat' with_reducible first
    | assumption | intro _ | apply Keeps.foldl | apply Keeps.getD | apply Keeps.issue | apply Keeps.bump | split

theorem Keeps.mapRecord (w : ℕ) (id : BitVec 32) (f : MergeRec → MergeRec) (h : Keeps s₀ s) : Keeps s₀ (State.mapRecord w id f s) := by
  unfold State.mapRecord
  (try dsimp only)
  repeat' with_reducible first | assumption | apply Keeps.side

theorem Keeps.finaliseLead (r : MergeRec) (q : Query) (h : Keeps s₀ s) : Keeps s₀ (State.finaliseLead r q s) := by
  unfold State.finaliseLead
  (try dsimp only)
  repeat' with_reducible first
    | assumption | apply Keeps.bumpBy | apply Keeps.countFinal | apply Keeps.leave | apply Keeps.deliver | split
    | apply Keeps.side

theorem Keeps.checkRecord (w : ℕ) (id : BitVec 32) (h : Keeps s₀ s) : Keeps s₀ (State.checkRecord w id s) := by
  unfold State.checkRecord
  (try dsimp only)
  repeat' with_reducible first | assumption | apply Keeps.finaliseLead | split

theorem Keeps.holdOff (dev : ℕ) (h : Keeps s₀ s) : Keeps s₀ (State.holdOff dev s) := by
  unfold State.holdOff
  (try dsimp only)
  repeat' with_reducible first | assumption | apply Keeps.side

theorem Keeps.dispatchShard (w : ℕ) (id : BitVec 32) (i : ℕ) (x3 : ℕ) (h : Keeps s₀ s) : Keeps s₀ (State.dispatchShard w id i x3 s) := by
  induction x3 generalizing s with
  | zero =>
    rw [State.dispatchShard]
    (try dsimp only)
    repeat' with_reducible first | assumption
  | succ n ih =>
    rw [State.dispatchShard]
    (try dsimp only)
    repeat' with_reducible first
      | assumption | apply Keeps.getD | apply Keeps.mapRecord | apply Keeps.issue | apply ih | split | apply Keeps.side

theorem Keeps.redispatch (w : ℕ) (id : BitVec 32) (i : ℕ) (h : Keeps s₀ s) : Keeps s₀ (State.redispatch w id i s) := by
  unfold State.redispatch
  (try dsimp only)
  repeat' with_reducible first | assumption | apply Keeps.checkRecord | apply Keeps.dispatchShard | split

theorem Keeps.shardDone (w : ℕ) (id : BitVec 32) (i : ℕ) (dev : ℕ) (p : ShardPart) (h : Keeps s₀ s) : Keeps s₀ (State.shardDone w id i dev p s) := by
  unfold State.shardDone
  (try dsimp only)
  repeat' with_reducible first
    | assumption | apply Keeps.redispatch | apply Keeps.holdOff | apply Keeps.checkRecord | apply Keeps.bump
    | apply Keeps.mapRecord | split

theorem Keeps.lateMark (w : ℕ) (id : BitVec 32) (i : ℕ) (expected : ℕ) (h : Keeps s₀ s) : Keeps s₀ (State.lateMark w id i expected s) := by
  unfold State.lateMark
  (try dsimp only)
  repeat' with_reducible first | assumption | apply Keeps.checkRecord | apply Keeps.bump | apply Keeps.mapRecord

theorem Keeps.shardFrame (w : ℕ) (i : ℕ) (dev : ℕ) (h' : MergeHead) (entries : List LEntry) (h : Keeps s₀ s) : Keeps s₀ (State.shardFrame w i dev h' entries s) := by
  unfold State.shardFrame
  (try dsimp only)
  repeat' with_reducible first | assumption | apply Keeps.mapRecord | apply Keeps.shardDone | apply Keeps.checkRecord | split

theorem Keeps.evaluateDue (w : ℕ) (id : BitVec 32) (h : Keeps s₀ s) : Keeps s₀ (State.evaluateDue w id s) := by
  unfold State.evaluateDue
  (try dsimp only)
  repeat' with_reducible first | assumption | apply Keeps.checkRecord | split

theorem Keeps.mergeIn (w : ℕ) (dev : ℕ) (b : Bytes) (h : Keeps s₀ s) : Keeps s₀ (State.mergeIn w dev b s).1 := by
  unfold State.mergeIn
  (try dsimp only)
  repeat' with_reducible first
    | assumption | apply Keeps.evaluateDue | apply Keeps.bump | apply Keeps.lateMark | apply Keeps.shardFrame | split

theorem Keeps.toLead (d : QueryDesc) (frames : List Bytes) (h : Keeps s₀ s) : Keeps s₀ (State.toLead d frames s) := by
  unfold State.toLead
  (try dsimp only)
  repeat' with_reducible first | assumption | intro _ | apply Keeps.foldl | apply Keeps.mergeIn | apply Keeps.sendFrames | split

theorem Keeps.shardFails (d : QueryDesc) (shard : ℕ) (status : ℕ) (flags : ℕ) (h : Keeps s₀ s) : Keeps s₀ (State.shardFails d shard status flags s) := by
  unfold State.shardFails
  (try dsimp only)
  repeat' with_reducible first | assumption | apply Keeps.toLead

theorem Keeps.deliverShard (q : Query) (shard : ℕ) (f : Final) (status : ℕ) (flags : ℕ) (h : Keeps s₀ s) : Keeps s₀ (State.deliverShard q shard f status flags s) := by
  unfold State.deliverShard
  (try dsimp only)
  repeat' with_reducible first
    | assumption | apply Keeps.countQuery | apply Keeps.shardFails | apply Keeps.mapColl | apply Keeps.toLead | split
    | apply Keeps.side

theorem Keeps.markLate (qid : ℕ) (q : Query) (shard : ℕ) (h : Keeps s₀ s) : Keeps s₀ (State.markLate qid q shard s) := by
  unfold State.markLate
  (try dsimp only)
  repeat' with_reducible first | assumption | apply Keeps.bump | apply Keeps.mapQuery | apply Keeps.toLead | split

theorem Keeps.checkpoint (qid : ℕ) (h : Keeps s₀ s) : Keeps s₀ (State.checkpoint qid s).1 := by
  unfold State.checkpoint
  (try dsimp only)
  repeat' with_reducible first | assumption | apply Keeps.markLate | split

theorem Keeps.finishQuery (qid : ℕ) (h : Keeps s₀ s) : Keeps s₀ (State.finishQuery qid s) := by
  unfold State.finishQuery
  (try dsimp only)
  repeat' with_reducible first
    | assumption | apply Keeps.dropPrefetch | apply Keeps.finaliseLead | apply Keeps.countFinal | apply Keeps.leave
    | apply Keeps.deliver | apply Keeps.deliverShard | split

theorem Keeps.endQuery (qid : ℕ) (f : Query → Query) (h : Keeps s₀ s) : Keeps s₀ (State.endQuery qid f s) := by
  unfold State.endQuery
  (try dsimp only)
  repeat' with_reducible first | assumption | apply Keeps.finishQuery | apply Keeps.mapQuery

/-! ## Machine/TunArray.lean -/

theorem Keeps.paceCycles  (h : Keeps s₀ s) : Keeps s₀ (State.paceCycles s) := by
  unfold State.paceCycles
  (try dsimp only)
  repeat' with_reducible first | assumption | apply Keeps.spend | apply Keeps.bumpBy | split

theorem Keeps.countUnits (k : ℕ) (steps : ℕ) (rows : ℕ) (h : Keeps s₀ s) : Keeps s₀ (State.countUnits k steps rows s) := by
  unfold State.countUnits
  (try dsimp only)
  repeat' with_reducible first | assumption | apply Keeps.paceCycles | apply Keeps.bumpBy

theorem Keeps.openUnits (k : ℕ) (h : Keeps s₀ s) : Keeps s₀ (State.openUnits k s) := by
  unfold State.openUnits
  (try dsimp only)
  repeat' with_reducible first | assumption | apply Keeps.spend | apply Keeps.countUnits

theorem Keeps.setCluster (n : ℕ) (f : Cluster → Cluster) (h : Keeps s₀ s) : Keeps s₀ (State.setCluster n f s) := by
  unfold State.setCluster
  (try dsimp only)
  repeat' with_reducible first | assumption | apply Keeps.side

theorem Keeps.loadScan (clusters : List ℕ) (f : Fmt) (w : ℕ) (cols : ℕ) (queries : Bytes) (xs : List (List ℕ)) (h : Keeps s₀ s) : Keeps s₀ (State.loadScan clusters f w cols queries xs s) := by
  unfold State.loadScan
  (try dsimp only)
  repeat' with_reducible first | assumption | intro _ | apply Keeps.foldl | apply Keeps.setCluster | split

/-! ## Machine/Search.lean -/

theorem Keeps.buildTable (q : Query) (c : Coll) (h : Keeps s₀ s) : Keeps s₀ (State.buildTable q c s) := by
  unfold State.buildTable
  (try dsimp only)
  repeat' with_reducible first
    | assumption | apply Keeps.mapQuery | apply Keeps.bumpBy | apply Keeps.bump | apply Keeps.placeTable | apply Keeps.countKiln
    | split

theorem Keeps.refuseTable (q : Query) (c : Coll) (h : Keeps s₀ s) : Keeps s₀ (State.refuseTable q c s) := by
  unfold State.refuseTable
  (try dsimp only)
  repeat' with_reducible first | assumption | apply Keeps.mapQuery | split

theorem Keeps.considerAll (qid : ℕ) (ws : List ℕ) (h : Keeps s₀ s) : Keeps s₀ (State.considerAll qid ws s) := by
  unfold State.considerAll
  (try dsimp only)
  repeat' with_reducible first | assumption | apply Keeps.bumpBy | apply Keeps.countScores | apply Keeps.mapQuery | split

theorem Keeps.useUnit (q : Query) (u : ℕ) (h : Keeps s₀ s) : Keeps s₀ (State.useUnit q u s) := by
  unfold State.useUnit
  (try dsimp only)
  repeat' with_reducible first | assumption | apply Keeps.residence | split

theorem Keeps.scoreSlots (q : Query) (ws : List ℕ) (h : Keeps s₀ s) : Keeps s₀ (State.scoreSlots q ws s) := by
  unfold State.scoreSlots
  (try dsimp only)
  repeat' with_reducible first | assumption | apply Keeps.useUnit | split

theorem Keeps.cutQuery (qid : ℕ) (h : Keeps s₀ s) : Keeps s₀ (State.cutQuery qid s) := by
  unfold State.cutQuery
  (try dsimp only)
  repeat' with_reducible first | assumption | apply Keeps.endQuery

theorem Keeps.joinBaste (qid : ℕ) (h : Keeps s₀ s) : Keeps s₀ (State.joinBaste qid s) := by
  unfold State.joinBaste
  (try dsimp only)
  repeat' with_reducible first | assumption | apply Keeps.checkpoint | apply Keeps.mapQuery | apply Keeps.cutQuery | split

theorem Keeps.startRerank (qid : ℕ) (h : Keeps s₀ s) : Keeps s₀ (State.startRerank qid s) := by
  unfold State.startRerank
  (try dsimp only)
  repeat' with_reducible first
    | assumption | apply Keeps.joinBaste | apply Keeps.checkpoint | apply Keeps.cutQuery | apply Keeps.mapQuery | split

theorem Keeps.endTraversal (qid : ℕ) (h : Keeps s₀ s) : Keeps s₀ (State.endTraversal qid s) := by
  unfold State.endTraversal
  (try dsimp only)
  repeat' with_reducible first | assumption | apply Keeps.startRerank | apply Keeps.mapQuery | apply Keeps.dropPrefetch

theorem Keeps.nextHop (qid : ℕ) (h : Keeps s₀ s) : Keeps s₀ (State.nextHop qid s) := by
  unfold State.nextHop
  (try dsimp only)
  repeat' with_reducible first
    | assumption | apply Keeps.endTraversal | apply Keeps.mapQuery | apply Keeps.checkpoint | apply Keeps.cutQuery | split

theorem Keeps.begin (qid : ℕ) (h : Keeps s₀ s) : Keeps s₀ (State.begin qid s) := by
  unfold State.begin
  (try dsimp only)
  repeat' with_reducible first
    | assumption | apply Keeps.checkpoint | apply Keeps.cutQuery | apply Keeps.buildTable | apply Keeps.mapQuery
    | apply Keeps.endQuery | apply Keeps.startRerank | apply Keeps.nextHop | apply Keeps.considerAll | apply Keeps.scoreSlots
    | split

theorem Keeps.openRecord (q : Query) (w : ℕ) (c : Coll) (h : Keeps s₀ s) : Keeps s₀ (State.openRecord q w c s) := by
  unfold State.openRecord
  (try dsimp only)
  repeat' with_reducible first
    | assumption | intro _ | apply Keeps.foldl | apply Keeps.bump | apply Keeps.mapQuery | apply Keeps.checkRecord
    | apply Keeps.dispatchShard | apply Keeps.side

theorem Keeps.takeList (q : Query) (c : Coll) (h : Keeps s₀ s) : Keeps s₀ (State.takeList q c s) := by
  unfold State.takeList
  (try dsimp only)
  repeat' with_reducible first | assumption | apply Keeps.bumpBy | apply Keeps.mapQuery | apply Keeps.bump | split

theorem Keeps.takePages (q : Query) (c : Coll) (h : Keeps s₀ s) : Keeps s₀ (State.takePages q c s) := by
  unfold State.takePages
  (try dsimp only)
  repeat' with_reducible first | assumption | apply Keeps.mapQuery | apply Keeps.bump | split

theorem Keeps.launch (qid : ℕ) (h : Keeps s₀ s) : Keeps s₀ (State.launch qid s) := by
  unfold State.launch
  (try dsimp only)
  repeat' with_reducible first
    | assumption | apply Keeps.mapQuery | apply Keeps.takePages | apply Keeps.takeList | apply Keeps.bump
    | apply Keeps.openRecord | apply Keeps.begin | split

theorem Keeps.endEarly (r : Asker) (d : QueryDesc) (status : ℕ) (flags : ℕ) (snapshot : ℕ) (h : Keeps s₀ s) : Keeps s₀ (State.endEarly r d status flags snapshot s) := by
  unfold State.endEarly
  (try dsimp only)
  repeat' with_reducible first | assumption | apply Keeps.endEmpty | apply Keeps.countQuery | apply Keeps.shardFails | split

theorem Keeps.answerGet (r : Asker) (d : QueryDesc) (c : Coll) (h : Keeps s₀ s) : Keeps s₀ (State.answerGet r d c s) := by
  unfold State.answerGet
  (try dsimp only)
  repeat' with_reducible first
    | assumption | apply Keeps.endEntry | apply Keeps.countQuery | apply Keeps.countWrite | apply Keeps.writeArea | split

theorem Keeps.arrive (r : Asker) (d : QueryDesc) (c : Option Coll) (needle : ℕ) (h : Keeps s₀ s) : Keeps s₀ (State.arrive r d c needle s) := by
  unfold State.arrive
  (try dsimp only)
  repeat' with_reducible first
    | assumption | apply Keeps.endEarly | apply Keeps.answerGet | apply Keeps.finishQuery | apply Keeps.refuseTable
    | apply Keeps.launch | split | apply Keeps.side

theorem Keeps.readQuery (p : Port) (n : Byte) (op : ℕ) (needle : ℕ) (h : Keeps s₀ s) : Keeps s₀ (State.readQuery p n op needle s) := by
  unfold State.readQuery
  (try dsimp only)
  repeat' with_reducible first
    | assumption | apply Keeps.takeEntry | apply Keeps.takeTurn | apply Keeps.bump | apply Keeps.complete | apply Keeps.arrive
    | split

theorem Keeps.readFleet (op : ℕ) (needle : ℕ) (h : Keeps s₀ s) : Keeps s₀ (State.readFleet op needle s) := by
  unfold State.readFleet
  (try dsimp only)
  repeat' with_reducible first
    | assumption | apply Keeps.hostWork | apply Keeps.takeTurn | apply Keeps.spend | apply Keeps.endEarly | apply Keeps.arrive
    | split | apply Keeps.side

theorem Keeps.readEntryOf (i : Intake) (op : ℕ) (needle : ℕ) (h : Keeps s₀ s) : Keeps s₀ (State.readEntryOf i op needle s) := by
  unfold State.readEntryOf
  (try dsimp only)
  repeat' with_reducible first | assumption | apply Keeps.readQuery | apply Keeps.readFleet | split

theorem Keeps.countHop (q : Query) (u : ℕ) (h : Keeps s₀ s) : Keeps s₀ (State.countHop q u s) := by
  unfold State.countHop
  (try dsimp only)
  repeat' with_reducible first | assumption | apply Keeps.bumpBy | apply Keeps.bump | apply Keeps.side

theorem Keeps.scanRows (unitKey : ℕ) (clusters : List ℕ) (p : EncP) (dist : ℕ) (qs : List Prep) (xs : List Stored) (h : Keeps s₀ s) : Keeps s₀ (State.scanRows unitKey clusters p dist qs xs s).1 := by
  unfold State.scanRows
  (try dsimp only)
  repeat' with_reducible first
    | assumption | intro _ | apply Keeps.foldl | apply Keeps.countTun | apply Keeps.countTile | apply Keeps.countUnits
    | apply Keeps.loadScan | split

theorem Keeps.latchGrist  (h : Keeps s₀ s) : Keeps s₀ (State.latchGrist s) := by
  unfold State.latchGrist
  (try dsimp only)
  repeat' with_reducible first | assumption | split | apply Keeps.side

theorem Keeps.scanDone (b : Batch) (h : Keeps s₀ s) : Keeps s₀ (State.scanDone b s) := by
  unfold State.scanDone
  (try dsimp only)
  repeat' with_reducible first | assumption | apply Keeps.side

theorem Keeps.scanBaste (h' : Half) (c : Coll) (qs : List Query) (h : Keeps s₀ s) : Keeps s₀ (State.scanBaste h' c qs s).1 := by
  unfold State.scanBaste
  (try dsimp only)
  repeat' with_reducible first
    | assumption | intro _ | apply Keeps.foldl | apply Keeps.scanRows | apply Keeps.mapQuery | apply Keeps.countScores

theorem Keeps.scanMembers (h' : Half) (ms : List Query) (h : Keeps s₀ s) : Keeps s₀ (State.scanMembers h' ms s).1 := by
  unfold State.scanMembers
  (try dsimp only)
  repeat' with_reducible first | assumption | intro _ | apply Keeps.foldl1 | apply Keeps.scanBaste | split

theorem Keeps.openBatch (b : Batch) (x : Stage) (h : Keeps s₀ s) : Keeps s₀ (State.openBatch b x s) := by
  unfold State.openBatch
  (try dsimp only)
  repeat' with_reducible first | assumption | apply Keeps.side

theorem Keeps.keepWalk (a : Walk) (h : Keeps s₀ s) : Keeps s₀ (State.keepWalk a s) := by
  unfold State.keepWalk
  (try dsimp only)
  repeat' with_reducible first | assumption | apply Keeps.bumpBy | apply Keeps.countScores | apply Keeps.mapQuery

theorem Keeps.flatDone (qid : ℕ) (rerank : Bool) (h : Keeps s₀ s) : Keeps s₀ (State.flatDone qid rerank s) := by
  unfold State.flatDone
  (try dsimp only)
  repeat' with_reducible first | assumption | apply Keeps.mapQuery | apply Keeps.joinBaste | apply Keeps.startRerank | split

theorem Keeps.flatStep (highWater : ℕ) (rerank : Bool) (qid : ℕ) (h : Keeps s₀ s) : Keeps s₀ (State.flatStep highWater rerank qid s) := by
  unfold State.flatStep
  (try dsimp only)
  repeat' with_reducible first | assumption | apply Keeps.flatDone | apply Keeps.checkpoint | apply Keeps.cutQuery | split

theorem Keeps.settleBatch (id : ℕ) (h : Keeps s₀ s) : Keeps s₀ (State.settleBatch id s) := by
  unfold State.settleBatch
  (try dsimp only)
  repeat' with_reducible first | assumption | apply Keeps.scanDone | split | apply Keeps.side

theorem Keeps.flatChunk (b : Batch) (c : Coll) (h : Keeps s₀ s) : Keeps s₀ (State.flatChunk b c s) := by
  unfold State.flatChunk
  (try dsimp only)
  repeat' with_reducible first
    | assumption | intro _ | apply Keeps.foldl | apply Keeps.settleBatch | apply Keeps.scanRows | apply Keeps.keepWalk
    | apply Keeps.flatStep | split | apply Keeps.side

theorem Keeps.passChunk (q : Query) (c : Coll) (h : Keeps s₀ s) : Keeps s₀ (State.passChunk q c s) := by
  unfold State.passChunk
  (try dsimp only)
  repeat' with_reducible first
    | assumption | apply Keeps.keepWalk | apply Keeps.useUnit | apply Keeps.startRerank | apply Keeps.mapQuery
    | apply Keeps.checkpoint | apply Keeps.cutQuery | split

/-! ## Machine/Encode.lean -/

theorem Keeps.addDrift (h' : Handle) (p : EncP) (e : Encoded) (h : Keeps s₀ s) : Keeps s₀ (State.addDrift h' p e s) := by
  unfold State.addDrift
  (try dsimp only)
  repeat' with_reducible first | assumption | apply Keeps.mapColl | split

theorem Keeps.judgeWindow (h' : Handle) (h : Keeps s₀ s) : Keeps s₀ (State.judgeWindow h' s) := by
  unfold State.judgeWindow
  (try dsimp only)
  repeat' with_reducible first | assumption | apply Keeps.mapColl | apply Keeps.bump | apply Keeps.event | split

theorem Keeps.countEncoded (e : Encoded) (h : Keeps s₀ s) : Keeps s₀ (State.countEncoded e s) := by
  unfold State.countEncoded
  (try dsimp only)
  repeat' with_reducible first | assumption | apply Keeps.countKiln | apply Keeps.bumpBy

theorem Keeps.endEncode (j : EncodeJob) (p : EncP) (status : ℕ) (a : BatchSum) (h : Keeps s₀ s) : Keeps s₀ (State.endEncode j p status a s) := by
  unfold State.endEncode
  (try dsimp only)
  repeat' with_reducible first
    | assumption | apply Keeps.applyAreas | apply Keeps.complete | apply Keeps.spend | apply Keeps.devWrite

theorem Keeps.startEncode (port : Port) (spool : Byte) (head : ℕ) (tenant : ℕ) (e : EncodeEntry) (h : Keeps s₀ s) : Keeps s₀ (State.startEncode port spool head tenant e s) := by
  unfold State.startEncode
  (try dsimp only)
  repeat' with_reducible first | assumption | apply Keeps.complete | apply Keeps.endEncode | split | apply Keeps.side

theorem Keeps.writeVector (j : EncodeJob) (p : EncP) (v : ℕ) (e : Encoded) (h : Keeps s₀ s) : Keeps s₀ (State.writeVector j p v e s) := by
  unfold State.writeVector
  (try dsimp only)
  repeat' with_reducible first | assumption | apply Keeps.bump | apply Keeps.devWrite

theorem Keeps.encodeMany (j : EncodeJob) (p : EncP) (n : Nat) (r : State × BatchSum × List (Num × Num)) (h : Keeps s₀ r.1) :
    Keeps s₀ (State.encodeMany j p n r).1 := by
  induction n with
  | zero => exact h
  | succ n ih =>
    rw [State.encodeMany]
    generalize State.encodeMany j p n r = y at ih
    obtain ⟨s, a, d⟩ := y
    dsimp only at ih ⊢
    have hc : ∀ x, Keeps s₀ (State.countEncoded x s) := fun x => Keeps.countEncoded _ ih
    split
    · exact hc _
    · split
      · exact Keeps.addDrift _ _ _ (Keeps.writeVector _ _ _ _ (hc _))
      · exact Keeps.writeVector _ _ _ _ (hc _)

theorem Keeps.runEncode (j : EncodeJob) (h : Keeps s₀ s) : Keeps s₀ (State.runEncode j s) := by
  have h1 : Keeps s₀ (if j.cut.isSome then s.spend else s) := by
    split
    · exact Keeps.spend h
    · exact h
  unfold State.runEncode
  generalize (if j.cut.isSome = true then s.spend else s) = u at h1
  generalize (if j.cut.isSome = true then s.fresh.toNat % (j.count + 1) else j.count) = n
  extract_lets u' p n' z r
  have h2 : Keeps s₀ r.1 := Keeps.encodeMany _ _ _ _ h1
  clear_value r
  apply Keeps.endEncode
  show Keeps s₀ (if bit j.flags.toNat 1 = true then _ else _)
  split
  · exact Keeps.devWrite _ _ (Keeps.countTun _ (Keeps.foldl (Keeps.openUnits _ h2) fun t x k => Keeps.countTile x k))
  · exact h2

theorem Keeps.cutEncodes (f : EncodeJob → Bool) (status : ℕ) (h : Keeps s₀ s) : Keeps s₀ (State.cutEncodes f status s) := by
  unfold State.cutEncodes
  (try dsimp only)
  repeat' with_reducible first | assumption | apply Keeps.side

/-! ## Machine/Journal.lean -/

theorem Keeps.mapJournal (f : Journal → Journal) (h : Keeps s₀ s) : Keeps s₀ (State.mapJournal f s) := by
  unfold State.mapJournal
  (try dsimp only)
  repeat' with_reducible first | assumption | apply Keeps.side

theorem Keeps.mapJob (id : ℕ) (f : MutJob → MutJob) (h : Keeps s₀ s) : Keeps s₀ (State.mapJob id f s) := by
  unfold State.mapJob
  (try dsimp only)
  repeat' with_reducible first | assumption | apply Keeps.side

theorem Keeps.endJob (j : MutJob) (h : Keeps s₀ s) : Keeps s₀ (State.endJob j s) := by
  unfold State.endJob
  (try dsimp only)
  repeat' with_reducible first
    | assumption | apply Keeps.trimBaste | apply Keeps.complete | apply Keeps.endBg | split | apply Keeps.side

theorem Keeps.settleJobs.go (x0 : ℕ) (h : Keeps s₀ s) : Keeps s₀ (State.settleJobs.go x0 s) := by
  induction x0 generalizing s with
  | zero =>
    rw [State.settleJobs.go]
    (try dsimp only)
    repeat' with_reducible first | assumption
  | succ n ih =>
    rw [State.settleJobs.go]
    (try dsimp only)
    repeat' with_reducible first | assumption | apply Keeps.endJob | apply ih | split

theorem Keeps.settleJobs  (h : Keeps s₀ s) : Keeps s₀ (State.settleJobs s) := by
  unfold State.settleJobs
  (try dsimp only)
  repeat' with_reducible first | assumption | apply Keeps.settleJobs.go

theorem Keeps.windowWrite (p : ℕ) (b : Bytes) (h : Keeps s₀ s) : Keeps s₀ (State.windowWrite p b s) := by
  unfold State.windowWrite
  (try dsimp only)
  repeat' with_reducible first
    | assumption | intro _ | apply Keeps.devWrite | split
    | refine Keeps.upd ?_ rfl rfl rfl rfl (fun x => x) (fun x => x) ?_ ?_ ?_ ?_ | exact Units.within.refl _
    | exact Nat.le_refl _ | apply Memory.wf_write

theorem Keeps.readRelease  (h : Keeps s₀ s) : Keeps s₀ (State.readRelease s) := by
  unfold State.readRelease
  (try dsimp only)
  repeat' with_reducible first | assumption | apply Keeps.mapJournal

theorem Keeps.closeBlock (flag : ℕ) (h : Keeps s₀ s) : Keeps s₀ (State.closeBlock flag s) := by
  unfold State.closeBlock
  (try dsimp only)
  repeat' with_reducible first | assumption | apply Keeps.mapJournal | split

theorem Keeps.addRecord (r : JRecord) (h : Keeps s₀ s) : Keeps s₀ (State.addRecord r s) := by
  unfold State.addRecord
  (try dsimp only)
  repeat' with_reducible first | assumption | apply Keeps.closeBlock | apply Keeps.mapJournal | split

theorem Keeps.journalMarker (type : ℕ) (h' : Handle) (h : Keeps s₀ s) : Keeps s₀ (State.journalMarker type h' s) := by
  unfold State.journalMarker
  (try dsimp only)
  repeat' with_reducible first | assumption | apply Keeps.addRecord | split

theorem Keeps.ackBlock (b : JBlock) (h : Keeps s₀ s) : Keeps s₀ (State.ackBlock b s) := by
  unfold State.ackBlock
  (try dsimp only)
  repeat' with_reducible first | assumption | intro _ | apply Keeps.foldl | apply Keeps.mapJob | split

theorem Keeps.blockWritten  (h : Keeps s₀ s) : Keeps s₀ (State.blockWritten s) := by
  unfold State.blockWritten
  (try dsimp only)
  repeat' with_reducible first
    | assumption | apply Keeps.mapJournal | apply Keeps.windowWrite | apply Keeps.settleJobs | apply Keeps.ackBlock
    | apply Keeps.setNum | apply Keeps.bump | split

theorem Keeps.journalFail  (h : Keeps s₀ s) : Keeps s₀ (State.journalFail s) := by
  unfold State.journalFail
  (try dsimp only)
  repeat' with_reducible first
    | assumption | apply Keeps.event | apply Keeps.setSw | apply Keeps.release | apply Keeps.mapJournal | apply Keeps.side

theorem Keeps.blockOutcome (ok : Bool) (h : Keeps s₀ s) : Keeps s₀ (State.blockOutcome ok s) := by
  unfold State.blockOutcome
  (try dsimp only)
  repeat' with_reducible first
    | assumption | apply Keeps.blockWritten | apply Keeps.journalFail | apply Keeps.mapJournal | split

theorem Keeps.powerClose (cause : ℕ) (h : Keeps s₀ s) : Keeps s₀ (State.powerClose cause s) := by
  unfold State.powerClose
  (try dsimp only)
  repeat' with_reducible first
    | assumption | apply Keeps.closeBlock | apply Keeps.mapJournal | apply Keeps.record | apply Keeps.bump

theorem Keeps.reserveWindow  (h : Keeps s₀ s) : Keeps s₀ (State.reserveWindow s) := by
  unfold State.reserveWindow
  (try dsimp only)
  repeat' with_reducible first | assumption | split | apply Keeps.side

theorem Keeps.adjustFor (e : BasteEntry) (h : Keeps s₀ s) : Keeps s₀ (State.adjustFor e s) := by
  unfold State.adjustFor
  (try dsimp only)
  repeat' with_reducible first | assumption | apply Keeps.mapColl | split

theorem Keeps.openGeneration (g : ℕ) (h : Keeps s₀ s) : Keeps s₀ (State.openGeneration g s) := by
  unfold State.openGeneration
  (try dsimp only)
  repeat' with_reducible first | assumption | intro _ | apply Keeps.foldl | apply Keeps.adjustFor | apply Keeps.side

theorem Keeps.ringGeneration (t' : Time) (h : Keeps s₀ s) : Keeps s₀ (State.ringGeneration t' s) := by
  unfold State.ringGeneration
  (try dsimp only)
  repeat' with_reducible first | assumption | apply Keeps.bump | apply Keeps.openGeneration | apply Keeps.side

theorem Keeps.journalStart  (h : Keeps s₀ s) : Keeps s₀ (State.journalStart s) := by
  unfold State.journalStart
  (try dsimp only)
  repeat' with_reducible first | assumption | apply Keeps.reserveWindow | apply Keeps.mapJournal

theorem Keeps.journalStarted  (h : Keeps s₀ s) : Keeps s₀ (State.journalStarted s) := by
  unfold State.journalStarted
  (try dsimp only)
  repeat' with_reducible first
    | assumption | apply Keeps.mapJournal | apply Keeps.readRelease | apply Keeps.openGeneration | split

theorem Keeps.journalStop  (h : Keeps s₀ s) : Keeps s₀ (State.journalStop s) := by
  unfold State.journalStop
  (try dsimp only)
  repeat' with_reducible first | assumption | apply Keeps.closeBlock

/-! ## Machine/Calendar.lean -/

theorem Keeps.openWindow (n : ℕ) (t' : ℕ) (h : Keeps s₀ s) : Keeps s₀ (State.openWindow n t' s) := by
  unfold State.openWindow
  (try dsimp only)
  repeat' with_reducible first | assumption | apply Keeps.bump | apply Keeps.setCal | split | apply Keeps.side

theorem Keeps.deferStack (n : ℕ) (h : Keeps s₀ s) : Keeps s₀ (State.deferStack n s) := by
  unfold State.deferStack
  (try dsimp only)
  repeat' with_reducible first | assumption | apply Keeps.setStack

theorem Keeps.closeWindow (n : ℕ) (h : Keeps s₀ s) : Keeps s₀ (State.closeWindow n s) := by
  unfold State.closeWindow
  (try dsimp only)
  repeat' with_reducible first
    | assumption | intro _ | apply Keeps.foldl | apply Keeps.setCal | apply Keeps.bump | apply Keeps.deferStack | split

theorem Keeps.calArm (n : ℕ) (h : Keeps s₀ s) : Keeps s₀ (State.calArm n s) := by
  unfold State.calArm
  (try dsimp only)
  repeat' with_reducible first | assumption | apply Keeps.setCal | apply Keeps.openWindow | split

theorem Keeps.calArmAll  (h : Keeps s₀ s) : Keeps s₀ (State.calArmAll s) := by
  unfold State.calArmAll
  (try dsimp only)
  repeat' with_reducible first | assumption | intro _ | apply Keeps.foldl | apply Keeps.calArm | split

theorem Keeps.calDisarm (n : ℕ) (h : Keeps s₀ s) : Keeps s₀ (State.calDisarm n s) := by
  unfold State.calDisarm
  (try dsimp only)
  repeat' with_reducible first | assumption | apply Keeps.setCal

theorem Keeps.fire {n : Nat} {a : Time} {t : State} (h : Keeps s₀ s) (e : s.fire n = some (a, t)) : Keeps s₀ t := by
  unfold State.fire at e
  dsimp only at e
  split at e
  · cases e
  · split at e
    · cases e
    · have hk : ∀ x, Keeps s₀ (State.setCal n x s) := fun x => Keeps.setCal _ _ h
      obtain ⟨rfl, rfl⟩ := Prod.mk.inj (Option.some.inj e)
      generalize hu : State.setCal n _ s = u
      have hu' : Keeps s₀ u := hu ▸ hk _
      split
      · exact Keeps.bump _ (Keeps.bump _ hu')
      · exact hu'

theorem Keeps.fire_if {n : Nat} {c : Prop} [Decidable c] {a : Time} {t : State} (h : Keeps s₀ s)
    (e : (if c then s.fire n else none) = some (a, t)) : Keeps s₀ t := by
  split at e
  · exact Keeps.fire h e
  · cases e

theorem Keeps.ringMerge (n : ℕ) (h : Keeps s₀ s) : Keeps s₀ (State.ringMerge n s) := by
  unfold State.ringMerge
  (try dsimp only)
  repeat' with_reducible first | assumption | intro _ | apply Keeps.foldl | apply Keeps.checkRecord

theorem Keeps.calChanged (n : ℕ) (h : Keeps s₀ s) : Keeps s₀ (State.calChanged n s) := by
  unfold State.calChanged
  (try dsimp only)
  repeat' with_reducible first | assumption | apply Keeps.setCal | split

theorem Keeps.skipBell (n : ℕ) (old : ℕ) (h : Keeps s₀ s) : Keeps s₀ (State.skipBell n old s) := by
  unfold State.skipBell
  (try dsimp only)
  repeat' with_reducible first | assumption | apply Keeps.bump | apply Keeps.ringGeneration | apply Keeps.ringMerge | split

theorem Keeps.rearm (n : ℕ) (h : Keeps s₀ s) : Keeps s₀ (State.rearm n s) := by
  unfold State.rearm
  (try dsimp only)
  repeat' with_reducible first | assumption | apply Keeps.setCal | split

theorem Keeps.stepCalendar (old : ℕ) (h : Keeps s₀ s) : Keeps s₀ (State.stepCalendar old s) := by
  unfold State.stepCalendar
  (try dsimp only)
  repeat' with_reducible first
    | assumption | intro _ | apply Keeps.foldl | apply Keeps.closeWindow | apply Keeps.skipBell | apply Keeps.openWindow
    | apply Keeps.rearm | split

/-! ## Machine/Mutate.lean -/

theorem Keeps.appendBaste (e : BasteEntry) (h : Keeps s₀ s) : Keeps s₀ (State.appendBaste e s) := by
  unfold State.appendBaste
  (try dsimp only)
  repeat' with_reducible first | assumption | apply Keeps.adjustFor | split | apply Keeps.side

theorem Keeps.removeInserts (h' : Handle) (vid : BitVec 64) (version : ℕ) (h : Keeps s₀ s) : Keeps s₀ (State.removeInserts h' vid version s) := by
  unfold State.removeInserts
  (try dsimp only)
  repeat' with_reducible first | assumption | apply Keeps.bumpBy | apply Keeps.mapBaste

theorem Keeps.encodeRecord (c : Coll) (r : MutRecord) (h : Keeps s₀ s) : Keeps s₀ (State.encodeRecord c r s).1 := by
  unfold State.encodeRecord
  (try dsimp only)
  repeat' with_reducible first
    | assumption | apply Keeps.addDrift | apply Keeps.bump | apply Keeps.countEncoded | apply Keeps.bumpBy
    | apply Keeps.countKiln | split

theorem Keeps.acceptRecord (job : ℕ) (c : Coll) (r : MutRecord) (mode : ℕ) (h : Keeps s₀ s) : Keeps s₀ (State.acceptRecord job c r mode s) := by
  unfold State.acceptRecord
  (try dsimp only)
  repeat' with_reducible first
    | assumption | apply Keeps.bump | apply Keeps.appendBaste | apply Keeps.removeInserts | apply Keeps.encodeRecord
    | apply Keeps.addRecord | apply Keeps.mapJob | split | apply Keeps.side

theorem Keeps.holdRecord (job : ℕ) (w : Hold) (h : Keeps s₀ s) : Keeps s₀ (State.holdRecord job w s) := by
  unfold State.holdRecord
  (try dsimp only)
  repeat' with_reducible first
    | assumption | apply Keeps.mapJob | apply Keeps.bump | apply Keeps.event | apply Keeps.mapJournal | split

theorem Keeps.tryRecord (job : ℕ) (c : Coll) (r : MutRecord) (mode : ℕ) (h : Keeps s₀ s) : Keeps s₀ (State.tryRecord job c r mode s).1 := by
  unfold State.tryRecord
  (try dsimp only)
  repeat' with_reducible first
    | assumption | apply Keeps.readRelease | apply Keeps.mapJournal | apply Keeps.acceptRecord | apply Keeps.holdRecord | split

theorem Keeps.finishJob (job : ℕ) (status : ℕ) (h : Keeps s₀ s) : Keeps s₀ (State.finishJob job status s) := by
  unfold State.finishJob
  (try dsimp only)
  repeat' with_reducible first | assumption | apply Keeps.mapJob

theorem Keeps.fastAux (job : ℕ) (h : Keeps s₀ s) : Keeps s₀ (State.fastAux job s) := by
  unfold State.fastAux
  (try dsimp only)
  repeat' with_reducible first | assumption | apply Keeps.spend | apply Keeps.mapJob

theorem Keeps.endMutate (job : ℕ) (mode : ℕ) (status : ℕ) (h : Keeps s₀ s) : Keeps s₀ (State.endMutate job mode status s) := by
  unfold State.endMutate
  (try dsimp only)
  repeat' with_reducible first | assumption | apply Keeps.finishJob | apply Keeps.fastAux | split

theorem Keeps.mutateStep (j : MutJob) (w : MutateWork) (c : Coll) (h : Keeps s₀ s) : Keeps s₀ (State.mutateStep j w c s) := by
  unfold State.mutateStep
  (try dsimp only)
  repeat' with_reducible first | assumption | apply Keeps.endMutate | apply Keeps.tryRecord | apply Keeps.mapJob | split

theorem Keeps.mutateRun (job : ℕ) (x1 : ℕ) (h : Keeps s₀ s) : Keeps s₀ (State.mutateRun job x1 s) := by
  induction x1 generalizing s with
  | zero =>
    rw [State.mutateRun]
    (try dsimp only)
    repeat' with_reducible first | assumption
  | succ n ih =>
    rw [State.mutateRun]
    (try dsimp only)
    repeat' with_reducible first | assumption | apply Keeps.endMutate | apply Keeps.mutateStep | apply ih | split

theorem Keeps.setReplay (job : ℕ) (w : ReplayWork) (h : Keeps s₀ s) : Keeps s₀ (State.setReplay job w s) := by
  unfold State.setReplay
  (try dsimp only)
  repeat' with_reducible first | assumption | apply Keeps.mapJob

theorem Keeps.replayRecord (job : ℕ) (h' : Handle) (w : ReplayWork) (r : ReadRecord) (h : Keeps s₀ s) : Keeps s₀ (State.replayRecord job h' w r s).1 := by
  unfold State.replayRecord
  (try dsimp only)
  repeat' with_reducible first | assumption | apply Keeps.setReplay | apply Keeps.tryRecord | split

theorem Keeps.replayBlock (job : ℕ) (h' : Handle) (x2 : List ReadRecord) (h : Keeps s₀ s) : Keeps s₀ (State.replayBlock job h' x2 s).1 := by
  induction x2 generalizing s with
  | nil =>
    rw [State.replayBlock]
    (try dsimp only)
    repeat' with_reducible first | assumption
  | cons r l ih =>
    rw [State.replayBlock]
    (try dsimp only)
    repeat' with_reducible first | assumption | apply Keeps.replayRecord | apply ih | split

theorem Keeps.replayRun (job : ℕ) (x1 : ℕ) (h : Keeps s₀ s) : Keeps s₀ (State.replayRun job x1 s) := by
  induction x1 generalizing s with
  | zero =>
    rw [State.replayRun]
    (try dsimp only)
    repeat' with_reducible first | assumption
  | succ n ih =>
    rw [State.replayRun]
    (try dsimp only)
    repeat' with_reducible first
      | assumption | apply Keeps.finishJob | apply Keeps.setReplay | apply Keeps.replayBlock | apply ih | split

theorem Keeps.resumeJob (job : ℕ) (h : Keeps s₀ s) : Keeps s₀ (State.resumeJob job s) := by
  unfold State.resumeJob
  (try dsimp only)
  repeat' with_reducible first | assumption | apply Keeps.settleJobs | apply Keeps.mutateRun | apply Keeps.replayRun | split

theorem Keeps.resumeJobs  (h : Keeps s₀ s) : Keeps s₀ (State.resumeJobs s) := by
  unfold State.resumeJobs
  (try dsimp only)
  repeat' with_reducible first | assumption | intro _ | apply Keeps.foldl | apply Keeps.resumeJob

theorem Keeps.addJob (j : MutJob) (h : Keeps s₀ s) : Keeps s₀ (State.addJob j s) := by
  unfold State.addJob
  (try dsimp only)
  repeat' with_reducible first | assumption | apply Keeps.side

theorem Keeps.readMutation (p : Port) (n : Byte) (op : ℕ) (f : State → ℕ → MutEntry → Except ℕ MutWork) (h : Keeps s₀ s) : Keeps s₀ (State.readMutation p n op f s) := by
  unfold State.readMutation
  (try dsimp only)
  repeat' with_reducible first
    | assumption | apply Keeps.addJob | apply Keeps.takeEntry | apply Keeps.takeTurn | apply Keeps.settleJobs | split

theorem Keeps.dropJobs (h' : Handle) (h : Keeps s₀ s) : Keeps s₀ (State.dropJobs h' s) := by
  unfold State.dropJobs
  (try dsimp only)
  repeat' with_reducible first | assumption | apply Keeps.trimBaste | apply Keeps.settleJobs | apply Keeps.side

theorem Keeps.resetJobs (p : Port) (n : Byte) (h : Keeps s₀ s) : Keeps s₀ (State.resetJobs p n s) := by
  unfold State.resetJobs
  (try dsimp only)
  repeat' with_reducible first | assumption | apply Keeps.trimBaste | apply Keeps.settleJobs | apply Keeps.side

/-! ## Machine/Seam.lean -/

theorem Keeps.takeTiles (h' : Handle) (h : Keeps s₀ s) : Keeps s₀ (State.takeTiles h' s) := by
  unfold State.takeTiles
  (try dsimp only)
  repeat' with_reducible first | assumption | split | apply Keeps.side

theorem Keeps.countHeld (h' : Handle) (held : ℕ → Slot → Bool) (h : Keeps s₀ s) : Keeps s₀ (State.countHeld h' held s) := by
  unfold State.countHeld
  (try dsimp only)
  repeat' with_reducible first | assumption | apply Keeps.bumpBy | apply Keeps.mapColl | split

theorem Keeps.retire (id : ℕ) (h : Keeps s₀ s) : Keeps s₀ (State.retire id s) := by
  unfold State.retire
  (try dsimp only)
  repeat' with_reducible first | assumption | apply Keeps.trimBaste | apply Keeps.mapBaste | apply Keeps.side

theorem Keeps.seamInsert (h' : Handle) (want : Option ℕ) (h : Keeps s₀ s) : Keeps s₀ (State.seamInsert h' want s) := by
  unfold State.seamInsert
  (try dsimp only)
  repeat' with_reducible first
    | assumption | apply Keeps.countHeld | apply Keeps.bump | apply Keeps.mapBaste | apply Keeps.bumpBy | apply Keeps.mapColl
    | apply Keeps.retire | split

theorem Keeps.tombstone (h' : Handle) (version : ℕ) (u : ℕ) (h : Keeps s₀ s) : Keeps s₀ (State.tombstone h' version u s) := by
  unfold State.tombstone
  (try dsimp only)
  repeat' with_reducible first | assumption | apply Keeps.bump | apply Keeps.mapColl

theorem Keeps.seamDelete (h' : Handle) (h : Keeps s₀ s) : Keeps s₀ (State.seamDelete h' s) := by
  unfold State.seamDelete
  (try dsimp only)
  repeat' with_reducible first | assumption | intro _ | apply Keeps.foldl | apply Keeps.retire | apply Keeps.tombstone | split

/-! ## Machine/Collections.lean -/

theorem Keeps.collReply (p : Port) (c : Cause) (deferred : Bool) (h : Keeps s₀ s) : Keeps s₀ (State.collReply p c deferred s) := by
  unfold State.collReply
  (try dsimp only)
  repeat' with_reducible first | assumption | apply Keeps.reply | split

theorem Keeps.onColl (p : Port) (h' : Handle) (f : Coll → State → State) (hf : ∀ c t, Keeps s₀ t → Keeps s₀ (f c t)) (h : Keeps s₀ s) : Keeps s₀ (State.onColl p h' f s) := by
  unfold State.onColl
  (try dsimp only)
  repeat' with_reducible first | assumption | apply hf | apply Keeps.collReply | split

theorem Keeps.onHandle (p : Port) (hd : Padded Handle) (f : Handle → State → State) (hf : ∀ x t, Keeps s₀ t → Keeps s₀ (f x t))
    (h : Keeps s₀ s) : KeepsR s₀ (State.onHandle p hd f s) := by
  unfold State.onHandle
  apply Keeps.onMailbox _ _ _ ?_ h
  intro t k
  split
  · exact Keeps.deny _ _ k
  · exact hf _ _ (Keeps.loadAppears k)

theorem Keeps.countColls  (h : Keeps s₀ s) : Keeps s₀ (State.countColls s) := by
  unfold State.countColls
  (try dsimp only)
  repeat' with_reducible first | assumption | intro _ | apply Keeps.setDevState | split | (simp_all; done)

theorem Keeps.firstOnline  (h : Keeps s₀ s) : Keeps s₀ (State.firstOnline s) := by
  unfold State.firstOnline
  (try dsimp only)
  repeat' with_reducible first | assumption | intro _ | apply Keeps.setDevState | split | (simp_all; done)

theorem Keeps.addColl (c : Coll) (h : Keeps s₀ s) : KeepsO s₀ (State.addColl c s) := by
  unfold State.addColl
  (try dsimp only)
  repeat' with_reducible first
    | assumption | intro _ | apply KeepsO.mapS | apply Keeps.countColls | apply Keeps.bump | apply Keeps.journalMarker
    | apply Keeps.logChange | apply Keeps.allocColl | apply Keeps.side

theorem Keeps.closeLoad (h' : Handle) (cause : Cause) (h : Keeps s₀ s) : Keeps s₀ (State.closeLoad h' cause s) := by
  unfold State.closeLoad
  (try dsimp only)
  repeat' with_reducible first | assumption | intro _ | apply Keeps.foldl | apply Keeps.mapColl | apply Keeps.endBg | split

theorem Keeps.startDelete (h' : Handle) (h : Keeps s₀ s) : Keeps s₀ (State.startDelete h' s) := by
  unfold State.startDelete
  (try dsimp only)
  repeat' with_reducible first
    | assumption | apply Keeps.journalMarker | apply Keeps.setCollState | apply Keeps.closeLoad | apply Keeps.applyBaste
    | apply Keeps.mapBaste | apply Keeps.cutEncodes | apply Keeps.dropJobs

theorem Keeps.runDeferred (x : Deferred) (h : Keeps s₀ s) : Keeps s₀ (State.runDeferred x s) := by
  have h1 : ∀ l, Keeps s₀ ({ s with deferred := l } : State) := fun l =>
    Keeps.upd h rfl rfl rfl rfl (fun y => y) (fun y => y) (fun y => y) (fun y => y) (Nat.le_refl _) (.refl _)
  unfold State.runDeferred
  dsimp only
  split
  · exact Keeps.bump _ (Keeps.event _ _ _ (h1 _))
  · rename_i t e
    have h3 : Keeps s₀ t := (Keeps.addColl x.coll (h1 _)).all t e
    split
    · exact Keeps.startDelete _ h3
    · exact h3

theorem Keeps.imageWrite (p : Port) (off : ℕ) (data : Bytes) (h : Keeps s₀ s) : Keeps s₀ (State.imageWrite p off data s) := by
  unfold State.imageWrite
  (try dsimp only)
  repeat' with_reducible first | assumption | apply Keeps.unbacked | apply Keeps.mapColl | apply Keeps.bump | split

theorem Keeps.failLoad (h' : Handle) (cause : Cause) (h : Keeps s₀ s) : Keeps s₀ (State.failLoad h' cause s) := by
  unfold State.failLoad
  (try dsimp only)
  repeat' with_reducible first | assumption | apply Keeps.setCollState | apply Keeps.mapColl | apply Keeps.closeLoad

theorem Keeps.endOffline (h' : Handle) (h : Keeps s₀ s) : Keeps s₀ (State.endOffline h' s) := by
  unfold State.endOffline
  (try dsimp only)
  repeat' with_reducible first | assumption | intro _ | apply Keeps.foldl | apply Keeps.endQuery

theorem Keeps.loseColl (h' : Handle) (h : Keeps s₀ s) : Keeps s₀ (State.loseColl h' s) := by
  unfold State.loseColl
  (try dsimp only)
  repeat' with_reducible first
    | assumption | apply Keeps.bump | apply Keeps.failLoad | apply Keeps.endOffline | apply Keeps.setCollState
    | apply Keeps.mapColl | split

/-! ## Machine/Links.lean -/

theorem Keeps.settleRequest (r : Req) (status : Byte) (h : Keeps s₀ s) : Keeps s₀ (State.settleRequest r status s) := by
  unfold State.settleRequest
  (try dsimp only)
  repeat' with_reducible first
    | assumption | apply Keeps.bump | apply Keeps.dropRequest | apply Keeps.finishSlot | apply Keeps.redispatch
    | apply Keeps.holdOff | apply Keeps.sendFrames | apply Keeps.probed | split | apply Keeps.side

theorem Keeps.linkDown (n : ℕ) (next : LinkState) (h : Keeps s₀ s) : Keeps s₀ (State.linkDown n next s) := by
  unfold State.linkDown
  (try dsimp only)
  repeat' with_reducible first
    | assumption | intro _ | apply Keeps.foldl | apply Keeps.setNum | apply Keeps.mapLink | apply Keeps.settleRequest | split

theorem Keeps.countReplay (n : ℕ) (h : Keeps s₀ s) : Keeps s₀ (State.countReplay n s).1 := by
  unfold State.countReplay
  (try dsimp only)
  repeat' with_reducible first
    | assumption | apply Keeps.bump | apply Keeps.mapLink | apply Keeps.event | apply Keeps.linkDown | split

theorem Keeps.askReplay (n : ℕ) (h : Keeps s₀ s) : Keeps s₀ (State.askReplay n s) := by
  unfold State.askReplay
  (try dsimp only)
  repeat' with_reducible first | assumption | apply Keeps.countReplay | apply Keeps.control | split

theorem Keeps.countFec (n : ℕ) (r : Rx) (h : Keeps s₀ s) : Keeps s₀ (State.countFec n r s) := by
  unfold State.countFec
  (try dsimp only)
  repeat' with_reducible first | assumption | apply Keeps.bumpBy

theorem Keeps.accepted (n : ℕ) (q : BitVec 32) (credit : Option ℕ) (h : Keeps s₀ s) : Keeps s₀ (State.accepted n q credit s) := by
  unfold State.accepted
  (try dsimp only)
  repeat' with_reducible first | assumption | apply Keeps.control | apply Keeps.giveCredit | split

theorem Keeps.receive (n : ℕ) (r : Rx) (want : Frame → Bool) (take : Frame → BitVec 32 → State → State) (hf : ∀ f q t, Keeps s₀ t → Keeps s₀ (take f q t)) (h : Keeps s₀ s) : Keeps s₀ (State.receive n r want take s) := by
  unfold State.receive
  (try dsimp only)
  repeat' with_reducible first
    | assumption | apply hf | apply Keeps.countFec | apply Keeps.askReplay | apply Keeps.mapLink | apply Keeps.accepted | split

theorem Keeps.enterLink (n : ℕ) (st : LinkState) (h : Keeps s₀ s) : Keeps s₀ (State.enterLink n st s) := by
  unfold State.enterLink
  (try dsimp only)
  repeat' with_reducible first | assumption | apply Keeps.mapLink

theorem Keeps.linkFault (n : ℕ) (cause : ℕ) (h : Keeps s₀ s) : Keeps s₀ (State.linkFault n cause s) := by
  unfold State.linkFault
  (try dsimp only)
  repeat' with_reducible first | assumption | apply Keeps.mapLink | apply Keeps.linkDown | apply Keeps.event

theorem Keeps.linkStart (n : ℕ) (h : Keeps s₀ s) : Keeps s₀ (State.linkStart n s) := by
  unfold State.linkStart
  (try dsimp only)
  repeat' with_reducible first | assumption | apply Keeps.mapLink | apply Keeps.enterLink | split

theorem Keeps.linksStart  (h : Keeps s₀ s) : Keeps s₀ (State.linksStart s) := by
  unfold State.linksStart
  (try dsimp only)
  repeat' with_reducible first | assumption | intro _ | apply Keeps.foldl | apply Keeps.linkStart

theorem Keeps.linksStop  (h : Keeps s₀ s) : Keeps s₀ (State.linksStop s) := by
  unfold State.linksStop
  (try dsimp only)
  repeat' with_reducible first | assumption | intro _ | apply Keeps.foldl | apply Keeps.linkDown | split

theorem Keeps.linkOpen (n : ℕ) (h : Keeps s₀ s) : Keeps s₀ (State.linkOpen n s) := by
  unfold State.linkOpen
  (try dsimp only)
  repeat' with_reducible first
    | assumption | intro _ | apply Keeps.foldl | apply Keeps.setNum | apply Keeps.mapLink | apply Keeps.enterLink
    | apply Keeps.control

theorem Keeps.linkFailed (n : ℕ) (h : Keeps s₀ s) : Keeps s₀ (State.linkFailed n s) := by
  unfold State.linkFailed
  (try dsimp only)
  repeat' with_reducible first | assumption | apply Keeps.linkFault | apply Keeps.mapLink | apply Keeps.linkDown | split

theorem Keeps.openSession (n : ℕ) (h : Keeps s₀ s) : Keeps s₀ (State.openSession n s) := by
  unfold State.openSession
  (try dsimp only)
  repeat' with_reducible first | assumption | apply Keeps.spend | apply Keeps.control | apply Keeps.mapLink | split

theorem Keeps.tryConnect (n : ℕ) (h : Keeps s₀ s) : Keeps s₀ (State.tryConnect n s) := by
  unfold State.tryConnect
  (try dsimp only)
  repeat' with_reducible first
    | assumption | apply Keeps.linkFault | apply Keeps.openSession | apply Keeps.linkFailed | apply Keeps.linkOpen | split

theorem Keeps.setPartner (n : ℕ) (w : BitVec 64) (h : Keeps s₀ s) : Keeps s₀ (State.setPartner n w s) := by
  unfold State.setPartner
  (try dsimp only)
  repeat' with_reducible first | assumption | apply Keeps.setNum | apply Keeps.mapLink

theorem Keeps.onLink (n : ℕ) (st : LinkState) (f : State → State) (hf : ∀ t, Keeps s₀ t → Keeps s₀ (f t)) (h : Keeps s₀ s) : KeepsR s₀ (State.onLink s n st f) := by
  unfold State.onLink
  (try dsimp only)
  repeat' with_reducible first | assumption | exact KeepsR.fault _ | apply KeepsR.next | apply hf | split

theorem Keeps.onUp (n : ℕ) (f : State → State) (hf : ∀ t, Keeps s₀ t → Keeps s₀ (f t)) (h : Keeps s₀ s) : KeepsR s₀ (State.onUp s n f) := by
  unfold State.onUp
  (try dsimp only)
  repeat' with_reducible first | assumption | exact KeepsR.fault _ | apply KeepsR.next | apply hf | split

theorem Keeps.onFrames (n : ℕ) (f : State → State) (hf : ∀ t, Keeps s₀ t → Keeps s₀ (f t)) (h : Keeps s₀ s) : KeepsR s₀ (State.onFrames s n f) := by
  unfold State.onFrames
  (try dsimp only)
  repeat' with_reducible first | assumption | apply Keeps.onLink | apply Keeps.onUp | split

theorem Keeps.answerSpdm (n : ℕ) (q : BitVec 32) (h : Keeps s₀ s) : Keeps s₀ (State.answerSpdm n q s) := by
  unfold State.answerSpdm
  (try dsimp only)
  repeat' with_reducible first | assumption | apply Keeps.spend | apply Keeps.control | apply Keeps.accepted

/-! ## Machine/Time.lean -/

theorem Keeps.mapFtu (f : Ftu → Ftu) (hf : ∀ x, (f x).aon = x.aon) (h : Keeps s₀ s) : Keeps s₀ (s.mapFtu f) :=
  Keeps.upd h rfl (hf _) rfl rfl id id id id (Nat.le_refl _) (.refl _)

theorem Keeps.clearTrips  (h : Keeps s₀ s) : Keeps s₀ (State.clearTrips s) := by
  unfold State.clearTrips
  (try dsimp only)
  repeat' with_reducible first | assumption | intro _ | apply Keeps.mapFtu | exact rfl | apply Keeps.side

theorem Keeps.firstTime (t' : ℕ) (st : TimeState) (h : Keeps s₀ s) : Keeps s₀ (State.firstTime t' st s) := by
  unfold State.firstTime
  (try dsimp only)
  repeat' with_reducible first
    | assumption | intro _ | apply Keeps.clearTrips | apply Keeps.mapFtu | apply Keeps.calArmAll | apply Keeps.setTimeState
    | exact rfl | apply Keeps.side

theorem Keeps.moveTime (d : ℤ) (h : Keeps s₀ s) : Keeps s₀ (State.moveTime d s) := by
  unfold State.moveTime
  (try dsimp only)
  repeat' with_reducible first
    | assumption | intro _ | apply Keeps.bump | apply Keeps.clearTrips | apply Keeps.mapFtu | apply Keeps.keepCounts | exact rfl

theorem Keeps.stepTime (d : ℤ) (h : Keeps s₀ s) : Keeps s₀ (State.stepTime d s) := by
  unfold State.stepTime
  (try dsimp only)
  repeat' with_reducible first
    | assumption | intro _ | apply Keeps.foldl | apply Keeps.moveTime | apply Keeps.stepCalendar | apply Keeps.endQuery

theorem Keeps.correct (d : ℤ) (h : Keeps s₀ s) : KeepsO s₀ (State.correct d s) := by
  unfold State.correct
  (try dsimp only)
  repeat' with_reducible first
    | assumption | intro _ | exact KeepsO.none | apply KeepsO.some | apply Keeps.mapFtu | apply Keeps.stepTime | exact rfl
    | split

theorem Keeps.holdStep (d : ℤ) (h : Keeps s₀ s) : Keeps s₀ (State.holdStep d s) := by
  unfold State.holdStep
  (try dsimp only)
  repeat' with_reducible first | assumption | intro _ | apply Keeps.mapFtu | exact rfl

theorem Keeps.applyPending  (h : Keeps s₀ s) : Keeps s₀ (State.applyPending s) := by
  unfold State.applyPending
  (try dsimp only)
  repeat' with_reducible first | assumption | intro _ | apply Keeps.mapFtu | apply Keeps.stepTime | exact rfl | split

theorem Keeps.byHost  (h : Keeps s₀ s) : Keeps s₀ (State.byHost s) := by
  unfold State.byHost
  (try dsimp only)
  repeat' with_reducible first | assumption | intro _ | apply Keeps.mapFtu | exact rfl

theorem Keeps.setFleetTime (t' : ℕ) (h : Keeps s₀ s) : KeepsO s₀ (State.setFleetTime t' s) := by
  unfold State.setFleetTime
  (try dsimp only)
  repeat' with_reducible first
    | assumption | exact KeepsO.none | apply KeepsO.some | apply Keeps.firstTime | apply Keeps.byHost | apply Keeps.setTimeState
    | apply Keeps.stepTime | apply Keeps.correct | apply Keeps.holdStep | refine Keeps.of_some (by with_reducible assumption) ?_
    | split

theorem Keeps.acceptStep  (h : Keeps s₀ s) : KeepsO s₀ (State.acceptStep s) := by
  unfold State.acceptStep
  (try dsimp only)
  repeat' with_reducible first | assumption | exact KeepsO.none | apply KeepsO.some | apply Keeps.applyPending | split

theorem Keeps.mapPtp (f : Ptp → Ptp) (h : Keeps s₀ s) : Keeps s₀ (State.mapPtp f s) := by
  unfold State.mapPtp
  (try dsimp only)
  repeat' with_reducible first | assumption | intro _ | apply Keeps.mapFtu | exact rfl

theorem Keeps.ptpMeasure (origin : ℕ) (correction : ℤ) (h : Keeps s₀ s) : Keeps s₀ (State.ptpMeasure origin correction s) := by
  unfold State.ptpMeasure
  (try dsimp only)
  repeat' with_reducible first
    | assumption | intro _ | apply Keeps.mapPtp | apply Keeps.mapFtu | apply Keeps.emit | apply Keeps.portSend | exact rfl

theorem Keeps.sendBeacon (n : ℕ) (h : Keeps s₀ s) : Keeps s₀ (State.sendBeacon n s) := by
  unfold State.sendBeacon
  (try dsimp only)
  repeat' with_reducible first | assumption | apply Keeps.transmit | apply Keeps.mapLink | split

theorem Keeps.beaconIn (n : ℕ) (b : Beacon) (h : Keeps s₀ s) : Keeps s₀ (State.beaconIn n b s) := by
  unfold State.beaconIn
  (try dsimp only)
  repeat' with_reducible first
    | assumption | intro _ | apply Keeps.mapLink | apply Keeps.setNum | apply Keeps.mapFtu | exact rfl | split

theorem Keeps.mapSource (c : Candidate) (f : SourceRec → SourceRec) (h : Keeps s₀ s) : Keeps s₀ (State.mapSource c f s) := by
  unfold State.mapSource
  (try dsimp only)
  repeat' with_reducible first | assumption | intro _ | apply Keeps.mapFtu | exact rfl | split

theorem Keeps.timeLost  (h : Keeps s₀ s) : Keeps s₀ (State.timeLost s) := by
  unfold State.timeLost
  (try dsimp only)
  repeat' with_reducible first
    | assumption | intro _ | apply Keeps.mapFtu | apply Keeps.event | apply Keeps.setTimeState | exact rfl | split

theorem Keeps.follow (c : Candidate) (h : Keeps s₀ s) : Keeps s₀ (State.follow c s) := by
  unfold State.follow
  (try dsimp only)
  repeat' with_reducible first
    | assumption | intro _ | apply Keeps.getD | apply Keeps.mapFtu | apply Keeps.mapSource | apply Keeps.firstTime
    | apply Keeps.setTimeState | apply Keeps.spend | apply Keeps.setNum | apply Keeps.correct | exact rfl | split

theorem Keeps.selectSource (x0 : ℕ) (x1 : List Candidate) (h : Keeps s₀ s) : Keeps s₀ (State.selectSource x0 x1 s) := by
  induction x0 generalizing x1 s with
  | zero =>
    rw [State.selectSource]
    (try dsimp only)
    repeat' with_reducible first | assumption | apply Keeps.timeLost
  | succ n ih =>
    rw [State.selectSource]
    (try dsimp only)
    repeat' with_reducible first
      | assumption | apply Keeps.timeLost | apply Keeps.follow | apply Keeps.event | apply Keeps.holdStep
      | apply Keeps.mapSource | apply ih | split

/-! ## Machine/Dict.lean -/

theorem Keeps.countResult (r : ℕ) (h : Keeps s₀ s) : Keeps s₀ (State.countResult r s) := by
  unfold State.countResult
  (try dsimp only)
  repeat' with_reducible first | assumption | apply Keeps.bump | split

theorem Keeps.dictRead (src : Source) (k : ℕ) (off : ℕ) (len : ℕ) (h : Keeps s₀ s) : Keeps s₀ (State.dictRead src k off len s).1 := by
  unfold State.dictRead
  (try dsimp only)
  repeat' with_reducible first | assumption | apply Keeps.spend | apply Keeps.countResult | split

/-! ## Machine/TunRecipes.lean -/

theorem Keeps.applyArena (h : Keeps s₀ s) : Keeps s₀ (State.applyArena s) := by
  unfold State.applyArena
  generalize gibBytes (s.num 0x702008) = n
  have h1 := fun b t => Keeps.placeArea (owner := ownerArena) (tier := 0) (bytes := n) (b := b) (t := t) (Keeps.release ownerArena h)
  split
  · exact h
  · generalize State.placeArea ownerArena 0 n (State.release ownerArena s) = o at h1
    cases o with
    | none => exact h
    | some p => exact Keeps.upd (h1 p.1 p.2 rfl) rfl rfl rfl rfl id id id id (Nat.le_refl _) (.refl _)

theorem Keeps.writeRow (t' : Tensor) (r : ℕ) (c : ℕ) (o : RowOut) (h : Keeps s₀ s) : Keeps s₀ (State.writeRow t' r c o s) := by
  unfold State.writeRow
  (try dsimp only)
  repeat' with_reducible first | assumption | apply Keeps.devWrite | split

theorem Keeps.writeRowsAt (t' : Tensor) (r : ℕ) (c : ℕ) (rows : List (List Num)) (acc : List (List ℕ)) (h : Keeps s₀ s) : Keeps s₀ (State.writeRowsAt t' r c rows acc s).1 := by
  unfold State.writeRowsAt
  (try dsimp only)
  repeat' with_reducible first
    | assumption | intro _ | apply Keeps.foldl | apply Keeps.writeRow | apply Keeps.countTun | apply Keeps.countTile

theorem Keeps.writeRows (t' : Tensor) (r : ℕ) (rows : List (List Num)) (acc : List (List ℕ)) (h : Keeps s₀ s) : Keeps s₀ (State.writeRows t' r rows acc s).1 := by
  unfold State.writeRows
  (try dsimp only)
  repeat' with_reducible first | assumption | apply Keeps.writeRowsAt

theorem Keeps.countRounds (l : List ConvMark) (r : State × UnitSum) (h : Keeps s₀ r.1) : Keeps s₀ (State.countRounds l r).1 :=
  Keeps.countTun _ h

theorem Keeps.thenRows (t : Tensor) (r : Nat) (rows : List (List Num)) (x : State × UnitSum) (h : Keeps s₀ x.1) :
    Keeps s₀ (Sys2Proof.Machine.thenRows t r rows x).1 := Keeps.writeRows _ _ _ _ h

theorem Keeps.adamRows (t' : RStep) (w : Tensor) (g : Tensor) (m : Tensor) (v : Tensor) (r : ℕ) (n : ℕ) (h : Keeps s₀ s) : Keeps s₀ (State.adamRows t' w g m v r n s).1 := by
  unfold State.adamRows
  (try dsimp only)
  repeat' with_reducible first | assumption | apply Keeps.countRounds | apply Keeps.thenRows

theorem Keeps.sgdRows (t' : RStep) (w : Tensor) (g : Tensor) (d : Tensor) (m : Option Tensor) (r : ℕ) (n : ℕ) (h : Keeps s₀ s) : Keeps s₀ (State.sgdRows t' w g d m r n s).1 := by
  unfold State.sgdRows
  (try dsimp only)
  repeat' with_reducible first | assumption | apply Keeps.thenRows | apply Keeps.countRounds | split

theorem Keeps.runRows (ts : List Tensor) (t' : RStep) (r : ℕ) (n : ℕ) (h : Keeps s₀ s) : Keeps s₀ (State.runRows ts t' r n s).1 := by
  unfold State.runRows
  (try dsimp only)
  repeat' with_reducible first
    | assumption | apply Keeps.countRounds | apply Keeps.writeRows | apply Keeps.adamRows | apply Keeps.sgdRows | split

theorem Keeps.endRun (r : Run) (status : ℕ) (failed : Option ℕ) (h : Keeps s₀ s) : Keeps s₀ (State.endRun r status failed s) := by
  unfold State.endRun
  (try dsimp only)
  repeat' with_reducible first
    | assumption | apply Keeps.devWrite | apply Keeps.bump | apply Keeps.msix | apply Keeps.applyAreas | apply Keeps.applyArena
    | apply Keeps.setNum | split | apply Keeps.side

theorem Keeps.stepDone (r : Run) (h : Keeps s₀ s) : Keeps s₀ (State.stepDone r s) := by
  unfold State.stepDone
  (try dsimp only)
  repeat' with_reducible first | assumption | apply Keeps.bump | apply Keeps.endRun | split | apply Keeps.side

theorem Keeps.stageUnit (cluster : ℕ) (l : List (Tensor × ℕ × ℕ)) (h : Keeps s₀ s) : Keeps s₀ (State.stageUnit cluster l s) := by
  unfold State.stageUnit
  (try dsimp only)
  repeat' with_reducible first | assumption | apply Keeps.setCluster

theorem Keeps.unitDone (cluster : ℕ) (units : ℕ) (total : ℕ) (n : ℕ) (r : Run) (h : Keeps s₀ s) : Keeps s₀ (State.unitDone cluster units total n r s) := by
  unfold State.unitDone
  (try dsimp only)
  repeat' with_reducible first | assumption | apply Keeps.stepDone | split | apply Keeps.side

theorem Keeps.leaveCollector (t' : RStep) (d : Tensor) (c : ℕ) (last : Bool) (x : List (List (Num × TileBits))) (r : Run) (h : Keeps s₀ s) : Keeps s₀ (State.leaveCollector t' d c last x r s).1 := by
  unfold State.leaveCollector
  (try dsimp only)
  repeat' with_reducible first | assumption | apply Keeps.writeRowsAt | apply Keeps.writeRows | split

theorem Keeps.matmulRun (cluster : ℕ) (r : Run) (t' : RStep) (a : Tensor) (b : Tensor) (d : Tensor) (h : Keeps s₀ s) : Keeps s₀ (State.matmulRun cluster r t' a b d s) := by
  unfold State.matmulRun
  (try dsimp only)
  repeat' with_reducible first
    | assumption | apply Keeps.setCluster | apply Keeps.stageUnit | apply Keeps.countUnits | apply Keeps.countRounds
    | apply Keeps.unitDone | apply Keeps.leaveCollector | split

theorem Keeps.elementRun (cluster : ℕ) (r : Run) (t' : RStep) (h : Keeps s₀ s) : Keeps s₀ (State.elementRun cluster r t' s) := by
  unfold State.elementRun
  (try dsimp only)
  repeat' with_reducible first
    | assumption | apply Keeps.paceCycles | apply Keeps.bump | apply Keeps.stageUnit | apply Keeps.unitDone
    | apply Keeps.runRows | split

theorem Keeps.runUnit (cluster : ℕ) (r : Run) (h : Keeps s₀ s) : Keeps s₀ (State.runUnit cluster r s) := by
  unfold State.runUnit
  (try dsimp only)
  repeat' with_reducible first | assumption | apply Keeps.matmulRun | apply Keeps.elementRun | split

theorem Keeps.seamStep (cluster : ℕ) (h : Keeps s₀ s) : Keeps s₀ (State.seamStep cluster s) := by
  unfold State.seamStep
  (try dsimp only)
  repeat' with_reducible first | assumption | apply Keeps.setCluster | apply Keeps.countUnits | apply Keeps.side

theorem Keeps.endRuns (status : ℕ) (h : Keeps s₀ s) : Keeps s₀ (State.endRuns status s) := by
  unfold State.endRuns
  (try dsimp only)
  repeat' with_reducible first
    | assumption | intro _ | apply Keeps.foldl | apply Keeps.endRun | apply Keeps.applyArena | split | apply Keeps.side

theorem Keeps.runLost (cluster : ℕ) (h : Keeps s₀ s) : Keeps s₀ (State.runLost cluster s) := by
  unfold State.runLost
  (try dsimp only)
  repeat' with_reducible first | assumption | apply Keeps.endRun | split

/-! ## Machine/Offline.lean -/

theorem Keeps.endSelfTest (outcome : ℕ) (h : Keeps s₀ s) : Keeps s₀ (State.endSelfTest outcome s) := by
  unfold State.endSelfTest
  (try dsimp only)
  repeat' with_reducible first | assumption | apply Keeps.endBg | split | apply Keeps.side

theorem Keeps.markUnit (src inst : Nat) (h : Keeps s₀ s) : Keeps s₀ (State.markUnit src inst s) := by
  have or_r : ∀ {n : Nat} (a b : BitVec n), a ||| (a ||| b) = a ||| b := fun a b => by rw [← BitVec.or_assoc, BitVec.or_self]
  have hu : ∀ u : Units, s.units.within u → Keeps s₀ { s with units := u } := fun u k =>
    Keeps.upd h rfl rfl rfl rfl id id id id (Nat.le_refl _) k
  unfold State.markUnit
  dsimp only
  split
  · exact Keeps.setChannel _ _ _ h
  all_goals first
    | exact h
    | (refine hu _ ?_; constructor <;> simp [or_r])
    | (refine Keeps.upd h rfl rfl rfl rfl id id id id (Nat.le_refl _) ?_; constructor <;> simp [or_r])

theorem Keeps.endQueries (p : Query → Bool) (f : Query → Query) (h : Keeps s₀ s) : Keeps s₀ (State.endQueries p f s) := by
  unfold State.endQueries
  (try dsimp only)
  repeat' with_reducible first | assumption | intro _ | apply Keeps.foldl | apply Keeps.endQuery | split

theorem Keeps.endInternal (p : Query → Bool) (h : Keeps s₀ s) : Keeps s₀ (State.endInternal p s) := by
  unfold State.endInternal
  (try dsimp only)
  repeat' with_reducible first | assumption | apply Keeps.endQueries

theorem Keeps.discardBaste (h' : Handle) (h : Keeps s₀ s) : Keeps s₀ (State.discardBaste h' s) := by
  unfold State.discardBaste
  (try dsimp only)
  repeat' with_reducible first | assumption | apply Keeps.applyBaste | apply Keeps.mapBaste

theorem Keeps.loseBaste (lost : BasteEntry → Bool) (h : Keeps s₀ s) : Keeps s₀ (State.loseBaste lost s) := by
  unfold State.loseBaste
  (try dsimp only)
  repeat' with_reducible first | assumption | intro _ | apply Keeps.foldl | apply Keeps.discardBaste | apply Keeps.loseColl

theorem Keeps.memoryLost (tier : ℕ) (unit : ℕ) (h : Keeps s₀ s) : Keeps s₀ (State.memoryLost tier unit s) := by
  unfold State.memoryLost
  (try dsimp only)
  repeat' with_reducible first
    | assumption | intro _ | apply Keeps.foldl | apply Keeps.loseColl | apply Keeps.loseBaste | apply Keeps.endInternal
    | apply Keeps.endRun | split | refine Keeps.upd ?_ rfl rfl rfl rfl (fun x => x) (fun x => x) ?_ ?_ ?_ ?_
    | exact Units.within.refl _ | exact Nat.le_refl _ | apply Memory.wf_drop

theorem Keeps.sliceLost (use_ : ℕ) (n : ℕ) (place : ℕ) (h : Keeps s₀ s) : Keeps s₀ (State.sliceLost use_ n place s) := by
  unfold State.sliceLost
  (try dsimp only)
  repeat' with_reducible first
    | assumption | intro _ | apply Keeps.foldl | apply Keeps.bump | apply Keeps.loseBaste | apply Keeps.endInternal
    | apply Keeps.cutEncodes | apply Keeps.endRun | apply Keeps.resize | split | apply Keeps.side

theorem Keeps.scansLost  (h : Keeps s₀ s) : Keeps s₀ (State.scansLost s) := by
  unfold State.scansLost
  (try dsimp only)
  repeat' with_reducible first | assumption | apply Keeps.endQueries | split

theorem Keeps.unitLost (src : ℕ) (inst : ℕ) (before : State) (h : Keeps s₀ s) : Keeps s₀ (State.unitLost src inst before s) := by
  unfold State.unitLost
  (try dsimp only)
  repeat' with_reducible first
    | assumption | intro _ | apply Keeps.foldl | apply Keeps.memoryLost | apply Keeps.sliceLost | apply Keeps.scansLost
    | apply Keeps.runLost | apply Keeps.endInternal | apply Keeps.setTables | apply Keeps.cutEncodes | apply Keeps.linkDown
    | split

theorem Keeps.degrade  (h : Keeps s₀ s) : Keeps s₀ (State.degrade s) := by
  unfold State.degrade
  (try dsimp only)
  repeat' with_reducible first | assumption | intro _ | apply Keeps.setDevState | split | (simp_all; done)

theorem Keeps.restore  (h : Keeps s₀ s) : Keeps s₀ (State.restore s) := by
  unfold State.restore
  (try dsimp only)
  repeat' with_reducible first | assumption | intro _ | apply Keeps.setDevState | split | (simp_all; done)

theorem Keeps.lostBy (inst : ℕ) (q : Option ℕ) (h : Keeps s₀ s) : Keeps s₀ (State.lostBy inst q s) := by
  unfold State.lostBy
  (try dsimp only)
  repeat' with_reducible first | assumption | apply Keeps.setChannel

theorem Keeps.unitEvent (src : ℕ) (inst : ℕ) (detail : ℕ) (reaction : Option ℕ) (h : Keeps s₀ s) : Keeps s₀ (State.unitEvent src inst detail reaction s) := by
  unfold State.unitEvent
  (try dsimp only)
  repeat' with_reducible first
    | assumption | apply Keeps.record | apply Keeps.markUnit | apply Keeps.lostBy | apply Keeps.degrade | apply Keeps.unitLost
    | split

theorem Keeps.takeOffline (src : ℕ) (inst : ℕ) (h : Keeps s₀ s) : Keeps s₀ (State.takeOffline src inst s) := by
  unfold State.takeOffline
  (try dsimp only)
  repeat' with_reducible first | assumption | apply Keeps.markUnit | apply Keeps.degrade | apply Keeps.unitLost | split

theorem Keeps.channelAftermath (inst : ℕ) (h : Keeps s₀ s) : Keeps s₀ (State.channelAftermath inst s) := by
  unfold State.channelAftermath
  (try dsimp only)
  repeat' with_reducible first | assumption | apply Keeps.unitEvent | split

theorem Keeps.enterFenced (cause : Byte) (h : Keeps s₀ s) : Keeps s₀ (State.enterFenced cause s) := by
  unfold State.enterFenced
  (try dsimp only)
  repeat' with_reducible first
    | assumption | intro _ | apply Keeps.endSelfTest | apply Keeps.endBg | apply Keeps.setDevState | apply Keeps.endQueries
    | apply Keeps.applyPending | apply Keeps.powerClose | split
    | refine Keeps.upd ?_ rfl rfl rfl rfl (fun x => x) (fun x => x) ?_ ?_ ?_ ?_ | exact Units.within.refl _
    | exact Nat.le_refl _ | dsimp only

theorem Keeps.settle  (h : Keeps s₀ s) : Keeps s₀ (State.settle s) := by
  unfold State.settle
  (try dsimp only)
  repeat' with_reducible first | assumption | apply Keeps.enterFenced | split

theorem Keeps.raise (src : ℕ) (inst : ℕ) (detail : ℕ) (reaction : Option ℕ) (h : Keeps s₀ s) : Keeps s₀ (State.raise src inst detail reaction s) := by
  unfold State.raise
  (try dsimp only)
  repeat' with_reducible first
    | assumption | apply Keeps.unitEvent | apply Keeps.channelAftermath | apply Keeps.record | apply Keeps.settle | split

theorem Keeps.failUnit (src : ℕ) (inst : ℕ) (h : Keeps s₀ s) : Keeps s₀ (State.failUnit src inst s) := by
  unfold State.failUnit
  (try dsimp only)
  repeat' with_reducible first | assumption | apply Keeps.raise | split

theorem Keeps.containQuery (qid : ℕ) (reaction : Option ℕ) (h : Keeps s₀ s) : Keeps s₀ (State.containQuery qid reaction s) := by
  unfold State.containQuery
  (try dsimp only)
  repeat' with_reducible first | assumption | apply Keeps.raise | apply Keeps.endInternal | split

theorem Keeps.escalate (e : Event) (at_ : ℕ) (h : Keeps s₀ s) : Keeps s₀ (State.escalate e at_ s) := by
  unfold State.escalate
  (try dsimp only)
  repeat' with_reducible first
    | assumption | apply Keeps.bump | apply Keeps.reach | apply Keeps.mapOpen | apply Keeps.takeOffline
    | apply Keeps.channelAftermath | apply Keeps.lostBy | apply Keeps.freezeNow | apply Keeps.settle | split

theorem Keeps.escalateDue (sequence : ℕ) (h : Keeps s₀ s) : Keeps s₀ (State.escalateDue sequence s) := by
  unfold State.escalateDue
  (try dsimp only)
  repeat' with_reducible first | assumption | apply Keeps.escalate | split

/-! ## Machine/MemTiers.lean -/

theorem Keeps.mapChannel (n : ℕ) (c : ℕ) (f : Channel → Channel) (h : Keeps s₀ s) : Keeps s₀ (State.mapChannel n c f s) := by
  unfold State.mapChannel
  (try dsimp only)
  repeat' with_reducible first | assumption | apply Keeps.setChannel

theorem Keeps.freeChannel  (h : Keeps s₀ s) : Keeps s₀ (State.freeChannel s) := by
  unfold State.freeChannel
  (try dsimp only)
  repeat' with_reducible first | assumption | apply Keeps.mapChannel | split

theorem Keeps.closeLoop (result : ℕ) (h : Keeps s₀ s) : Keeps s₀ (State.closeLoop result s) := by
  unfold State.closeLoop
  (try dsimp only)
  repeat' with_reducible first
    | assumption | intro _ | apply Keeps.foldl | apply Keeps.freeChannel | apply Keeps.setNum | apply Keeps.linkDown | split
    | apply Keeps.side

theorem Keeps.endLoop (result : ℕ) (h : Keeps s₀ s) : Keeps s₀ (State.endLoop result s) := by
  unfold State.endLoop
  (try dsimp only)
  repeat' with_reducible first | assumption | apply Keeps.setSw | apply Keeps.closeLoop | split

theorem Keeps.closeMargin (result : ℕ) (h : Keeps s₀ s) : Keeps s₀ (State.closeMargin result s) := by
  unfold State.closeMargin
  (try dsimp only)
  repeat' with_reducible first | assumption | apply Keeps.freeChannel | apply Keeps.setNum | split | apply Keeps.side

theorem Keeps.endMargin (result : ℕ) (h : Keeps s₀ s) : Keeps s₀ (State.endMargin result s) := by
  unfold State.endMargin
  (try dsimp only)
  repeat' with_reducible first | assumption | apply Keeps.setSw | apply Keeps.closeMargin | split

theorem Keeps.cutScan (p : ℕ → Bool) (h : Keeps s₀ s) : Keeps s₀ (State.cutScan p s) := by
  unfold State.cutScan
  (try dsimp only)
  repeat' with_reducible first | assumption | apply Keeps.endMargin | apply Keeps.endLoop | split

theorem Keeps.startRetrain (n : ℕ) (c : ℕ) (kind : RetrainKind) (forced : Bool) (h : Keeps s₀ s) : Keeps s₀ (State.startRetrain n c kind forced s) := by
  unfold State.startRetrain
  (try dsimp only)
  repeat' with_reducible first | assumption | apply Keeps.cutScan | apply Keeps.mapChannel | split

theorem Keeps.loseChannel (n : ℕ) (c : ℕ) (h : Keeps s₀ s) : Keeps s₀ (State.loseChannel n c s) := by
  unfold State.loseChannel
  (try dsimp only)
  repeat' with_reducible first | assumption | apply Keeps.raise

theorem Keeps.forceRetrain (n : ℕ) (c : ℕ) (addr : ℕ) (kind : RetrainKind) (h : Keeps s₀ s) : Keeps s₀ (State.forceRetrain n c addr kind s) := by
  unfold State.forceRetrain
  (try dsimp only)
  repeat' with_reducible first | assumption | apply Keeps.event | apply Keeps.startRetrain | apply Keeps.mapChannel | split

theorem Keeps.noteError (n : ℕ) (c : ℕ) (h : Keeps s₀ s) : Keeps s₀ (State.noteError n c s) := by
  unfold State.noteError
  (try dsimp only)
  repeat' with_reducible first | assumption | apply Keeps.mapChannel

theorem Keeps.spoilLine (addr : ℕ) (h : Keeps s₀ s) : Keeps s₀ (State.spoilLine addr s) := by
  unfold State.spoilLine
  (try dsimp only)
  repeat' with_reducible first | assumption | intro _ | apply Keeps.foldl | apply Keeps.spend | apply Keeps.devWrite

theorem Keeps.poisonLine  (h : Keeps s₀ s) : Keeps s₀ (State.poisonLine s) := by
  unfold State.poisonLine
  (try dsimp only)
  repeat' with_reducible first | assumption | apply Keeps.bump

theorem Keeps.spoilAt (addr : Option ℕ) (h : Keeps s₀ s) : Keeps s₀ (State.spoilAt addr s) := by
  unfold State.spoilAt
  (try dsimp only)
  repeat' with_reducible first | assumption | apply Keeps.spoilLine | split

theorem Keeps.lineAfter (r : LineRead) (h : Keeps s₀ s) : Keeps s₀ (State.lineAfter r s) := by
  unfold State.lineAfter
  (try dsimp only)
  repeat' with_reducible first | assumption | intro _ | apply Keeps.foldl | apply Keeps.forceRetrain | split

theorem Keeps.lineDone {r : State × LineRead} (h : Keeps s₀ r.1) : Keeps s₀ (lineDone r).1 := Keeps.lineAfter r.2 h

theorem Keeps.countRead (tier : ℕ) (lines : ℕ) (h : Keeps s₀ s) : Keeps s₀ (State.countRead tier lines s) := by
  unfold State.countRead
  (try dsimp only)
  repeat' with_reducible first | assumption | split | apply Keeps.side

theorem Keeps.corrected (n : ℕ) (c : ℕ) (d : ℕ) (h : Keeps s₀ s) : Keeps s₀ (State.corrected n c d s).1 := by
  unfold State.corrected
  (try dsimp only)
  repeat' with_reducible first | assumption | apply Keeps.noteError | apply Keeps.raise | apply Keeps.loseChannel | split

theorem Keeps.readOnline (n : ℕ) (c : ℕ) (addr : Option ℕ) (e : LineErrors) (stripe : Stripe) (h : Keeps s₀ s) : Keeps s₀ (State.readOnline n c addr e stripe s).1 := by
  unfold State.readOnline
  (try dsimp only)
  repeat' with_reducible first
    | assumption | apply Keeps.spoilAt | apply Keeps.corrected | apply Keeps.bump | apply Keeps.raise | apply Keeps.poisonLine
    | split

theorem Keeps.readHbm (n : ℕ) (c : ℕ) (line : ℕ) (addr : Option ℕ) (e : LineErrors) (stripe : Stripe) (h : Keeps s₀ s) : Keeps s₀ (State.readHbm n c line addr e stripe s).1 := by
  unfold State.readHbm
  (try dsimp only)
  repeat' with_reducible first
    | assumption | apply Keeps.readOnline | apply Keeps.countRead | apply Keeps.bump | apply Keeps.raise
    | apply Keeps.poisonLine | split

theorem Keeps.uncorrected (src : ℕ) (inst : ℕ) (d : ℕ) (h : Keeps s₀ s) : Keeps s₀ (State.uncorrected src inst d s).1 := by
  unfold State.uncorrected
  (try dsimp only)
  repeat' with_reducible first | assumption | apply Keeps.raise | apply Keeps.poisonLine

theorem Keeps.readBulk (pkg : ℕ) (c : ℕ) (addr : Option ℕ) (e : LineErrors) (h : Keeps s₀ s) : Keeps s₀ (State.readBulk pkg c addr e s).1 := by
  unfold State.readBulk
  (try dsimp only)
  repeat' with_reducible first
    | assumption | apply Keeps.countRead | apply Keeps.spoilAt | apply Keeps.raise | apply Keeps.bump | apply Keeps.uncorrected
    | split

theorem Keeps.readLine (addr : ℕ) (e : LineErrors) (stripe : Stripe) (h : Keeps s₀ s) : Keeps s₀ (State.readLine addr e stripe s).1 := by
  unfold State.readLine
  (try dsimp only)
  repeat' with_reducible first
    | assumption | apply Keeps.poisonLine | apply Keeps.readHbm | apply Keeps.readBulk | apply Keeps.uncorrected
    | apply Keeps.raise | split

theorem Keeps.cacheUse (addr : ℕ) (h : Keeps s₀ s) : Keeps s₀ (State.cacheUse addr s) := by
  unfold State.cacheUse
  (try dsimp only)
  repeat' with_reducible first | assumption | apply Keeps.side

theorem Keeps.readVia (c : TrafficClass) (addr : ℕ) (e : LineErrors) (stripe : Stripe) (h : Keeps s₀ s) : Keeps s₀ (State.readVia c addr e stripe s).1 := by
  unfold State.readVia
  (try dsimp only)
  repeat' with_reducible first | assumption | apply Keeps.readLine | apply Keeps.bump | apply Keeps.cacheUse | split

theorem Keeps.poisoned (addr : ℕ) (x : LineRead) (r : Reader) (h : Keeps s₀ s) : Keeps s₀ (State.poisoned addr x r s) := by
  unfold State.poisoned
  (try dsimp only)
  repeat' with_reducible first
    | assumption | apply Keeps.emit | apply Keeps.bump | apply Keeps.endInternal | apply Keeps.containQuery | split

theorem Keeps.scrubLine (u : ScrubUnit) (k : ℕ) (e : LineErrors) (stripe : Stripe) (parityDisagrees : Bool) (h : Keeps s₀ s) : Keeps s₀ (State.scrubLine u k e stripe parityDisagrees s).1 := by
  unfold State.scrubLine
  (try dsimp only)
  repeat' with_reducible first
    | assumption | apply Keeps.lineDone | apply Keeps.readBulk | apply Keeps.readHbm | apply Keeps.readOnline
    | apply Keeps.countRead | apply Keeps.raise | split

theorem Keeps.stackServed (k : ℕ) (n : ℕ) (i : ℕ) (h : Keeps s₀ s) : Keeps s₀ (State.stackServed k n i s) := by
  unfold State.stackServed
  (try dsimp only)
  repeat' with_reducible first | assumption | apply Keeps.setCal

theorem Keeps.lendStart (h : Keeps s₀ s) : KeepsO s₀ (State.lendStart s) := by
  unfold State.lendStart
  generalize gibBytes (s.num 0x340002) = n
  have h1 := fun b t => Keeps.placeArea (owner := ownerLend) (tier := s.lendTier) (bytes := n) (b := b) (t := t) h
  generalize State.placeArea ownerLend s.lendTier n s = o at h1
  cases o with
  | none => exact KeepsO.none
  | some x => exact KeepsO.some (Keeps.upd (h1 x.1 x.2 rfl) rfl rfl rfl rfl id id (fun y => Memory.wf_drop _ y) id (Nat.le_refl _) (.refl _))

theorem Keeps.lendStarted  (h : Keeps s₀ s) : Keeps s₀ (State.lendStarted s) := by
  unfold State.lendStarted
  (try dsimp only)
  repeat' with_reducible first | assumption | apply Keeps.setNum

theorem Keeps.lendStopped  (h : Keeps s₀ s) : Keeps s₀ (State.lendStopped s) := by
  unfold State.lendStopped
  (try dsimp only)
  repeat' with_reducible first
    | assumption | intro _ | apply Keeps.setNum | apply Keeps.release
    | refine Keeps.upd ?_ rfl rfl rfl rfl (fun x => x) (fun x => x) ?_ ?_ ?_ ?_ | exact Units.within.refl _
    | exact Nat.le_refl _ | apply Memory.wf_drop

/-! ## Machine/TestRuns.lean -/

theorem Keeps.loopRuns  (h : Keeps s₀ s) : Keeps s₀ (State.loopRuns s) := by
  unfold State.loopRuns
  (try dsimp only)
  repeat' with_reducible first
    | assumption | intro _ | apply Keeps.foldl | apply Keeps.setNum | apply Keeps.linkStart | apply Keeps.probe | split
    | apply Keeps.side

theorem Keeps.marginRuns  (h : Keeps s₀ s) : Keeps s₀ (State.marginRuns s) := by
  unfold State.marginRuns
  (try dsimp only)
  repeat' with_reducible first | assumption | apply Keeps.setNum | apply Keeps.side

theorem Keeps.testBegins (loop : Bool) (h : Keeps s₀ s) : Keeps s₀ (State.testBegins loop s) := by
  unfold State.testBegins
  (try dsimp only)
  repeat' with_reducible first | assumption | split | apply Keeps.side

theorem Keeps.testStarts (loop : Bool) (h : Keeps s₀ s) : Keeps s₀ (State.testStarts loop s) := by
  unfold State.testStarts
  (try dsimp only)
  repeat' with_reducible first | assumption | apply Keeps.loopRuns | apply Keeps.marginRuns | split

theorem Keeps.sideDone (t' : TestRun) (best : ℕ) (h : Keeps s₀ s) : Keeps s₀ (State.sideDone t' best s) := by
  unfold State.sideDone
  (try dsimp only)
  repeat' with_reducible first
    | assumption | apply Keeps.endMargin | apply Keeps.bump | apply Keeps.setBlob | split | apply Keeps.side

/-! ## Machine/Functions.lean -/

theorem Keeps.calBegin (n : ℕ) (h : Keeps s₀ s) : Keeps s₀ (State.calBegin n s) := by
  unfold State.calBegin
  (try dsimp only)
  repeat' with_reducible first | assumption | apply Keeps.setCal

theorem Keeps.calStarted (n : ℕ) (h : Keeps s₀ s) : Keeps s₀ (State.calStarted n s) := by
  unfold State.calStarted
  (try dsimp only)
  repeat' with_reducible first
    | assumption | apply Keeps.setNum | apply Keeps.setCal | apply Keeps.calChanged | apply Keeps.openWindow | split

theorem Keeps.failing1 (i : ℕ) (h : Keeps s₀ s) : Keeps s₀ (State.failing1 i s) := by
  unfold State.failing1
  (try dsimp only)
  repeat' with_reducible first | assumption | apply Keeps.side

theorem Keeps.startBegins (i : ℕ) (h : Keeps s₀ s) : Keeps s₀ (State.startBegins i s) := by
  unfold State.startBegins
  (try dsimp only)
  repeat' with_reducible first
    | assumption | apply Keeps.calBegin | apply Keeps.lendStart | apply Keeps.failing1 | apply Keeps.journalStart
    | apply Keeps.testBegins | refine Keeps.of_some (by with_reducible assumption) ?_ | split | apply Keeps.side

theorem Keeps.startEnds (i : ℕ) (h : Keeps s₀ s) : Keeps s₀ (State.startEnds i s) := by
  unfold State.startEnds
  (try dsimp only)
  repeat' with_reducible first
    | assumption | apply Keeps.calStarted | apply Keeps.lendStarted | apply Keeps.resumeJobs | apply Keeps.journalStarted
    | apply Keeps.linkStart | apply Keeps.testStarts | split

theorem Keeps.startUndone (i : ℕ) (h : Keeps s₀ s) : Keeps s₀ (State.startUndone i s) := by
  unfold State.startUndone
  (try dsimp only)
  repeat' with_reducible first
    | assumption | apply Keeps.release | apply Keeps.closeLoop | apply Keeps.closeMargin | apply Keeps.calDisarm | split

theorem Keeps.stopBegins (i : ℕ) (h : Keeps s₀ s) : Keeps s₀ (State.stopBegins i s) := by
  unfold State.stopBegins
  (try dsimp only)
  repeat' with_reducible first
    | assumption | apply Keeps.journalStop | apply Keeps.endRuns | apply Keeps.mapLink | apply Keeps.closeLoop
    | apply Keeps.closeMargin | split

theorem Keeps.stopEnds (i : ℕ) (h : Keeps s₀ s) : Keeps s₀ (State.stopEnds i s) := by
  unfold State.stopEnds
  (try dsimp only)
  repeat' with_reducible first
    | assumption | apply Keeps.calDisarm | apply Keeps.closeWindow | apply Keeps.lendStopped | apply Keeps.release
    | apply Keeps.linkDown | apply Keeps.sendTraces | split

theorem Keeps.goStarting (i : ℕ) (h : Keeps s₀ s) : Keeps s₀ (State.goStarting i s) := by
  unfold State.goStarting
  (try dsimp only)
  repeat' with_reducible first | assumption | apply Keeps.startBegins | apply Keeps.setSw

theorem Keeps.goStopping (i : ℕ) (h : Keeps s₀ s) : Keeps s₀ (State.goStopping i s) := by
  unfold State.goStopping
  (try dsimp only)
  repeat' with_reducible first | assumption | apply Keeps.stopBegins | apply Keeps.setSw

theorem Keeps.startFails (i : ℕ) (h : Keeps s₀ s) : Keeps s₀ (State.startFails i s) := by
  unfold State.startFails
  (try dsimp only)
  repeat' with_reducible first | assumption | apply Keeps.event | apply Keeps.setSw | apply Keeps.startUndone

theorem Keeps.switchWrite (i : ℕ) (on : Bool) (h : Keeps s₀ s) : Keeps s₀ (State.switchWrite i on s).1 := by
  unfold State.switchWrite
  (try dsimp only)
  repeat' with_reducible first | assumption | apply Keeps.goStarting | apply Keeps.setSw | apply Keeps.goStopping | split

/-! ## Machine/Retain.lean -/

theorem Keeps.eraseCopy (toA : Bool) (h : Keeps s₀ s) : Keeps s₀ (State.eraseCopy toA s) := by
  unfold State.eraseCopy
  (try dsimp only)
  repeat' with_reducible first | assumption | apply Keeps.side

theorem Keeps.storeCopy (toA : Bool) (c : RetCopy) (h : Keeps s₀ s) : Keeps s₀ (State.storeCopy toA c s) := by
  unfold State.storeCopy
  (try dsimp only)
  repeat' with_reducible first | assumption | apply Keeps.side

theorem Keeps.startCopy (sequence : ℕ) (empty : Bool) (h : Keeps s₀ s) : Keeps s₀ (State.startCopy sequence empty s) := by
  unfold State.startCopy
  (try dsimp only)
  repeat' with_reducible first | assumption | apply Keeps.eraseCopy | apply Keeps.setNum | apply Keeps.side

theorem Keeps.commit (empty : Bool) (h : Keeps s₀ s) : Keeps s₀ (State.commit empty s).1 := by
  unfold State.commit
  (try dsimp only)
  repeat' with_reducible first | assumption | apply Keeps.startCopy | split | apply Keeps.side

theorem Keeps.nextCopy  (h : Keeps s₀ s) : Keeps s₀ (State.nextCopy s) := by
  unfold State.nextCopy
  (try dsimp only)
  repeat' with_reducible first | assumption | apply Keeps.startCopy | split | apply Keeps.side

theorem Keeps.restoreRecord (r : RetRecord) (h : Keeps s₀ s) : Keeps s₀ (State.restoreRecord s r) := by
  unfold State.restoreRecord
  (try dsimp only)
  repeat' with_reducible first | assumption | apply Keeps.bump | apply Keeps.setNum | apply Keeps.setBlob | split

theorem Keeps.retainedRestore  (h : Keeps s₀ s) : Keeps s₀ (State.retainedRestore s) := by
  unfold State.retainedRestore
  (try dsimp only)
  repeat' with_reducible first
    | assumption | intro _ | apply Keeps.foldl | apply Keeps.event | apply Keeps.restoreRecord | split | apply Keeps.side

/-! ## Machine/Security.lean -/

theorem Keeps.writeRecord (r : SecRecord) (h : Keeps s₀ s) : Keeps s₀ (State.writeRecord r s) := by
  unfold State.writeRecord
  (try dsimp only)
  repeat' with_reducible first | assumption | split | apply Keeps.side

theorem Keeps.setRecord (f : SecRecord → SecRecord) (h : Keeps s₀ s) : Keeps s₀ (State.setRecord f s) := by
  unfold State.setRecord
  (try dsimp only)
  repeat' with_reducible first | assumption | apply Keeps.writeRecord | apply Keeps.side

theorem Keeps.readRecord  (h : Keeps s₀ s) : Keeps s₀ (State.readRecord s) := by
  unfold State.readRecord
  (try dsimp only)
  repeat' with_reducible first | assumption | split | apply Keeps.side

theorem Keeps.verifySlots  (h : Keeps s₀ s) : Keeps s₀ (State.verifySlots s) := by
  unfold State.verifySlots
  (try dsimp only)
  repeat' with_reducible first | assumption | apply Keeps.event | split | apply Keeps.side

theorem Keeps.bootOrder  (h : Keeps s₀ s) : Keeps s₀ (State.bootOrder s).2 := by
  unfold State.bootOrder
  (try dsimp only)
  repeat' with_reducible first | assumption | apply Keeps.setRecord | split

theorem Keeps.deriveKeys  (h : Keeps s₀ s) : Keeps s₀ (State.deriveKeys s) := by
  unfold State.deriveKeys
  (try dsimp only)
  repeat' with_reducible first | assumption | split | apply Keeps.side

theorem Keeps.runImage (b : Bool) (h : Keeps s₀ s) : Keeps s₀ (State.runImage b s) := by
  unfold State.runImage
  (try dsimp only)
  repeat' with_reducible first | assumption | apply Keeps.side

theorem Keeps.clearImage  (h : Keeps s₀ s) : Keeps s₀ (State.clearImage s) := by
  unfold State.clearImage
  (try dsimp only)
  repeat' with_reducible first | assumption | apply Keeps.side

theorem Keeps.runFirst (order : List Bool) (h : Keeps s₀ s) : Keeps s₀ (State.runFirst order s) := by
  unfold State.runFirst
  (try dsimp only)
  repeat' with_reducible first | assumption | apply Keeps.runImage | apply Keeps.raise | split

theorem Keeps.selectFirmware  (h : Keeps s₀ s) : Keeps s₀ (State.selectFirmware s) := by
  unfold State.selectFirmware
  (try dsimp only)
  repeat' with_reducible first
    | assumption | apply Keeps.verifySlots | apply Keeps.clearImage | apply Keeps.readRecord | apply Keeps.bootOrder
    | apply Keeps.runFirst | split | apply Keeps.side

theorem Keeps.endTrial  (h : Keeps s₀ s) : Keeps s₀ (State.endTrial s) := by
  unfold State.endTrial
  (try dsimp only)
  repeat' with_reducible first | assumption | apply Keeps.setRecord | split

theorem Keeps.setPolicy (v : ℕ) (h : Keeps s₀ s) : Keeps s₀ (State.setPolicy v s) := by
  unfold State.setPolicy
  (try dsimp only)
  repeat' with_reducible first | assumption | apply Keeps.setRecord

theorem Keeps.commitSvn  (h : Keeps s₀ s) : Keeps s₀ (State.commitSvn s) := by
  unfold State.commitSvn
  (try dsimp only)
  repeat' with_reducible first | assumption | apply Keeps.setRecord

theorem Keeps.writeSlot (b : Bool) (off : ℕ) (data : Bytes) (h : Keeps s₀ s) : Keeps s₀ (State.writeSlot b off data s) := by
  unfold State.writeSlot
  (try dsimp only)
  repeat' with_reducible first | assumption | split | apply Keeps.side

theorem Keeps.recoveryVerify  (h : Keeps s₀ s) : Keeps s₀ (State.recoveryVerify s) := by
  unfold State.recoveryVerify
  (try dsimp only)
  repeat' with_reducible first | assumption | split | apply Keeps.side

theorem Keeps.fwFinish (p : Port) (b : Bool) (h : Keeps s₀ s) : Keeps s₀ (State.fwFinish p b s) := by
  unfold State.fwFinish
  (try dsimp only)
  repeat' with_reducible first
    | assumption | apply Keeps.ok | apply Keeps.reply | apply Keeps.writeSlot | split | apply Keeps.side

theorem Keeps.spdmOpen (via : Source) (lead : Bytes) (h : Keeps s₀ s) : Keeps s₀ (State.spdmOpen via lead s) := by
  unfold State.spdmOpen
  (try dsimp only)
  repeat' with_reducible first | assumption | apply Keeps.spend | apply Keeps.emit

theorem Keeps.setSession (via : Source) (on : Bool) (h : Keeps s₀ s) : Keeps s₀ (State.setSession via on s) := by
  unfold State.setSession
  (try dsimp only)
  repeat' with_reducible first | assumption | split | apply Keeps.side

/-! ## Machine/DictWrite.lean -/

theorem Keeps.closeEvent (q : ℕ) (h : Keeps s₀ s) : KeepsO s₀ (State.closeEvent q s) := by
  unfold State.closeEvent
  (try dsimp only)
  repeat' with_reducible first | assumption | exact KeepsO.none | apply KeepsO.some | split | apply Keeps.side

theorem Keeps.handleEvent (q : ℕ) (h : Keeps s₀ s) : KeepsO s₀ (State.handleEvent q s) := by
  unfold State.handleEvent
  (try dsimp only)
  repeat' with_reducible first | assumption | apply Keeps.closeEvent | apply Keeps.escalateDue

theorem Keeps.ackSlot (n : ℕ) (h : Keeps s₀ s) : Keeps s₀ (State.ackSlot n s) := by
  unfold State.ackSlot
  (try dsimp only)
  repeat' with_reducible first | assumption | apply Keeps.setAlarm

theorem Keeps.acknowledge (v : ℕ) (h : Keeps s₀ s) : Keeps s₀ (State.acknowledge v s) := by
  unfold State.acknowledge
  (try dsimp only)
  repeat' with_reducible first | assumption | intro _ | apply Keeps.foldl | apply Keeps.ackSlot | split

theorem Keeps.clearSlot (v : ℕ) (h : Keeps s₀ s) : KeepsO s₀ (State.clearSlot v s) := by
  unfold State.clearSlot
  (try dsimp only)
  repeat' with_reducible first | assumption | exact KeepsO.none | apply KeepsO.some | apply Keeps.setAlarm | split

theorem Keeps.forceEvents (b : Bytes) (h : Keeps s₀ s) : Keeps s₀ (State.forceEvents b s) := by
  unfold State.forceEvents
  (try dsimp only)
  repeat' with_reducible first | assumption | intro _ | apply Keeps.foldl | apply Keeps.settle | apply Keeps.record

theorem Keeps.setLevel (v : ℕ) (h : Keeps s₀ s) : Keeps s₀ (State.setLevel v s) := by
  unfold State.setLevel
  (try dsimp only)
  repeat' with_reducible first | assumption | apply Keeps.setNum | split | apply Keeps.side

theorem Keeps.rearmFault  (h : Keeps s₀ s) : Keeps s₀ (State.rearmFault s) := by
  unfold State.rearmFault
  (try dsimp only)
  repeat' with_reducible first | assumption | apply Keeps.side

theorem Keeps.rebaselineColl  (h : Keeps s₀ s) : Keeps s₀ (State.rebaselineColl s) := by
  unfold State.rebaselineColl
  (try dsimp only)
  repeat' with_reducible first | assumption | apply Keeps.mapColl | split

theorem Keeps.setGenerationTo (v : ℕ) (h : Keeps s₀ s) : Keeps s₀ (State.setGenerationTo v s).1 := by
  unfold State.setGenerationTo
  (try dsimp only)
  repeat' with_reducible first | assumption | apply Keeps.openGeneration | split

theorem Keeps.orState {o : Option State} (h : Keeps s₀ s) (ho : KeepsO s₀ o) : Keeps s₀ (Sys2Proof.Machine.orState s o).1 := by
  cases o with
  | none => exact h
  | some t => exact ho.all t rfl

theorem Keeps.writeShardMap (b : Bytes) (h : Keeps s₀ s) : Keeps s₀ (State.writeShardMap b s).1 := by
  unfold State.writeShardMap
  (try dsimp only)
  repeat' with_reducible first | assumption | apply Keeps.mapColl | split

theorem Keeps.recoveryWrite (b : Bytes) (h : Keeps s₀ s) : Keeps s₀ (State.recoveryWrite b s).1 := by
  unfold State.recoveryWrite
  (try dsimp only)
  repeat' with_reducible first | assumption | apply Keeps.writeSlot | split

theorem Keeps.numAction (k : ℕ) (v : ℕ) (h : Keeps s₀ s) : Keeps s₀ (State.numAction k v s).1 := by
  unfold State.numAction
  (try dsimp only)
  repeat' with_reducible first
    | assumption | apply Keeps.orState | apply Keeps.setFleetTime | apply Keeps.acceptStep | apply Keeps.rebaselineColl
    | apply Keeps.setGenerationTo | apply Keeps.commit | apply Keeps.handleEvent | apply Keeps.acknowledge
    | apply Keeps.clearSlot | apply Keeps.rearmFault | apply Keeps.setPolicy | apply Keeps.commitSvn
    | apply Keeps.recoveryVerify | split

theorem Keeps.afterStore (k : ℕ) (h : Keeps s₀ s) : Keeps s₀ (State.afterStore k s) := by
  unfold State.afterStore
  (try dsimp only)
  repeat' with_reducible first
    | assumption | apply Keeps.applyBaste | apply Keeps.applyAreas | apply Keeps.applyArena | apply Keeps.calChanged | split

theorem Keeps.storeNum (k : ℕ) (v : ℕ) (h : Keeps s₀ s) : Keeps s₀ (State.storeNum k v s) := by
  unfold State.storeNum
  (try dsimp only)
  repeat' with_reducible first | assumption | apply Keeps.setLevel | apply Keeps.afterStore | apply Keeps.setNum | split

theorem Keeps.writeBindings (p : Port) (b : Bytes) (h : Keeps s₀ s) : Keeps s₀ (State.writeBindings s p b).1 := by
  unfold State.writeBindings
  (try dsimp only)
  repeat' with_reducible first | assumption | apply Keeps.setBlob | split

theorem Keeps.textWrite (k : ℕ) (b : Bytes) (h : Keeps s₀ s) : Keeps s₀ (State.textWrite k b s).1 := by
  unfold State.textWrite
  (try dsimp only)
  repeat' with_reducible first
    | assumption | apply Keeps.forceEvents | apply Keeps.recoveryWrite | apply Keeps.writeShardMap | apply Keeps.writeBindings
    | apply Keeps.setBlob | split

theorem Keeps.numWrite (r : Row) (k : ℕ) (v : ℕ) (h : Keeps s₀ s) : Keeps s₀ (State.numWrite r k v s).1 := by
  unfold State.numWrite
  (try dsimp only)
  repeat' with_reducible first | assumption | apply Keeps.numAction | apply Keeps.storeNum | split

theorem Keeps.contentWrite (r : Row) (k : ℕ) (b : Bytes) (h : Keeps s₀ s) : Keeps s₀ (State.contentWrite r k b s).1 := by
  unfold State.contentWrite
  (try dsimp only)
  repeat' with_reducible first | assumption | apply Keeps.switchWrite | apply Keeps.numWrite | apply Keeps.textWrite | split

theorem Keeps.writeEntry (src : Source) (expert : Bool) (k : ℕ) (b : Bytes) (h : Keeps s₀ s) : Keeps s₀ (State.writeEntry src expert k b s).1 := by
  unfold State.writeEntry
  (try dsimp only)
  repeat' with_reducible first | assumption | apply Keeps.contentWrite | split

theorem Keeps.countSet (k : ℕ) (r : ℕ) (h : Keeps s₀ s) : Keeps s₀ (State.countSet k r s) := by
  unfold State.countSet
  (try dsimp only)
  repeat' with_reducible first | assumption | apply Keeps.bump | apply Keeps.bumpSat | split

theorem Keeps.dictWrite (src : Source) (expert : Bool) (k : ℕ) (b : Bytes) (h : Keeps s₀ s) : Keeps s₀ (State.dictWrite src expert k b s).1 := by
  unfold State.dictWrite
  (try dsimp only)
  repeat' with_reducible first | assumption | apply Keeps.writeEntry | apply Keeps.countSet

theorem Keeps.unstage (src : Source) (h : Keeps s₀ s) : Keeps s₀ (State.unstage src s) := by
  unfold State.unstage
  (try dsimp only)
  repeat' with_reducible first | assumption | apply Keeps.side

theorem Keeps.stage (src : Source) (k : ℕ) (b : Bytes) (h : Keeps s₀ s) : Keeps s₀ (State.stage src k b s) := by
  unfold State.stage
  (try dsimp only)
  repeat' with_reducible first | assumption | apply Keeps.side

theorem Keeps.pieceWrite (src : Source) (expert : Bool) (more : Bool) (k : ℕ) (off : ℕ) (b : Bytes) (h : Keeps s₀ s) : Keeps s₀ (State.pieceWrite src expert more k off b s).1 := by
  unfold State.pieceWrite
  (try dsimp only)
  repeat' with_reducible first
    | assumption | apply Keeps.countResult | apply Keeps.dictWrite | apply Keeps.unstage | apply Keeps.stage | split

theorem Keeps.countPap (src : Source) (answered : Bool) (h : Keeps s₀ s) : Keeps s₀ (State.countPap src answered s) := by
  unfold State.countPap
  (try dsimp only)
  repeat' with_reducible first | assumption | apply Keeps.bump | split

theorem Keeps.keep (x : Kept) (h : Keeps s₀ s) : Keeps s₀ (State.keep x s) := by
  unfold State.keep
  (try dsimp only)
  repeat' with_reducible first | assumption | apply Keeps.side

theorem Keeps.papAnswer (src : Source) (x : Kept) (h : Keeps s₀ s) : Keeps s₀ (State.papAnswer src x s) := by
  unfold State.papAnswer
  (try dsimp only)
  repeat' with_reducible first | assumption | apply Keeps.portSend | apply Keeps.emit | apply Keeps.countPap | split

theorem Keeps.rollSecond  (h : Keeps s₀ s) : Keeps s₀ (State.rollSecond s) := by
  unfold State.rollSecond
  (try dsimp only)
  repeat' with_reducible first | assumption | split | apply Keeps.side

theorem Keeps.spendRate (src : Source) (h : Keeps s₀ s) : Keeps s₀ (State.spendRate src s) := by
  unfold State.spendRate
  (try dsimp only)
  repeat' with_reducible first | assumption | split | apply Keeps.side

theorem Keeps.papSet (src : Source) (f : PapFrame) (h : Keeps s₀ s) : Keeps s₀ (State.papSet src f s).1 := by
  unfold State.papSet
  (try dsimp only)
  repeat' with_reducible first | assumption | apply Keeps.pieceWrite

theorem Keeps.papServed (src : Source) (f : PapFrame) (a : Answer) (h : Keeps s₀ s) : Keeps s₀ (State.papServed src f a s) := by
  unfold State.papServed
  (try dsimp only)
  repeat' with_reducible first
    | assumption | apply Keeps.papAnswer | apply Keeps.keep | apply Keeps.spendRate | apply Keeps.rollSecond

theorem Keeps.papServe (src : Source) (f : PapFrame) (perform : State → State × Answer) (hf : ∀ t, Keeps s₀ t → Keeps s₀ (perform t).1)
    (h : Keeps s₀ s) : Keeps s₀ (State.papServe src f perform s) := by
  unfold State.papServe
  have h1 : Keeps s₀ s.rollSecond := Keeps.rollSecond h
  dsimp only
  split
  · exact Keeps.countPap _ _ h1
  · split
    · exact Keeps.papAnswer _ _ (Keeps.spendRate _ h1)
    · exact Keeps.papServed _ _ _ (hf _ h)

theorem Keeps.entryWrite (w : Writer) (k : ℕ) (b : Bytes) (h : Keeps s₀ s) : Keeps s₀ (State.entryWrite w k b s) := by
  unfold State.entryWrite
  (try dsimp only)
  repeat' with_reducible first
    | assumption | intro _ | apply Keeps.countPap | apply Keeps.papServe | apply Keeps.papSet | apply Keeps.pieceWrite
    | apply Keeps.emit | split

theorem Keeps.functionWrite (w : Writer) (i : ℕ) (on : Bool) (h : Keeps s₀ s) : Keeps s₀ (State.functionWrite w i on s) := by
  unfold State.functionWrite
  (try dsimp only)
  repeat' with_reducible first | assumption | apply Keeps.entryWrite

/-! ## Machine/Transports.lean -/

theorem Keeps.capture  (h : Keeps s₀ s) : Keeps s₀ (State.capture s).1 := by
  unfold State.capture
  (try dsimp only)
  repeat' with_reducible first | assumption | apply Keeps.side

theorem Keeps.keepCapture (src : Source) (b : Bytes) (h : Keeps s₀ s) : Keeps s₀ (State.keepCapture src b s) := by
  unfold State.keepCapture
  (try dsimp only)
  repeat' with_reducible first | assumption | apply Keeps.side

theorem Keeps.resyncPiece (src : Source) (off : ℕ) (len : ℕ) (h : Keeps s₀ s) : Keeps s₀ (State.resyncPiece src off len s).1 := by
  unfold State.resyncPiece
  (try dsimp only)
  repeat' with_reducible first | assumption | apply Keeps.capture | apply Keeps.keepCapture | split

theorem Keeps.commitFrom (src : Source) (h : Keeps s₀ s) : Keeps s₀ (State.commitFrom src s).1 := by
  unfold State.commitFrom
  (try dsimp only)
  repeat' with_reducible first | assumption | apply Keeps.countResult | apply Keeps.commit | split

theorem Keeps.papPerform (src : Source) (op : PapOp) (f : PapFrame) (h : Keeps s₀ s) : Keeps s₀ (State.papPerform src op f s).1 := by
  unfold State.papPerform
  (try dsimp only)
  repeat' with_reducible first
    | assumption | apply Keeps.dictRead | apply Keeps.papSet | apply Keeps.commitFrom | apply Keeps.resyncPiece
    | apply Keeps.countResult | split

theorem Keeps.papRequest (src : Source) (op : PapOp) (b : Bytes) (h : Keeps s₀ s) : Keeps s₀ (State.papRequest src op b s) := by
  unfold State.papRequest
  (try dsimp only)
  repeat' with_reducible first
    | assumption | intro _ | apply Keeps.countPap | apply Keeps.papServe | apply Keeps.papPerform | split

/-! ## Machine/Remote.lean -/

theorem Keeps.readLines (fs : List LineFault) (x1 : List ℕ) (h : Keeps s₀ s) : Keeps s₀ (State.readLines fs x1 s).1 := by
  induction x1 generalizing s with
  | nil =>
    rw [State.readLines]
    (try dsimp only)
    repeat' with_reducible first | assumption
  | cons r l ih =>
    rw [State.readLines]
    (try dsimp only)
    repeat' with_reducible first | assumption | apply Keeps.lineDone | apply Keeps.readVia | apply ih

theorem Keeps.memoryOp (o : RemoteOp) (h : Keeps s₀ s) : Keeps s₀ (State.memoryOp o s).1 := by
  unfold State.memoryOp
  (try dsimp only)
  repeat' with_reducible first | assumption | apply Keeps.devWrite | apply Keeps.wordOp | split

theorem Keeps.tierOp (o : RemoteOp) (remote : Bool) (fs : List LineFault) (h : Keeps s₀ s) : Keeps s₀ (State.tierOp o remote fs s).1 := by
  unfold State.tierOp
  (try dsimp only)
  repeat' with_reducible first
    | assumption | apply Keeps.loadAppears | apply Keeps.unbacked | apply Keeps.readLines | apply Keeps.memoryOp | split

theorem Keeps.scratchOp (o : RemoteOp) (h : Keeps s₀ s) : Keeps s₀ (State.scratchOp o s).1 := by
  unfold State.scratchOp
  (try dsimp only)
  repeat' with_reducible first | assumption | apply Keeps.memoryOp | split

theorem Keeps.queryOp (o : RemoteOp) (link : ℕ) (h : Keeps s₀ s) : Keeps s₀ (State.queryOp o link s).1 := by
  unfold State.queryOp
  (try dsimp only)
  repeat' with_reducible first | assumption | apply Keeps.loadAppears | split | apply Keeps.side

theorem Keeps.dictGet (o : RemoteOp) (h : Keeps s₀ s) : Keeps s₀ (State.dictGet o s).1 := by
  unfold State.dictGet
  (try dsimp only)
  repeat' with_reducible first | assumption | apply Keeps.dictRead | split

theorem Keeps.dictPut (o : RemoteOp) (h : Keeps s₀ s) : Keeps s₀ (State.dictPut o s).1 := by
  unfold State.dictPut
  (try dsimp only)
  repeat' with_reducible first | assumption | apply Keeps.dictWrite | split

theorem Keeps.blockOp (p : Port) (off : ℕ) (o : RemoteOp) (h : Keeps s₀ s) : Keeps s₀ (State.blockOp p off o s).1 := by
  unfold State.blockOp
  (try dsimp only)
  repeat' with_reducible first | assumption | apply Keeps.controlWrite | split

theorem Keeps.ownControl (o : RemoteOp) (h : Keeps s₀ s) : Keeps s₀ (State.ownControl o s).1 := by
  unfold State.ownControl
  (try dsimp only)
  repeat' with_reducible first
    | assumption | apply Keeps.queryOp | apply Keeps.blockOp | apply Keeps.memoryOp | apply Keeps.dictGet | apply Keeps.dictPut
    | apply Keeps.unbacked | split

theorem Keeps.controlOp (o : RemoteOp) (link : ℕ) (h : Keeps s₀ s) : Keeps s₀ (State.controlOp o link s).1 := by
  unfold State.controlOp
  (try dsimp only)
  repeat' with_reducible first
    | assumption | apply Keeps.queryOp | apply Keeps.mergeIn | apply Keeps.loadAppears | apply Keeps.memoryOp
    | apply Keeps.dictGet | apply Keeps.dictPut | split

theorem Keeps.perform (o : RemoteOp) (remote : Bool) (link : ℕ) (fs : List LineFault) (h : Keeps s₀ s) : Keeps s₀ (State.perform o remote link fs s).1 := by
  unfold State.perform
  (try dsimp only)
  repeat' with_reducible first
    | assumption | apply Keeps.tierOp | apply Keeps.controlOp | apply Keeps.ownControl | apply Keeps.scratchOp
    | apply Keeps.unbacked | split

theorem Keeps.countAnswer (st : Byte) (h : Keeps s₀ s) : Keeps s₀ (State.countAnswer st s) := by
  unfold State.countAnswer
  (try dsimp only)
  repeat' with_reducible first | assumption | apply Keeps.bump | split

theorem Keeps.forward (f : Frame) (h : Keeps s₀ s) : Keeps s₀ (State.forward f s) := by
  unfold State.forward
  (try dsimp only)
  repeat' with_reducible first | assumption | apply Keeps.sendOn | apply Keeps.bump | apply Keeps.respond | split

theorem Keeps.requestIn (n : ℕ) (sound : Bool) (fs : List LineFault) (f : Frame) (h : Keeps s₀ s) : Keeps s₀ (State.requestIn n sound fs f s) := by
  unfold State.requestIn
  (try dsimp only)
  repeat' with_reducible first
    | assumption | apply Keeps.respond | apply Keeps.forward | apply Keeps.perform | apply Keeps.countAnswer | split

theorem Keeps.onRequest (link : Fin 32) (op : Byte) (r : Rx) (fs : List LineFault) (h : Keeps s₀ s) : KeepsR s₀ (State.onRequest link op r fs s) := by
  unfold State.onRequest
  (try dsimp only)
  repeat' with_reducible first
    | assumption | intro _ | apply Keeps.onFrames | apply Keeps.receive | apply Keeps.requestIn | apply Keeps.accepted

theorem Keeps.completeRequest (r : Req) (f : Frame) (h : Keeps s₀ s) : Keeps s₀ (State.completeRequest r f s) := by
  unfold State.completeRequest
  (try dsimp only)
  repeat' with_reducible first
    | assumption | apply Keeps.dropRequest | apply Keeps.finishSlot | apply Keeps.redispatch | apply Keeps.holdOff
    | apply Keeps.probed | split

theorem Keeps.noteFenced (n : ℕ) (f : Frame) (h : Keeps s₀ s) : Keeps s₀ (State.noteFenced n f s) := by
  unfold State.noteFenced
  (try dsimp only)
  repeat' with_reducible first | assumption | apply Keeps.mapLink | split

theorem Keeps.responseIn (n : ℕ) (f : Frame) (h : Keeps s₀ s) : Keeps s₀ (State.responseIn n f s) := by
  unfold State.responseIn
  (try dsimp only)
  repeat' with_reducible first | assumption | apply Keeps.forward | apply Keeps.noteFenced | apply Keeps.completeRequest | split

theorem Keeps.sourceStop (q : SlotReq) (fs : List LineFault) (h : Keeps s₀ s) : Keeps s₀ (State.sourceStop q fs s).1 := by
  unfold State.sourceStop
  (try dsimp only)
  repeat' with_reducible first | assumption | apply Keeps.unbacked | apply Keeps.readLines | split

theorem Keeps.runSlot (j : ℕ) (q : SlotReq) (x : SlotTaken) (fs : List LineFault) (h : Keeps s₀ s) : Keeps s₀ (State.runSlot j q x fs s) := by
  unfold State.runSlot
  (try dsimp only)
  repeat' with_reducible first
    | assumption | apply Keeps.perform | apply Keeps.finishSlot | apply Keeps.issue | apply Keeps.bump
    | refine Keeps.of_some (by with_reducible assumption) ?_ | split

/-! ## Machine/Host.lean -/

theorem Keeps.onPort (p : Port) (f : State → State) (hf : ∀ t, Keeps s₀ t → Keeps s₀ (f t)) (h : Keeps s₀ s) : KeepsR s₀ (State.onPort p f s) := by
  unfold State.onPort
  (try dsimp only)
  repeat' with_reducible first | assumption | exact KeepsR.fault _ | apply KeepsR.next | apply hf | split

theorem Keeps.windowMiss (p : Port) (op : WindowOp) (h : Keeps s₀ s) : Keeps s₀ (State.windowMiss p op s) := by
  unfold State.windowMiss
  (try dsimp only)
  repeat' with_reducible first | assumption | apply Keeps.emit | apply Keeps.unbacked | split

theorem Keeps.windowMemory (p : Port) (w : Window) (a : ℕ) (op : WindowOp) (h : Keeps s₀ s) : Keeps s₀ (State.windowMemory p w a op s) := by
  unfold State.windowMemory
  (try dsimp only)
  repeat' with_reducible first | assumption | apply Keeps.emit | apply Keeps.bump | apply Keeps.devWrite | split

theorem Keeps.windowAccess (p : Port) (w : Window) (off : ℕ) (op : WindowOp) (h : Keeps s₀ s) : Keeps s₀ (State.windowAccess p w off op s) := by
  unfold State.windowAccess
  (try dsimp only)
  repeat' with_reducible first
    | assumption | apply Keeps.emit | apply Keeps.controlWrite | apply Keeps.windowMiss | apply Keeps.imageWrite
    | apply Keeps.windowMemory | apply Keeps.loadAppears | split

theorem Keeps.hostWindow (p : Port) (dpa : ℕ) (op : WindowOp) (h : Keeps s₀ s) : Keeps s₀ (State.hostWindow p dpa op s) := by
  unfold State.hostWindow
  (try dsimp only)
  repeat' with_reducible first | assumption | apply Keeps.windowAccess | apply Keeps.windowMiss | split

theorem Keeps.addSpool (p : Port) (d : SpoolDef) (h : Keeps s₀ s) : Keeps s₀ (State.addSpool p d s) := by
  unfold State.addSpool
  (try dsimp only)
  repeat' with_reducible first
    | assumption | intro _ | split | apply Keeps.side
    | refine Keeps.upd ?_ rfl rfl rfl rfl (fun x => x) (fun x => x) ?_ ?_ ?_ ?_ | exact Units.within.refl _
    | exact Nat.le_refl _ | apply Memory.wf_zero

theorem Keeps.endSpoolWork (p : Port) (n : Byte) (h : Keeps s₀ s) : Keeps s₀ (State.endSpoolWork p n s) := by
  unfold State.endSpoolWork
  (try dsimp only)
  repeat' with_reducible first | assumption | apply Keeps.resetJobs | apply Keeps.cutEncodes | apply Keeps.endQueries

theorem Keeps.drainReset (p : Port) (n : Byte) (x2 : ℕ) (h : Keeps s₀ s) : Keeps s₀ (State.drainReset p n x2 s) := by
  induction x2 generalizing s with
  | zero =>
    rw [State.drainReset]
    (try dsimp only)
    repeat' with_reducible first | assumption
  | succ n ih =>
    rw [State.drainReset]
    (try dsimp only)
    repeat' with_reducible first
      | assumption | apply Keeps.complete | apply Keeps.takeEntry | apply Keeps.bump | apply ih | split

theorem Keeps.beginPower (p : Port) (t' : ℕ) (force : Bool) (h : Keeps s₀ s) : Keeps s₀ (State.beginPower p t' force s) := by
  unfold State.beginPower
  (try dsimp only)
  repeat' with_reducible first
    | assumption | intro _ | apply Keeps.endRuns | apply Keeps.endSelfTest | split
    | refine Keeps.upd ?_ rfl rfl rfl rfl (fun x => x) (fun x => x) ?_ ?_ ?_ ?_ | exact Units.within.refl _
    | exact Nat.le_refl _

theorem Keeps.enterPs4  (h : Keeps s₀ s) : Keeps s₀ (State.enterPs4 s) := by
  unfold State.enterPs4
  (try dsimp only)
  repeat' with_reducible first
    | assumption | intro _ | apply Keeps.setSw | apply Keeps.release
    | refine Keeps.upd ?_ rfl rfl rfl rfl (fun x => x) (fun x => x) ?_ ?_ ?_ ?_ | exact Units.within.refl _
    | exact Nat.le_refl _ | apply Memory.wf_drop

theorem Keeps.clearTun  (h : Keeps s₀ s) : Keeps s₀ (State.clearTun s) := by
  unfold State.clearTun
  (try dsimp only)
  repeat' with_reducible first | assumption | apply Keeps.side

theorem Keeps.reachPower (x : Transition) (h : Keeps s₀ s) : Keeps s₀ (State.reachPower x s) := by
  unfold State.reachPower
  (try dsimp only)
  repeat' with_reducible first
    | assumption | intro _ | apply Keeps.endQueries | apply Keeps.clearTun | apply Keeps.endRuns | apply Keeps.linksStop
    | apply Keeps.linksStart | apply Keeps.enterPs4 | apply Keeps.logChange | apply Keeps.bump | apply Keeps.endBg | split
    | refine Keeps.upd ?_ rfl rfl rfl rfl (fun x => x) (fun x => x) ?_ ?_ ?_ ?_ | exact Units.within.refl _
    | exact Nat.le_refl _

/-! ## Machine/Startup.lean -/

theorem Keeps.loadPhiug  (h : Keeps s₀ s) : Keeps s₀ (State.loadPhiug s) := by
  unfold State.loadPhiug
  (try dsimp only)
  repeat' with_reducible first
    | assumption | intro _ | apply Keeps.calArmAll | split
    | refine Keeps.upd ?_ rfl rfl rfl rfl (fun x => x) (fun x => x) ?_ ?_ ?_ ?_ | exact Units.within.refl _
    | exact Nat.le_refl _

theorem Keeps.portsTrain  (h : Keeps s₀ s) : Keeps s₀ (State.portsTrain s) := by
  unfold State.portsTrain
  (try dsimp only)
  repeat' with_reducible first | assumption | intro _ | apply Keeps.foldl | apply Keeps.setPort | split | apply Keeps.side

theorem Keeps.enterTrain  (h : Keeps s₀ s) : Keeps s₀ (State.enterTrain s) := by
  unfold State.enterTrain
  (try dsimp only)
  repeat' with_reducible first
    | assumption | intro _ | apply Keeps.linksStart | apply Keeps.portsTrain | apply Keeps.setDevState | split
    | refine Keeps.upd ?_ rfl rfl rfl rfl (fun x => x) (fun x => x) ?_ ?_ ?_ ?_ | exact Units.within.refl _
    | exact Nat.le_refl _ | (simp_all; done)

theorem Keeps.bootSteps  (h : Keeps s₀ s) : Keeps s₀ (State.bootSteps s) := by
  unfold State.bootSteps
  (try dsimp only)
  repeat' with_reducible first
    | assumption | intro _ | apply Keeps.retainedRestore | apply Keeps.deriveKeys | apply Keeps.selectFirmware
    | apply Keeps.enterTrain | apply Keeps.loadPhiug | apply Keeps.calArmAll | split
    | refine Keeps.upd ?_ rfl rfl rfl rfl (fun x => x) (fun x => x) ?_ ?_ ?_ ?_ | exact Units.within.refl _
    | exact Nat.le_refl _

theorem Keeps.flashLanded  (h : Keeps s₀ s) : Keeps s₀ (State.flashLanded s) := by
  unfold State.flashLanded
  (try dsimp only)
  repeat' with_reducible first | assumption | apply Keeps.side

theorem Keeps.flashCut  (h : Keeps s₀ s) : Keeps s₀ (State.flashCut s) := by
  unfold State.flashCut
  (try dsimp only)
  repeat' with_reducible first | assumption | apply Keeps.spend | split | apply Keeps.side

theorem Keeps.trainStacks (failed : BitVec 12) (h : Keeps s₀ s) : Keeps s₀ (State.trainStacks failed s) := by
  unfold State.trainStacks
  (try dsimp only)
  repeat' with_reducible first | assumption | intro _ | apply Keeps.foldl | apply Keeps.raise | split

theorem Keeps.trainBulk (l : List PackageReport) (h : Keeps s₀ s) : Keeps s₀ (State.trainBulk l s) := by
  unfold State.trainBulk
  (try dsimp only)
  repeat' with_reducible first
    | assumption | intro _ | apply Keeps.foldl | apply Keeps.raise | apply Keeps.event | split
    | refine Keeps.upd ?_ rfl rfl rfl rfl (fun x => x) (fun x => x) ?_ ?_ ?_ ?_ | exact Units.within.refl _
    | exact Nat.le_refl _

theorem Keeps.trainExpander (n : ℕ) (r : ExpanderReport) (h : Keeps s₀ s) : Keeps s₀ (State.trainExpander n r s) := by
  unfold State.trainExpander
  (try dsimp only)
  repeat' with_reducible first | assumption | split | apply Keeps.side

theorem Keeps.trainRoot (l : List ExpanderReport) (h : Keeps s₀ s) : Keeps s₀ (State.trainRoot l s) := by
  unfold State.trainRoot
  (try dsimp only)
  repeat' with_reducible first | assumption | intro _ | apply Keeps.foldl | apply Keeps.trainExpander | split | apply Keeps.side

theorem Keeps.retainCalib (r : TrainReport) (h : Keeps s₀ s) : Keeps s₀ (State.retainCalib r s) := by
  unfold State.retainCalib
  (try dsimp only)
  repeat' with_reducible first | assumption | intro _ | apply Keeps.foldl | split | apply Keeps.side

theorem Keeps.measureTiers  (h : Keeps s₀ s) : Keeps s₀ (State.measureTiers s) := by
  unfold State.measureTiers
  (try dsimp only)
  repeat' with_reducible first | assumption | apply Keeps.setNum

theorem Keeps.placeHost (p : Port) (gib : Nat) (h : Keeps s₀ s) : Keeps s₀ (State.placeHost p gib s) := by
  unfold State.placeHost
  generalize gibBytes gib = n
  have h1 := fun b t => Keeps.placeArea (owner := 0x10010 + Port.num p) (tier := 0) (bytes := n) (b := b) (t := t) h
  generalize State.placeArea (0x10010 + Port.num p) 0 n s = o at h1
  cases o with
  | none => exact h
  | some x =>
    cases p
    · exact Keeps.upd (h1 x.1 x.2 rfl) rfl rfl rfl rfl id id id id (Nat.le_refl _) (.refl _)
    · exact Keeps.upd (h1 x.1 x.2 rfl) rfl rfl rfl rfl id id id id (Nat.le_refl _) (.refl _)

theorem Keeps.checkArea (k : ℕ) (h : Keeps s₀ s) : Keeps s₀ (State.checkArea k s) := by
  unfold State.checkArea
  (try dsimp only)
  repeat' with_reducible first | assumption | apply Keeps.event | apply Keeps.bump | apply Keeps.setNum | split

theorem Keeps.setOut  (h : Keeps s₀ s) : Keeps s₀ (State.setOut s) := by
  unfold State.setOut
  (try dsimp only)
  repeat' with_reducible first
    | assumption | apply Keeps.placeHost | apply Keeps.applyAreas | apply Keeps.checkArea | apply Keeps.setNum
    | apply Keeps.applyBaste | apply Keeps.applyArena | split

theorem Keeps.memoryReady  (h : Keeps s₀ s) : Keeps s₀ (State.memoryReady s) := by
  unfold State.memoryReady
  (try dsimp only)
  repeat' with_reducible first | assumption | intro _ | apply Keeps.foldl | apply Keeps.setPort

theorem Keeps.portReset (p : Port) (h : Keeps s₀ s) : Keeps s₀ (State.portReset p s) := by
  unfold State.portReset
  (try dsimp only)
  repeat' with_reducible first | assumption | apply Keeps.endBg | apply Keeps.setPort

theorem Keeps.resumeIntake  (h : Keeps s₀ s) : Keeps s₀ (State.resumeIntake s) := by
  unfold State.resumeIntake
  (try dsimp only)
  repeat' with_reducible first | assumption | apply Keeps.resumeJobs | apply Keeps.mapJournal

theorem Keeps.writeBlocks (x0 : ℕ) (h : Keeps s₀ s) : Keeps s₀ (State.writeBlocks x0 s) := by
  induction x0 generalizing s with
  | zero =>
    rw [State.writeBlocks]
    (try dsimp only)
    repeat' with_reducible first | assumption
  | succ n ih =>
    rw [State.writeBlocks]
    (try dsimp only)
    repeat' with_reducible first | assumption | apply Keeps.blockOutcome | apply Keeps.readRelease | apply ih | split

/-! ## Machine/SelfTest.lean -/

theorem Keeps.withhold (tier : ℕ) (unit : ℕ) (n : ℕ) (h : Keeps s₀ s) : Keeps s₀ (State.withhold tier unit n s) := by
  unfold State.withhold
  (try dsimp only)
  repeat' with_reducible first | assumption | apply Keeps.side

theorem Keeps.sliceFails (r : SliceRef) (h : Keeps s₀ s) : Keeps s₀ (State.sliceFails r s) := by
  unfold State.sliceFails
  (try dsimp only)
  repeat' with_reducible first
    | assumption | apply Keeps.failUnit | apply Keeps.lineDone | apply Keeps.readHbm | apply Keeps.withhold | apply Keeps.spend
    | apply Keeps.readBulk | apply Keeps.event | split

theorem Keeps.testEnds  (h : Keeps s₀ s) : Keeps s₀ (State.testEnds s) := by
  unfold State.testEnds
  (try dsimp only)
  repeat' with_reducible first | assumption | apply Keeps.endSelfTest | split | apply Keeps.side

theorem Keeps.marchStarts (r : SliceRef) (h : Keeps s₀ s) : Keeps s₀ (State.marchStarts r s) := by
  unfold State.marchStarts
  (try dsimp only)
  repeat' with_reducible first | assumption | split | apply Keeps.side

theorem Keeps.onTap (ir : Byte) (f : State → State) (hf : ∀ t, Keeps s₀ t → Keeps s₀ (f t)) (h : Keeps s₀ s) : KeepsR s₀ (State.onTap ir f s) := by
  unfold State.onTap
  (try dsimp only)
  repeat' with_reducible first | assumption | apply KeepsR.next | apply hf | split | apply Keeps.side

theorem Keeps.shiftPins (b : Bytes) (h : Keeps s₀ s) : Keeps s₀ (State.shiftPins b s) := by
  unfold State.shiftPins
  (try dsimp only)
  repeat' with_reducible first | assumption | apply Keeps.emit

theorem Keeps.shiftBypass  (h : Keeps s₀ s) : Keeps s₀ (State.shiftBypass s) := by
  unfold State.shiftBypass
  (try dsimp only)
  repeat' with_reducible first | assumption | apply Keeps.emit

/-! ## Machine/Telemetry.lean -/

theorem Keeps.setReading (k : ℕ) (v : BitVec 32) (h : Keeps s₀ s) : Keeps s₀ (State.setReading k v s) := by
  unfold State.setReading
  (try dsimp only)
  repeat' with_reducible first | assumption | apply Keeps.side

theorem Keeps.warn (src : ℕ) (inst : ℕ) (detail : ℕ) (out : Bool) (h : Keeps s₀ s) : Keeps s₀ (State.warn src inst detail out s) := by
  unfold State.warn
  (try dsimp only)
  repeat' with_reducible first | assumption | apply Keeps.raise | split | apply Keeps.side

theorem Keeps.takeSample (t' : ℕ) (period : ℕ) (h : Keeps s₀ s) : Keeps s₀ (State.takeSample t' period s) := by
  unfold State.takeSample
  (try dsimp only)
  repeat' with_reducible first | assumption | apply Keeps.spend | apply Keeps.bump | apply Keeps.setBlob | apply Keeps.holdTrace

end Sys2Proof.Machine
end

