-- ==== Sys2Proof/Laws/Writes.lean ====
section
/-!
SUPPORT. What a mailbox command does once its mailbox takes it, and what the write of an entry does once nothing before its content
refuses it: one lemma for each gate, and one for numbers, byte strings and switches.
-/

namespace Sys2Proof.Machine

/-- A mailbox command that its mailbox takes. -/
theorem State.onMailbox_taken {s : State} {p : Port} {b : Bool} (f : State → State) (h : s.takes p b = true) :
    s.onMailbox p b f = .next (f s) := by
  simp only [State.takes, Bool.and_eq_true, Bool.or_eq_true] at h
  obtain ⟨⟨h1, h2⟩, h3⟩ := h
  unfold State.onMailbox
  simp only [h1, h2, Bool.not_true, Bool.false_eq_true, if_false]
  rw [if_neg]
  rcases h3 with h | h <;> simp_all

/-- A command of an upstream port. -/
theorem State.onPort_up {s : State} {p : Port} (f : State → State) (h : s.upstream.contains p = true) : s.onPort p f = .next (f s) := by
  simp [State.onPort]; simpa using h

/-- A writer may write only an entry that exists, past the gate. -/
theorem State.mayWrite_row {s : State} {w : Writer} {k : Nat} (h : s.mayWrite w k = true) :
    ∃ r, s.row k = some r ∧ s.writeGate w.src w.expert k = none := by
  simp only [State.mayWrite, Bool.and_eq_true, Option.isNone_iff_eq_none] at h
  cases hr : s.row k with
  | none =>
    have := h.2
    simp only [State.writeGate, hr] at this
    repeat' split at this
    all_goals cases this
  | some r => exact ⟨r, rfl, h.2⟩

/-- The frame of a write is a SET of its entry in one piece. -/
theorem State.papSet_setFrame (w : Writer) (x : Source) (k : Nat) (b : Bytes) (s : State) :
    s.papSet x (setFrame w k b) =
      ((s.pieceWrite x w.expert false k 0 b).1,
        if refused (s.pieceWrite x w.expert false k 0 b).2 then ⟨(s.pieceWrite x w.expert false k 0 b).2, 0, 0, []⟩
        else ⟨(s.pieceWrite x w.expert false k 0 b).2, s.typeOf k, b.length, []⟩) := by
  have hk : key (k / 256) (k % 256) = k := Nat.div_add_mod k 256
  have h0 : (setFrame w k b).flags.getLsbD 0 = w.expert := by simp only [setFrame]; cases w.expert <;> rfl
  have h1 : (setFrame w k b).flags.getLsbD 1 = false := by simp only [setFrame]; cases w.expert <;> rfl
  unfold State.papSet
  rw [h0, h1]
  simp only [setFrame, hk, Nat.zero_add]

/-- A request that is neither above the limit nor repeated is performed. -/
theorem State.papServe_fresh {s : State} {x : Source} {f : PapFrame} (g : State → State × Answer)
    (h1 : s.rollSecond.rateLeft x = true) (h2 : s.keptFor x f.requestId = none) :
    s.papServe x f g = (g s).1.papServed x f (g s).2 := by
  simp only [State.papServe, h1, h2, Bool.not_true, Bool.false_eq_true, if_false]

/-- A write that passes the gate is a write of one piece, which is then counted, answered and, as a frame, kept. -/
theorem State.entryWrite_heard {s u : State} {w : Writer} {k q : Nat} {r : Row} (b : Bytes) (h : s.mayWrite w k = true)
    (hr : s.row k = some r) (hb : b.length ≤ sourceLimit w.src)
    (he : s.pieceWrite w.src w.expert false k 0 b = (u.countSet k q, q)) :
    s.entryWrite w k b = u.written w k q r.ty.code b.length := by
  simp only [State.mayWrite, Bool.and_eq_true, Option.isNone_iff_eq_none] at h
  obtain ⟨⟨hh, hp⟩, -⟩ := h
  unfold State.entryWrite State.written
  simp only [hh, Bool.not_true, Bool.false_eq_true, if_false]
  have hl : b.length ≤ 1448 → papLength .set (setFrame w k b) = true := by intro hl; simp [papLength, setFrame, hl]
  have ht : s.typeOf k = r.ty.code := by simp [State.typeOf, hr]
  cases hs : w.src with
  | mailbox p | shuttle n =>
    rw [hs] at he
    simp only [he, ht]
    split <;> rfl
  | pap ip udp | mctp eid =>
    rw [hs] at he hp
    simp only [Bool.and_eq_true, bne_iff_ne, Option.isNone_iff_eq_none] at hp
    have hb := hl (by simpa [hs, sourceLimit] using hb)
    simp only [hp.1.1, decide_false, hb, Bool.not_true, Bool.or_self, Bool.false_eq_true, if_false]
    rw [State.papServe_fresh _ hp.1.2 hp.2, State.papSet_setFrame, he, ht]
    rfl

/-- Dropping what a source has staged changes neither a row nor a gate. -/
@[simp] theorem State.row_unstage (s : State) (x : Source) (k : Nat) : (s.unstage x).row k = s.row k := rfl
@[simp] theorem State.num_unstage (s : State) (x : Source) (k : Nat) : (s.unstage x).num k = s.num k := rfl
@[simp] theorem State.selected_unstage (s : State) (x : Source) (k : Nat) : (s.unstage x).selected k = s.selected k := rfl
@[simp] theorem State.bindingsRefused_unstage (s : State) (x : Source) (p : Port) (b : Bytes) :
    (s.unstage x).bindingsRefused p b = s.bindingsRefused p b := rfl
@[simp] theorem State.recoverySlot_unstage (s : State) (x : Source) : (s.unstage x).recoverySlot = s.recoverySlot := rfl
@[simp] theorem State.sec_unstage (s : State) (x : Source) : (s.unstage x).sec = s.sec := rfl
@[simp] theorem State.writeGate_unstage (s : State) (x y : Source) (e : Bool) (k : Nat) :
    (s.unstage x).writeGate y e k = s.writeGate y e k := rfl

/-- A write whose gate is passed is its content. -/
theorem State.dictWrite_passed {s : State} {x : Source} {e : Bool} {k : Nat} {r : Row} (b : Bytes) (hg : s.writeGate x e k = none)
    (hr : s.row k = some r) :
    s.dictWrite x e k b = ((s.contentWrite r k b).1.countSet k (s.contentWrite r k b).2, (s.contentWrite r k b).2) := by
  simp [State.dictWrite, State.writeEntry, hg, hr]

theorem le_sourceLimit (x : Source) : 8 ≤ sourceLimit x := by cases x <;> simp [sourceLimit]
theorem sourceLimit_le (x : Source) : sourceLimit x ≤ 65536 := by cases x <;> simp [sourceLimit]

/-- The row of an entry other than its index's first. -/
theorem State.row_eq {s : State} {k : Nat} {r : Row} (hk : k % 256 ≠ 0) (h : s.row k = some r) : rowOf k = some r := by
  unfold State.row at h
  split at h
  · cases h
  · exact h

/-- The write of an entry of a fixed size, whose row is known. -/
theorem State.entryWrite_row {s : State} {w : Writer} {k n : Nat} {r : Row} (b : Bytes) (h : s.mayWrite w k = true)
    (hk : k % 256 ≠ 0) (hr : rowOf k = some r) (hn : r.ty.size = some n) (hb : b.length = n) :
    s.entryWrite w k b = (s.contentWrite r k b).1.written w k (s.contentWrite r k b).2 r.ty.code n := by
  obtain ⟨r', h1, hg⟩ := State.mayWrite_row h
  have := State.row_eq hk h1
  rw [hr] at this
  cases this
  have h8 : n ≤ 8 := by cases ht : r.ty <;> simp_all [Ty.size] <;> omega
  have : s.pieceWrite w.src w.expert false k 0 b = s.dictWrite w.src w.expert k b := by
    unfold State.pieceWrite
    have := le_sourceLimit w.src
    simp only [hg, h1, Option.bind_some, hn, Option.isSome_some, if_true, Bool.not_false, Bool.and_true, decide_true,
      Bool.true_and, decide_eq_true_eq]
    rw [if_pos (by omega)]
  rw [← hb]
  exact State.entryWrite_heard b h h1 (by have := le_sourceLimit w.src; omega) (by rw [this, State.dictWrite_passed b hg h1])

/-- The write of a byte string that one command carries, whose row is known: what its source had staged is dropped. -/
theorem State.entryWrite_string {s : State} {w : Writer} {k : Nat} {r : Row} (b : Bytes) (h : s.mayWrite w k = true)
    (hk : k % 256 ≠ 0) (hr : rowOf k = some r) (hn : r.ty.size = none) (hb : b.length ≤ sourceLimit w.src) :
    s.entryWrite w k b =
      ((s.unstage w.src).contentWrite r k b).1.written w k ((s.unstage w.src).contentWrite r k b).2 r.ty.code b.length := by
  obtain ⟨r', h1, hg⟩ := State.mayWrite_row h
  have := State.row_eq hk h1
  rw [hr] at this
  cases this
  have : s.pieceWrite w.src w.expert false k 0 b = (s.unstage w.src).dictWrite w.src w.expert k b := by
    unfold State.pieceWrite
    simp only [hg, h1, Option.bind_some, hn, Option.isSome_none, Bool.false_eq_true, if_false, State.assembled, if_true,
      List.nil_append]
    rw [if_neg (by omega)]
  exact State.entryWrite_heard b h h1 hb (by rw [this, State.dictWrite_passed b (by simpa using hg) (by simpa using h1)])

/-- A value inside its bounds, for an entry that has no other limit. -/
theorem State.rangeOk_of {s : State} {k v : Nat} {r : Row} (hr : rowOf k = some r) (hs : storedValue k v = v)
    (hl : r.lo ≤ v) (hh : v ≤ r.hi) (hm : s.rangeMore k v = true) : s.rangeOk k v = true := by
  simp [State.rangeOk, hr, hs, hl, hh, hm]

@[simp] theorem leNat_natLE (n v : Nat) : leNat (natLE n v) = v % 256 ^ n := by
  induction n generalizing v with
  | zero => simp [natLE, leNat, Nat.mod_one]
  | succ n ih =>
    have h : 256 ^ (n + 1) = 256 * 256 ^ n := by rw [Nat.pow_succ, Nat.mul_comm]
    rw [h, Nat.mod_mul]
    simp [natLE, leNat, ih]

/-- A number in its range. -/
theorem State.entryWrite_num {s : State} {w : Writer} {k n : Nat} {r : Row} (b : Bytes) (h : s.mayWrite w k = true)
    (hk : k % 256 ≠ 0) (hr : rowOf k = some r) (hn : r.ty.size = some n) (hb : b.length = n)
    (hs : (switchable (k / 256) && k % 256 = 1) = false) (hv : s.rangeOk k (leNat b) = true) :
    s.entryWrite w k b = (s.numWrite r k (leNat b)).1.written w k (s.numWrite r k (leNat b)).2 r.ty.code n := by
  rw [State.entryWrite_row b h hk hr hn hb]
  have : s.contentWrite r k b = s.numWrite r k (leNat b) := by
    unfold State.contentWrite
    simp only [hn, hb, ne_eq, not_true_eq_false, if_false, hs, Bool.false_eq_true, hv, Bool.not_true]
  rw [this]

/-- A byte string whose content keeps its layout. -/
theorem State.entryWrite_text {s : State} {w : Writer} {k : Nat} {r : Row} (b : Bytes) (h : s.mayWrite w k = true)
    (hk : k % 256 ≠ 0) (hr : rowOf k = some r) (hn : r.ty.size = none)
    (hb : b.length ≤ if r.ty = .str then 256 else 65536) (hw : b.length ≤ sourceLimit w.src) (ht : textOk k b = true)
    (hs : k / 256 = 0xE010 → s.sec.recovery = true) :
    s.entryWrite w k b =
      ((s.unstage w.src).textWrite k b).1.written w k ((s.unstage w.src).textWrite k b).2 r.ty.code b.length := by
  rw [State.entryWrite_string b h hk hr hn hw]
  have : (s.unstage w.src).contentWrite r k b = (s.unstage w.src).textWrite k b := by
    unfold State.contentWrite
    simp only [hn, ht, Bool.not_true, Bool.false_eq_true, if_false]
    rw [if_neg (by omega), if_neg (by simp; exact hs)]
  rw [this]

/-- A function's state. -/
theorem State.functionWrite_passed {s : State} {w : Writer} {i : Nat} {r : Row} (on : Bool) (hi : switchable i = true)
    (h : s.mayWrite w (256 * i + 1) = true) (hr : rowOf (256 * i + 1) = some r) (hn : r.ty = .u8) :
    s.functionWrite w i on = (s.switchWrite i on).1.written w (256 * i + 1) (s.switchWrite i on).2 2 1 := by
  unfold State.functionWrite
  have h1 : (256 * i + 1) % 256 = 1 := by omega
  have h2 : (256 * i + 1) / 256 = i := by omega
  rw [State.entryWrite_row (n := 1) _ h (by omega) hr (by rw [hn]; rfl) (by simp), hn]
  have : s.contentWrite r (256 * i + 1) [if on then 2 else 0] = s.switchWrite i on := by
    unfold State.contentWrite
    cases on <;> simp [hn, Ty.size, h1, h2, hi, leNat]
  rw [this]; rfl

end Sys2Proof.Machine
end

