-- ==== Sys2Proof/Machine/Pins.lean ====
section
/-!
DEFINITION. The outputs of the pin banks (R37, R44, R388, R389, R393, R407, R411): when a bank is driven, the level that a rule gives a
driven output, and what the board's resistor makes of one that is not driven. A level that no rule gives is open (log entry 34).
-/

namespace Sys2Proof.Machine

/-- The outputs of R411. -/
inductive Pin where
  | devPrsntN
  | faultN
  | alertN
  | thermTripN
  | ready
  | mainEn
  | ftPpsOut
  | mgmtPhyRstN
  | mgmtMdc
  | mgmtMdio
  | spiRetClk
  | spiRetACsN
  | spiRetBCsN
  | spiRetDq (n : Fin 4)
  | jtagTdo
  | i3cScl
  | i3cSda
  | expPerstN (n : Fin 4)
  | bulkResetN (n : Fin 24)
  | modResetN (n : Fin 32)
  | modLpmode (n : Fin 32)
  | modScl (n : Fin 32)
  | modSda (n : Fin 32)
deriving DecidableEq, Repr

/-- A pin by a number of its own. -/
def Pin.code : Pin → Nat
  | .devPrsntN => 0 | .faultN => 1 | .alertN => 2 | .thermTripN => 3 | .ready => 4 | .mainEn => 5 | .ftPpsOut => 6
  | .mgmtPhyRstN => 7 | .mgmtMdc => 8 | .mgmtMdio => 9 | .spiRetClk => 10 | .spiRetACsN => 11 | .spiRetBCsN => 12
  | .jtagTdo => 13 | .i3cScl => 14 | .i3cSda => 15
  | .spiRetDq n => 16 + n | .expPerstN n => 24 + n | .bulkResetN n => 32 + n | .modResetN n => 64 + n
  | .modLpmode n => 96 + n | .modScl n => 128 + n | .modSda n => 160 + n

/-- The pin is of the MOD or the BULK bank, or EXP_PERST_N: driven from TRAIN. -/
def Pin.fromTrain : Pin → Bool
  | .expPerstN _ | .bulkResetN _ | .modResetN _ | .modLpmode _ | .modScl _ | .modSda _ => true
  | _ => false

/-- The level while the pin is not driven, from the board's resistor; I3C_SCL and I3C_SDA have none of their own, and the bus holds
them high. -/
def Pin.board : Pin → Bool
  | .ready | .mainEn | .ftPpsOut | .mgmtPhyRstN | .mgmtMdc | .spiRetClk | .expPerstN _ | .bulkResetN _ | .modResetN _ => false
  | _ => true

/-- The bank of the pin is driven (R411): AON from the entry to BOOT, and the others from the entry to TRAIN until a later entry to BOOT. -/
def State.bankDriven (s : State) (p : Pin) : Bool := if p.fromTrain then s.dev.banksDriven else s.dev.st != .off

/-- The level that a driven pin has: an open-drain output is driven low or released. -/
def State.driven (s : State) (p : Pin) : Bool :=
  match p with
  | .faultN => !s.thimble.faultLow
  | .alertN => !s.alertLow
  | .thermTripN => !s.dev.thermTrip
  | .ready => s.readyPin
  | .mainEn => s.dev.mainEn
  | .ftPpsOut => s.dev.ppsOut
  | p => Config.pinLevel p.code s.ftu.aon

/-- The level of an output. DEV_PRSNT_N is tied to ground inside the package. -/
def State.pin (s : State) (p : Pin) : Bool :=
  if p = .devPrsntN then false else if s.bankDriven p then s.driven p else p.board

end Sys2Proof.Machine
end

