-- ==== Sys2Proof/Tests/Slice0.lean ====
section
/-!
SUPPORT. Tests: ill-formed commands are refused, worked examples of the manual come out as it prints them, and for every statement
with premises a state and operands that meet them, clause by clause.
-/

set_option maxRecDepth 8000
set_option Elab.async false

namespace Sys2Proof

open Machine

namespace Tests

/-! ## States and operands the tests use -/

/-- A powered device in a state of choice, its start-up steps done and both host links up. -/
def devIn (x : DevState) : State :=
  { dev := { st := x, perstA := false, mainEn := true, mainPg := true, phiug := true, stepsDone := true, mgmtUp := true }
    ports := { a := { linkState := 2, busMaster := true }, b := { linkState := 2, busMaster := true } } }

/-- A query spool and its completion spool of Port A. -/
def subA : SubSpool :=
  { port := .a, num := 3, mutation := false, weight := 1, entries := 64, base := 4096, completion := 3, tenant := 0 }
def compA : CompSpool :=
  { port := .a, num := 3, hostMemory := true, entries := 64, base := 8192, tenant := 0, msix := some 5, coalesceCount := 4,
    coalesceTime := 1000 }

/-- A serving device whose fleet time is locked. -/
def servIn : State := { devIn .serving with ftu := { st := .locked, now := 1000 }, chip := { hostGibA := 1 } }

/-- A query descriptor, an opcode and zeros. -/
def descA (op : Byte) : QueryDesc := parseQuery (natLE 1 op.toNat ++ zeros 127)

/-- A small collection. -/
def defA : CollDef :=
  { handle := 0, graph := true, distance := 0, dim := 16, codeFormat := 1, codeHeaded := false, blockLog2 := 4, offsetMode := 0,
    rotation := false, degree := 32, rerankFormat := none, rerankHeaded := false, codeTier := 0, rerankTier := 0, attrTier := 0,
    vidTier := 0, entryPoints := 1, attrFields := 0, tenant := 0, stackMask := 1, packageMask := 0, maxVectors := 100, seed := 0,
    codeTable := 0, rerankTable := 0, weights := 0, program := 0, schema := [], raw := [] }

/-- That collection, online. -/
def collA : Coll := { d := defA, st := .online }

/-- A query of Port A in a stage. -/
def queryA (x : Stage) (op : Byte) : Query :=
  { id := 0, client := .spool .a 3 1, d := descA op, arrival := 10, cutoff := 5000, snapshot := 0, stage := x, half := .west,
    needle := 0, beam := 1, cap := 1, maxHops := 4, rerankDepth := 0, prefetch := 0, vec := [], rotated := [], finite := true,
    filter := [] }

/-- A serving device with one collection and one query. -/
def searching (q : Query) : State := { servIn with colls := [collA], search := { queries := [q], nextId := 1 } }

/-- A serving device whose query spool 3 of Port A holds one entry of an opcode. -/
def entryIn (op : Byte) : State :=
  { servIn with
    spools := { sub := [{ subA with tail := 1 }], comp := [compA] }
    mem := Memory.write subA.base [op] [] }

/-- A serving device whose fleet query queue holds one entry of an opcode, with a collection of two shards. -/
def fleetIn (op : Byte) : State :=
  { servIn.setNum 0x800001 0 with
    colls := [{ collA with shardMap := [[0], [1]] }]
    fabric := { queue := [(natLE 1 op.toNat ++ [0x40] ++ zeros 126, 1, 0)] } }

/-- A GET_BY_VID entry with one inline VID. -/
def getA (deadline : Nat) : QueryDesc :=
  parseQuery (natLE 1 3 ++ [1] ++ natLE 6 0 ++ natLE 8 deadline ++ zeros 16 ++ natLE 8 0x1000000 ++ natLE 4 1 ++ natLE 4 1 ++
    zeros 80)

/-- A live slot with neighbours. -/
def slotA (nbrs : List Nat) : Slot :=
  { st := .live, vid := 1, birth := 0, reuse := 0, nonfinite := false, death := 0, code := [], rerank := [], attrs := [],
    nbrs := nbrs, repaired := false, freeGen := none }

/-- A serving device with one collection, whose mutation spool 3 of Port A holds one entry. -/
def mutIn (x : CollState) (entry : Bytes) : State :=
  { servIn with
    colls := [{ collA with st := x }]
    spools := { sub := [{ subA with mutation := true, tail := 1 }], comp := [compA] }
    mem := Memory.write subA.base entry [] }

/-- A mutation job of Port A's spool 3. -/
def jobA (w : MutWork) : MutJob := { id := 0, client := .spool .a 3 0 1, opcode := 0x20, coll := some 0, work := w, arrival := 10 }

/-- A serving device with one mutation job. -/
def jobIn (j : MutJob) : State := { servIn with colls := [collA], muts := { jobs := [j], nextId := 1 } }

/-- An encode batch of a collection. -/
def encA : EncodeJob :=
  { id := 4, port := .a, spool := 3, head := 1, tag := 0, flags := 0, coll := none, source := 0x1000000, codeDest := 0x1000000,
    blockDest := 0x1000000, vectorDest := 0x1000000, count := 1, dim := 16, stride := 64, sourceFormat := 0, codeFormat := 1,
    blockLog2 := 4, offsetMode := 0, carried := none, rotation := false, seed := 0, weights := [], statsDest := 0x1000000,
    dimStatsDest := 0 }

/-- The header of the empty journal block at position 0. -/
def headA : Bytes :=
  natLE 4 0x424A4B5A ++ zeros 12 ++ zeros 8 ++ natLE 4 128 ++ zeros 28

/-- That header with its check, in a window of 16 MiB at host address 0, a journal that is on, and a REPLAY entry. -/
def replayIn : State :=
  { (mutIn .created ([0x23, 0, 0, 0, 0, 0, 0, 0, 0, 0, 0, 1])).setNum 0x410004 0x1000000 with
    hostMem := Memory.write 0 (headA ++ natLE 4 (crc32c headA).toNat) []
    switches := [(journalIndex, ⟨.on, none⟩)] }

/-- A job that saves a collection. -/
def savingIn (capacity : Nat) : State := jobIn (jobA (.save { dest := 0x1000000, capacity := capacity, snapshot := 1 }))

/-- An encode entry without a collection. -/
def encE : EncodeEntry :=
  parseEncode ([0x40, 0, 0xFF, 0xFF, 0, 0, 0, 0] ++ natLE 8 0x1000000 ++ natLE 8 0x1000000 ++ natLE 8 0x1000000 ++ natLE 8 0x1000000 ++
    natLE 4 1 ++ natLE 4 16 ++ natLE 4 64 ++ [0x0D, 0, 4, 0, 0, 0, 0, 0] ++ zeros 28 ++ natLE 8 0x1000000 ++ zeros 8)

/-- A serving device with that collection in a state. -/
def collIn (x : CollState) : State := { servIn with colls := [{ collA with st := x }] }

/-- A baste entry of the collection. -/
def basteA (insert : Bool) : BasteEntry := { id := 7, coll := 0, vid := 1, version := 1, stamp := 10, insert := insert }

/-- Seam works on the collection in bulk build mode. -/
def seamIn (c : Coll) (l : List BasteEntry) : State :=
  { servIn.setNum 0x413005 1 with
    colls := [c], muts := { baste := l, generation := 5, nextId := 8 }, tun := { servIn.tun with seamTiles := 1 } }

/-- A load of the collection. -/
def loadA : Load := openLoad .a 0 (zeros 64)

/-- The definition of a flat Hamming collection of 100 vectors of 16 elements. -/
def defBytes : Bytes :=
  natLE 2 0 ++ [1, 5] ++ natLE 8 16 ++ natLE 16 0xFF ++ natLE 4 100 ++ zeros 224

/-- The first bytes of an image of that collection with no slot. -/
def preA : Bytes :=
  let sect (t : Nat) : Bytes := natLE 1 t ++ zeros 7 ++ natLE 8 0x1C0 ++ zeros 8 ++ natLE 4 (crc32c []).toNat ++ zeros 4
  let head := natLE 4 0x58494B5A ++ natLE 2 1 ++ natLE 2 3 ++ natLE 8 1 ++ zeros 8 ++ natLE 8 0x1C0 ++ zeros 8
  let rest := defBytes ++ sect 1 ++ sect 2 ++ sect 3
  head ++ natLE 4 (crc32c (head ++ rest)).toNat ++ zeros 20 ++ rest

/-- The collection of `defBytes` in a state. -/
def collB (x : CollState) : Coll := { newColl (parseDef defBytes) ⟨none, none, [], []⟩ with st := x }

/-- A load being checked whose one section has not the check its table says. -/
def loadBad : Load :=
  { port := .a, base := 0, total := 0x1C0, generation := 1, position := 0, slots := 0, sections := [⟨1, 0x1C0, 0, 5⟩], bytes := [],
    checking := true }

/-- A run descriptor of Port A, and a run of one step. -/
def runD : RunDesc := { port := .a, recipe := 0x1000000, statusDest := 0x1000000, tag := 1, msix := 0xFFFF, clusters := 0, stopOnFlag := false }

/-- That run, on every cluster. -/
def runA : Run := newRun { runD with clusters := 0xFF } [] [] 1 10

/-- A serving device whose channel 3 of stack 0 is in a state. -/
def chanIn (c : Channel) : State := servIn.setStack 0 { channels := [(3, c)] }

/-- A serving device with a self-test. -/
def testIn (t : SelfTest) : State := { servIn with test := { selfTest := some t } }

/-- A serving device with a calendar window of a kind open over a target. -/
def windowIn (kind target : Nat) : State :=
  { (servIn.setNum (key (calIndex 20) 2) kind).setNum (key (calIndex 20) 6) target with
    cal := [(20, { openUntil := some 2000000 })] }

/-- An extent of one slice of unit 0 in a tier. -/
def extA (tier base : Nat) : Extent := ⟨1, tier, base, [(0, 0)]⟩

/-- A state with that extent. -/
def withExt (tier base : Nat) (s : State) : State := { s with tiers := { extents := [extA tier base] } }

/-- A serving device whose link 0 is in a state and switched on. -/
def linkIn (l : Link) : State := { servIn with fabric := { links := [(0, l)] }, switches := [(linkIndex 0, ⟨.on, none⟩)] }

/-- An UP link with credit. -/
def linkUpA : Link := { st := .up, credits := [4, 4, 4], lanes := 4 }

/-- A serving device with number 1 and that link. -/
def numIn (l : Link) : State := (linkIn l).setNum 0x800001 1

/-- A request frame for the device from device 2. -/
def frameA (op : Byte) (addr : Nat) (payload : Bytes) : Frame :=
  { kind := .request, op := op, dest := 1, src := 2, hopsLeft := 4, tag := 9, address := BitVec.ofNat 64 addr, operand := 8,
    payload := payload }

/-- A link-control frame of an op. -/
def controlA (op : Byte) (operand : BitVec 64) : Frame := { kind := .control, op := op, dest := 1, src := 2, hopsLeft := 1, operand := operand }

/-- The first frame that a partner sends on a link that is not encrypted. -/
def rxA (f : Frame) : Rx := ⟨({} : Link).wireOf f, {}⟩

/-- A beacon from device 2. -/
def beaconA : Frame := { kind := .beacon, dest := 1, src := 2, hopsLeft := 1, payload := zeros 48 }

/-- A request of the Pattern Access Protocol: its op, its length field and its value. -/
def papA (op : Byte) (length : Nat) (value : Bytes) : Bytes :=
  natLE 2 0x4150 ++ [1, op, 0, 0] ++ natLE 2 0x1000 ++ [1, 0] ++ natLE 2 length ++ natLE 8 0 ++ natLE 4 7 ++ value

/-- A device whose transports are all on. -/
def netIn : State := ((servIn.setNum 0x100401 2).setNum 0x100402 2).setNum 0x100602 5

/-- A request in flight to device 2. -/
def reqA (w : ReqFor) : Req := { tag := 9, op := opGet, link := 0, dest := 2, issued := 0, length := 8, forWhat := w }

/-- A merge record of window 0 with one shard. -/
def recA (x : ShardState) : MergeRec :=
  { window := 0, id := 5, query := 0, k := 1, cutoff := 500, bell := 500, grid := 0, descriptor := [], shards := [x] }

/-- An open event of sequence 5 whose reaction timer has run out. -/
def eventA : Event := { sequence := 5, source := 0x10, cls := 1, inst := 0, original := 0, mask := 0, raised := 0, detail := 0, timer := some 0 }
/-- A test that waits for an instant. -/
def waitA : TestRun := { waiting := true, since := 0, deadline := 0 }
/-- States whose margin scan or loop-back has waited a second. -/
def waitM : State := { servIn with ftu := { aon := 100000000 }, test := { margin := some waitA } }
def waitL : State := { servIn.setNum 0xD10002 3 with ftu := { aon := 100000000 }, test := { loop := some waitA } }
theorem waitM_due : 1000000000 + waitA.since ≤ waitM.aonNs := by decide +kernel
theorem waitL_due : 1000000000 + waitA.since ≤ waitL.aonNs := by decide +kernel

/-- A serving device whose host request slot 0 holds a GET. -/
def servIn2 : State := { servIn with mem := Memory.write (slotBase 0) [2] [] }

/-- A serving device whose host request slot 0 holds a PUT that is too long. -/
def servIn3 : State := { servIn with mem := Memory.write (slotBase 0) ([1] ++ zeros 23 ++ natLE 4 5000) [] }

/-- What TRAIN finds of an expander that does not train. -/
def expA : ExpanderReport := ⟨false, false, false, false, 0, 0, 0, 0, 0⟩

/-- A serving device without parity, whose address 0 lies on stack 0. -/
def noParity : State := withExt 0 0 { servIn with chip := { servIn.chip with parity := false } }

/-! ## Ill-formed commands are refused -/

/-- Bytes that are longer than any frame of R297. -/
def longRx : Rx := ⟨List.replicate 4153 0, {}⟩
theorem test_ill_formed_train : Instr.wellFormed (.trainComplete { failedStacks := 0, packages := [], expanders := List.replicate 5 expA }) = false := by
  decide
theorem test_ill_formed_collection : Instr.wellFormed (.createCollection .a []) = false := by decide
theorem test_ill_formed_spool : Instr.wellFormed (.createSpool .a [1]) = false := by decide
theorem test_ill_formed_recipe : Instr.wellFormed (.submitRecipe .b (List.replicate 31 0)) = false := by decide
theorem test_ill_formed_load : Instr.wellFormed (.loadBegin .a ⟨0, []⟩ []) = false := by decide
theorem test_ill_formed_frame : Instr.wellFormed (.put 0 longRx) = false := by decide +kernel
theorem test_ill_formed_response : Instr.wellFormed (.response 0 longRx.wire 0 0) = false := by decide +kernel
theorem test_ill_formed_control : Instr.wellFormed (.ack 0 ⟨[], {}⟩) = false := by decide
theorem test_ill_formed_beacon : Instr.wellFormed (.timeBeacon 0 ⟨[], {}⟩) = false := by decide
theorem test_well_formed_frame : Instr.wellFormed (.put 0 (rxA (frameA 1 64 [1]))) = true := by decide +kernel

/-! ## The bytes of a frame (R297) and of a request of the Pattern Access Protocol (R371), little-endian (R8) -/

/-- A PUT of device 2 to device 1: the header as R297 lays it out. -/
theorem test_frame_header : (frameA 1 0x123456 [7]).header =
    [1, 1, 0, 0, 1, 0, 2, 0, 4, 0, 1, 0, 9, 0, 0, 0, 0x56, 0x34, 0x12, 0, 0, 0, 0, 0, 8, 0, 0, 0, 0, 0, 0, 0] := by decide +kernel
theorem test_frame_back : ({} : Link).frameOf (rxA (frameA 1 64 [7])).wire = some (frameA 1 64 [7]) := by decide +kernel
theorem test_pap_back : (parsePap (papA 2 1 [1])).index = 0x1000 ∧ (parsePap (papA 2 1 [1])).requestId = 7 := by decide +kernel

/-! ## The table gives no word bits -/

theorem test_no_word : decodeTableWord 16 5 = none := by decide
theorem test_fetch_word : State.reset.withFetchWord 16 5 = State.reset := by decide +kernel

/-! ## Conversions: the half-way and saturation examples under R76 and the vector example under R105 -/

/-- What a value converts to, with no option of R72. -/
def conv (f : Fmt) (m e : Int) (s : Dy := one) : Nat × ConvMark := convertNum f false (Num.ofDy ⟨m, e⟩) s
theorem test_halfway_e2m1 : conv .e2m1 5 (-1) = (0x5, .plain) := by decide +kernel
theorem test_halfway_e2m1_negative : conv .e2m1 (-5) (-1) = (0xD, .plain) := by decide +kernel
theorem test_halfway_int8 : conv .int8 5 (-1) = (3, .plain) := by decide +kernel
theorem test_halfway_int8_negative : conv .int8 (-1) (-1) = (0xFF, .plain) := by decide +kernel
theorem test_halfway_e4m3 : conv .e4m3 17 (-4) = (0x39, .plain) := by decide +kernel
theorem test_halfway_bg4 : conv .bg4 39 (-6) ⟨2, 0⟩ = (0x3, .plain) := by decide +kernel
theorem test_e4m3_below_saturation : conv .e4m3 450 0 = (0x7E, .plain) := by decide +kernel
theorem test_e4m3_saturates : conv .e4m3 464 0 = (0x7E, .sat) := by decide +kernel
theorem test_e5m2_saturates : conv .e5m2 70000 0 = (0x7B, .sat) := by decide +kernel
theorem test_e5m2_infinity : convertNum .e5m2 true (Num.ofDy ⟨70000, 0⟩) one = (0x7C, .sat) := by decide +kernel
theorem test_e2m1_saturates : conv .e2m1 7 0 = (0x7, .sat) := by decide +kernel
theorem test_e4m3_one : (decodeNum .e4m3 0x38).val.eq one = true := by decide +kernel
/-- Cancellation (R80): a small term added to 2^25 vanishes. -/
theorem test_small_term_vanishes : f32Add 0x4C000000 0x3F800000 = 0x4C000000 := by decide +kernel
/-- The second level of a BG4 block: code 0x3D80 is 1.375, and code 0x80 of a block is one power of two. -/
theorem test_second_level : (secondLevel 0x3D80).map (Dy.eq ⟨11, -3⟩) = some true := by decide +kernel
theorem test_block_exponent : e8m0 0x7D = some (-2) := by decide

/-! ## Distance keys (the order example under R186) -/

theorem test_key_negative_zero : distKey 0x80000000 = 0x80000000 := by decide +kernel
theorem test_key_half : distKey 0x3F000000 = 0xBF000000 := by decide +kernel

/-! ## The address example under R261: byte 0x12345 of an extent over twelve stacks -/

/-- That extent. -/
def twelve : Extent := ⟨1, 0, 0, [0, 6, 1, 7, 2, 8, 3, 9, 4, 10, 5, 11].map fun n => (n, 0)⟩
theorem test_address : (fun m : HbmPlace => (m.stack, m.channel, m.offset, m.parity)) (hbmMapIn true twelve 0x12345) =
    (3, 21, 69, some 16) := by decide +kernel

/-! ## The doorbell example under R332 -/

/-- A query spool of 256 entries about to wrap. -/
def wrapIn : State :=
  { servIn with spools := { sub := [{ subA with entries := 256, head := 0xFFFFFFF0, tail := 0xFFFFFFF0 }], comp := [compA] } }
/-- The tail after a doorbell. -/
def tailAfter (v : BitVec 64) (s : State) : Option (BitVec 32) :=
  match exec (.submissionDoorbell .a 3 v) s with
  | .next t => (t.spools.sub[0]?).map SubSpool.tail
  | _ => none
theorem test_doorbell_wraps : tailAfter 0x18 wrapIn = some 0x18 := by decide +kernel
theorem test_doorbell_stray : tailAfter 0x200 wrapIn = some 0xFFFFFFF0 := by decide +kernel

/-! ## A start from reset -/

/-- State after some commands, run one after another from a state. -/
def powered : State := match exec (.powerGood 1) State.reset with | .next t => t | _ => State.reset
/-- Both image slots are empty at reset, so there is no firmware to boot (R417). -/
theorem test_power_good : powered.dev.st = .fenced ∧ powered.dev.fenceCause = 2 ∧ powered.dev.epoch = 1 := by decide +kernel

/-! ## Witnesses that need a state of their own -/

/-- A recipe image of one tensor and one fill step. -/
def imgA : Bytes :=
  let head := natLE 4 0x50434B5A ++ natLE 2 1 ++ natLE 2 1 ++ natLE 4 1 ++ natLE 4 1 ++ zeros 12
  let rest := zeros 32 ++ (natLE 8 0x1001000 ++ natLE 4 1 ++ natLE 4 1 ++ zeros 4 ++ natLE 4 64 ++ zeros 8) ++ ([0x32] ++ zeros 31)
  head ++ natLE 4 (crc32c (head ++ rest)).toNat ++ rest

/-- A serving device whose arena holds that image, recipes on and one run queued. -/
def recipeIn : State :=
  { servIn.setNum 0x702006 8 with
    chip := { servIn.chip with arenaBase := 0, arenaGib := 1 }
    switches := [(0x7020, ⟨.on, none⟩)]
    mem := Memory.write 0x1000000 imgA []
    tun := { queue := [runD] } }

/-- The queue's head taken. -/
def recipeTaken : State := { recipeIn with tun := { recipeIn.tun with queue := [] } }

/-- A serving device whose calendar entry is on, of a kind, with an occurrence that has come. -/
def dueIn (n kind : Nat) : State :=
  { servIn.setNum (key (calIndex n) 2) kind with
    switches := [(calIndex n, ⟨.on, none⟩)]
    cal := [(n, { next := some 500, phase := 500, period := 1000, length := 100 })] }

/-- Fields of a spool. -/
def spoolBytes : Bytes := natLE 1 3 ++ [5, 1, 0] ++ natLE 4 16 ++ natLE 8 0x100000 ++ zeros 2 ++ natLE 2 0 ++ natLE 2 0xFFFF ++ natLE 2 1 ++ zeros 40

/-- A device whose selectors name the small collection. -/
def selIn (sel : Nat) : State := { servIn.setNum sel 0 with colls := [collA] }

theorem witness_Recipes_clause_5 : ∃ (d : RunDesc) (q : List RunDesc) (u : State) (img : Bytes) (s : State), s.tun.run = none ∧ s.tun.queue = d :: q ∧ s.serves = true ∧ u = { s with tun := { s.tun with queue := q } } ∧ img = u.recipeImage d.recipe ∧ u.runCheck d img = none :=
  ⟨runD, [], recipeTaken, recipeTaken.recipeImage runD.recipe, recipeIn, rfl, rfl, by decide +kernel, rfl, rfl, by decide +kernel⟩
theorem witness_Calendar_clause_0 : ∃ (at_ : Time) (u : State) (s : State), s.calKind 0 = 1 ∧ s.fire 0 = some (at_, u) :=
  ⟨500, ((dueIn 0 1).fire 0).get (by decide +kernel) |>.2, dueIn 0 1, by decide +kernel⟩
theorem witness_Calendar_clause_2 : ∃ (entry : Fin 128) (at_ : Time) (u : State) (s : State), s.calKind entry = 2 ∧ s.fire entry = some (at_, u) :=
  ⟨20, 500, ((dueIn 20 2).fire 20).get (by decide +kernel) |>.2, dueIn 20 2, by decide +kernel⟩
theorem witness_Calendar_clause_3 : ∃ (entry : Fin 128) (at_ : Time) (u v : State) (s : State), s.windowEntry entry = true ∧ s.fire entry = some (at_, u) ∧ v = (if (u.calEntry entry).openUntil.isSome then u.closeWindow entry else u) :=
  ⟨20, 500, ((dueIn 20 4).fire 20).get (by decide +kernel) |>.2, _, dueIn 20 4, by decide +kernel, by decide +kernel, rfl⟩
theorem witness_Calendar_clause_6 : ∃ (n : Nat) (s : State) (at_ : Time) (u : State), s.fire n = some (at_, u) :=
  ⟨20, dueIn 20 2, 500, ((dueIn 20 2).fire 20).get (by decide +kernel) |>.2, by decide +kernel⟩
theorem witness_Calendar_clause_7 : ∃ (at_ : Time) (u : State) (s : State), s.calKind 0 = 1 ∧ s.fire 0 = some (at_, u) ∧ s.muts.baste = [] :=
  ⟨500, ((dueIn 0 1).fire 0).get (by decide +kernel) |>.2, dueIn 0 1, by decide +kernel, by decide +kernel, rfl⟩
theorem witness_Telemetry_clause_6 : ∃ (entry : Fin 128) (at_ : Time) (u : State) (s : State), s.calKind entry = 6 ∧ s.fire entry = some (at_, u) :=
  ⟨20, 500, ((dueIn 20 6).fire 20).get (by decide +kernel) |>.2, dueIn 20 6, by decide +kernel⟩
theorem witness_OtherWrites_clause_4 : ∃ (w : Writer) (c : Coll) (s : State), s.mayWrite w 0x603007 = true ∧ s.selected 0x603001 = some c :=
  ⟨⟨.mailbox .a, true, 0⟩, collA, selIn 0x603001, by decide +kernel⟩
theorem witness_OtherWrites_clause_5 : ∃ (w : Writer) (value : Bytes) (c : Coll) (u : State) (s : State), s.mayWrite w 0x830002 = true ∧
    value.length ≤ sourceLimit w.src ∧ u = s.unstage w.src ∧ textOk 0x830002 value = true ∧ s.selected 0x830001 = some c :=
  ⟨⟨.mailbox .a, true, 0⟩, [], collA, _, selIn 0x830001, by decide +kernel, by decide +kernel, rfl, by decide +kernel⟩
theorem witness_Spools_clause_1 : ∃ (p : Port) (d : Bytes) (s : State), s.takes p false = true ∧ d.length = 64 ∧ (parseSpool d).rangesOk = true ∧ s.spoolState p (parseSpool d) = false ∧ s.ringPlaced p (parseSpool d) = true ∧ s.spoolTenant p (parseSpool d) = true :=
  ⟨.a, spoolBytes, servIn, by decide +kernel⟩
theorem witness_LinkTraining_clause_8 : ∃ (link : Fin 32) (w : BitVec 64) (s : State), s.linkPresent link = true ∧ (s.link link).st = .align ∧
    s.linkRuns link = true ∧ (s.link link).partner = some w ∧ w.getLsbD 63 = true ∧ (s.link link).optical = false :=
  ⟨0, 0x8000000000000000, linkIn { st := .align, partner := some 0x8000000000000000 }, by decide +kernel⟩
theorem witness_LinkTraining_clause_23 : ∃ (link : Fin 32) (s : State), s.linkPresent link = false :=
  ⟨3, { servIn with chip := { linkMask := 1 } }, by decide +kernel⟩
/-- What TRAIN found of a part that has no package and no expander, and its state once that is known. -/
def trainA : TrainReport := { failedStacks := 0, packages := [], expanders := [] }
def trainedA : State := (((devIn .train).trainStacks 0).trainBulk []).trainRoot []
theorem witness_StartUp_clause_11 : ∃ (r : TrainReport) (u v : State) (s : State), r.wellFormed = true ∧ s.dev.st = .train ∧ s.dev.frozen = false ∧
    s.ports.a.linkState = 2 ∧ u = ((s.trainStacks r.failedStacks).trainBulk r.packages).trainRoot r.expanders ∧ u.dev.st = .train ∧
    u.dev.frozen = false ∧ v = (u.retainCalib r).measureTiers.setOut ∧ v.dev.st = .train :=
  ⟨trainA, trainedA, (trainedA.retainCalib trainA).measureTiers.setOut, devIn .train, by decide +kernel⟩
/-- Every canSwitch function can be switched on and off in some state (the premises of SwitchesOn and SwitchesOff). -/
def canSwitch (i : Nat) (s : State) : Bool :=
  let w : Writer := ⟨.mailbox .a, true, 0⟩
  let off := s.setSw i ⟨.off, none⟩
  let on := s.setSw i ⟨.on, none⟩
  off.mayWrite w (256 * i + 1) && (off.sw i).st == .off && off.startRefusal i == none && on.mayWrite w (256 * i + 1) && (on.sw i).st == .on
theorem witness_FunctionSwitches_clause_0 : canSwitch (calIndex 1) servIn = true := by decide +kernel
theorem witness_FunctionSwitches_clause_3 : canSwitch (linkIndex 5) servIn = true := by decide +kernel
theorem witness_FunctionSwitches_clause_5 : canSwitch 0x4100 (servIn.setNum 0x410004 0x1000000) = true := by decide +kernel
theorem witness_FunctionSwitches_clause_6 : canSwitch 0x4130 servIn = true := by decide +kernel
theorem witness_FunctionSwitches_clause_7 : canSwitch 0x7020 servIn = true := by decide +kernel
theorem witness_FunctionSwitches_clause_8 : canSwitch 0x3400 servIn = true := by decide +kernel
theorem witness_FunctionSwitches_clause_9 : canSwitch 0xB030 servIn = true := by decide +kernel
theorem witness_FunctionSwitches_clause_10 : canSwitch 0xD100 (((servIn.setNum 0xD10002 5).setNum 0xD10003 0).setNum 0xD10004 1) = true := by decide +kernel
theorem witness_FunctionSwitches_clause_11 : canSwitch 0xD200 servIn = true := by decide +kernel
/-- An encrypted UP link, and the KEY_UPDATE that its partner sends on it, with the tag of its key. -/
def linkEnc : Link := { linkUpA with encrypted := true }
def keyHead : Bytes := (controlA 5 0).header ++ trailer 0 (controlA 5 0).header []
def keyTag : BitVec 128 := Config.gcmTag (linkEnc.key false) (linkEnc.nonce false 0) keyHead []
def keyRx : Rx := ⟨keyHead ++ natLE 16 keyTag.toNat, {}⟩
def keyFrame : Frame := { controlA 5 0 with payload := Config.gcmOpen (linkEnc.key false) (linkEnc.nonce false 0) [] }
theorem keyed_hears : (linkIn linkEnc).hears 0 keyRx keyFrame = true := by
  have h1 : (linkIn linkEnc).link 0 = linkEnc := rfl
  have h2 : linkEnc.whole keyRx.wire = true := by decide +kernel
  have h3 : linkEnc.frameOf keyRx.wire = some keyFrame := rfl
  have h4 : linkEnc.stray (some keyFrame) = false := by decide +kernel
  have h5 : wireSeq keyRx.wire = linkEnc.seqIn := by decide +kernel
  have h6 : linkEnc.tagOk keyRx.wire = true := by
    have a : field keyRx.wire 0xA 2 = 0 := by decide +kernel
    have b : field keyRx.wire 40 16 = keyTag.toNat := by
      have : (keyRx.wire.drop 40).take 16 = natLE 16 keyTag.toNat := by
        show ((keyHead ++ natLE 16 keyTag.toNat).drop 40).take 16 = _
        rw [List.drop_append_of_le_length (by decide), List.drop_eq_nil_of_le (by decide)]; simp
      rw [field, this, leNat_natLE]
      exact Nat.mod_eq_of_lt keyTag.isLt
    unfold Link.tagOk
    rw [a, show (40 + 0 : Nat) = 40 from rfl, b]
    simp only [Bool.or_eq_true, decide_eq_true_eq]; right; rfl
  simp only [State.hears, h1, h2, h3, h4, h5, h6]; simp
theorem witness_LinkControl_clause_17 : ∃ (link : Fin 32) (r : Rx) (f : Frame) (u : State) (s : State), s.linkPresent link = true ∧ s.running = true ∧
    s.linkUp link = true ∧ s.hears link r f = true ∧ f.kind = .control ∧ f.op = 5 ∧ (s.link link).encrypted = true ∧
    u = (s.tookFrame link r).mapLink link Link.rekeyIn :=
  ⟨0, keyRx, keyFrame, _, linkIn linkEnc, by decide +kernel, by decide +kernel, by decide +kernel, keyed_hears, rfl, rfl, rfl, rfl⟩
/-- A device whose link 0 is in CONNECT with a partner that demands encryption. -/
def sessionIn : State := linkIn { st := .connect, partner := some 0x10000000000 }
theorem witness_LinkControl_clause_19 : ∃ (link : Fin 32) (s : State), s.linkPresent link = true ∧ (s.link link).st = .connect ∧
    s.linkRuns link = true ∧ s.inSession link = true := ⟨0, sessionIn, by decide +kernel⟩
theorem witness_LinkControl_clause_20 : ∃ (link : Fin 32) (s : State), s.linkPresent link = true ∧ (s.link link).st = .connect ∧
    s.linkRuns link = true ∧ s.inSession link = true := witness_LinkControl_clause_19
/-- A device that grants its partner's link the first lines of memory. -/
def grantIn : State := withExt 0 0 ((((((numIn linkUpA).setNum 0x820001 1).setNum 0x820003 0x1000).setNum 0x820004 7).setNum 0x820006 0xFFF).setNum 0x300002 0x1000000)
def getRemote : RemoteOp := ⟨opGet, 64, 8, [], 8, 2⟩
def addRemote : RemoteOp := ⟨opAdd, 64, 8, [], 0, 2⟩
theorem grantIn_reads : grantIn.readLines [] [64] = ((grantIn.readLines [] [64]).1, false) := Prod.ext rfl (by decide +kernel)
theorem witness_RemoteOperations_clause_18 : ∃ (o : RemoteOp) (fs : List LineFault) (s u v : State), u = s.loadAppears ∧ u.granted o = true ∧
    o.op = opGet ∧ u.backedRange o.addr o.size = true ∧ u.addrOffline o.addr = false ∧
    u.readLines fs (linesOf o.addr o.size) = (v, false) :=
  ⟨getRemote, [], grantIn, grantIn, _, by decide +kernel, by decide +kernel, rfl, by decide +kernel, by decide +kernel,
    show grantIn.readLines [] (linesOf getRemote.addr getRemote.size) = _ from
      (by decide +kernel : linesOf getRemote.addr getRemote.size = [64]) ▸ grantIn_reads⟩
theorem witness_RemoteOperations_clause_19 : ∃ (o : RemoteOp) (fs : List LineFault) (s u v : State), u = s.loadAppears ∧ u.granted o = true ∧
    (o.op = opAdd ∨ o.op = opCas ∨ o.op = opSwap) ∧ u.backedRange o.addr o.size = true ∧ u.addrOffline o.addr = false ∧
    u.readLines fs (linesOf o.addr o.size) = (v, false) :=
  ⟨addRemote, [], grantIn, grantIn, _, by decide +kernel, by decide +kernel, Or.inl rfl, by decide +kernel, by decide +kernel,
    show grantIn.readLines [] (linesOf addRemote.addr addRemote.size) = _ from
      (by decide +kernel : linesOf addRemote.addr addRemote.size = [64]) ▸ grantIn_reads⟩

/-! ## Witnesses of the statements about every step -/

/-- The state a step answers. -/
def after (s : State) : State := match step s with | .next t => t | _ => s
theorem witness_StepRunsFront : ∃ s : State, s.pending = [] := ⟨servIn, rfl⟩
theorem witness_ClockCycle :
    (∃ s : State, s.pending = [] ∧ s.dev.st = .off) ∧ (∃ s : State, s.pending = [] ∧ s.dev.st ≠ .off ∧ s.ftu.st = .unset) ∧
      (∃ s : State, s.pending = [] ∧ s.dev.st ≠ .off ∧ s.ftu.st ≠ .unset ∧ s.ftu.slew = 0) :=
  ⟨⟨State.reset, rfl, rfl⟩, ⟨devIn .boot, rfl, by decide, rfl⟩, ⟨servIn, rfl, by decide, by decide, rfl⟩⟩
theorem witness_QueueInOrder : ∃ s t : State, step s = .next t ∧ s.pending ≠ [] :=
  ⟨{ servIn with pending := [.vauxLost, .vauxLost] }, _, rfl, by decide⟩
theorem witness_TablesStayCanonical : ∃ s t : State, step s = .next t ∧ s.canonical :=
  ⟨{ State.reset with pending := [.vauxLost] }, _, rfl, by unfold State.canonical; decide +kernel⟩
theorem witness_FencedLeftOnlyByReset : ∃ s t : State, step s = .next t ∧ s.dev.st = .fenced ∧ t.dev.st ≠ .fenced :=
  ⟨{ devIn .fenced with pending := [.vauxLost] }, _, rfl, rfl, by decide⟩
theorem witness_FreezeLeftOnlyByReset :
    ∃ s t : State, step s = .next t ∧ s.dev.st ≠ .off ∧ s.dev.frozen = true ∧ t.dev.frozen = false :=
  ⟨{ servIn with dev := { servIn.dev with frozen := true }, pending := [.vauxLost] }, _, rfl, by decide, rfl, by decide⟩
theorem witness_OfflineUnitsStayOffline : ∃ s t : State, step s = .next t ∧ ¬ s.units.within t.units :=
  ⟨{ servIn with units := { stack := 1 }, pending := [.vauxLost] }, _, rfl, fun h => absurd h.stack (by decide)⟩
theorem witness_PartNeverChanges : ∃ s t : State, step s = .next t ∧ s.pending ≠ [] :=
  ⟨{ servIn with pending := [.vauxLost] }, _, rfl, by decide⟩
theorem witness_OutputsAreNeverWithdrawn : ∃ s t : State, step s = .next t ∧ s.pending ≠ [] :=
  ⟨{ servIn with pending := [.perstaN 1] }, _, rfl, by decide⟩

/-! ## Witnesses of the statements about commands -/

theorem witness_StartUp :
    (∃ (s : State), s.dev.st = .off) ∧
    (∃ (s : State), s.dev.st = .off ∧ s.dev.freezePin = true) ∧
    (∃ (s : State), s.dev.st = .boot ∧ s.dev.mainEn = true ∧ s.dev.mainPg = false) ∧
    (∃ (s : State), s.dev.st = .boot ∧ s.dev.frozen = false ∧ s.dev.stepsDone = true ∧ s.sec.running ≠ none ∧ s.dev.mainPg = true ∧ s.dev.phiug = false ∧ s.monitorsOk = true) ∧
    (∃ (s : State), ((s.dev.st ≠ .boot ∨ s.dev.frozen = true ∨ s.dev.stepsDone = false ∨ s.sec.running = none ∨ s.dev.mainPg = false ∨ s.dev.phiug = true ∨ s.monitorsOk = false))) ∧
    (∃ (at_ : Nat) (s : State), s.dev.mainEnAt = some at_) ∧
    (∃ (rails : List (BitVec 16)) (n : Nat) (mv : BitVec 16) (s : State), s.dev.st = .boot ∧ s.dev.frozen = false ∧ s.mainLate = true ∧ n < 6 ∧ rails[n]? = some mv ∧ railOut n 8 mv.toNat = true ∧ (∀ m < n, railOut m 8 (((rails[m]?).map BitVec.toNat).getD 0) = false)) ∧
    (∃ (rails : List (BitVec 16)) (s : State), s.dev.st = .boot ∧ s.dev.frozen = false ∧ s.mainLate = true ∧ (∀ m < min 6 rails.length, railOut m 8 (((rails[m]?).map BitVec.toNat).getD 0) = false) ∧ s.dev.mainPg = false) ∧
    (∃ (rails : List (BitVec 16)) (s : State), s.dev.st = .boot ∧ s.dev.frozen = false ∧ s.mainLate = true ∧ (∀ m < min 6 rails.length, railOut m 8 (((rails[m]?).map BitVec.toNat).getD 0) = false) ∧ s.dev.mainPg = true) ∧
    (∃ (s : State), s.dev.st = .boot ∧ s.dev.frozen = false ∧ s.dev.stepsDone = true ∧ s.dev.phiug = true) ∧
    (∃ (s : State), ((s.dev.st ≠ .boot ∨ s.dev.frozen = true ∨ s.dev.stepsDone = false ∨ s.dev.phiug = false))) ∧
    (∃ (p : Port) (s : State), s.upstream.contains p = true ∧ s.running = true ∧ s.dev.st ≠ .boot ∧ s.dev.refclk.getLsbD 0 = true) :=
  ⟨⟨State.reset,
    by decide +kernel⟩,
   ⟨{ State.reset with dev := { freezePin := true } },
    by decide +kernel⟩,
   ⟨{ State.reset with dev := { st := .boot, mainEn := true } },
    by decide +kernel⟩,
   ⟨{ devIn .boot with dev := { (devIn .boot).dev with phiug := false }, sec := { running := some false } },
    by decide +kernel⟩,
   ⟨State.reset,
    by decide +kernel⟩,
   ⟨5, { State.reset with dev := { mainEnAt := some 5 } },
    by decide +kernel⟩,
   ⟨[750, 700], 1, 700, { State.reset with dev := { st := .boot, mainEn := true, mainEnAt := some 5 }, ftu := { aon := 30000000 } },
    by decide +kernel⟩,
   ⟨[], { State.reset with dev := { st := .boot, mainEn := true, mainEnAt := some 5 }, ftu := { aon := 30000000 } },
    by decide +kernel⟩,
   ⟨[], { State.reset with dev := { st := .boot, mainEn := true, mainPg := true, mainEnAt := some 5 }, ftu := { aon := 30000000 } },
    by decide +kernel⟩,
   ⟨{ State.reset with dev := { st := .boot, stepsDone := true, phiug := true } },
    by decide +kernel⟩,
   ⟨State.reset,
    by decide +kernel⟩,
   ⟨.a, devIn .train,
    by decide +kernel⟩⟩
theorem witness_Resets :
    (∃ (s : State), s.dev.st = .off) ∧
    (∃ (straps : BitVec 2) (u s : State), s.dev.st ≠ .off ∧ u = ({ s with dev := { s.dev with perstA := true } }).reenter straps) ∧
    (∃ (straps : BitVec 2) (s u : State), s.dev.st ≠ .off ∧ u = s.reenter straps) ∧
    (∃ (s : State), s.dev.st ≠ .off ∧ s.dev.freezePin = true) ∧
    (∃ (straps : BitVec 2) (u v s : State), s.dev.st ≠ .off ∧ s.dev.freezePin = false ∧ s.ret.writing = none ∧ u = ({ s with dev := { s.dev with perstA := true } }).reenter straps ∧ v = u.selectFirmware.deriveKeys.retainedRestore ∧ v.dev = u.dev) ∧
    (∃ (s : State), s.running = true ∧ s.dev.st ≠ .boot ∧ s.chip.portBRoot = false) ∧
    (∃ (s : State), s.running = true ∧ s.dev.st ≠ .boot ∧ s.chip.portBRoot = false ∧ (s.spools.sub.filter fun x => x.port = Port.b) = []) ∧
    (∃ (s : State), ((s.running = false ∨ s.dev.st = .boot ∨ s.chip.portBRoot = true))) :=
  ⟨⟨State.reset,
    by decide +kernel⟩,
   ⟨1, _, devIn .fenced,
    by decide +kernel,
    rfl⟩,
   ⟨1, { devIn .fenced with dev := { (devIn .fenced).dev with frozen := true, freezePin := true, epoch := 4 } }, _,
    by decide +kernel,
    rfl⟩,
   ⟨{ devIn .fenced with dev := { (devIn .fenced).dev with frozen := true, freezePin := true, epoch := 4 } },
    by decide +kernel⟩,
   ⟨3, ({ devIn .fenced with dev := { (devIn .fenced).dev with perstA := true, frozen := true } } : State).reenter 3, (({ devIn .fenced with dev := { (devIn .fenced).dev with perstA := true, frozen := true } } : State).reenter 3).selectFirmware.deriveKeys.retainedRestore, { devIn .fenced with dev := { (devIn .fenced).dev with frozen := true } },
    by decide +kernel,
    by decide +kernel,
    by decide +kernel,
    rfl,
    rfl,
    by decide +kernel⟩,
   ⟨{ devIn .serving with spools := { sub := [{ subA with port := .b }, subA], comp := [{ compA with port := .b }] } },
    by decide +kernel⟩,
   ⟨devIn .serving,
    by decide +kernel⟩,
   ⟨State.reset,
    by decide +kernel⟩⟩
theorem witness_PowerWarnings :
    (∃ (s : State), s.serves = true) ∧
    (∃ (s : State), s.serves = false) ∧
    (∃ (s : State), s.serves = true ∧ s.muts.journal.intakeStopped = some 0) ∧
    (∃ (s : State), ((s.serves = false ∨ s.muts.journal.intakeStopped ≠ some 0))) ∧
    (∃ (s : State), s.serves = true) ∧
    (∃ (u v s : State), s.serves = true ∧ u = s.writeBlocks s.muts.journal.unwritten.length ∧ v = (if u.expandersUp.isEmpty then u else u.emit .flushExpanders)) :=
  ⟨⟨devIn .serving,
    by decide +kernel⟩,
   ⟨State.reset,
    by decide +kernel⟩,
   ⟨{ devIn .serving with muts := { journal := { intakeStopped := some 0 } } },
    by decide +kernel⟩,
   ⟨devIn .serving,
    by decide +kernel⟩,
   ⟨devIn .serving,
    by decide +kernel⟩,
   ⟨devIn .serving, devIn .serving, devIn .serving,
    by decide +kernel⟩⟩
theorem witness_FreezePin :
    (∃ (s : State), ((s.dev.st = .off ∨ s.dev.st = .boot ∨ s.dev.frozen = true))) ∧
    (∃ (b : Bytes) (s : State), s.dev.st ≠ .off ∧ s.dev.st ≠ .boot ∧ s.dev.frozen = false ∧ b = natLE 4 0x52464B5A ++ natLE 2 1 ++ [1] ++ natLE 1 s.dev.st.code ++ natLE 8 s.stamp ++ natLE 4 0 ++ natLE 1 s.dev.power ++ natLE 1 s.ftu.st.code ++ natLE 2 s.degraded ++ natLE 8 s.muts.generation ++ natLE 8 s.muts.journal.append ++ natLE 8 s.muts.journal.durable ++ natLE 1 (s.num 0xD40002) ++ zeros 11) ∧
    (∃ (s : State), s.dev.st ≠ .off ∧ s.dev.st ≠ .boot ∧ s.dev.frozen = false ∧ s.canonical ∧ (s.sw 0xD100).st ≠ .off ∧ (s.sw 0xD200).st ≠ .off) ∧
    (∃ (s : State), s.dev.st ≠ .off ∧ s.dev.st ≠ .boot ∧ s.dev.frozen = false ∧ (s.sw 0xD100).st = .off ∧ (s.sw 0xD200).st = .off) ∧
    (∃ (s : State), ((s.dev.st ≠ .boot ∨ s.dev.frozen = true ∨ s.dev.stepsDone = true))) ∧
    (∃ (s : State), s.dev.st = .boot ∧ s.dev.frozen = false ∧ s.dev.stepsDone = false) ∧
    (∃ (s : State), s.dev.st = .boot ∧ s.dev.frozen = false ∧ s.dev.stepsDone = false ∧ s.ret.writing = none) :=
  ⟨⟨devIn .boot,
    by decide +kernel⟩,
   ⟨_, devIn .serving,
    by decide +kernel,
    by decide +kernel,
    by decide +kernel,
    rfl⟩,
   ⟨{ devIn .serving with switches := [(0xD100, ⟨.on, none⟩), (0xD200, ⟨.on, none⟩)] },
    by decide,
    by decide,
    by decide,
    ⟨by decide, by decide, by decide, by decide⟩,
    by decide,
    by decide⟩,
   ⟨devIn .serving,
    by decide +kernel⟩,
   ⟨devIn .serving,
    by decide +kernel⟩,
   ⟨{ State.reset with dev := { st := .boot, freezePin := true } },
    by decide +kernel⟩,
   ⟨{ State.reset with dev := { st := .boot, freezePin := true, freezeWait := true } },
    by decide +kernel⟩⟩
theorem witness_ClocksAndPort :
    (∃ (s : State), s.dev.st ≠ .off) ∧
    (∃ (s : State), s.dev.st ≠ .off) ∧
    (∃ (s : State), s.dev.st ≠ .off ∧ Book.wf s.book = true) :=
  ⟨⟨devIn .serving,
    by decide +kernel⟩,
   ⟨devIn .serving,
    by decide +kernel⟩,
   ⟨devIn .serving,
    by decide +kernel⟩⟩
theorem witness_Telemetry :
    (∃ (s : State), s.running = true) ∧
    (∃ (rail : Fin 6) (mv : BitVec 16) (u s : State), s.dev.st ≠ .off ∧ ((rail.val < 5 → s.dev.mainPg = true)) ∧ railOut rail 8 mv.toNat = true ∧ u = (s.setReading (0xB00001 + rail) (mv.setWidth 32)).raise 0x09 rail mv.toNat none) ∧
    (∃ (rail : Fin 6) (mv : BitVec 16) (s : State), s.dev.st ≠ .off ∧ ((rail.val < 5 → s.dev.mainPg = true)) ∧ railOut rail 8 mv.toNat = false ∧ railOut rail (s.num 0xB0000A) mv.toNat = false ∧ look s.thimble.warned (256 * 0x08 + rail) ≠ some none) ∧
    (∃ (s : State), s.dev.st ≠ .boot) ∧
    (∃ (h : Half) (celsius : Int) (u s : State), s.dev.st ≠ .off ∧ 115 ≤ celsius ∧ u = ({ s.setReading (0xB00007 + Half.num h) (BitVec.ofInt 32 celsius) with dev := { s.dev with thermTrip := true } }).raise 0x0B (Half.num h) (BitVec.ofInt 64 celsius).toNat none) ∧
    (∃ (h : Half) (celsius : Int) (s : State), s.dev.st ≠ .off ∧ celsius < 100 ∧ look s.thimble.warned (256 * 0x0A + Half.num h) ≠ some none) ∧
    (∃ (entry : Fin 128) (s : State), ((s.calKind entry ≠ 6 ∨ s.fire entry = none))) :=
  ⟨⟨devIn .serving,
    by decide +kernel⟩,
   ⟨0, 900, ((devIn .serving).setReading 0xB00001 900).raise 0x09 0 900 none, devIn .serving,
    by decide +kernel⟩,
   ⟨0, 750, devIn .serving,
    by decide +kernel⟩,
   ⟨devIn .serving,
    by decide +kernel⟩,
   ⟨.east, 116, ({ (devIn .serving).setReading 0xB00008 (BitVec.ofInt 32 116) with dev := { (devIn .serving).dev with thermTrip := true } }).raise 0x0B 1 (BitVec.ofInt 64 116).toNat none, devIn .serving,
    by decide +kernel⟩,
   ⟨.west, 60, devIn .serving,
    by decide +kernel⟩,
   ⟨0, State.reset,
    by decide +kernel⟩⟩
theorem witness_TimeSources :
    (∃ (s : State), s.dev.st ≠ .off ∧ s.num 0x200101 = 4) ∧
    (∃ (u s : State), s.dev.st ≠ .off ∧ s.num 0x200101 ≠ 4 ∧ u = (s.mapFtu fun f => { f with ptp := f.ptp.heal (s.num 0x200203), pps := f.pps.heal (s.num 0x200203), beacons := f.beacons.map fun x => (x.1, x.2.heal (s.num 0x200203)) }) ∧ u.candidates = []) ∧
    (∃ (u : State) (c : Candidate) (s : State), s.dev.st ≠ .off ∧ s.num 0x200101 ≠ 4 ∧ u = (s.mapFtu fun f => { f with ptp := f.ptp.heal (s.num 0x200203), pps := f.pps.heal (s.num 0x200203), beacons := f.beacons.map fun x => (x.1, x.2.heal (s.num 0x200203)) }) ∧ bestOf u.candidates = some c ∧ ((u.ftu.st = .unset ∨ u.agrees c = true))) ∧
    (∃ (s : State), s.ftu.st = .holdover ∧ s.num 0x200205 < s.errorEstimate) ∧
    (∃ (m : PtpSync) (s : State), s.fromGm m.ethernet m.domain m.gm = true ∧ m.twoStep = true) ∧
    (∃ (m : PtpSync) (s : State), s.fromGm m.ethernet m.domain m.gm = true ∧ m.twoStep = false) ∧
    (∃ (m : PtpSync) (s : State), s.fromGm m.ethernet m.domain m.gm = true ∧ s.ftu.exchange.awaiting = true ∧ s.ftu.exchange.syncSeq = m.seq) ∧
    (∃ (m : PtpDelay) (s : State), s.ptpHeard m.ethernet = true ∧ s.ftu.exchange.requested = true ∧ s.ftu.exchange.reqSeq = m.seq ∧ m.peer = false ∧ s.num 0x200104 ≠ 1) ∧
    (∃ (m : PtpDelay) (s : State), s.ptpHeard m.ethernet = true ∧ s.ftu.exchange.requested = true ∧ s.ftu.exchange.reqSeq = m.seq ∧ m.peer = true ∧ s.num 0x200104 = 1) ∧
    (∃ (m : PtpAnnounce) (s : State), s.ptpHeard m.ethernet = true ∧ m.domain.toNat = s.num 0x200102 ∧ s.ftu.exchange.gm = none ∧ m.gm ≠ 0) ∧
    (∃ (s : State), s.dev.st ≠ .off ∧ s.timeKnown = true ∧ 100000 < (((s.now - s.num 0x200107 + 500000000) / 1000000000 * 1000000000 : Nat) - ((s.now - s.num 0x200107 : Nat) : Int)).natAbs) ∧
    (∃ (sec : Nat) (s : State), s.dev.st ≠ .off ∧ s.timeKnown = true ∧ sec * 1000000000 = (s.now - s.num 0x200107 + 500000000) / 1000000000 * 1000000000 ∧ ((sec * 1000000000 : Nat) - ((s.now - s.num 0x200107 : Nat) : Int)).natAbs ≤ 100000 ∧ ((s.ftu.hostSecs = true ∨ s.ptpQualified = true))) ∧
    (∃ (s : State), s.running = true) ∧
    (∃ (n : Nat) (s : State), (s.link n).canSend (s.beaconFrame n) = false) ∧
    (∃ (n : Nat) (l : Link) (s : State), l = s.link n ∧ l.canSend (s.beaconFrame n) = true ∧ l.encrypted = false) ∧
    (∃ (link : Fin 32) (r : Rx) (f : Frame) (s : State), s.linkPresent link = true ∧ s.running = true ∧ s.linkUp link = true ∧ s.hears link r f = true ∧ f.kind = .beacon ∧ f.payload.length = 48) ∧
    (∃ (n : Nat) (b : Beacon) (s : State), ((s.link n).beaconSent.find? fun x => x.1 = b.echo) = none) ∧
    (∃ (n : Nat) (b : Beacon) (q : BitVec 32) (t1 : Nat) (f1 : BitVec 32) (d : Int) (s t : State), ((s.link n).beaconSent.find? fun x => x.1 = b.echo) = some (q, t1, f1) ∧ s.num (key (linkIndex n) 6) = 0xFFFF ∧ d = (fine s.ftuNs s.ftu.frac - fine t1 f1 - (fine b.tSend b.tSendFrac - fine b.tRecv b.tRecvFrac)) / 2 ∧ b.state = 2 ∧ s.num 0x200109 = 1 ∧ 0x200109 ≠ key (linkIndex n) 8 ∧ t = s.beaconIn n b) :=
  ⟨⟨(devIn .serving).setNum 0x200101 4,
    by decide +kernel⟩,
   ⟨devIn .serving, devIn .serving,
    by decide +kernel⟩,
   ⟨(devIn .serving).mapFtu fun f => { f with ptp := { seen := true } }, ⟨.ptp, 0xFF, { seen := true }⟩, (devIn .serving).mapFtu fun f => { f with ptp := { seen := true } },
    by decide +kernel⟩,
   ⟨(devIn .serving).mapFtu fun f => { f with st := .holdover, lossErr := 2000000000 },
    by decide +kernel⟩,
   ⟨⟨false, 0, 7, 1, true, 0, 0, 1000⟩, (devIn .serving).mapPtp fun x => { x with gm := some ⟨false, 0, 7, 0, 0, 0, 0, 0, 0⟩ },
    by decide +kernel⟩,
   ⟨⟨false, 0, 7, 1, false, 0, 0, 1000⟩, (devIn .serving).mapPtp fun x => { x with gm := some ⟨false, 0, 7, 0, 0, 0, 0, 0, 0⟩ },
    by decide +kernel⟩,
   ⟨⟨false, 0, 7, 0, true, 0, 0, 1000⟩, (devIn .serving).mapPtp fun x => { x with gm := some ⟨false, 0, 7, 0, 0, 0, 0, 0, 0⟩, awaiting := true },
    by decide +kernel⟩,
   ⟨⟨false, 0, false, 0, 0, 0⟩, (devIn .serving).mapPtp fun x => { x with requested := true },
    by decide +kernel⟩,
   ⟨⟨false, 0, true, 0, 0, 0⟩, ((devIn .serving).mapPtp fun x => { x with requested := true }).setNum 0x200104 1,
    by decide +kernel⟩,
   ⟨⟨false, 0, 7, 0, 0, 0, 0, 0, 0⟩, devIn .serving,
    by decide +kernel⟩,
   ⟨(devIn .serving).mapFtu fun f => { f with st := .locked, now := 300000000 },
    by decide +kernel⟩,
   ⟨1, (devIn .serving).mapFtu fun f => { f with st := .hostset, now := 1000000010, hostSecs := true },
    by decide +kernel⟩,
   ⟨numIn linkUpA,
    by decide +kernel⟩,
   ⟨0, numIn { linkUpA with credits := [4, 4, 0] },
    by decide +kernel⟩,
   ⟨0, _, numIn linkUpA,
    rfl,
    by decide +kernel⟩,
   ⟨0, rxA beaconA, beaconA, numIn linkUpA,
    by decide +kernel⟩,
   ⟨0, parseBeacon (zeros 48), numIn linkUpA,
    by decide +kernel⟩,
   ⟨0, { parseBeacon (zeros 48) with state := 2 }, 0, 0, 0, _, numIn { linkUpA with beaconSent := [(0, 0, 0)] }, _,
    by decide +kernel,
    by decide +kernel,
    rfl,
    by decide +kernel,
    by decide +kernel,
    by decide +kernel,
    rfl⟩⟩
theorem witness_TimeWrites :
    (∃ (w : Writer) (s : State), s.mayWrite w 0x20000A = true ∧ s.ftu.st = .unset) ∧
    (∃ (w : Writer) (v : BitVec 64) (d : Int) (u s : State), s.mayWrite w 0x20000A = true ∧ s.ftu.st ≠ .unset ∧ ((s.dev.st = .boot ∨ s.dev.st = .train ∨ s.dev.st = .readyEmpty)) ∧ d = (v.toNat : Int) - s.ftu.now ∧ u = s.byHost.setTimeState .hostset) ∧
    (∃ (w : Writer) (v : BitVec 64) (d : Int) (u s : State), s.mayWrite w 0x20000A = true ∧ s.ftu.st = .hostset ∧ d = (v.toNat : Int) - s.ftu.now ∧ u = s.byHost.setTimeState .hostset ∧ s.dev.st ≠ .boot ∧ s.dev.st ≠ .train ∧ s.dev.st ≠ .readyEmpty ∧ 0 ≤ d ∧ d ≤ (s.num 0x200202 : Int)) ∧
    (∃ (w : Writer) (v : BitVec 64) (d : Int) (u s : State), s.mayWrite w 0x20000A = true ∧ s.ftu.st = .hostset ∧ d = (v.toNat : Int) - s.ftu.now ∧ u = s.byHost.setTimeState .hostset ∧ s.dev.st ≠ .boot ∧ s.dev.st ≠ .train ∧ s.dev.st ≠ .readyEmpty ∧ (s.num 0x200202 : Int) < d) ∧
    (∃ (w : Writer) (v : BitVec 64) (d : Int) (u s : State), s.mayWrite w 0x20000A = true ∧ s.ftu.st = .hostset ∧ d = (v.toNat : Int) - s.ftu.now ∧ u = s.byHost.setTimeState .hostset ∧ s.dev.st ≠ .boot ∧ s.dev.st ≠ .train ∧ s.dev.st ≠ .readyEmpty ∧ d < 0 ∧ -d ≤ (s.num 0x200203 : Int)) ∧
    (∃ (w : Writer) (v : BitVec 64) (d : Int) (u s : State), s.mayWrite w 0x20000A = true ∧ s.ftu.st = .hostset ∧ d = (v.toNat : Int) - s.ftu.now ∧ u = s.byHost.setTimeState .hostset ∧ ((s.dev.st = .loading ∨ s.dev.st = .serving ∨ s.dev.st = .degraded)) ∧ d < -(s.num 0x200203 : Int)) ∧
    (∃ (w : Writer) (v : BitVec 64) (d : Int) (u s : State), s.mayWrite w 0x20000A = true ∧ s.ftu.st = .hostset ∧ d = (v.toNat : Int) - s.ftu.now ∧ u = s.byHost.setTimeState .hostset ∧ s.dev.st = .fenced ∧ d < -(s.num 0x200203 : Int)) ∧
    (∃ (w : Writer) (s : State), s.mayWrite w 0x20000A = true ∧ s.dev.st ≠ .boot ∧ s.dev.st ≠ .train ∧ s.dev.st ≠ .readyEmpty ∧ s.ftu.st ≠ .unset ∧ s.ftu.st ≠ .hostset) ∧
    (∃ (s : State), s.ftu.st = .unset) ∧
    (∃ (s : State), s.canonical ∧ s.num 0x200207 < 0xFFFFFFFF) ∧
    (∃ (w : Writer) (d : Int) (s : State), s.mayWrite w 0x200206 = true ∧ s.ftu.pending = some d ∧ s.search.queries = [] ∧ (∀ x ∈ s.spools.sub, x.unread = 0) ∧ s.fabric.queue = [] ∧ (∀ j ∈ s.muts.jobs, j.unacked = 0)) ∧
    (∃ (w : Writer) (d : Int) (s : State), s.mayWrite w 0x200206 = true ∧ s.ftu.pending = some d ∧ s.search.queries = [] ∧ (∀ x ∈ s.spools.sub, x.unread = 0) ∧ s.fabric.queue = [] ∧ (∀ j ∈ s.muts.jobs, j.unacked = 0)) ∧
    (∃ (w : Writer) (s : State), s.mayWrite w 0x200206 = true ∧ ((s.ftu.pending = none ∨ s.search.queries ≠ [] ∨ (∃ x ∈ s.spools.sub, x.unread ≠ 0) ∨ s.fabric.queue ≠ [] ∨ (∃ j ∈ s.muts.jobs, j.unacked ≠ 0)))) :=
  ⟨⟨⟨.mailbox .a, true, 0⟩, devIn .readyEmpty,
    by decide +kernel⟩,
   ⟨⟨.mailbox .a, true, 0⟩, 5000, -19995000, _, { devIn .readyEmpty with ftu := { st := .hostset, now := 20000000 } },
    by decide +kernel,
    by decide +kernel,
    by decide +kernel,
    by decide +kernel,
    rfl⟩,
   ⟨⟨.mailbox .a, true, 0⟩, 20000500, 500, _, { devIn .serving with ftu := { st := .hostset, now := 20000000 } },
    by decide +kernel,
    by decide +kernel,
    by decide +kernel,
    rfl,
    by decide +kernel⟩,
   ⟨⟨.mailbox .a, true, 0⟩, 29000000, 9000000, _, { devIn .serving with ftu := { st := .hostset, now := 20000000 } },
    by decide +kernel,
    by decide +kernel,
    by decide +kernel,
    rfl,
    by decide +kernel⟩,
   ⟨⟨.mailbox .a, true, 0⟩, 19999500, -500, _, { devIn .serving with ftu := { st := .hostset, now := 20000000 } },
    by decide +kernel,
    by decide +kernel,
    by decide +kernel,
    rfl,
    by decide +kernel⟩,
   ⟨⟨.mailbox .a, true, 0⟩, 5000, -19995000, _, { devIn .serving with ftu := { st := .hostset, now := 20000000 } },
    by decide +kernel,
    by decide +kernel,
    by decide +kernel,
    rfl,
    by decide +kernel⟩,
   ⟨⟨.mailbox .a, true, 0⟩, 5000, -19995000, _, { devIn .fenced with ftu := { st := .hostset, now := 20000000 } },
    by decide +kernel,
    by decide +kernel,
    by decide +kernel,
    rfl,
    by decide +kernel⟩,
   ⟨⟨.mailbox .a, true, 0⟩, { devIn .serving with ftu := { st := .locked } },
    by decide +kernel⟩,
   ⟨devIn .readyEmpty,
    by decide +kernel⟩,
   ⟨devIn .serving,
    ⟨by decide, by decide, by decide, by decide⟩,
    by decide⟩,
   ⟨⟨.mailbox .a, true, 0⟩, -100, { devIn .serving with ftu := { st := .locked, now := 500, pending := some (-100) } },
    by decide +kernel⟩,
   ⟨⟨.mailbox .a, true, 0⟩, -100, { devIn .serving with ftu := { st := .locked, now := 500, pending := some (-100) } },
    by decide +kernel⟩,
   ⟨⟨.mailbox .a, true, 0⟩, devIn .serving,
    by decide +kernel⟩⟩
theorem witness_ThimbleWrites :
    (∃ (w : Writer) (sequence : BitVec 32) (u s : State), s.mayWrite w 0xA02003 = true ∧ s.handleEvent sequence.toNat = some u) ∧
    (∃ (w : Writer) (sequence : BitVec 32) (s : State), s.mayWrite w 0xA02003 = true ∧ s.handleEvent sequence.toNat = none) ∧
    (∃ (q : Nat) (s : State), (s.thimble.opened.any fun e => e.sequence = q) = true ∧ (∀ e ∈ s.thimble.opened, s.dueAt e = none)) ∧
    (∃ (q at_ : Nat) (e : Event) (s : State), (s.thimble.opened.find? fun e => e.sequence = q) = some e ∧ s.dueAt e = some at_) ∧
    (∃ (w : Writer) (slot : BitVec 16) (s : State), s.mayWrite w 0xA03002 = true ∧ slot.toNat ≤ 0xFF) ∧
    (∃ (w : Writer) (s : State), s.mayWrite w 0xA03002 = true) ∧
    (∃ (w : Writer) (slot : BitVec 16) (s : State), s.mayWrite w 0xA03003 = true ∧ slot.toNat ≤ 0xFF ∧ (s.alarm slot.toNat).unacked = false) ∧
    (∃ (w : Writer) (slot : BitVec 16) (s : State), s.mayWrite w 0xA03003 = true ∧ slot.toNat ≤ 0xFF ∧ (s.alarm slot.toNat).unacked = true) ∧
    (∃ (w : Writer) (bits : Bytes) (u s : State), s.mayWrite w 0xA00006 = true ∧ bits.length ≤ sourceLimit w.src ∧ u = s.unstage w.src ∧ bits.length = 16) ∧
    (∃ (w : Writer) (v : Byte) (s : State), s.mayWrite w 0xA11001 = true ∧ v.toNat ≤ 1) ∧
    (∃ (w : Writer) (s : State), s.mayWrite w 0xA11002 = true) ∧
    (∃ (w : Writer) (s : State), s.mayWrite w 0xA11002 = true) :=
  ⟨⟨⟨.mailbox .a, true, 0⟩, 7, (({ devIn .serving with thimble := { opened := [{ sequence := 7, source := 0x12, cls := 2, inst := 0, original := 2, isOpen := true, mask := 4, raised := 0, detail := 0 }] } } : State).handleEvent 7).get (by decide), { devIn .serving with thimble := { opened := [{ sequence := 7, source := 0x12, cls := 2, inst := 0, original := 2, isOpen := true, mask := 4, raised := 0, detail := 0 }] } },
    by decide,
    by simp⟩,
   ⟨⟨.mailbox .a, true, 0⟩, 8, { devIn .serving with thimble := { opened := [{ sequence := 7, source := 0x12, cls := 2, inst := 0, original := 2, isOpen := true, mask := 4, raised := 0, detail := 0 }] } },
    by decide +kernel⟩,
   ⟨7, { devIn .serving with thimble := { opened := [{ sequence := 7, source := 0x12, cls := 2, inst := 0, original := 2, isOpen := true, mask := 4, raised := 0, detail := 0 }] } },
    by decide +kernel⟩,
   ⟨5, 0, eventA, { servIn with thimble := { opened := [eventA] } },
    by decide +kernel⟩,
   ⟨⟨.mailbox .a, true, 0⟩, 0x12, devIn .serving,
    by decide +kernel⟩,
   ⟨⟨.mailbox .a, true, 0⟩, devIn .serving,
    by decide +kernel⟩,
   ⟨⟨.mailbox .a, true, 0⟩, 0x12, devIn .serving,
    by decide +kernel⟩,
   ⟨⟨.mailbox .a, true, 0⟩, 0x12, (devIn .serving).setAlarm 0x12 { unacked := true },
    by decide +kernel⟩,
   ⟨⟨.mailbox .a, true, 0⟩, zeros 16, _, devIn .serving,
    by decide +kernel,
    by decide +kernel,
    rfl,
    by decide +kernel⟩,
   ⟨⟨.mailbox .a, true, 0⟩, 1, devIn .serving,
    by decide +kernel⟩,
   ⟨⟨.mailbox .a, true, 0⟩, devIn .serving,
    by decide +kernel⟩,
   ⟨⟨.mailbox .a, true, 0⟩, devIn .serving,
    by decide +kernel⟩⟩
theorem witness_SecurityWrites :
    (∃ (w : Writer) (v : Byte) (s : State), s.mayWrite w 0xE00002 = true ∧ v.toNat ≤ 1) ∧
    (∃ (w : Writer) (s : State), s.mayWrite w 0xE00008 = true) ∧
    (∃ (f : SecRecord → SecRecord) (r : SecRecord) (s u : State), r = { f s.sec.record with sequence := (f s.sec.record).sequence + 1 } ∧ s.hasFlash = true ∧ u = s.setRecord f) ∧
    (∃ (s : State), s.slotThere false = true ∧ s.slotThere true = true) ∧
    (∃ (w : Writer) (value : Bytes) (u s : State), s.mayWrite w 0xE01003 = true ∧ value.length ≤ sourceLimit w.src ∧ u = s.unstage w.src ∧ s.sec.recovery = true ∧ s.num 0xE01002 + value.length ≤ slotBytes) ∧
    (∃ (w : Writer) (value : Bytes) (u s : State), s.mayWrite w 0xE01003 = true ∧ value.length ≤ sourceLimit w.src ∧ u = s.unstage w.src ∧ s.sec.recovery = true ∧ slotBytes < s.num 0xE01002 + value.length) ∧
    (∃ (w : Writer) (s : State), s.mayWrite w 0xE01004 = true ∧ s.sec.recovery = true) ∧
    (∃ (w : Writer) (value : Bytes) (u s : State), s.mayWrite w 0xE02002 = true ∧ value.length ≤ sourceLimit w.src ∧ u = s.unstage w.src ∧ textOk 0xE02002 value = true ∧ s.bindingsShort .a value = false ∧ s.bindingsRefused .a value = false) ∧
    (∃ (w : Writer) (value : Bytes) (u s : State), s.mayWrite w 0xE02002 = true ∧ value.length ≤ sourceLimit w.src ∧ u = s.unstage w.src ∧ textOk 0xE02002 value = true ∧ s.bindingsShort .a value = true) ∧
    (∃ (w : Writer) (value : Bytes) (u s : State), s.mayWrite w 0xE02102 = true ∧ value.length ≤ sourceLimit w.src ∧ u = s.unstage w.src ∧ textOk 0xE02102 value = true ∧ s.bindingsShort .b value = false ∧ s.bindingsRefused .b value = false) ∧
    (∃ (w : Writer) (value : Bytes) (u s : State), s.mayWrite w 0xE02102 = true ∧ value.length ≤ sourceLimit w.src ∧ u = s.unstage w.src ∧ textOk 0xE02102 value = true ∧ s.bindingsShort .b value = true) ∧
    (∃ (w : Writer) (value : Bytes) (u s : State), s.mayWrite w 0xE02002 = true ∧ value.length ≤ sourceLimit w.src ∧ u = s.unstage w.src ∧ textOk 0xE02002 value = true ∧ s.bindingsShort .a value = false ∧ s.bindingsRefused .a value = true) :=
  ⟨⟨⟨.mailbox .a, true, 0⟩, 1, devIn .serving,
    by decide +kernel⟩,
   ⟨⟨.mailbox .a, true, 0⟩, devIn .serving,
    by decide +kernel⟩,
   ⟨id, { sequence := 1 }, devIn .serving, _,
    by decide +kernel,
    by decide +kernel,
    rfl⟩,
   ⟨devIn .serving,
    by decide +kernel⟩,
   ⟨⟨.mctp 9, true, 0⟩, [1, 2], _, { devIn .boot with sec := { recovery := true } },
    by decide +kernel,
    by decide +kernel,
    rfl,
    by decide +kernel⟩,
   ⟨⟨.mctp 9, true, 0⟩, [1, 2], _, ({ devIn .boot with sec := { recovery := true } } : State).setNum 0xE01002 15728639,
    by decide +kernel,
    by decide +kernel,
    rfl,
    by decide +kernel⟩,
   ⟨⟨.mctp 9, true, 0⟩, { devIn .boot with sec := { recovery := true } },
    by decide +kernel⟩,
   ⟨⟨.mailbox .a, true, 0⟩, zeros 16, _, devIn .serving,
    by decide +kernel,
    by decide +kernel,
    rfl,
    by decide +kernel⟩,
   ⟨⟨.mailbox .a, true, 0⟩, [], _, devIn .serving,
    by decide +kernel,
    by decide +kernel,
    rfl,
    by decide +kernel⟩,
   ⟨⟨.mailbox .a, true, 0⟩, zeros 16, _, devIn .serving,
    by decide +kernel,
    by decide +kernel,
    rfl,
    by decide +kernel⟩,
   ⟨⟨.mailbox .a, true, 0⟩, [], _, devIn .serving,
    by decide +kernel,
    by decide +kernel,
    rfl,
    by decide +kernel⟩,
   ⟨⟨.mailbox .a, true, 0⟩, zeros 16, _, { servIn with spools := { sub := [⟨.a, 0, false, 1, 16, 0, 0, 0, 0, 0, false, 0, 0, 0, 0⟩] } },
    by decide +kernel,
    by decide +kernel,
    rfl,
    by decide +kernel⟩⟩
theorem witness_OtherWrites :
    (∃ (w : Writer) (index : BitVec 16) (sub : Byte) (value : Bytes) (k n : Nat) (r : Row) (s : State), k = key index.toNat sub.toNat ∧ s.mayWrite w k = true ∧ sub ≠ 0 ∧ rowOf k = some r ∧ r.ty.size = some n ∧ value.length = n ∧ (switchable (k / 256) && k % 256 = 1) = false ∧ s.rangeOk k (leNat value) = true ∧ s.ownRule k (leNat value) = none ∧ r.access ≠ .wo) ∧
    (∃ (w : Writer) (value : Bytes) (s : State), s.mayWrite w 0x810001 = true ∧ value.length = 16384 ∧ value.length ≤ sourceLimit w.src ∧ (value.all fun x => x.toNat < 32 || x = 0xFF) = true) ∧
    (∃ (w : Writer) (v : BitVec 64) (s : State), s.mayWrite w 0x411003 = true ∧ v.toNat < 2 ^ 48 ∧ s.colls = [] ∧ s.deferred = [] ∧ s.muts.generation ≤ v.toNat) ∧
    (∃ (w : Writer) (v : BitVec 64) (s : State), s.mayWrite w 0x411003 = true ∧ v.toNat < 2 ^ 48 ∧ ((s.colls ≠ [] ∨ s.deferred ≠ [] ∨ v.toNat < s.muts.generation))) ∧
    (∃ (w : Writer) (u : State) (r q : Nat) (s : State), s.mayWrite w 0x100307 = true ∧ s.commit true = (u, r, q)) :=
  ⟨⟨⟨.mailbox .a, true, 0⟩, 0xC100, 1, [0x20, 0x03], 0xC10001, 2, ⟨1, .u16, .rwr, true, 1000, 600, 1000⟩, devIn .serving,
    by decide +kernel⟩,
   ⟨⟨.mailbox .a, true, 0⟩, List.replicate 16384 0xFF, devIn .serving,
    by decide,
    List.length_replicate,
    by rw [List.length_replicate]; decide,
    by rw [List.all_eq_true]; intro x hx; rw [List.eq_of_mem_replicate hx]; decide⟩,
   ⟨⟨.mailbox .a, true, 0⟩, 9, devIn .readyEmpty,
    by decide +kernel⟩,
   ⟨⟨.mailbox .a, true, 0⟩, 0, devIn .readyEmpty,
    by decide +kernel⟩,
   ⟨⟨.mailbox .a, true, 0⟩, ((devIn .serving).commit true).1, rOk, 1, devIn .serving,
    by decide,
    rfl⟩⟩
theorem witness_FunctionSwitches :
    (∃ (n : Fin 128), n ≠ 0) ∧
    (∃ (w : Writer) (s : State), s.mayWrite w 0x210001 = true ∧ (s.sw 0x2100).st = .on) :=
  ⟨⟨5,
    by decide +kernel⟩,
   ⟨⟨.mailbox .a, true, 0⟩, devIn .serving,
    by decide +kernel⟩⟩
theorem witness_SwitchTable :
    (∃ (i : Nat) (s : State), (s.sw i).st = .off ∧ s.startRefusal i = none) ∧
    (∃ (i : Nat) (s : State), i ≠ 0x2100 ∧ (s.sw i).st = .off) ∧
    (∃ (i : Nat) (s : State), (s.sw i).st = .starting) ∧
    (∃ (i : Nat) (s : State), i ≠ 0x2100 ∧ (s.sw i).st = .starting) ∧
    (∃ (i : Nat) (s : State), (s.sw i).st = .on) ∧
    (∃ (i : Nat) (s : State), i ≠ 0x2100 ∧ (s.sw i).st = .on) ∧
    (∃ (i : Nat) (s : State), (s.sw i).st = .stopping ∧ s.restartRefused i = true) ∧
    (∃ (i : Nat) (s : State), (s.sw i).st = .stopping ∧ s.restartRefused i = false) ∧
    (∃ (s : State), switchesWf s.switches = true) :=
  ⟨⟨0xB030, devIn .readyEmpty,
    by decide +kernel⟩,
   ⟨0x4100, devIn .readyEmpty,
    by decide +kernel⟩,
   ⟨0x4100, (devIn .readyEmpty).setSw 0x4100 ⟨.starting, none⟩,
    by decide +kernel⟩,
   ⟨0x4100, (devIn .readyEmpty).setSw 0x4100 ⟨.starting, none⟩,
    by decide +kernel⟩,
   ⟨0x4130, devIn .readyEmpty,
    by decide +kernel⟩,
   ⟨0x4130, devIn .readyEmpty,
    by decide +kernel⟩,
   ⟨calIndex 8, (devIn .readyEmpty).setSw (calIndex 8) ⟨.stopping, none⟩,
    by decide +kernel⟩,
   ⟨0x4130, (devIn .readyEmpty).setSw 0x4130 ⟨.stopping, none⟩,
    by decide +kernel⟩,
   ⟨devIn .readyEmpty,
    by decide +kernel⟩⟩
theorem witness_FunctionCompletion :
    (∃ (index : BitVec 16) (s : State), switchable index.toNat = true ∧ (s.sw index.toNat).st = .starting ∧ s.running = true ∧ s.failing.contains index.toNat = false) ∧
    (∃ (index : BitVec 16) (ok : Bool) (s : State), switchable index.toNat = true ∧ (s.sw index.toNat).st = .starting ∧ s.running = true ∧ ((ok = false ∨ s.failing.contains index.toNat = true))) ∧
    (∃ (index : BitVec 16) (s : State), switchable index.toNat = true ∧ (s.sw index.toNat).st = .stopping ∧ s.running = true ∧ s.stopReady index.toNat = true ∧ (s.sw index.toNat).pend ≠ some true) ∧
    (∃ (index : BitVec 16) (u s : State), switchable index.toNat = true ∧ (s.sw index.toNat).st = .stopping ∧ s.running = true ∧ s.stopReady index.toNat = true ∧ (s.sw index.toNat).pend = some true ∧ u = (s.stopEnds index.toNat).setSw index.toNat ⟨.off, none⟩) :=
  ⟨⟨0x4100, (devIn .readyEmpty).setSw 0x4100 ⟨.starting, none⟩,
    by decide +kernel⟩,
   ⟨0x4100, false, (devIn .readyEmpty).setSw 0x4100 ⟨.starting, none⟩,
    by decide +kernel⟩,
   ⟨0x4130, (devIn .readyEmpty).setSw 0x4130 ⟨.stopping, none⟩,
    by decide +kernel⟩,
   ⟨0x4130, (((devIn .readyEmpty).setSw 0x4130 ⟨.stopping, some true⟩).stopEnds 0x4130).setSw 0x4130 ⟨.off, none⟩, (devIn .readyEmpty).setSw 0x4130 ⟨.stopping, some true⟩,
    by decide +kernel⟩⟩
theorem witness_Calendar :
    (∃ (s : State), ((s.calKind 0 ≠ 1 ∨ s.fire 0 = none))) ∧
    (∃ (entry : Fin 128) (until_ : Time) (s : State), (s.calEntry entry).openUntil = some until_ ∧ until_ ≤ s.now ∧ s.calRuns = true ∧ s.inTurn until_ 0 entry = true) ∧
    (∃ (entry : Fin 128) (until_ : Time) (s : State), (s.calEntry entry).openUntil = some until_ ∧ s.now < until_) ∧
    (∃ (entry : Fin 128) (s : State), ((s.calKind entry ≠ 2 ∨ s.fire entry = none))) ∧
    (∃ (entry : Fin 128) (s : State), ((s.windowEntry entry = false ∨ s.fire entry = none))) :=
  ⟨⟨State.reset,
    by decide +kernel⟩,
   ⟨1, 5, { (devIn .serving).setCal 1 { openUntil := some 5 } with ftu := { st := .locked, now := 6 } },
    by decide +kernel⟩,
   ⟨1, 5, { (devIn .serving).setCal 1 { openUntil := some 5 } with ftu := { st := .locked, now := 4 } },
    by decide +kernel⟩,
   ⟨1, State.reset,
    by decide +kernel⟩,
   ⟨1, State.reset,
    by decide +kernel⟩⟩
theorem witness_Doorbells :
    (∃ (p : Port) (n : Byte) (v : BitVec 64) (x : SubSpool) (s : State), s.upstream.contains p = true ∧ s.windowsUp = true ∧ s.subSpool p n = some x ∧ x.resetting = false ∧ ahead x.head (v.setWidth 32) ≤ x.entries ∧ ahead x.head x.tail < ahead x.head (v.setWidth 32)) ∧
    (∃ (p : Port) (n : Byte) (v : BitVec 64) (x : SubSpool) (s : State), s.upstream.contains p = true ∧ s.windowsUp = true ∧ s.subSpool p n = some x ∧ x.resetting = false ∧ ahead x.head (v.setWidth 32) ≤ x.entries ∧ ahead x.head (v.setWidth 32) ≤ ahead x.head x.tail) ∧
    (∃ (p : Port) (n : Byte) (v : BitVec 64) (x : SubSpool) (s : State), s.upstream.contains p = true ∧ s.windowsUp = true ∧ s.subSpool p n = some x ∧ x.resetting = false ∧ x.entries < ahead x.head (v.setWidth 32)) ∧
    (∃ (p : Port) (n : Byte) (s : State), s.upstream.contains p = true ∧ s.windowsUp = true ∧ (s.subSpool p n).all (fun x => x.resetting) = true) ∧
    (∃ (p : Port) (n : Byte) (v : BitVec 64) (c : CompSpool) (s : State), s.upstream.contains p = true ∧ s.windowsUp = true ∧ s.compSpool p n = some c ∧ 0 < ahead c.head (v.setWidth 32) ∧ ahead c.head (v.setWidth 32) ≤ c.occupied) ∧
    (∃ (p : Port) (n : Byte) (v : BitVec 64) (c : CompSpool) (s : State), s.upstream.contains p = true ∧ s.windowsUp = true ∧ s.compSpool p n = some c ∧ ((ahead c.head (v.setWidth 32) = 0 ∨ c.occupied < ahead c.head (v.setWidth 32)))) ∧
    (∃ (p : Port) (n : Byte) (c : CompSpool) (s : State), s.upstream.contains p = true ∧ s.compSpool p n = some c ∧ s.running = true ∧ c.unsignalled ≠ 0 ∧ c.firstUnsignalled + c.coalesceTime ≤ s.now) ∧
    (∃ (p : Port) (n : Byte) (c : CompSpool) (v : Nat) (s : State), s.compSpool p n = some c ∧ c.msix = some v ∧ c.unsignalled ≠ 0) ∧
    (∃ (p : Port) (v : Nat) (m : Msix) (s : State), s.dev.frozen = false ∧ m = (s.port p).msix ∧ m.enabled = true ∧ m.maskAll = false ∧ m.unmasked.contains v = true) ∧
    (∃ (p : Port) (v : Nat) (m : Msix) (s : State), s.dev.frozen = false ∧ m = (s.port p).msix ∧ m.enabled = true ∧ ((m.maskAll = true ∨ m.unmasked.contains v = false))) ∧
    (∃ (p : Port) (s : State), ((s.dev.frozen = true ∨ (s.port p).msix.enabled = false))) ∧
    (∃ (p : Port) (s : State), s.upstream.contains p = true) :=
  ⟨⟨.a, 3, 2, subA, { devIn .serving with spools := { sub := [subA], comp := [compA] } },
    by decide +kernel⟩,
   ⟨.a, 3, 0, subA, { devIn .serving with spools := { sub := [subA], comp := [compA] } },
    by decide +kernel⟩,
   ⟨.a, 3, 70, subA, { devIn .serving with spools := { sub := [subA], comp := [compA] } },
    by decide +kernel⟩,
   ⟨.a, 9, devIn .serving,
    by decide +kernel⟩,
   ⟨.a, 3, 2, { compA with tail := 2 }, { devIn .serving with spools := { sub := [subA], comp := [{ compA with tail := 2 }] } },
    by decide +kernel⟩,
   ⟨.a, 3, 7, compA, { devIn .serving with spools := { sub := [subA], comp := [compA] } },
    by decide +kernel⟩,
   ⟨.a, 3, { compA with unsignalled := 1 }, { devIn .serving with spools := { comp := [{ compA with unsignalled := 1 }] }, ftu := { st := .locked, now := 2000 } },
    by decide +kernel⟩,
   ⟨.a, 3, { compA with unsignalled := 1 }, 5, { devIn .serving with spools := { comp := [{ compA with unsignalled := 1 }] } },
    by decide +kernel⟩,
   ⟨.a, 5, _, ((devIn .serving).msixWrite .a (.enable true)).msixWrite .a (.mask 5 false),
    by decide +kernel,
    rfl,
    by decide +kernel⟩,
   ⟨.a, 5, _, (devIn .serving).msixWrite .a (.enable true),
    by decide +kernel,
    rfl,
    by decide +kernel⟩,
   ⟨.a, devIn .serving,
    by decide +kernel⟩,
   ⟨.a, devIn .boot,
    by decide +kernel⟩⟩
theorem witness_HostAccess :
    (∃ (p : Port) (dpa off n : Nat) (s : State), s.upstream.contains p = true ∧ s.windowsUp = true ∧ s.windowOf p dpa n = some (.hostArea, off) ∧ s.rangeOffline (s.hostBase p + off) n = false) ∧
    (∃ (p : Port) (dpa off : Nat) (b : Bytes) (s : State), s.upstream.contains p = true ∧ s.windowsUp = true ∧ s.windowOf p dpa b.length = some (.hostArea, off) ∧ s.rangeOffline (s.hostBase p + off) b.length = false) ∧
    (∃ (p : Port) (dpa n : Nat) (s : State), s.upstream.contains p = true ∧ s.windowsUp = true ∧ s.windowOf p dpa n = none) ∧
    (∃ (p : Port) (dpa : Nat) (b : Bytes) (s : State), s.upstream.contains p = true ∧ s.windowsUp = true ∧ s.windowOf p dpa b.length = none) ∧
    (∃ (p : Port) (s : State), s.upstream.contains p = true ∧ s.configUp p = true) ∧
    (∃ (p : Port) (s : State), s.upstream.contains p = true ∧ s.configUp p = true) ∧
    (∃ (p : Port) (s : State), s.upstream.contains p = true) ∧
    (∃ (p : Port) (s : State), s.upstream.contains p = true ∧ (s.port p).linkState = 2) :=
  ⟨⟨.a, 0x1000000000, 0, 64, { devIn .serving with chip := { hostAreaA := 0x10000000, hostGibA := 1 } },
    by decide +kernel⟩,
   ⟨.a, 0x1000000000, 0, [1, 2], { devIn .serving with chip := { hostAreaA := 0x10000000, hostGibA := 1 } },
    by decide +kernel⟩,
   ⟨.a, 0xD0000000000, 64, devIn .serving,
    by decide +kernel⟩,
   ⟨.a, 0xD0000000000, [1], devIn .serving,
    by decide +kernel⟩,
   ⟨.a, devIn .serving,
    by decide +kernel⟩,
   ⟨.a, devIn .serving,
    by decide +kernel⟩,
   ⟨.a, devIn .serving,
    by decide +kernel⟩,
   ⟨.a, devIn .serving,
    by decide +kernel⟩⟩
theorem witness_Spools :
    (∃ (p : Port) (reserved : Bytes) (s : State), s.takes p false = true ∧ reserved.any (· ≠ 0) = true) ∧
    (∃ (p : Port) (n : Byte) (c : CompSpool) (reserved : Bytes) (s : State), s.takes p false = true ∧ reserved.any (· ≠ 0) = false ∧ s.compSpool p n = some c ∧ (s.spools.sub.any fun x => x.port = p && x.completion = n) = false) ∧
    (∃ (p : Port) (kind n : Byte) (x : SubSpool) (reserved : Bytes) (s : State), s.takes p false = true ∧ reserved.any (· ≠ 0) = false ∧ ((kind = 1 ∨ kind = 2)) ∧ s.spoolOfKind p kind n = some x ∧ x.idle = true ∧ x.resetting = false) ∧
    (∃ (p : Port) (kind n : Byte) (x : SubSpool) (reserved : Bytes) (s : State), s.takes p false = true ∧ reserved.any (· ≠ 0) = false ∧ ((kind = 1 ∨ kind = 2)) ∧ s.spoolOfKind p kind n = some x ∧ x.resetting = false ∧ (s.port p).bg = none) ∧
    (∃ (p : Port) (n : Byte) (x : SubSpool) (u s : State), s.upstream.contains p = true ∧ s.subSpool p n = some x ∧ x.resetting = true ∧ s.mailboxUp = true ∧ u = s.drainReset p n x.unread ∧ (u.subSpool p n).all SubSpool.idle = true) ∧
    (∃ (p : Port) (reserved : Bytes) (s : State), s.takes p false = true ∧ reserved.any (· ≠ 0) = false ∧ (s.port p).bg = none) ∧
    (∃ (p : Port) (reserved : Bytes) (s : State), s.takes p false = true ∧ reserved.any (· ≠ 0) = false ∧ (s.port p).bg = none) :=
  ⟨⟨.a, [1], devIn .serving,
    by decide +kernel⟩,
   ⟨.a, 3, compA, zeros 2, { devIn .serving with spools := { comp := [compA] } },
    by decide +kernel⟩,
   ⟨.a, 1, 3, subA, zeros 2, { devIn .serving with spools := { sub := [subA], comp := [compA] } },
    by decide +kernel⟩,
   ⟨.a, 1, 3, subA, zeros 2, { devIn .serving with spools := { sub := [subA], comp := [compA] } },
    by decide +kernel⟩,
   ⟨.a, 3, { subA with resetting := true }, { devIn .serving with spools := { sub := [{ subA with resetting := true }], comp := [compA] } }, { devIn .serving with spools := { sub := [{ subA with resetting := true }], comp := [compA] } },
    by decide +kernel⟩,
   ⟨.a, zeros 4, devIn .serving,
    by decide +kernel⟩,
   ⟨.a, zeros 4, devIn .serving,
    by decide +kernel⟩⟩
theorem witness_PowerStates :
    (∃ (p : Port) (target flags : Byte) (reserved : Bytes) (s : State), s.takes p false = true ∧ reserved.any (· ≠ 0) = false ∧ target.toNat ≤ 4 ∧ flags.toNat ≤ 1 ∧ s.dev.transition = none ∧ s.dev.power ≠ 4 ∧ target.toNat ≠ s.dev.power ∧ ((3 ≤ target.toNat → (s.sw 0x3400).st = .off)) ∧ ((2 ≤ target.toNat → flags.getLsbD 0 = false → s.spoolsBusy = false)) ∧ (s.port p).bg = none) ∧
    (∃ (k : Nat), k < 2) ∧
    (∃ (x : Transition) (s : State), s.dev.transition = some x ∧ s.serves = true ∧ x.target ≤ 2 ∧ ((x.target = 2 → s.dev.power < 2 → s.tunBatches = false))) ∧
    (∃ (x : Transition) (s : State), s.dev.transition = some x ∧ s.serves = true ∧ 2 < x.target ∧ s.allDone = true ∧ s.muts.journal.current = none ∧ s.muts.journal.unwritten = []) ∧
    (∃ (x : Transition) (k : Nat) (w v s : State), x.target ≤ 1 ∧ s.dev.power ≤ 2 ∧ w = { s with dev := { s.dev with power := x.target, transition := none, target := x.target } } ∧ v = (w.bump 0xC00003).logChange 2 s.dev.power x.target 0 ∧ (s.port x.port).bg = some ⟨0xC050, k⟩) ∧
    (∃ (x : Transition) (k : Nat) (w v s : State), x.target = 2 ∧ s.dev.power ≤ 2 ∧ w = ((({ s with dev := { s.dev with power := x.target, transition := none, target := x.target } } : State).endRuns runPower).clearTun).endQueries (fun q => q.stage == .flat || q.stage == .flatWait) (fun q => { q with degraded := true, powerLimited := true }) ∧ v = (w.bump 0xC00003).logChange 2 s.dev.power x.target 0 ∧ (s.port x.port).bg = some ⟨0xC050, k⟩) ∧
    (∃ (x : Transition) (k : Nat) (w v s : State), x.target = 3 ∧ w = (((({ s with dev := { s.dev with power := x.target, transition := none, target := x.target } } : State).endRuns runPower).clearTun).endQueries (fun q => q.stage == .flat || q.stage == .flatWait) (fun q => { q with degraded := true, powerLimited := true })).linksStop ∧ v = (w.bump 0xC00003).logChange 2 s.dev.power x.target 0 ∧ (s.port x.port).bg = some ⟨0xC050, k⟩) ∧
    (∃ (x : Transition) (k : Nat) (w v s : State), x.target = 4 ∧ w = ((((({ s with dev := { s.dev with power := x.target, transition := none, target := x.target } } : State).endRuns runPower).clearTun).endQueries (fun q => q.stage == .flat || q.stage == .flatWait) (fun q => { q with degraded := true, powerLimited := true })).linksStop).enterPs4 ∧ v = (w.bump 0xC00003).logChange 2 s.dev.power x.target 0 ∧ (s.port x.port).bg = some ⟨0xC050, k⟩) ∧
    (∃ (x : Transition) (k : Nat) (w v s : State), x.target ≤ 1 ∧ s.dev.power = 3 ∧ w = ({ s with dev := { s.dev with power := x.target, transition := none, target := x.target } } : State).linksStart ∧ v = (w.bump 0xC00003).logChange 2 s.dev.power x.target 0 ∧ (s.port x.port).bg = some ⟨0xC050, k⟩) ∧
    (∃ (x : Transition) (k : Nat) (w v s : State), x.target = 2 ∧ s.dev.power = 3 ∧ w = (((({ s with dev := { s.dev with power := x.target, transition := none, target := x.target } } : State).endRuns runPower).clearTun).endQueries (fun q => q.stage == .flat || q.stage == .flatWait) (fun q => { q with degraded := true, powerLimited := true })).linksStart ∧ v = (w.bump 0xC00003).logChange 2 s.dev.power x.target 0 ∧ (s.port x.port).bg = some ⟨0xC050, k⟩) ∧
    (∃ (p : Port) (k : Nat) (s : State), (s.port p).bg = some ⟨0xC050, k⟩) ∧
    (∃ (k : Nat) (u s : State), 2 ≤ k ∧ u = (s.endSelfTest selfAborted).endRuns runPower) :=
  ⟨⟨.a, 1, 0, zeros 2, devIn .serving,
    by decide +kernel⟩,
   ⟨1,
    by decide +kernel⟩,
   ⟨⟨.a, 1, false⟩, { devIn .serving with dev := { (devIn .serving).dev with transition := some ⟨.a, 1, false⟩ } },
    by decide +kernel⟩,
   ⟨⟨.a, 3, false⟩, { devIn .serving with dev := { (devIn .serving).dev with transition := some ⟨.a, 3, false⟩ } },
    by decide +kernel⟩,
   ⟨⟨.a, 1, false⟩, 1, _, _, ({ devIn .serving with dev := { (devIn .serving).dev with power := 0 } } : State).setPort .a { (devIn .serving).port .a with bg := some ⟨0xC050, 1⟩ },
    by decide +kernel,
    by decide +kernel,
    rfl,
    rfl,
    by decide +kernel⟩,
   ⟨⟨.a, 2, true⟩, 1, _, _, ({ devIn .serving with dev := { (devIn .serving).dev with power := 1 } } : State).setPort .a { (devIn .serving).port .a with bg := some ⟨0xC050, 1⟩ },
    by decide +kernel,
    by decide +kernel,
    rfl,
    rfl,
    by decide +kernel⟩,
   ⟨⟨.a, 3, false⟩, 1, _, _, ({ devIn .serving with dev := { (devIn .serving).dev with power := 2 } } : State).setPort .a { (devIn .serving).port .a with bg := some ⟨0xC050, 1⟩ },
    by decide +kernel,
    rfl,
    rfl,
    by decide +kernel⟩,
   ⟨⟨.a, 4, false⟩, 1, _, _, ({ devIn .serving with dev := { (devIn .serving).dev with power := 3 } } : State).setPort .a { (devIn .serving).port .a with bg := some ⟨0xC050, 1⟩ },
    by decide +kernel,
    rfl,
    rfl,
    by decide +kernel⟩,
   ⟨⟨.a, 1, false⟩, 1, _, _, ({ devIn .serving with dev := { (devIn .serving).dev with power := 3 } } : State).setPort .a { (devIn .serving).port .a with bg := some ⟨0xC050, 1⟩ },
    by decide +kernel,
    by decide +kernel,
    rfl,
    rfl,
    by decide +kernel⟩,
   ⟨⟨.a, 2, false⟩, 1, _, _, ({ devIn .serving with dev := { (devIn .serving).dev with power := 3 } } : State).setPort .a { (devIn .serving).port .a with bg := some ⟨0xC050, 1⟩ },
    by decide +kernel,
    by decide +kernel,
    rfl,
    rfl,
    by decide +kernel⟩,
   ⟨.a, 1, (devIn .serving).setPort .a { (devIn .serving).port .a with bg := some ⟨0xC050, 1⟩ },
    by decide +kernel⟩,
   ⟨3, _, devIn .serving,
    by decide +kernel,
    rfl⟩⟩
theorem witness_DictionaryMailbox :
    (∃ (p : Port) (s : State), s.takes p true = true) ∧
    (∃ (p : Port) (index : BitVec 16) (sub_ : Byte) (length : BitVec 32) (reserved : Bytes) (k n : Nat) (r : Row) (s : State), s.takes p true = true ∧ reserved.any (· ≠ 0) = false ∧ k = key index.toNat sub_.toNat ∧ s.served (k / 256) = true ∧ s.row k = some r ∧ r.access ≠ .wo ∧ r.ty.size = some n ∧ n ≤ 8 ∧ length.toNat = n ∧ s.openEntry k = false) ∧
    (∃ (p : Port) (index : BitVec 16) (sub_ flags : Byte) (reserved value : Bytes) (k n : Nat) (r : Row) (s : State), s.takes p true = true ∧ reserved.any (· ≠ 0) = false ∧ k = key index.toNat sub_.toNat ∧ flags.toNat ≤ 1 ∧ s.writeGate (.mailbox p) (flags.getLsbD 0) k = none ∧ sub_ ≠ 0 ∧ rowOf k = some r ∧ r.ty.size = some n ∧ value.length = n ∧ (switchable index.toNat && sub_ = 1) = false ∧ s.rangeOk k (leNat value) = true ∧ s.ownRule k (leNat value) = none ∧ r.access ≠ .wo) ∧
    (∃ (p : Port) (q : Nat) (s : State), s.takes p true = true ∧ s.dev.stepsDone = true ∧ s.hasFlash = true ∧ s.ret.writing = none ∧ q = (s.newerCopy.map RetCopy.sequence).getD 0 + 1) ∧
    (∃ (w : RetWrite) (s : State), s.ret.writing = some w ∧ s.dev.st ≠ .off ∧ s.dev.st ≠ .boot) ∧
    (∃ (w : RetWrite) (s : State), s.ret.writing = some w ∧ s.dev.st ≠ .off ∧ w.retried = false) ∧
    (∃ (w : RetWrite) (s : State), s.ret.writing = some w ∧ s.dev.st ≠ .off ∧ s.dev.st ≠ .boot ∧ w.retried = true) :=
  ⟨⟨.a, devIn .serving,
    by decide +kernel⟩,
   ⟨.a, 0xC100, 1, 2, zeros 5, 0xC10001, 2, ⟨1, .u16, .rwr, true, 1000, 600, 1000⟩, devIn .serving,
    by decide +kernel⟩,
   ⟨.a, 0xC100, 1, 1, zeros 3, [0x20, 0x03], 0xC10001, 2, ⟨1, .u16, .rwr, true, 1000, 600, 1000⟩, devIn .serving,
    by decide +kernel⟩,
   ⟨.a, 1, devIn .serving,
    by decide +kernel⟩,
   ⟨⟨true, ⟨1, 0, 0, []⟩, false⟩, { devIn .serving with ret := { writing := some ⟨true, ⟨1, 0, 0, []⟩, false⟩ } },
    by decide +kernel⟩,
   ⟨⟨true, ⟨1, 0, 0, []⟩, false⟩, { devIn .serving with ret := { writing := some ⟨true, ⟨1, 0, 0, []⟩, false⟩ } },
    by decide +kernel⟩,
   ⟨⟨true, ⟨1, 0, 0, []⟩, true⟩, { devIn .serving with ret := { writing := some ⟨true, ⟨1, 0, 0, []⟩, true⟩ } },
    by decide +kernel⟩⟩
theorem witness_StandardMailbox :
    (∃ (p : Port) (s : State), s.takes p true = true) ∧
    (∃ (p : Port) (s : State), s.takes p true = true ∧ (s.port p).bg = none) ∧
    (∃ (p : Port) (b : BgCommand) (s : State), s.takes p true = true ∧ (s.port p).bg = some b) ∧
    (∃ (p : Port) (k : SelfTest) (s : State), s.takes p false = true ∧ s.test.selfTest = some k ∧ k.extended = true ∧ k.port = p) ∧
    (∃ (p : Port) (s : State), s.takes p false = true ∧ (s.test.selfTest.any (fun k => k.extended && k.port = p)) = false) ∧
    (∃ (p : Port) (s : State), s.takes p true = true) ∧
    (∃ (p : Port) (offset length : Nat) (s : State), s.takes p true = true ∧ offset + length ≤ effectsLog.length) ∧
    (∃ (p : Port) (s : State), s.takes p true = true) ∧
    (∃ (p : Port) (s : State), s.takes p true = true) ∧
    (∃ (p : Port) (s : State), s.takes p true = true) ∧
    (∃ (p : Port) (s : State), s.takes p true = true) :=
  ⟨⟨.a, devIn .fenced,
    by decide +kernel⟩,
   ⟨.a, devIn .serving,
    by decide +kernel⟩,
   ⟨.a, ⟨0xC030, 1⟩, { devIn .serving with ports := { a := { bg := some ⟨0xC030, 1⟩ } } },
    by decide +kernel⟩,
   ⟨.a, { port := .a, extended := true, started := 0 }, { devIn .serving with test := { selfTest := some { port := .a, extended := true, started := 0 } } },
    by decide +kernel⟩,
   ⟨.a, devIn .serving,
    by decide +kernel⟩,
   ⟨.a, devIn .serving,
    by decide +kernel⟩,
   ⟨.a, 0, 0, devIn .serving,
    by decide,
    Nat.zero_le _⟩,
   ⟨.a, devIn .serving,
    by decide +kernel⟩,
   ⟨.a, devIn .serving,
    by decide +kernel⟩,
   ⟨.a, devIn .serving,
    by decide +kernel⟩,
   ⟨.a, devIn .serving,
    by decide +kernel⟩⟩
theorem witness_EventLogCommands :
    (∃ (p : Port) (log : EventLog) (l : CxlLog) (s : State), s.takes p true = true ∧ l = (s.port p).log (EventLog.place log)) ∧
    (∃ (p : Port) (log : EventLog) (l u : CxlLog) (handles : Option (List Nat)) (s : State), s.takes p false = true ∧ l = (s.port p).log (EventLog.place log) ∧ l.clear handles = some u) ∧
    (∃ (p : Port) (log : EventLog) (handles : Option (List Nat)) (s : State), s.takes p false = true ∧ ((s.port p).log (EventLog.place log)).clear handles = none) ∧
    (∃ (l : CxlLog) (hs : List Nat), hs = (l.records.take hs.length).map Prod.fst ∧ hs.length < l.records.length) ∧
    (∃ (p : Port) (s : State), s.takes p true = true) ∧
    (∃ (p : Port) (s : State), s.takes p false = true) :=
  ⟨⟨.a, .failure, {}, devIn .serving,
    by decide +kernel⟩,
   ⟨.a, .failure, {}, {}, none, devIn .serving,
    by decide +kernel⟩,
   ⟨.a, .failure, some [3], devIn .serving,
    by decide +kernel⟩,
   ⟨{ records := [(1, []), (2, [])] }, [1],
    by decide +kernel⟩,
   ⟨.a, devIn .serving,
    by decide +kernel⟩,
   ⟨.a, devIn .serving,
    by decide +kernel⟩⟩
theorem witness_Firmware :
    (∃ (p : Port) (slot : Byte) (b : Bool) (offset : Nat) (data : Bytes) (s : State), s.takes p true = true ∧ fwSlot slot = some b ∧ s.sec.running ≠ some b ∧ s.ports.fw = none ∧ offset + data.length ≤ slotBytes) ∧
    (∃ (p : Port) (slot : Byte) (b : Bool) (offset : Nat) (data : Bytes) (s : State), s.takes p true = true ∧ fwSlot slot = some b ∧ s.sec.running ≠ some b ∧ s.ports.fw = none ∧ offset + data.length ≤ slotBytes) ∧
    (∃ (p : Port) (f : FwTransfer) (data : Bytes) (s : State), s.takes p true = true ∧ s.ports.fw = some f ∧ f.port = p ∧ f.next + data.length ≤ slotBytes) ∧
    (∃ (p : Port) (f : FwTransfer) (data : Bytes) (s : State), s.takes p true = true ∧ s.ports.fw = some f ∧ f.port = p ∧ f.next + data.length ≤ slotBytes) ∧
    (∃ (p : Port) (f : FwTransfer) (s : State), s.takes p true = true ∧ s.ports.fw = some f ∧ f.port = p) ∧
    (∃ (p : Port) (slot : Byte) (b : Bool) (s : State), s.takes p true = true ∧ fwSlot slot = some b ∧ s.sec.running ≠ some b) ∧
    (∃ (p : Port) (slot : Byte) (b : Bool) (s : State), s.takes p true = true ∧ fwSlot slot = some b ∧ s.sec.running = some b) ∧
    (∃ (p : Port) (s : State), s.takes p true = true) ∧
    (∃ (via : Source) (i : Byte) (s : State), s.spdmHeard via = true ∧ 1 ≤ i.toNat ∧ i.toNat ≤ 8) ∧
    (∃ (via : Source) (r : SpdmRequest) (s : State), s.spdmHeard via = true ∧ needsIdentity r = true ∧ s.sec.identity ≠ 0) ∧
    (∃ (via : Source) (slot : Byte) (s : State), s.spdmHeard via = true ∧ s.sec.identity = 0 ∧ slot ≠ 0) ∧
    (∃ (via : Source) (s : State), s.spdmHeard via = true) ∧
    (∃ (via : Source) (s : State), s.spdmHeard via = true) ∧
    (∃ (via x : Source), x ≠ via) :=
  ⟨⟨.a, 2, true, 0, [1], devIn .serving,
    by decide +kernel⟩,
   ⟨.a, 2, true, 0, [1], devIn .serving,
    by decide +kernel⟩,
   ⟨.a, ⟨.a, true, 128⟩, [1], { devIn .serving with ports := { fw := some ⟨.a, true, 128⟩ } },
    by decide +kernel⟩,
   ⟨.a, ⟨.a, true, 128⟩, [1], { devIn .serving with ports := { fw := some ⟨.a, true, 128⟩ } },
    by decide +kernel⟩,
   ⟨.a, ⟨.a, true, 128⟩, { devIn .serving with ports := { fw := some ⟨.a, true, 128⟩ } },
    by decide +kernel⟩,
   ⟨.a, 2, true, devIn .serving,
    by decide +kernel⟩,
   ⟨.a, 2, true, { devIn .serving with sec := { running := some true } },
    by decide +kernel⟩,
   ⟨.a, devIn .serving,
    by decide +kernel⟩,
   ⟨.mctp 8, 7, devIn .serving,
    by decide +kernel⟩,
   ⟨.mctp 8, .challenge 0, { devIn .serving with sec := { (devIn .serving).sec with identity := 2 } },
    by decide +kernel⟩,
   ⟨.mctp 8, 3, devIn .serving,
    by decide +kernel⟩,
   ⟨.mctp 8, devIn .serving,
    by decide +kernel⟩,
   ⟨.mctp 8, devIn .serving,
    by decide +kernel⟩,
   ⟨.mctp 8, .mailbox .a,
    by decide +kernel⟩⟩
theorem witness_QueryIntake :
    (∃ (p : Port) (n : Byte) (x : SubSpool) (s : State), s.subSpool p n = some x ∧ x.mutation = false ∧ s.hasTurn (.spool p n) = true ∧ field (s.headEntry x) 0 1 = 1) ∧
    (∃ (b : Bytes) (dev : DevNum) (link shard : Nat) (rest : List (Bytes × DevNum × Nat)) (c : Coll) (s : State), s.fabric.queue = (b, dev, link) :: rest ∧ s.hasTurn .fleet = true ∧ field b 0 1 = 1 ∧ s.coll (parseQuery b).coll = some c ∧ c.shardOf s.devNum = some shard ∧ c.st ≠ .deleting ∧ c.shardOf dev.toNat ≠ none ∧ (parseQuery b).fleet = true) ∧
    (∃ (p : Port) (n : Byte) (x : SubSpool) (s : State), s.subSpool p n = some x ∧ x.mutation = false ∧ s.hasTurn (.spool p n) = true ∧ field (s.headEntry x) 0 1 = 2) ∧
    (∃ (b : Bytes) (dev : DevNum) (link shard : Nat) (rest : List (Bytes × DevNum × Nat)) (c : Coll) (s : State), s.fabric.queue = (b, dev, link) :: rest ∧ s.hasTurn .fleet = true ∧ field b 0 1 = 2 ∧ s.coll (parseQuery b).coll = some c ∧ c.shardOf s.devNum = some shard ∧ c.st ≠ .deleting ∧ c.shardOf dev.toNat ≠ none ∧ (parseQuery b).fleet = true) ∧
    (∃ (p : Port) (n : Byte) (x : SubSpool) (s : State), s.subSpool p n = some x ∧ x.mutation = false ∧ s.hasTurn (.spool p n) = true ∧ field (s.headEntry x) 0 1 = 3) ∧
    (∃ (p : Port) (n : Byte) (x : SubSpool) (s : State), s.subSpool p n = some x ∧ x.mutation = false ∧ s.hasTurn (.spool p n) = true ∧ field (s.headEntry x) 0 1 = 4) ∧
    (∃ (b : Bytes) (dev : DevNum) (link shard : Nat) (rest : List (Bytes × DevNum × Nat)) (c : Coll) (s : State), s.fabric.queue = (b, dev, link) :: rest ∧ s.hasTurn .fleet = true ∧ field b 0 1 = 4 ∧ s.coll (parseQuery b).coll = some c ∧ c.shardOf s.devNum = some shard ∧ c.st ≠ .deleting ∧ c.shardOf dev.toNat ≠ none ∧ (parseQuery b).fleet = true) ∧
    (∃ (p : Port) (n : Byte) (x : SubSpool) (s : State), s.subSpool p n = some x ∧ x.mutation = false ∧ s.hasTurn (.spool p n) = true ∧ isQueryOpcode (field (s.headEntry x) 0 1) = false ∧ field (s.headEntry x) 0 1 ≠ 0x40) ∧
    (∃ (p : Port) (n : Byte) (s : State), ((∀ x, s.subSpool p n = some x → x.mutation = true ∨ s.hasTurn (.spool p n) = false))) ∧
    (∃ (b : Bytes) (dev : DevNum) (link : Nat) (rest : List (Bytes × DevNum × Nat)) (c : Coll) (shard : Nat) (s : State), s.fabric.queue = (b, dev, link) :: rest ∧ s.hasTurn .fleet = true ∧ field b 0 1 = 1 ∧ s.coll (parseQuery b).coll = some c ∧ c.shardOf s.devNum = some shard ∧ ((c.st = .deleting ∨ c.shardOf dev.toNat = none))) ∧
    (∃ (b : Bytes) (dev : DevNum) (link : Nat) (rest : List (Bytes × DevNum × Nat)) (s : State), s.fabric.queue = (b, dev, link) :: rest ∧ s.hasTurn .fleet = true ∧ field b 0 1 = 1 ∧ ((s.coll (parseQuery b).coll).bind fun c => c.shardOf s.devNum) = none) ∧
    (∃ (b : Bytes) (dev : DevNum) (link : Nat) (rest : List (Bytes × DevNum × Nat)) (c : Coll) (shard : Nat) (s : State), s.fabric.queue = (b, dev, link) :: rest ∧ s.hasTurn .fleet = true ∧ isQueryOpcode (field b 0 1) = false ∧ s.coll (parseQuery b).coll = some c ∧ c.shardOf s.devNum = some shard) ∧
    (∃ (r : Asker) (d : QueryDesc) (c : Option Coll) (st fl : Nat) (s : State), s.arrivalStatus r.who d c = some (st, fl)) ∧
    (∃ (r : Asker) (d : QueryDesc) (c : Coll) (s : State), s.arrivalStatus r.who d (some c) = none ∧ d.opcode = 3) ∧
    (∃ (c : Coll), c.st ≠ .online) ∧
    (∃ (who : Option (Port × Nat)) (d : QueryDesc) (c : Coll) (s : State), c.st = .online ∧ (!s.entryOk who d c.d || (d.fleet && who.isSome && !s.leadOk d c)) = true) ∧
    (∃ (who : Option (Port × Nat)) (d : QueryDesc) (c : Coll) (s : State), c.st = .online ∧ s.entryOk who d c.d = true ∧ (d.fleet && who.isSome && !s.leadOk d c) = false ∧ d.deadline ≤ s.now) ∧
    (∃ (who : Option (Port × Nat)) (d : QueryDesc) (c : Coll) (s : State), c.st = .online ∧ s.entryOk who d c.d = true ∧ (d.fleet && who.isSome && !s.leadOk d c) = false ∧ s.now < d.deadline ∧ d.deadline - s.num 0x200301 ≤ s.now) :=
  ⟨⟨.a, 3, { subA with tail := 1 }, entryIn 1,
    by decide +kernel⟩,
   ⟨natLE 1 1 ++ [0x40] ++ zeros 126, 1, 0, 0, [], { collA with shardMap := [[0], [1]] }, fleetIn 1,
    by decide +kernel⟩,
   ⟨.a, 3, { subA with tail := 1 }, entryIn 2,
    by decide +kernel⟩,
   ⟨natLE 1 2 ++ [0x40] ++ zeros 126, 1, 0, 0, [], { collA with shardMap := [[0], [1]] }, fleetIn 2,
    by decide +kernel⟩,
   ⟨.a, 3, { subA with tail := 1 }, entryIn 3,
    by decide +kernel⟩,
   ⟨.a, 3, { subA with tail := 1 }, entryIn 4,
    by decide +kernel⟩,
   ⟨natLE 1 4 ++ [0x40] ++ zeros 126, 1, 0, 0, [], { collA with shardMap := [[0], [1]] }, fleetIn 4,
    by decide +kernel⟩,
   ⟨.a, 3, { subA with tail := 1 }, entryIn 9,
    by decide +kernel⟩,
   ⟨.a, 3, devIn .serving,
    by decide +kernel⟩,
   ⟨natLE 1 1 ++ [0x40] ++ zeros 126, 9, 0, [], { collA with shardMap := [[0], [1]] }, 0, { fleetIn 1 with fabric := { (fleetIn 1).fabric with queue := [(natLE 1 1 ++ [0x40] ++ zeros 126, 9, 0)] } },
    by decide +kernel⟩,
   ⟨natLE 1 1 ++ [0x40] ++ zeros 126, 1, 0, [], { fleetIn 1 with colls := [{ collA with shardMap := [[1], [2]] }] },
    by decide +kernel⟩,
   ⟨natLE 1 9 ++ [0x40] ++ zeros 126, 1, 0, [], { collA with shardMap := [[0], [1]] }, 0, fleetIn 9,
    by decide +kernel⟩,
   ⟨⟨.spool .a 3 1, some (.a, 0), .west⟩, descA 1, none, stNoColl, 0, servIn,
    by decide +kernel⟩,
   ⟨⟨.spool .a 3 1, some (.a, 0), .west⟩, getA 10000000, collA, servIn,
    by decide +kernel⟩,
   ⟨{ collA with st := .created },
    by decide +kernel⟩,
   ⟨none, descA 1, collA, servIn,
    by decide +kernel⟩,
   ⟨some (.a, 0), getA 900, collA, servIn,
    by decide +kernel⟩,
   ⟨some (.a, 0), getA 1001, collA, servIn,
    by decide +kernel⟩⟩
theorem witness_QueryStages :
    (∃ (qid : Nat) (q : Query) (v : Nat) (c : Coll) (u s : State), s.query qid = some q ∧ q.stage = .hops ∧ q.current = some v ∧ s.coll q.d.coll = some c ∧ u = (s.countHop q v).mapQuery qid (fun q => { q with hops := q.hops + 1, current := none, requested := q.requested.filter (· ≠ v), lines := q.lines.filter fun l => !(c.slot v).nbrs.contains l, list := update (fun e => e.ref = v) (fun e => { e with expanded := true }) q.list })) ∧
    (∃ (qid : Nat) (s : State), s.query qid = none) ∧
    (∃ (qid : Nat) (q : Query) (slot : Nat) (unit : Fin 3) (c : Coll) (s : State), s.query qid = some q ∧ q.stage = .hops ∧ s.coll q.d.coll = some c ∧ (q.requested.any fun v => (c.slot v).nbrs.contains slot) = true ∧ q.visited.contains slot = false ∧ q.lines.contains slot = false ∧ (s.unitsOf q.needle).contains (3 * q.needle + unit.val) = true) ∧
    (∃ (qid : Nat) (q : Query) (slot : Nat) (c : Coll) (s : State), s.query qid = some q ∧ q.stage = .hops ∧ s.coll q.d.coll = some c ∧ (((q.requested.any fun v => (c.slot v).nbrs.contains slot) = false ∨ q.visited.contains slot = true ∨ q.lines.contains slot = true))) ∧
    (∃ (qid : Nat) (q : Query) (c : Coll) (now_ : List Nat) (r : List LEntry × List ConvMark) (s : State), s.query qid = some q ∧ q.stage = .rerank ∧ s.coll q.d.coll = some c ∧ now_ = (q.rerankPlaces.drop q.reranked).take 16 ∧ q.listedVids = [] ∧ q.rerankPlaces.length ≤ q.reranked + 16 ∧ q.reranked ≤ q.rerankPlaces.length ∧ r = rerankList c (q.prep c) now_ q.list) ∧
    (∃ (qid : Nat) (s : State), s.query qid = none) ∧
    (∃ (qid : Nat) (q : Query) (s : State), s.query qid = some q ∧ q.stage = .waiting ∧ s.now < q.cutoff) ∧
    (∃ (qid : Nat) (q : Query) (s : State), s.query qid = some q ∧ q.stage = .waiting ∧ q.cutoff ≤ s.now) ∧
    (∃ (qid : Nat) (q : Query) (s : State), s.query qid = some q ∧ q.stage = .waiting ∧ q.cutoff ≤ s.now) ∧
    (∃ (qid : Nat) (q : Query) (s : State), s.query qid = some q ∧ ((q.stage ≠ .waiting ∨ s.now < q.cutoff))) :=
  ⟨⟨0, { queryA .hops 1 with current := some 5 }, 5, collA, ((searching { queryA .hops 1 with current := some 5 }).countHop ({ queryA .hops 1 with current := some 5 }) 5).mapQuery 0 fun q => { q with hops := q.hops + 1, current := none, requested := q.requested.filter (· ≠ 5), lines := q.lines.filter fun l => !(collA.slot 5).nbrs.contains l, list := update (fun e => e.ref = 5) (fun e => { e with expanded := true }) q.list }, searching { queryA .hops 1 with current := some 5 },
    by decide +kernel⟩,
   ⟨7, devIn .serving,
    by decide +kernel⟩,
   ⟨0, { queryA .hops 1 with requested := [5] }, 9, 1, { collA with slots := [(5, slotA [9])] }, { searching { queryA .hops 1 with requested := [5] } with colls := [{ collA with slots := [(5, slotA [9])] }] },
    by decide +kernel⟩,
   ⟨0, queryA .hops 1, 9, collA, searching (queryA .hops 1),
    by decide +kernel⟩,
   ⟨0, queryA .rerank 1, collA, [], ([], []), searching (queryA .rerank 1),
    by decide +kernel⟩,
   ⟨7, devIn .serving,
    by decide +kernel⟩,
   ⟨0, queryA .waiting 1, searching (queryA .waiting 1),
    by decide +kernel⟩,
   ⟨0, { queryA .waiting 1 with cutoff := 900 }, searching { queryA .waiting 1 with cutoff := 900 },
    by decide +kernel⟩,
   ⟨0, { queryA .waiting 1 with cutoff := 900 }, searching { queryA .waiting 1 with cutoff := 900 },
    by decide +kernel⟩,
   ⟨0, queryA .waiting 1, searching (queryA .waiting 1),
    by decide +kernel⟩⟩
theorem witness_ScanBatches :
    (∃ (h : Half) (a : Query) (r : List Query) (s : State), s.basteWaiting h = a :: r ∧ ((s.num 0x500006 ≤ (a :: r).length ∨ a.joinedAt + s.num 0x500007 ≤ s.now))) ∧
    (∃ (h : Half) (s : State), s.basteWaiting h = []) ∧
    (∃ (h : Half) (a : Query) (r : List Query) (s : State), s.basteWaiting h = a :: r ∧ (a :: r).length < s.num 0x500006 ∧ s.now < a.joinedAt + s.num 0x500007) ∧
    (∃ (id : Nat) (b : Batch) (s : State), s.search.batches.find? (fun b => b.id = id && !b.flat) = some b) ∧
    (∃ (id : Nat) (s : State), s.search.batches.find? (fun b => b.id = id && !b.flat) = none) ∧
    (∃ (h : Handle) (rerank : Bool) (c : Coll) (a : Query) (r : List Query) (ids : List Nat) (s : State), s.coll h = some c ∧ s.flatWaiting h rerank = a :: r ∧ s.tunScans = true ∧ ((s.num 0x500008 ≤ (a :: r).length ∨ a.joinedAt + s.num 0x500009 ≤ s.now)) ∧ ids = ((a :: r).take (min (s.num 0x500008) (max 1 (s.latchGrist.gristCap c.codeP.n)))).map Query.id) ∧
    (∃ (h : Handle) (rerank : Bool) (c : Coll) (a : Query) (r : List Query) (s : State), s.coll h = some c ∧ s.flatWaiting h rerank = a :: r ∧ (a :: r).length < s.num 0x500008 ∧ s.now < a.joinedAt + s.num 0x500009) ∧
    (∃ (h : Handle) (rerank : Bool) (s : State), ((s.flatWaiting h rerank = [] ∨ s.tunScans = false))) ∧
    (∃ (id : Nat) (b : Batch) (c : Coll) (s : State), s.search.batches.find? (fun b => b.id = id && b.flat) = some b ∧ s.coll b.coll = some c ∧ s.tunScans = true ∧ s.upClusters.all s.basteOn = false) ∧
    (∃ (id : Nat) (b : Batch) (c : Coll) (s : State), s.search.batches.find? (fun b => b.id = id && b.flat) = some b ∧ s.coll b.coll = some c ∧ ((s.tunScans = false ∨ s.upClusters.all s.basteOn = true))) ∧
    (∃ (qid : Nat) (q : Query) (c : Coll) (s : State), s.query qid = some q ∧ q.stage = .pass ∧ s.coll q.d.coll = some c) ∧
    (∃ (qid : Nat) (s : State), s.query qid = none) ∧
    (∃ (id : Nat) (s : State), s.search.batches.find? (fun b => b.id = id && b.flat) = none) :=
  ⟨⟨.west, { queryA .basteWait 1 with joinedAt := 10 }, [], { searching { queryA .basteWait 1 with joinedAt := 10 } with ftu := { st := .locked, now := 9000000 } },
    by decide +kernel⟩,
   ⟨.west, devIn .serving,
    by decide +kernel⟩,
   ⟨.west, { queryA .basteWait 1 with joinedAt := 1000 }, [], searching { queryA .basteWait 1 with joinedAt := 1000 },
    by decide +kernel⟩,
   ⟨4, { id := 4, flat := false, half := .west, coll := 0, rerank := false, members := [], entries := [] }, { devIn .serving with search := { batches := [{ id := 4, flat := false, half := .west, coll := 0, rerank := false, members := [], entries := [] }] } },
    by decide +kernel⟩,
   ⟨4, devIn .serving,
    by decide +kernel⟩,
   ⟨0, false, collA, { queryA .flatWait 2 with joinedAt := 10 }, [], [0], { searching { queryA .flatWait 2 with joinedAt := 10 } with ftu := { st := .locked, now := 9000000 } },
    by decide +kernel⟩,
   ⟨0, false, collA, { queryA .flatWait 2 with joinedAt := 1000 }, [], searching { queryA .flatWait 2 with joinedAt := 1000 },
    by decide +kernel⟩,
   ⟨0, true, devIn .serving,
    by decide +kernel⟩,
   ⟨4, { id := 4, flat := true, half := .west, coll := 0, rerank := false, members := [0], entries := [] }, collA, { searching { { queryA .flatWait 2 with joinedAt := 10 } with stage := .flat } with search := { queries := [{ { queryA .flatWait 2 with joinedAt := 10 } with stage := .flat }], batches := [{ id := 4, flat := true, half := .west, coll := 0, rerank := false, members := [0], entries := [] }] } },
    by decide +kernel⟩,
   ⟨4, { id := 4, flat := true, half := .west, coll := 0, rerank := false, members := [0], entries := [] }, collA, { searching { { queryA .flatWait 2 with joinedAt := 10 } with stage := .flat } with search := { queries := [{ { queryA .flatWait 2 with joinedAt := 10 } with stage := .flat }], batches := [{ id := 4, flat := true, half := .west, coll := 0, rerank := false, members := [0], entries := [] }] }, units := { tun := 0xFF } },
    by decide +kernel⟩,
   ⟨0, queryA .pass 1, collA, searching (queryA .pass 1),
    by decide +kernel⟩,
   ⟨7, devIn .serving,
    by decide +kernel⟩,
   ⟨7, devIn .serving,
    by decide +kernel⟩⟩
theorem witness_MutationEntries :
    (∃ (p : Port) (n : Byte) (x : SubSpool) (e : MutEntry) (w : MutWork) (u s : State), s.subSpool p n = some x ∧ x.mutation = true ∧ s.hasTurn (.spool p n) = true ∧ e = parseMutEntry (s.headEntry x) ∧ e.opcode = 0x20 ∧ mutateWork p s x.tenant.toNat e = .ok w ∧ u = ((s.takeTurn (intakePlace (.spool p n)) x.weight).takeEntry p n).addJob (e.job p n (x.head + 1).toNat w none s.now)) ∧
    (∃ (p : Port) (n : Byte) (x : SubSpool) (e : MutEntry) (w : MutWork) (u s : State), s.subSpool p n = some x ∧ x.mutation = true ∧ s.hasTurn (.spool p n) = true ∧ e = parseMutEntry (s.headEntry x) ∧ e.opcode = 0x21 ∧ (∀ j ∈ s.muts.jobs, j.id < s.muts.nextId) ∧ w = (.flushJournal false) ∧ u = ((s.takeTurn (intakePlace (.spool p n)) x.weight).takeEntry p n).addJob (e.job p n (x.head + 1).toNat w none s.now)) ∧
    (∃ (p : Port) (n : Byte) (x : SubSpool) (e : MutEntry) (w : MutWork) (u s : State), s.subSpool p n = some x ∧ x.mutation = true ∧ s.hasTurn (.spool p n) = true ∧ e = parseMutEntry (s.headEntry x) ∧ e.opcode = 0x22 ∧ w = .flushSeam ∧ u = ((s.takeTurn (intakePlace (.spool p n)) x.weight).takeEntry p n).addJob (e.job p n (x.head + 1).toNat w none s.now)) ∧
    (∃ (p : Port) (n : Byte) (x : SubSpool) (e : MutEntry) (w : MutWork) (u s : State), s.subSpool p n = some x ∧ x.mutation = true ∧ s.hasTurn (.spool p n) = true ∧ e = parseMutEntry (s.headEntry x) ∧ e.opcode = 0x23 ∧ replayWork p s x.tenant.toNat e = .ok w ∧ u = ((s.takeTurn (intakePlace (.spool p n)) x.weight).takeEntry p n).addJob (e.job p n (x.head + 1).toNat w none s.now)) ∧
    (∃ (p : Port) (n : Byte) (x : SubSpool) (e : MutEntry) (w : MutWork) (u s : State), s.subSpool p n = some x ∧ x.mutation = true ∧ s.hasTurn (.spool p n) = true ∧ e = parseMutEntry (s.headEntry x) ∧ e.opcode = 0x24 ∧ saveWork p s x.tenant.toNat e = .ok w ∧ u = ((s.takeTurn (intakePlace (.spool p n)) x.weight).takeEntry p n).addJob (e.job p n (x.head + 1).toNat w none s.now)) ∧
    (∃ (p : Port) (n : Byte) (x : SubSpool) (op : Nat) (f : State → Nat → MutEntry → Except Nat MutWork) (e : MutEntry) (st : Nat) (s : State), s.subSpool p n = some x ∧ x.mutation = true ∧ s.hasTurn (.spool p n) = true ∧ e = parseMutEntry (s.headEntry x) ∧ e.opcode = op ∧ 0x20 ≤ op ∧ op ≤ 0x24 ∧ f s x.tenant.toNat e = .error st) ∧
    (∃ (p : Port) (n : Byte) (s : State), s.hasTurn (.spool p n) = false) ∧
    (∃ (x : SubSpool) (s : State), x.mutation = true ∧ ((s.muts.jobs.any MutJob.waiting = true ∨ (field (s.headEntry x) 0 1 = 0x20 ∧ s.replaying (field (s.headEntry x) 2 2) = true)))) ∧
    (∃ (tenant : Nat) (e : MutEntry) (s : State), s.collFor (BitVec.ofNat 16 e.coll) tenant = none) :=
  ⟨⟨.a, 3, { subA with mutation := true, tail := 1 }, _, (.mutate { addr := 0x1000000, count := 1, length := 64, mode := 0 }), _, (mutIn .online ([0x20, 0, 0, 0, 0, 0, 0, 0, 0, 0, 0, 1, 0, 0, 0, 0, 1, 0, 0, 0, 0x40])),
    by decide +kernel,
    by decide +kernel,
    by decide +kernel,
    rfl,
    by decide +kernel,
    by decide +kernel,
    rfl⟩,
   ⟨.a, 3, { subA with mutation := true, tail := 1 }, _, (.flushJournal false), _, (mutIn .online ([0x21])),
    by decide +kernel,
    by decide +kernel,
    by decide +kernel,
    rfl,
    by decide +kernel,
    by decide +kernel,
    by decide +kernel,
    rfl⟩,
   ⟨.a, 3, { subA with mutation := true, tail := 1 }, _, .flushSeam, _, (mutIn .online ([0x22])),
    by decide +kernel,
    by decide +kernel,
    by decide +kernel,
    rfl,
    by decide +kernel,
    by decide +kernel,
    rfl⟩,
   ⟨.a, 3, { subA with mutation := true, tail := 1 }, _, (.replay { report := 0x1000000, position := 0, started := true }), _, replayIn,
    by decide +kernel,
    by decide +kernel,
    by decide +kernel,
    rfl,
    by decide +kernel,
    by decide +kernel,
    rfl⟩,
   ⟨.a, 3, { subA with mutation := true, tail := 1 }, _, (.save { dest := 0x1000000, capacity := 0, snapshot := 1 }), _, (mutIn .online ([0x24, 0, 0, 0, 0, 0, 0, 0, 0, 0, 0, 1])),
    by decide +kernel,
    by decide +kernel,
    by decide +kernel,
    rfl,
    by decide +kernel,
    by decide +kernel,
    rfl⟩,
   ⟨.a, 3, { subA with mutation := true, tail := 1 }, 0x22, fun _ _ _ => .error 0x11, parseMutEntry ((mutIn .online [0x22]).headEntry { subA with mutation := true, tail := 1 }), 0x11, mutIn .online [0x22],
    by decide +kernel⟩,
   ⟨.a, 3, jobIn { jobA .flushSeam with waiting := true },
    by decide +kernel⟩,
   ⟨{ subA with mutation := true }, jobIn { jobA .flushSeam with waiting := true },
    by decide +kernel⟩,
   ⟨0, parseMutEntry [0x20], servIn,
    by decide +kernel⟩⟩
theorem witness_MutationProgress :
    (∃ (job : Nat) (j : MutJob) (w : MutateWork) (s : State), s.job job = some j ∧ j.waiting = true ∧ j.work = .mutate w) ∧
    (∃ (job : Nat) (j : MutJob) (s : State), s.job job = some j ∧ j.waiting = false) ∧
    (∃ (job : Nat) (j : MutJob) (s : State), s.job job = some j ∧ j.status = none ∧ s.flushDone j = true) ∧
    (∃ (job : Nat) (j : MutJob) (s : State), s.job job = some j ∧ s.flushDone j = false) ∧
    (∃ (job : Nat) (j : MutJob) (w : ReplayWork) (s : State), s.job job = some j ∧ j.status = none ∧ j.work = .replay w ∧ w.ended = true) ∧
    (∃ (job : Nat) (j : MutJob) (w : ReplayWork) (s : State), s.job job = some j ∧ j.work = .replay w ∧ w.ended = false) ∧
    (∃ (job : Nat) (j : MutJob) (w : SaveWork) (h : Handle) (c : Coll) (u : State) (x : Bytes × Nat) (s : State), s.job job = some j ∧ j.work = .save w ∧ j.status = none ∧ j.coll = some h ∧ s.coll h = some c ∧ s.saveReady c.d.handle w.snapshot = true ∧ x = c.image w.snapshot (s.savePosition w.snapshot) (fun i => Config.freeValue (s.free + i)) ∧ x.1.length ≤ w.capacity ∧ u = { s with free := s.free + c.highWater }) ∧
    (∃ (job : Nat) (j : MutJob) (w : SaveWork) (h : Handle) (c : Coll) (u : State) (x : Bytes × Nat) (s : State), s.job job = some j ∧ j.work = .save w ∧ j.status = none ∧ j.coll = some h ∧ s.coll h = some c ∧ s.saveReady c.d.handle w.snapshot = true ∧ x = c.image w.snapshot (s.savePosition w.snapshot) (fun i => Config.freeValue (s.free + i)) ∧ w.capacity < x.1.length ∧ u = { s with free := s.free + c.highWater }) ∧
    (∃ (job : Nat) (j : MutJob) (w : SaveWork) (h : Handle) (c : Coll) (s : State), s.job job = some j ∧ j.work = .save w ∧ j.status = none ∧ j.coll = some h ∧ s.coll h = some c ∧ s.saveReady c.d.handle w.snapshot = false) :=
  ⟨⟨0, { jobA (.mutate { addr := 0x1000000, count := 1, length := 64, mode := 0 }) with waiting := true }, { addr := 0x1000000, count := 1, length := 64, mode := 0 }, jobIn { jobA (.mutate { addr := 0x1000000, count := 1, length := 64, mode := 0 }) with waiting := true },
    by decide +kernel⟩,
   ⟨0, jobA .flushSeam, jobIn (jobA .flushSeam),
    by decide +kernel⟩,
   ⟨0, jobA .flushSeam, jobIn (jobA .flushSeam),
    by decide +kernel⟩,
   ⟨0, jobA .refused, jobIn (jobA .refused),
    by decide +kernel⟩,
   ⟨0, jobA (.replay { report := 0x1000000, position := 0, started := true, ended := true }), { report := 0x1000000, position := 0, started := true, ended := true }, jobIn (jobA (.replay { report := 0x1000000, position := 0, started := true, ended := true })),
    by decide +kernel⟩,
   ⟨0, jobA (.replay { report := 0x1000000, position := 0, started := true }), { report := 0x1000000, position := 0, started := true }, jobIn (jobA (.replay { report := 0x1000000, position := 0, started := true })),
    by decide +kernel⟩,
   ⟨0, jobA (.save { dest := 0x1000000, capacity := 1000000, snapshot := 1 }), { dest := 0x1000000, capacity := 1000000, snapshot := 1 }, 0, collA, _, _, (savingIn 1000000),
    by decide +kernel,
    by decide +kernel,
    by decide +kernel,
    by decide +kernel,
    by decide +kernel,
    by decide +kernel,
    rfl,
    by decide +kernel,
    rfl⟩,
   ⟨0, jobA (.save { dest := 0x1000000, capacity := 0, snapshot := 1 }), { dest := 0x1000000, capacity := 0, snapshot := 1 }, 0, collA, _, _, (savingIn 0),
    by decide +kernel,
    by decide +kernel,
    by decide +kernel,
    by decide +kernel,
    by decide +kernel,
    by decide +kernel,
    rfl,
    by decide +kernel,
    rfl⟩,
   ⟨0, jobA (.save { dest := 0x1000000, capacity := 0, snapshot := 1 }), { dest := 0x1000000, capacity := 0, snapshot := 1 }, 0, collA, { savingIn 0 with muts := { (savingIn 0).muts with baste := [{ id := 0, coll := 0, vid := 1, version := 1, stamp := 10, insert := false }] } },
    by decide +kernel⟩⟩
theorem witness_Journal :
    (∃ (b : JBlock) (s : State), s.muts.journal.current = some b ∧ s.blockDue b = true) ∧
    (∃ (b : JBlock) (s : State), s.muts.journal.current = some b ∧ s.blockDue b = false) ∧
    (∃ (s : State), s.muts.journal.current = none) ∧
    (∃ (p : Nat) (b : JBlock) (s : State), s.muts.journal.current = some b ∧ p = placeBlock s.windowLength s.muts.journal.append b.length) ∧
    (∃ (b : JBlock) (r : List JBlock) (s : State), s.muts.journal.unwritten = b :: r ∧ s.windowFits (b.position + b.length) = true ∧ b.retried = false) ∧
    (∃ (b : JBlock) (r : List JBlock) (s u : State), s.muts.journal.unwritten = b :: r ∧ s.windowFits (b.position + b.length) = true ∧ u = (s.windowWrite b.position b.bytes).mapJournal (fun j => { j with unwritten := r, durable := b.position + b.length })) ∧
    (∃ (b : JBlock) (r : List JBlock) (s : State), s.muts.journal.unwritten = b :: r ∧ s.windowFits (b.position + b.length) = true ∧ b.retried = true) :=
  ⟨⟨{ sequence := 0, position := 0, flags := 0, opened := 10, records := [{ type := 2, coll := 0, version := 1, stamp := 10, body := [], job := none, durable := false }] }, { servIn with ftu := { st := .locked, now := 9000000 }, muts := { journal := { current := some { sequence := 0, position := 0, flags := 0, opened := 10, records := [{ type := 2, coll := 0, version := 1, stamp := 10, body := [], job := none, durable := false }] } } } },
    by decide +kernel⟩,
   ⟨{ sequence := 0, position := 0, flags := 0, opened := 10, records := [] }, { servIn with muts := { journal := { current := some { sequence := 0, position := 0, flags := 0, opened := 10, records := [] } } } },
    by decide +kernel⟩,
   ⟨servIn,
    by decide +kernel⟩,
   ⟨0, { sequence := 0, position := 0, flags := 0, opened := 10, records := [] }, { servIn.setNum 0x410004 0x1000000 with muts := { journal := { current := some { sequence := 0, position := 0, flags := 0, opened := 10, records := [] } } } },
    by decide +kernel⟩,
   ⟨{ sequence := 0, position := 0, flags := 0, opened := 10, records := [] }, [], { servIn.setNum 0x410004 0x1000000 with muts := { journal := { unwritten := [{ sequence := 0, position := 0, flags := 0, opened := 10, records := [] }] } } },
    by decide +kernel⟩,
   ⟨{ sequence := 0, position := 0, flags := 0, opened := 10, records := [] }, [], { servIn.setNum 0x410004 0x1000000 with muts := { journal := { unwritten := [{ sequence := 0, position := 0, flags := 0, opened := 10, records := [] }] } } }, _,
    by decide +kernel,
    by decide +kernel,
    rfl⟩,
   ⟨{ sequence := 0, position := 0, flags := 0, opened := 10, records := [], retried := true }, [], { servIn.setNum 0x410004 0x1000000 with muts := { journal := { unwritten := [{ sequence := 0, position := 0, flags := 0, opened := 10, records := [], retried := true }] } } },
    by decide +kernel⟩⟩
theorem witness_EncodeCommands :
    (∃ (p : Port) (n : Byte) (x : SubSpool) (s : State), s.subSpool p n = some x ∧ x.mutation = false ∧ s.hasTurn (.spool p n) = true ∧ field (s.headEntry x) 0 1 = 0x40) ∧
    (∃ (p : Port) (n : Byte) (s : State), s.subSpool p n = none) ∧
    (∃ (tenant : Nat) (e : EncodeEntry) (s : State), e.coll ≠ 0xFFFF ∧ s.collFor (BitVec.ofNat 16 e.coll) tenant = none) ∧
    (∃ (p : Port) (tenant : Nat) (e : EncodeEntry) (s : State), e.coll = 0xFFFF ∧ s.encodeParams p tenant e none = none) ∧
    (∃ (p : Port) (tenant : Nat) (e : EncodeEntry) (x : EncP) (s : State), e.coll = 0xFFFF ∧ s.encodeParams p tenant e none = some x ∧ s.anyKiln = true ∧ ((e.flag 1 = false ∨ s.tunScans = true))) ∧
    (∃ (p : Port) (tenant : Nat) (e : EncodeEntry) (x : EncP) (s : State), e.coll = 0xFFFF ∧ s.encodeParams p tenant e none = some x ∧ s.anyKiln = false) ∧
    (∃ (id : Nat) (j : EncodeJob) (s : State), s.encodes.find? (fun j => j.id = id) = some j) ∧
    (∃ (id : Nat) (s : State), s.encodes.find? (fun j => j.id = id) = none) ∧
    (∃ (h : Handle) (c : Coll) (w : F32 × F32) (r : List (F32 × F32)) (s : State), s.coll h = some c ∧ c.drift.ready = w :: r ∧ c.drift.baseline = none) ∧
    (∃ (h : Handle) (s : State), s.coll h = none) :=
  ⟨⟨.a, 3, { subA with tail := 1 }, entryIn 0x40,
    by decide +kernel⟩,
   ⟨.a, 3, servIn,
    by decide +kernel⟩,
   ⟨0, parseEncode [0x40], servIn,
    by decide +kernel⟩,
   ⟨.a, 0, parseEncode [0x40, 0, 0xFF, 0xFF], servIn,
    by decide +kernel⟩,
   ⟨.a, 0, encE, { d := 16, fmt := .b1, k := 16, sym := true, rotate := false, seed := 0, carried := none, weights := [] }, servIn,
    by decide +kernel⟩,
   ⟨.a, 0, encE, { d := 16, fmt := .b1, k := 16, sym := true, rotate := false, seed := 0, carried := none, weights := [] }, { servIn with units := { kiln := 0xF } },
    by decide +kernel⟩,
   ⟨4, encA, { servIn with encodes := [encA] },
    by decide +kernel⟩,
   ⟨4, servIn,
    by decide +kernel⟩,
   ⟨0, { collA with drift := { ready := [(0, 0)] } }, (0, 0), [], { servIn with colls := [{ collA with drift := { ready := [(0, 0)] } }] },
    by decide +kernel⟩,
   ⟨7, servIn,
    by decide +kernel⟩⟩
theorem witness_SeamSteps :
    (∃ (h : Handle) (want : Option Nat) (c : Coll) (e : BasteEntry) (u v : State) (w : Nat) (s : State), s.seamWorks h = true ∧ s.seamContext h = true ∧ s.seamScored h = true ∧ s.coll h = some c ∧ firstOf true [] (s.seamEntries h) = some e ∧ u = s.countHeld h (fun _ x => s.slotHeld x) ∧ u.chooseSlot c want = some w ∧ v = (u.bumpBy 0x41300A (if (c.slot w).used then 1 else 0)).mapColl h (fun c => c.place ((u.bumpBy 0x41300A (if (c.slot w).used then 1 else 0)).alpha) ((u.bumpBy 0x41300A (if (c.slot w).used then 1 else 0)).num 0x413003) (u.bumpBy 0x41300A (if (c.slot w).used then 1 else 0)).muts.generation e w)) ∧
    (∃ (h : Handle) (want : Option Nat) (c : Coll) (e : BasteEntry) (u s : State), s.seamWorks h = true ∧ s.seamContext h = true ∧ s.seamScored h = true ∧ s.coll h = some c ∧ firstOf true [] (s.seamEntries h) = some e ∧ u = s.countHeld h (fun _ x => s.slotHeld x) ∧ u.chooseSlot c want = none ∧ e.held = false) ∧
    (∃ (h : Handle) (s : State), s.seamWorks h = true ∧ s.seamContext h = true ∧ s.seamScored h = true ∧ firstOf true [] (s.seamEntries h) = none) ∧
    (∃ (h : Handle) (s : State), ((s.seamWorks h = false ∨ s.seamContext h = false ∨ s.seamScored h = false))) ∧
    (∃ (h : Handle) (c : Coll) (e : BasteEntry) (s : State), s.seamWorks h = true ∧ s.seamContext h = true ∧ s.seamScored h = true ∧ s.coll h = some c ∧ firstOf false [] (s.seamEntries h) = some e) ∧
    (∃ (h : Handle) (s : State), ((s.seamWorks h = false ∨ s.seamContext h = false ∨ s.seamScored h = false))) ∧
    (∃ (h : Handle) (slot : Nat) (c : Coll) (s : State), s.seamWorks h = true ∧ s.coll h = some c ∧ (c.slot slot).st = .tombstone ∧ s.mayFree (c.slot slot) = true) ∧
    (∃ (h : Handle) (slot : Nat) (c : Coll) (s : State), s.seamWorks h = true ∧ s.coll h = some c ∧ (c.slot slot).st = .tombstone ∧ s.mayFree (c.slot slot) = false) ∧
    (∃ (h : Handle) (slot : Nat) (c : Coll) (s : State), s.coll h = some c ∧ (c.slot slot).st ≠ .tombstone) :=
  ⟨⟨0, none, { collA with st := .created }, basteA true, _, _, 0, seamIn { collA with st := .created } [basteA true],
    by decide +kernel,
    by decide +kernel,
    by decide +kernel,
    by decide +kernel,
    by decide +kernel,
    rfl,
    by decide +kernel,
    rfl⟩,
   ⟨0, none, { collA with st := .created, d := { defA with maxVectors := 0 } }, basteA true, _, seamIn { collA with st := .created, d := { defA with maxVectors := 0 } } [basteA true],
    by decide +kernel,
    by decide +kernel,
    by decide +kernel,
    by decide +kernel,
    by decide +kernel,
    rfl,
    by decide +kernel⟩,
   ⟨0, seamIn ({ collA with st := .created }) [],
    by decide +kernel⟩,
   ⟨0, servIn,
    by decide +kernel⟩,
   ⟨0, { collA with st := .created }, basteA false, seamIn ({ collA with st := .created }) [basteA false],
    by decide +kernel⟩,
   ⟨0, servIn,
    by decide +kernel⟩,
   ⟨0, 3, { collA with st := .created, slots := [(3, { slotA [] with st := .tombstone, repaired := true })] }, seamIn { collA with st := .created, slots := [(3, { slotA [] with st := .tombstone, repaired := true })] } [],
    by decide +kernel⟩,
   ⟨0, 3, { collA with st := .created, slots := [(3, { slotA [] with st := .tombstone })] }, seamIn { collA with st := .created, slots := [(3, { slotA [] with st := .tombstone })] } [],
    by decide +kernel⟩,
   ⟨0, 3, collA, collIn .online,
    by decide +kernel⟩⟩
theorem witness_CollectionLife :
    (∃ (p : Port) (b : Bytes) (c : Cause) (u s : State), s.takes p false = true ∧ u = s.loadAppears ∧ b.length = 256 ∧ c = u.createCause p (parseDef b) (u.defTables (parseDef b)) ∧ c ≠ .none) ∧
    (∃ (p : Port) (b : Bytes) (v u s : State), s.takes p false = true ∧ u = s.loadAppears ∧ b.length = 256 ∧ u.createCause p (parseDef b) (u.defTables (parseDef b)) = .none ∧ (∀ c ∈ u.colls, c.d.handle ≠ (parseDef b).handle) ∧ u.colls.length < 1024 ∧ u.addColl (newColl (parseDef b) (u.defTables (parseDef b))) = some v) ∧
    (∃ (p : Port) (b : Bytes) (u s : State), s.takes p false = true ∧ u = s.loadAppears ∧ b.length = 256 ∧ u.createCause p (parseDef b) (u.defTables (parseDef b)) = .none ∧ (∀ c ∈ u.colls, c.d.handle ≠ (parseDef b).handle) ∧ u.colls.length < 1024 ∧ u.addColl (newColl (parseDef b) (u.defTables (parseDef b))) = none) ∧
    (∃ (p : Port) (b : Bytes) (c : Coll) (u s : State), s.takes p false = true ∧ u = s.loadAppears ∧ b.length = 256 ∧ u.createCause p (parseDef b) (u.defTables (parseDef b)) = .none ∧ u.colls.contains c = true ∧ c.d.handle = (parseDef b).handle) ∧
    (∃ (b : Bytes), b.length ≠ 256) ∧
    (∃ (p : Port) (pad : Bytes) (s : State), s.takes p false = true ∧ pad.any (· ≠ 0) = true) ∧
    (∃ (p : Port) (pad : Bytes) (s : State), s.takes p false = true ∧ pad.any (· ≠ 0) = true) ∧
    (∃ (p : Port) (pad : Bytes) (s : State), s.takes p false = true ∧ pad.any (· ≠ 0) = true) ∧
    (∃ (p : Port) (pad : Bytes) (s : State), s.takes p false = true ∧ pad.any (· ≠ 0) = true) ∧
    (∃ (p : Port) (pad : Bytes) (s : State), s.takes p false = true ∧ pad.any (· ≠ 0) = true) ∧
    (∃ (p : Port) (pad : Bytes) (s : State), s.takes p false = true ∧ pad.any (· ≠ 0) = true) ∧
    (∃ (p : Port) (h : Handle) (pad : Bytes) (c : Coll) (u s : State), s.takes p false = true ∧ u = s.loadAppears ∧ u.deferred.find? (fun x => x.coll.d.handle = h) = none ∧ u.coll h = some c ∧ u.permitted p c.d.tenant.toNat = true ∧ c.st ≠ .deleting ∧ pad.any (· ≠ 0) = false) ∧
    (∃ (p : Port) (h : Handle) (pad : Bytes) (u s : State), s.takes p false = true ∧ u = s.loadAppears ∧ u.deferred.find? (fun x => x.coll.d.handle = h) = none ∧ u.coll h = none ∧ pad.any (· ≠ 0) = false) ∧
    (∃ (p : Port) (h : Handle) (pad : Bytes) (x : Deferred) (u s : State), s.takes p false = true ∧ u = s.loadAppears ∧ u.deferred.find? (fun x => x.coll.d.handle = h) = some x ∧ u.permitted p x.coll.d.tenant.toNat = true ∧ pad.any (· ≠ 0) = false) ∧
    (∃ (h : Handle) (c : Coll) (u v s : State), s.coll h = some c ∧ c.st = .deleting ∧ s.drained h = true ∧ u = (s.logChange 3 c.st.code 0 h.toNat).release h.toNat ∧ v = State.bump 0x400007 { u with colls := u.colls.filter fun c => c.d.handle ≠ h } ∧ v.countColls.deferred.find? (fun x => x.coll.d.handle = h) = none) ∧
    (∃ (h : Handle) (c : Coll) (u v : State) (x : Deferred) (s : State), s.coll h = some c ∧ c.st = .deleting ∧ s.drained h = true ∧ u = (s.logChange 3 c.st.code 0 h.toNat).release h.toNat ∧ v = State.bump 0x400007 { u with colls := u.colls.filter fun c => c.d.handle ≠ h } ∧ v.countColls.deferred.find? (fun x => x.coll.d.handle = h) = some x) ∧
    (∃ (h : Handle) (c : Coll) (s : State), s.coll h = some c ∧ ((c.st ≠ .deleting ∨ s.drained h = false))) ∧
    (∃ (p : Port) (h : Handle) (pad pre : Bytes) (c : Coll) (u s : State), s.takes p false = true ∧ u = s.loadAppears ∧ u.coll h = some c ∧ u.permitted p c.d.tenant.toNat = true ∧ ((c.st = .created ∨ c.st = .offline)) ∧ prefixCause c.d pre ≠ .none ∧ pad.any (· ≠ 0) = false) ∧
    (∃ (p : Port) (h : Handle) (pad pre : Bytes) (c : Coll) (b : Nat) (u s : State), s.takes p false = true ∧ u = s.loadAppears ∧ u.coll h = some c ∧ u.permitted p c.d.tenant.toNat = true ∧ ((c.st = .created ∨ c.st = .offline)) ∧ prefixCause c.d pre = .none ∧ u.openLoads.length < 16 ∧ u.imageBase p (field pre 0x18 8) = some b ∧ pad.any (· ≠ 0) = false) ∧
    (∃ (p : Port) (h : Handle) (pad : Bytes) (c : Coll) (u s : State), s.takes p false = true ∧ u = s.loadAppears ∧ u.coll h = some c ∧ u.permitted p c.d.tenant.toNat = true ∧ c.st = .online ∧ pad.any (· ≠ 0) = false) ∧
    (∃ (p : Port) (off : Nat) (x : Handle × Load) (s : State), s.upstream.contains p = true ∧ s.running = true ∧ s.windowsBacked = true ∧ s.imageAt p off = some x) ∧
    (∃ (p : Port) (off : Nat) (s : State), s.upstream.contains p = true ∧ s.running = true ∧ s.imageAt p off = none) ∧
    (∃ (p : Port) (h : Handle) (pad : Bytes) (c : Coll) (l : Load) (u s : State), s.takes p false = true ∧ u = s.loadAppears ∧ u.coll h = some c ∧ u.permitted p c.d.tenant.toNat = true ∧ c.load = some l ∧ c.st = .loading ∧ l.checking = false ∧ (u.port p).bg = none ∧ pad.any (· ≠ 0) = false) ∧
    (∃ (p : Port) (h : Handle) (pad : Bytes) (u s : State), s.takes p false = true ∧ u = s.loadAppears ∧ u.coll h = none ∧ pad.any (· ≠ 0) = false) ∧
    (∃ (h : Handle) (c : Coll) (l : Load) (s : State), s.coll h = some c ∧ c.load = some l ∧ l.checking = true ∧ c.st = .loading ∧ l.endCause ≠ .none) ∧
    (∃ (h : Handle) (c : Coll) (l : Load) (v s : State), s.coll h = some c ∧ c.load = some l ∧ l.checking = true ∧ c.st = .loading ∧ l.endCause = .none ∧ v = ((if (c.loaded l s.muts.generation).2 then State.bump 0x504007 else id) (s.mapColl h fun _ => { (c.loaded l s.muts.generation).1 with load := none, imageLoaded := true, dataLost := false, imageGeneration := l.generation, journalPosition := l.position })).setCollState h .created ∧ v.ports.a.bg = none ∧ v.ports.b.bg = none) ∧
    (∃ (h : Handle) (c : Coll) (l : Load) (v s : State), s.coll h = some c ∧ c.load = some l ∧ l.checking = true ∧ c.st = .loading ∧ l.endCause = .none ∧ v = ((if (c.loaded l s.muts.generation).2 then State.bump 0x504007 else id) (s.mapColl h fun _ => { (c.loaded l s.muts.generation).1 with load := none, imageLoaded := true, dataLost := false, imageGeneration := l.generation, journalPosition := l.position })).setCollState h .created ∧ v.ports.a.bg = some ⟨0xC023, h.toNat⟩ ∧ v.ports.b.bg = none) ∧
    (∃ (h : Handle) (s : State), s.coll h = none) ∧
    (∃ (p : Port) (h : Handle) (pad : Bytes) (c : Coll) (u s : State), s.takes p false = true ∧ u = s.loadAppears ∧ u.coll h = some c ∧ u.permitted p c.d.tenant.toNat = true ∧ c.st = .loading ∧ pad.any (· ≠ 0) = false) ∧
    (∃ (p : Port) (h : Handle) (pad : Bytes) (c : Coll) (u s : State), s.takes p false = true ∧ u = s.loadAppears ∧ u.coll h = some c ∧ u.permitted p c.d.tenant.toNat = true ∧ c.st ≠ .loading ∧ pad.any (· ≠ 0) = false) ∧
    (∃ (p : Port) (h : Handle) (pad : Bytes) (c : Coll) (u s : State), s.takes p false = true ∧ u = s.loadAppears ∧ u.coll h = some c ∧ u.permitted p c.d.tenant.toNat = true ∧ ((c.st = .created ∨ c.st = .offline)) ∧ c.dataLost = false ∧ pad.any (· ≠ 0) = false) ∧
    (∃ (p : Port) (h : Handle) (pad : Bytes) (c : Coll) (u s : State), s.takes p false = true ∧ u = s.loadAppears ∧ u.coll h = some c ∧ u.permitted p c.d.tenant.toNat = true ∧ c.dataLost = true ∧ pad.any (· ≠ 0) = false) ∧
    (∃ (p : Port) (h : Handle) (pad : Bytes) (c : Coll) (u s : State), s.takes p false = true ∧ u = s.loadAppears ∧ u.coll h = some c ∧ u.permitted p c.d.tenant.toNat = true ∧ c.st = .online ∧ pad.any (· ≠ 0) = false) ∧
    (∃ (p : Port) (h : Handle) (pad : Bytes) (c : Coll) (u s : State), s.takes p false = true ∧ u = s.loadAppears ∧ u.coll h = some c ∧ u.permitted p c.d.tenant.toNat = true ∧ c.st ≠ .online ∧ pad.any (· ≠ 0) = false) :=
  ⟨⟨.a, zeros 256, .fieldRange, _, servIn,
    by decide +kernel,
    rfl,
    by decide +kernel⟩,
   ⟨.a, defBytes, (((servIn.setNum 0x300002 0x1000000000).loadAppears.addColl (newColl (parseDef defBytes) ((servIn.setNum 0x300002 0x1000000000).loadAppears.defTables (parseDef defBytes)))).get (by decide +kernel)), _, servIn.setNum 0x300002 0x1000000000,
    by decide +kernel,
    rfl,
    by decide +kernel⟩,
   ⟨.a, defBytes, _, { servIn with units := { stack := 0xFFF } },
    by decide +kernel,
    rfl,
    by decide +kernel⟩,
   ⟨.a, defBytes, collB .deleting, _, { servIn with colls := [collB .deleting] },
    by decide +kernel,
    rfl,
    by decide +kernel⟩,
   ⟨[],
    by decide +kernel⟩,
   ⟨.a, [1], servIn,
    by decide +kernel⟩,
   ⟨.a, [1], servIn,
    by decide +kernel⟩,
   ⟨.a, [1], servIn,
    by decide +kernel⟩,
   ⟨.a, [1], servIn,
    by decide +kernel⟩,
   ⟨.a, [1], servIn,
    by decide +kernel⟩,
   ⟨.a, [1], servIn,
    by decide +kernel⟩,
   ⟨.a, 0, zeros 6, collA, _, collIn .online,
    by decide +kernel,
    rfl,
    by decide +kernel⟩,
   ⟨.a, 0, zeros 6, _, servIn,
    by decide +kernel,
    rfl,
    by decide +kernel⟩,
   ⟨.a, 0, zeros 6, { coll := collA, port := .a }, _, { collIn .deleting with deferred := [{ coll := collA, port := .a }] },
    by decide +kernel,
    rfl,
    by decide +kernel⟩,
   ⟨0, { collA with st := .deleting }, _, _, collIn .deleting,
    by decide +kernel,
    by decide +kernel,
    by decide +kernel,
    rfl,
    rfl,
    by decide +kernel⟩,
   ⟨0, { collA with st := .deleting }, _, _, { coll := collA, port := .a }, { collIn .deleting with deferred := [{ coll := collA, port := .a }] },
    by decide +kernel,
    by decide +kernel,
    by decide +kernel,
    rfl,
    rfl,
    by decide +kernel⟩,
   ⟨0, collA, collIn .online,
    by decide +kernel⟩,
   ⟨.a, 0, zeros 6, [], { collA with st := .created }, _, collIn .created,
    by decide +kernel,
    rfl,
    by decide +kernel⟩,
   ⟨.a, 0, zeros 6, preA, collB .created, 0, _, { servIn with colls := [collB .created] },
    by decide +kernel,
    rfl,
    by decide +kernel⟩,
   ⟨.a, 0, zeros 6, collA, _, collIn .online,
    by decide +kernel,
    rfl,
    by decide +kernel⟩,
   ⟨.a, 3, (0, { port := .a, base := 0, total := 0x1C0, generation := 1, position := 0, slots := 0, sections := [], bytes := [] }), { servIn with colls := [{ collB .loading with load := some { port := .a, base := 0, total := 0x1C0, generation := 1, position := 0, slots := 0, sections := [], bytes := [] } }] },
    by decide +kernel⟩,
   ⟨.a, 0, servIn,
    by decide +kernel⟩,
   ⟨.a, 0, zeros 6, { collA with st := .loading, load := some loadA }, loadA, _, { collIn .loading with colls := [{ collA with st := .loading, load := some loadA }] },
    by decide +kernel,
    rfl,
    by decide +kernel⟩,
   ⟨.a, 0, zeros 6, _, servIn,
    by decide +kernel,
    rfl,
    by decide +kernel⟩,
   ⟨0, { collA with st := .loading, load := some loadBad }, loadBad, { collIn .loading with colls := [{ collA with st := .loading, load := some loadBad }] },
    by decide +kernel⟩,
   ⟨0, { collB .loading with load := some { port := .a, base := 0, total := 0x1C0, generation := 1, position := 0, slots := 0, sections := [], bytes := [], checking := true } }, { port := .a, base := 0, total := 0x1C0, generation := 1, position := 0, slots := 0, sections := [], bytes := [], checking := true }, _, { servIn with colls := [{ collB .loading with load := some { port := .a, base := 0, total := 0x1C0, generation := 1, position := 0, slots := 0, sections := [], bytes := [], checking := true } }] },
    by decide +kernel,
    by decide +kernel,
    by decide +kernel,
    by decide +kernel,
    by decide +kernel,
    rfl,
    by decide +kernel⟩,
   ⟨0, { collB .loading with load := some { port := .a, base := 0, total := 0x1C0, generation := 1, position := 0, slots := 0, sections := [], bytes := [], checking := true } }, { port := .a, base := 0, total := 0x1C0, generation := 1, position := 0, slots := 0, sections := [], bytes := [], checking := true }, _, { servIn with colls := [{ collB .loading with load := some { port := .a, base := 0, total := 0x1C0, generation := 1, position := 0, slots := 0, sections := [], bytes := [], checking := true } }], ports := { a := { bg := some ⟨0xC023, 0⟩ } } },
    by decide +kernel,
    by decide +kernel,
    by decide +kernel,
    by decide +kernel,
    by decide +kernel,
    rfl,
    by decide +kernel⟩,
   ⟨0, servIn,
    by decide +kernel⟩,
   ⟨.a, 0, zeros 6, { collA with st := .loading }, _, collIn .loading,
    by decide +kernel,
    rfl,
    by decide +kernel⟩,
   ⟨.a, 0, zeros 6, collA, _, collIn .online,
    by decide +kernel,
    rfl,
    by decide +kernel⟩,
   ⟨.a, 0, zeros 6, { collA with st := .created }, _, collIn .created,
    by decide +kernel,
    rfl,
    by decide +kernel⟩,
   ⟨.a, 0, zeros 6, { collA with dataLost := true }, _, { servIn with colls := [{ collA with dataLost := true }] },
    by decide +kernel,
    rfl,
    by decide +kernel⟩,
   ⟨.a, 0, zeros 6, collA, _, collIn .online,
    by decide +kernel,
    rfl,
    by decide +kernel⟩,
   ⟨.a, 0, zeros 6, { collA with st := .created }, _, collIn .created,
    by decide +kernel,
    rfl,
    by decide +kernel⟩⟩
theorem witness_Recipes :
    (∃ (p : Port) (d : Bytes) (u s : State), s.takes p false = true ∧ u = s.loadAppears ∧ d.length = 32 ∧ ((runReservedOk d = false ∨ (parseRun p d).recipe % 64 ≠ 0))) ∧
    (∃ (p : Port) (d : Bytes) (u s : State), s.takes p false = true ∧ u = s.loadAppears ∧ d.length = 32 ∧ runReservedOk d = true ∧ (parseRun p d).recipe % 64 = 0 ∧ 16 ≤ u.tun.queue.length) ∧
    (∃ (p : Port) (d : Bytes) (u s : State), s.takes p false = true ∧ u = s.loadAppears ∧ d.length = 32 ∧ runReservedOk d = true ∧ (parseRun p d).recipe % 64 = 0 ∧ u.tun.queue.length < 16 ∧ u.isOn 0x7020 = false) ∧
    (∃ (d : Bytes), d.length ≠ 32) ∧
    (∃ (d : RunDesc) (q : List RunDesc) (u : State) (st : Nat) (s : State), s.tun.run = none ∧ s.tun.queue = d :: q ∧ s.serves = true ∧ u = { s with tun := { s.tun with queue := q } } ∧ u.runCheck d (u.recipeImage d.recipe) = some st) ∧
    (∃ (r : Run) (s : State), s.tun.run = some r) ∧
    (∃ (cluster : Fin 8) (r : Run) (s : State), s.tun.run = some r ∧ s.running = true ∧ s.tunPowered = true ∧ bit s.units.tun.toNat cluster = false ∧ bit r.d.clusters.toNat cluster = true ∧ s.seamTakes cluster = false ∧ s.scanFirst cluster = false) ∧
    (∃ (cluster : Fin 8) (t s : State), s.running = true ∧ s.tunPowered = true ∧ bit s.units.tun.toNat cluster = false ∧ s.seamTakes cluster = true ∧ t = s.setCluster cluster (fun c => { c with interval := s.now / 10000, seamCycles := s.seamUsed cluster + seamTile })) ∧
    (∃ (cluster : Fin 8) (s : State), s.seamTakes cluster = false ∧ ((s.tun.run = none ∨ s.scanFirst cluster = true))) ∧
    (∃ (cluster : Fin 8) (r : Run) (s : State), s.tun.run = some r ∧ bit s.units.tun.toNat cluster = true) :=
  ⟨⟨.a, [1] ++ zeros 31, _, servIn,
    by decide +kernel,
    rfl,
    by decide +kernel⟩,
   ⟨.a, zeros 32, _, { servIn with tun := { queue := List.replicate 16 runD } },
    by decide +kernel,
    rfl,
    by decide +kernel⟩,
   ⟨.a, zeros 32, _, { servIn with switches := [(0x7020, ⟨.off, none⟩)] },
    by decide +kernel,
    rfl,
    by decide +kernel⟩,
   ⟨[],
    by decide +kernel⟩,
   ⟨runD, [], { servIn with tun := { queue := [] } }, runInvalid, { servIn with tun := { queue := [runD] } },
    by decide +kernel⟩,
   ⟨runA, { servIn with tun := { run := some runA } },
    by decide +kernel⟩,
   ⟨2, runA, { servIn with tun := { run := some runA } },
    by decide +kernel⟩,
   ⟨2, _, { seamIn { collA with st := .created } [basteA true] with tun := { run := some runA } },
    by decide +kernel,
    by decide +kernel,
    by decide +kernel,
    by decide +kernel,
    rfl⟩,
   ⟨2, servIn,
    by decide +kernel⟩,
   ⟨2, runA, { servIn with tun := { run := some runA }, units := { tun := 4 } },
    by decide +kernel⟩⟩
theorem witness_LineReads :
    (∃ (addr : Nat) (e : LineErrors) (stripe : Stripe) (u : State) (x : LineRead) (s : State), s.running = true ∧ s.dev.st ≠ .boot ∧ s.dev.power < 4 ∧ s.readVia .lend addr e stripe = (u, x) ∧ x.outcome = .poison ∧ u.dev.frozen = false) ∧
    (∃ (addr : Nat) (e : LineErrors) (stripe : Stripe) (q : Nat) (u : State) (x : LineRead) (s : State), s.running = true ∧ s.dev.st ≠ .boot ∧ s.dev.power < 4 ∧ s.readVia (s.classOf (.query q)) addr e stripe = (u, x) ∧ x.outcome = .poison ∧ u.dev.frozen = false ∧ x.ofUnit = true) ∧
    (∃ (addr : Nat) (e : LineErrors) (stripe : Stripe) (q : Nat) (u : State) (x : LineRead) (s : State), s.running = true ∧ s.dev.st ≠ .boot ∧ s.dev.power < 4 ∧ s.readVia (s.classOf (.query q)) addr e stripe = (u, x) ∧ x.outcome = .poison ∧ u.dev.frozen = false ∧ x.ofUnit = false) ∧
    (∃ (qid : Nat) (q : Query) (s : State), s.query qid = some q) ∧
    (∃ (addr : Nat) (e : LineErrors) (stripe : Stripe) (r : Reader) (u : State) (x : LineRead) (s : State), s.running = true ∧ s.dev.st ≠ .boot ∧ s.dev.power < 4 ∧ s.readVia (s.classOf r) addr e stripe = (u, x) ∧ ((x.outcome ≠ .poison ∨ u.dev.frozen = true))) ∧
    (∃ (s : State), s.dev.frozen = false) ∧
    (∃ (s : State), s.dev.st = .boot) ∧
    (∃ (c : TrafficClass) (addr : Nat) (s : State), s.cacheable c addr = true ∧ s.addrOffline addr = false ∧ s.cacheHolds addr = true) ∧
    (∃ (addr : Nat) (s : State), s.addrOffline addr = true) ∧
    (∃ (n c line : Nat) (s : State), (s.channel n c).holds line = true) ∧
    (∃ (n c line : Nat) (s : State), (s.channel n c).holds line = false ∧ (s.channel n c).st = .online) ∧
    (∃ (n c : Nat) (s t : State), t = s.noteError n c) ∧
    (∃ (n c line : Nat) (stripe : Stripe) (s : State), (s.channel n c).holds line = false ∧ (s.channel n c).st = .online ∧ (s.countRead 0 1).covered n c = true ∧ badFor c stripe = none) ∧
    (∃ (n c b line : Nat) (addr : Option Nat) (stripe : Stripe) (u s : State), (s.channel n c).holds line = false ∧ (s.channel n c).st = .online ∧ badFor c stripe = some b ∧ c < b ∧ (s.countRead 0 1).covered n c = true ∧ u = ((s.countRead 0 1).bump 0x30000A).raise 0x12 (32 * n + c) (lineDetail addr) none) ∧
    (∃ (n c line : Nat) (addr : Option Nat) (stripe : Stripe) (u s : State), (s.channel n c).holds line = false ∧ (s.channel n c).st = .online ∧ badFor c stripe = none ∧ s.chip.parity = false ∧ u = ((s.countRead 0 1).bump 0x30000A).raise 0x12 (32 * n + c) (lineDetail addr) none) ∧
    (∃ (n c line : Nat) (stripe : Stripe) (s : State), (s.channel n c).holds line = false ∧ (s.channel n c).st ≠ .online ∧ s.covered n c = true ∧ badFor c stripe = none) ∧
    (∃ (n c b line : Nat) (stripe : Stripe) (t u s : State), (s.channel n c).holds line = false ∧ (s.channel n c).st ≠ .online ∧ s.covered n c = true ∧ badFor c stripe = some b ∧ t = (s.bump (key (0x3010 + n) 6)).countRead 0 15 ∧ u = (t.bump 0x30000A).raise 0x12 (32 * n + b) (lineDetail (t.hbmLine n b line)) (if (s.channel n c).st = .offline then (s.channel n c).lossEvent else none)) ∧
    (∃ (n c line : Nat) (s : State), (s.channel n c).holds line = false ∧ (s.channel n c).st ≠ .online ∧ s.covered n c = false) ∧
    (∃ (pkg c : Nat) (addr : Option Nat) (u s : State), u = ((s.countRead 1 1).bump 0x30000A).raise 0x21 (4 * pkg + c) (lineDetail addr) none) ∧
    (∃ (u : ScrubUnit) (s : State), ((s.running = false ∨ s.scrubOpen u = false))) ∧
    (∃ (u : ScrubUnit) (e : LineErrors) (stripe : Stripe) (d : Bool) (t : State) (x : LineOutcome) (s : State), s.running = true ∧ s.dev.power < 3 ∧ s.scrubUp u = true ∧ s.scrubOpen u = true ∧ (s.scrubPass u).began + (s.scrubPass u).line * s.scrubNs / (ScrubUnit.channels u * s.rawLines u) ≤ s.aonNs ∧ (s.scrubPass u).line + 1 < ScrubUnit.channels u * s.rawLines u ∧ s.scrubLine u (s.scrubPass u).line e stripe d = (t, x) ∧ x ≠ .wait) ∧
    (∃ (n : Fin 12) (k line c : Nat) (s : State), s.rawPlace (.stack n) k = (c, some line) ∧ (s.channel n c).holds line = false ∧ (s.channel n c).st = .online ∧ s.covered n c = true ∧ s.dev.frozen = false) :=
  ⟨⟨0, LineErrors.none, .whole, (withExt 0 0 { servIn with units := { stack := 0xFFF } }).poisonLine, { outcome := .poison, ofUnit := true }, (withExt 0 0 { servIn with units := { stack := 0xFFF } }),
    by decide +kernel⟩,
   ⟨0, LineErrors.none, .whole, 0, (withExt 0 0 { servIn with units := { stack := 0xFFF } }).poisonLine, { outcome := .poison, ofUnit := true }, (withExt 0 0 { servIn with units := { stack := 0xFFF } }),
    by decide +kernel⟩,
   ⟨0, .threeOrFour, .whole, 0, (noParity.readVia (noParity.classOf (.query 0)) 0 .threeOrFour .whole).1, (noParity.readVia (noParity.classOf (.query 0)) 0 .threeOrFour .whole).2, noParity,
    by decide +kernel,
    by decide +kernel,
    by decide +kernel,
    rfl,
    by decide +kernel,
    by decide +kernel,
    by decide +kernel⟩,
   ⟨0, queryA .rerank 1, searching (queryA .rerank 1),
    by decide +kernel⟩,
   ⟨0, LineErrors.none, .whole, .device .maint, servIn, {}, servIn,
    by decide +kernel⟩,
   ⟨servIn,
    by decide +kernel⟩,
   ⟨devIn .boot,
    by decide +kernel⟩,
   ⟨.serve, 0, servIn.cacheUse 0,
    by decide +kernel,
    by decide +kernel,
    (by have hk : (servIn.cacheUse 0).slicesOf 0 = servIn.slicesOf 0 := rfl; (simp only [State.cacheHolds, hk]; simp only [State.cacheUse]; rw [lookDef_putDef_same ([] : List Nat) _ _ (by decide)]; decide +kernel))⟩,
   ⟨0, (withExt 0 0 { servIn with units := { stack := 0xFFF } }),
    by decide +kernel⟩,
   ⟨0, 3, 64, chanIn { st := .reconstruct, hold := [(64, [])] },
    by decide +kernel⟩,
   ⟨0, 3, 0, servIn,
    by decide +kernel⟩,
   ⟨0, 3, servIn, _,
    rfl⟩,
   ⟨0, 3, 0, .whole, servIn,
    by decide +kernel⟩,
   ⟨0, 3, 5, 0, some 0, .bad 5, _, servIn,
    by decide +kernel,
    by decide +kernel,
    by decide +kernel,
    by decide +kernel,
    by decide +kernel,
    rfl⟩,
   ⟨0, 3, 0, some 0, .whole, _, { servIn with chip := { servIn.chip with parity := false } },
    by decide +kernel,
    by decide +kernel,
    by decide +kernel,
    by decide +kernel,
    rfl⟩,
   ⟨0, 3, 0, .whole, chanIn { st := .reconstruct },
    by decide +kernel⟩,
   ⟨0, 3, 5, 0, .bad 5, _, _, chanIn { st := .offline },
    by decide +kernel,
    by decide +kernel,
    by decide +kernel,
    by decide +kernel,
    rfl,
    rfl⟩,
   ⟨0, 3, 0, { chanIn { st := .reconstruct } with chip := { servIn.chip with parity := false } },
    by decide +kernel⟩,
   ⟨0, 1, some 0x40000000000, _, servIn,
    rfl⟩,
   ⟨.stack 0, servIn,
    by decide +kernel⟩,
   ⟨.stack 0, LineErrors.none, .whole, false, ((windowIn 5 1).countRead 0 1), .good, windowIn 5 1,
    by decide +kernel⟩,
   ⟨0, 0, 0, 0, servIn,
    by decide +kernel⟩⟩
theorem witness_Retrain :
    (∃ (stack : Fin 12) (channel : Fin 32) (s : State), s.stackPresent stack = true ∧ s.canRetrain stack channel = true ∧ (s.channel stack channel).wanted = true) ∧
    (∃ (stack : Fin 12) (channel : Fin 32) (s : State), s.stackPresent stack = true ∧ s.canRetrain stack channel = false) ∧
    (∃ (stack : Fin 12) (channel : Fin 32) (k i : Nat) (u v s : State), s.stackPresent stack = true ∧ s.canRetrain stack channel = true ∧ s.retrainOpen stack = some k ∧ s.startInstant (s.calEntry k) = some i ∧ s.oldest stack channel = true ∧ s.startAllowed stack (s.calEntry k) i = true ∧ u = s.stackServed k stack i ∧ u.groupOut stack channel = false ∧ v = u.setStack stack { u.stack stack with deferrals := 0 } ∧ (groupOf channel).any (fun i => (v.channel stack i).st == .offline) = false) ∧
    (∃ (stack : Fin 12) (channel : Fin 32) (k i : Nat) (u v s : State), s.stackPresent stack = true ∧ s.canRetrain stack channel = true ∧ s.retrainOpen stack = some k ∧ s.startInstant (s.calEntry k) = some i ∧ s.oldest stack channel = true ∧ s.startAllowed stack (s.calEntry k) i = true ∧ u = s.stackServed k stack i ∧ u.groupOut stack channel = false ∧ v = u.setStack stack { u.stack stack with deferrals := 0 } ∧ (groupOf channel).any (fun i => (v.channel stack i).st == .offline) = true) ∧
    (∃ (stack : Fin 12) (channel : Fin 32) (k i : Nat) (s : State), s.stackPresent stack = true ∧ s.canRetrain stack channel = true ∧ s.retrainOpen stack = some k ∧ s.startInstant (s.calEntry k) = some i ∧ s.startAllowed stack (s.calEntry k) i = false) ∧
    (∃ (stack : Fin 12) (channel : Fin 32) (k i : Nat) (u s : State), s.stackPresent stack = true ∧ s.canRetrain stack channel = true ∧ s.retrainOpen stack = some k ∧ s.startInstant (s.calEntry k) = some i ∧ s.oldest stack channel = true ∧ s.startAllowed stack (s.calEntry k) i = true ∧ u = s.stackServed k stack i ∧ u.groupOut stack channel = true) ∧
    (∃ (stack : Fin 12) (s : State), s.stackPresent stack = true ∧ s.retrainOpen stack = none) ∧
    (∃ (stack : Fin 12) (channel : Fin 32) (s : State), s.stackPresent stack = true ∧ s.running = true ∧ (s.channel stack channel).st = .reconstruct ∧ (s.channel stack channel).forScan = false) ∧
    (∃ (stack : Fin 12) (channel : Fin 32) (s : State), s.stackPresent stack = true ∧ s.running = true ∧ (s.channel stack channel).st = .reconstruct ∧ (s.channel stack channel).forScan = false ∧ (s.channel stack channel).kind = .periodic) ∧
    (∃ (stack : Fin 12) (channel : Fin 32) (s : State), s.stackPresent stack = true ∧ (s.channel stack channel).kind ≠ .periodic) ∧
    (∃ (stack : Fin 12) (channel : Fin 32) (s : State), s.stackPresent stack = true ∧ s.running = true ∧ (s.channel stack channel).st = .reconstruct ∧ (s.channel stack channel).forScan = false ∧ (s.channel stack channel).retried = false ∧ (s.channel stack channel).began + 2000000 ≤ s.aonNs) ∧
    (∃ (stack : Fin 12) (channel : Fin 32) (s : State), s.stackPresent stack = true ∧ s.running = true ∧ (s.channel stack channel).st = .reconstruct ∧ (s.channel stack channel).forScan = false ∧ (s.channel stack channel).retried = true ∧ (s.channel stack channel).began + 2000000 ≤ s.aonNs) ∧
    (∃ (stack : Fin 12) (channel : Fin 32) (s : State), s.stackPresent stack = true ∧ s.aonNs < (s.channel stack channel).began + 2000000) ∧
    (∃ (stack : Fin 12) (channel : Fin 32) (s : State), s.stackPresent stack = true ∧ s.running = true ∧ (s.channel stack channel).st = .draining) ∧
    (∃ (stack : Fin 12) (channel : Fin 32) (s : State), s.stackPresent stack = true ∧ (s.channel stack channel).st ≠ .draining) :=
  ⟨⟨0, 3, chanIn { wanted := true, nextKind := .full },
    by decide +kernel⟩,
   ⟨0, 3, devIn .boot,
    by decide +kernel⟩,
   ⟨0, 3, 20, 1000, _, _, { windowIn 4 1 with switches := (List.range 7).map fun k => (calIndex k, ⟨.off, none⟩) },
    by decide +kernel,
    by decide +kernel,
    by decide +kernel,
    by decide +kernel,
    by decide +kernel,
    by decide +kernel,
    rfl,
    by decide +kernel,
    rfl,
    by decide +kernel⟩,
   ⟨0, 3, 20, 1000, _, _, { (windowIn 4 1).setStack 0 { channels := [(4, { st := .offline })] } with switches := (List.range 7).map fun k => (calIndex k, ⟨.off, none⟩) },
    by decide +kernel,
    by decide +kernel,
    by decide +kernel,
    by decide +kernel,
    by decide +kernel,
    by decide +kernel,
    rfl,
    by decide +kernel,
    rfl,
    by decide +kernel⟩,
   ⟨0, 3, 20, 1000, { windowIn 4 1 with cal := [(20, { openUntil := some 2000000, retrained := [0] })] },
    by decide +kernel⟩,
   ⟨0, 3, 20, 1000, _, { (windowIn 4 1).setStack 0 { channels := [(4, { st := .reconstruct })] } with switches := (List.range 7).map fun k => (calIndex k, ⟨.off, none⟩) },
    by decide +kernel,
    by decide +kernel,
    by decide +kernel,
    by decide +kernel,
    by decide +kernel,
    by decide +kernel,
    rfl,
    by decide +kernel⟩,
   ⟨0, servIn,
    by decide +kernel⟩,
   ⟨0, 3, chanIn { st := .reconstruct },
    by decide +kernel⟩,
   ⟨0, 3, chanIn { st := .reconstruct },
    by decide +kernel⟩,
   ⟨0, 3, chanIn { st := .reconstruct, kind := .full },
    by decide +kernel⟩,
   ⟨0, 3, { chanIn { st := .reconstruct } with ftu := { aon := 1000000 } },
    by decide +kernel⟩,
   ⟨0, 3, { chanIn { st := .reconstruct, retried := true } with ftu := { aon := 1000000 } },
    by decide +kernel⟩,
   ⟨0, 3, chanIn { st := .reconstruct },
    by decide +kernel⟩,
   ⟨0, 3, chanIn { st := .draining },
    by decide +kernel⟩,
   ⟨0, 3, servIn,
    by decide +kernel⟩⟩
theorem witness_Temperature :
    (∃ (stack : Fin 12) (celsius : Int) (x : Stack) (s : State), s.stackPresent stack = true ∧ s.running = true ∧ s.dev.st ≠ .boot ∧ s.dev.power < 4 ∧ celsius < s.threshold 1 ∧ celsius < s.threshold 2 ∧ celsius < s.threshold 3 ∧ (s.stack stack).tier = .normal ∧ x = { s.stack stack with celsius := some celsius, belowWarm := countBelow (celsius < s.threshold 1 - (s.num 0x330004 : Int)) (s.stack stack).belowWarm, belowHot := countBelow (celsius < s.threshold 2 - (s.num 0x330004 : Int)) (s.stack stack).belowHot, belowCritical := countBelow (celsius < s.threshold 3 - 5) (s.stack stack).belowCritical }) ∧
    (∃ (stack : Fin 12) (celsius : Int) (x : Stack) (s : State), s.stackPresent stack = true ∧ s.running = true ∧ s.dev.st ≠ .boot ∧ s.dev.power < 4 ∧ celsius < s.threshold 2 ∧ celsius < s.threshold 3 ∧ (s.stack stack).tier = .warm ∧ x = { s.stack stack with celsius := some celsius, belowWarm := countBelow (celsius < s.threshold 1 - (s.num 0x330004 : Int)) (s.stack stack).belowWarm, belowHot := countBelow (celsius < s.threshold 2 - (s.num 0x330004 : Int)) (s.stack stack).belowHot, belowCritical := countBelow (celsius < s.threshold 3 - 5) (s.stack stack).belowCritical }) ∧
    (∃ (stack : Fin 12) (celsius : Int) (x : Stack) (s : State), s.stackPresent stack = true ∧ s.running = true ∧ s.dev.st ≠ .boot ∧ s.dev.power < 4 ∧ celsius < s.threshold 3 ∧ (s.stack stack).tier = .hot ∧ x = { s.stack stack with celsius := some celsius, belowWarm := countBelow (celsius < s.threshold 1 - (s.num 0x330004 : Int)) (s.stack stack).belowWarm, belowHot := countBelow (celsius < s.threshold 2 - (s.num 0x330004 : Int)) (s.stack stack).belowHot, belowCritical := countBelow (celsius < s.threshold 3 - 5) (s.stack stack).belowCritical }) ∧
    (∃ (stack : Fin 12) (celsius : Int) (x : Stack) (s : State), s.stackPresent stack = true ∧ s.running = true ∧ s.dev.st ≠ .boot ∧ s.dev.power < 4 ∧ (s.stack stack).tier = .critical ∧ x = { s.stack stack with celsius := some celsius, belowWarm := countBelow (celsius < s.threshold 1 - (s.num 0x330004 : Int)) (s.stack stack).belowWarm, belowHot := countBelow (celsius < s.threshold 2 - (s.num 0x330004 : Int)) (s.stack stack).belowHot, belowCritical := countBelow (celsius < s.threshold 3 - 5) (s.stack stack).belowCritical }) ∧
    (∃ (stack : Fin 12) (celsius : Int) (x : Stack) (u s : State), s.stackPresent stack = true ∧ s.running = true ∧ s.dev.st ≠ .boot ∧ s.dev.power < 4 ∧ s.threshold 1 ≤ celsius ∧ celsius < s.threshold 2 ∧ celsius < s.threshold 3 ∧ (s.stack stack).tier = .normal ∧ x = { s.stack stack with celsius := some celsius, tier := .warm, belowWarm := countBelow (celsius < s.threshold 1 - (s.num 0x330004 : Int)) (s.stack stack).belowWarm, belowHot := countBelow (celsius < s.threshold 2 - (s.num 0x330004 : Int)) (s.stack stack).belowHot, belowCritical := countBelow (celsius < s.threshold 3 - 5) (s.stack stack).belowCritical } ∧ u = s.setStack stack x) ∧
    (∃ (stack : Fin 12) (celsius : Int) (x : Stack) (u s : State), s.stackPresent stack = true ∧ s.running = true ∧ s.dev.st ≠ .boot ∧ s.dev.power < 4 ∧ s.threshold 2 ≤ celsius ∧ celsius < s.threshold 3 ∧ (s.stack stack).tier = .normal ∧ x = { s.stack stack with celsius := some celsius, tier := .hot, belowWarm := countBelow (celsius < s.threshold 1 - (s.num 0x330004 : Int)) (s.stack stack).belowWarm, belowHot := countBelow (celsius < s.threshold 2 - (s.num 0x330004 : Int)) (s.stack stack).belowHot, belowCritical := countBelow (celsius < s.threshold 3 - 5) (s.stack stack).belowCritical } ∧ u = (s.setStack stack x).cutScan (fun i => i / 32 = stack)) ∧
    (∃ (stack : Fin 12) (celsius : Int) (x : Stack) (u s : State), s.stackPresent stack = true ∧ s.running = true ∧ s.dev.st ≠ .boot ∧ s.dev.power < 4 ∧ s.threshold 3 ≤ celsius ∧ (s.stack stack).tier = .normal ∧ x = { s.stack stack with celsius := some celsius, tier := .critical, belowWarm := countBelow (celsius < s.threshold 1 - (s.num 0x330004 : Int)) (s.stack stack).belowWarm, belowHot := countBelow (celsius < s.threshold 2 - (s.num 0x330004 : Int)) (s.stack stack).belowHot, belowCritical := countBelow (celsius < s.threshold 3 - 5) (s.stack stack).belowCritical } ∧ u = (s.setStack stack x).cutScan (fun i => i / 32 = stack)) ∧
    (∃ (stack : Fin 12) (celsius : Int) (x : Stack) (u s : State), s.stackPresent stack = true ∧ s.running = true ∧ s.dev.st ≠ .boot ∧ s.dev.power < 4 ∧ s.threshold 2 ≤ celsius ∧ celsius < s.threshold 3 ∧ (s.stack stack).tier = .warm ∧ x = { s.stack stack with celsius := some celsius, tier := .hot, belowWarm := countBelow (celsius < s.threshold 1 - (s.num 0x330004 : Int)) (s.stack stack).belowWarm, belowHot := countBelow (celsius < s.threshold 2 - (s.num 0x330004 : Int)) (s.stack stack).belowHot, belowCritical := countBelow (celsius < s.threshold 3 - 5) (s.stack stack).belowCritical } ∧ u = (s.setStack stack x).cutScan (fun i => i / 32 = stack)) ∧
    (∃ (stack : Fin 12) (celsius : Int) (x : Stack) (u s : State), s.stackPresent stack = true ∧ s.running = true ∧ s.dev.st ≠ .boot ∧ s.dev.power < 4 ∧ s.threshold 3 ≤ celsius ∧ (s.stack stack).tier = .warm ∧ x = { s.stack stack with celsius := some celsius, tier := .critical, belowWarm := countBelow (celsius < s.threshold 1 - (s.num 0x330004 : Int)) (s.stack stack).belowWarm, belowHot := countBelow (celsius < s.threshold 2 - (s.num 0x330004 : Int)) (s.stack stack).belowHot, belowCritical := countBelow (celsius < s.threshold 3 - 5) (s.stack stack).belowCritical } ∧ u = (s.setStack stack x).cutScan (fun i => i / 32 = stack)) ∧
    (∃ (stack : Fin 12) (celsius : Int) (x : Stack) (u s : State), s.stackPresent stack = true ∧ s.running = true ∧ s.dev.st ≠ .boot ∧ s.dev.power < 4 ∧ s.threshold 3 ≤ celsius ∧ (s.stack stack).tier = .hot ∧ x = { s.stack stack with celsius := some celsius, tier := .critical, belowWarm := countBelow (celsius < s.threshold 1 - (s.num 0x330004 : Int)) (s.stack stack).belowWarm, belowHot := countBelow (celsius < s.threshold 2 - (s.num 0x330004 : Int)) (s.stack stack).belowHot, belowCritical := countBelow (celsius < s.threshold 3 - 5) (s.stack stack).belowCritical } ∧ u = (s.setStack stack x).cutScan (fun i => i / 32 = stack)) ∧
    (∃ (stack : Fin 12) (s : State), s.stackPresent stack = true ∧ (s.stack stack).belowCritical < 10000) ∧
    (∃ (stack : Fin 12) (s : State), s.stackPresent stack = true ∧ (((s.stack stack).tier ≠ .critical ∨ (s.stack stack).zeroFilling = true))) ∧
    (∃ (stack : Fin 12) (u s : State), s.stackPresent stack = true ∧ s.running = true ∧ (s.stack stack).tier = .critical ∧ 10000 ≤ (s.stack stack).belowCritical ∧ (s.stack stack).zeroFilling = false ∧ bit s.units.stack.toNat stack = true ∧ u = (List.range 32).foldl (fun (s : State) c => if (s.channel stack c).st == .offline then s else (s.mapChannel stack c fun y => { y with st := .online, hold := [], marked := [], trained := s.aonNs, wanted := false, nextKind := .periodic, retried := false, errors := [], lastFull := some s.aonNs }).bump (key (0x3010 + stack) 5)) s ∧ ((groupOf 0).filter fun c => (u.channel stack c).st == .offline) = [] ∧ ((groupOf 16).filter fun c => (u.channel stack c).st == .offline) = []) ∧
    (∃ (stack : Fin 12) (u s : State), s.stackPresent stack = true ∧ s.running = true ∧ (s.stack stack).zeroFilling = true ∧ u = s.setStack stack { s.stack stack with zeroFilling := false, tier := tierOf ((s.stack stack).fallen 2) }) ∧
    (∃ (stack : Fin 12) (s : State), s.stackPresent stack = true ∧ (s.stack stack).zeroFilling = false) ∧
    (∃ (pkg : Fin 24) (s : State), bit s.chip.fitted.toNat pkg = true ∧ s.running = true ∧ s.dev.st ≠ .boot ∧ s.dev.power < 4 ∧ bit s.units.package.toNat pkg = false) ∧
    (∃ (pkg : Fin 24) (s : State), bit s.chip.fitted.toNat pkg = true ∧ s.running = true ∧ s.dev.st ≠ .boot ∧ s.dev.power < 4 ∧ bit s.units.package.toNat pkg = false) :=
  ⟨⟨0, 40, _, servIn,
    by decide +kernel,
    by decide +kernel,
    by decide +kernel,
    by decide +kernel,
    by decide +kernel,
    by decide +kernel,
    by decide +kernel,
    by decide +kernel,
    rfl⟩,
   ⟨0, 60, _, servIn.setStack 0 { tier := .warm, belowWarm := 9 },
    by decide +kernel,
    by decide +kernel,
    by decide +kernel,
    by decide +kernel,
    by decide +kernel,
    by decide +kernel,
    by decide +kernel,
    rfl⟩,
   ⟨0, 85, _, servIn.setStack 0 { tier := .hot, belowHot := 9 },
    by decide +kernel,
    by decide +kernel,
    by decide +kernel,
    by decide +kernel,
    by decide +kernel,
    by decide +kernel,
    rfl⟩,
   ⟨0, 40, _, servIn.setStack 0 { tier := .critical },
    by decide +kernel,
    by decide +kernel,
    by decide +kernel,
    by decide +kernel,
    by decide +kernel,
    rfl⟩,
   ⟨0, 90, _, _, servIn,
    by decide +kernel,
    by decide +kernel,
    by decide +kernel,
    by decide +kernel,
    by decide +kernel,
    by decide +kernel,
    by decide +kernel,
    by decide +kernel,
    rfl,
    rfl⟩,
   ⟨0, 100, _, _, servIn,
    by decide +kernel,
    by decide +kernel,
    by decide +kernel,
    by decide +kernel,
    by decide +kernel,
    by decide +kernel,
    by decide +kernel,
    rfl,
    rfl⟩,
   ⟨0, 120, _, _, servIn,
    by decide +kernel,
    by decide +kernel,
    by decide +kernel,
    by decide +kernel,
    by decide +kernel,
    by decide +kernel,
    rfl,
    rfl⟩,
   ⟨0, 100, _, _, servIn.setStack 0 { tier := .warm },
    by decide +kernel,
    by decide +kernel,
    by decide +kernel,
    by decide +kernel,
    by decide +kernel,
    by decide +kernel,
    by decide +kernel,
    rfl,
    rfl⟩,
   ⟨0, 120, _, _, servIn.setStack 0 { tier := .warm },
    by decide +kernel,
    by decide +kernel,
    by decide +kernel,
    by decide +kernel,
    by decide +kernel,
    by decide +kernel,
    rfl,
    rfl⟩,
   ⟨0, 120, _, _, servIn.setStack 0 { tier := .hot },
    by decide +kernel,
    by decide +kernel,
    by decide +kernel,
    by decide +kernel,
    by decide +kernel,
    by decide +kernel,
    rfl,
    rfl⟩,
   ⟨0, servIn,
    by decide +kernel⟩,
   ⟨0, servIn,
    by decide +kernel⟩,
   ⟨0, _, { (servIn.setStack 0 { tier := .critical, belowCritical := 10000 }) with units := { stack := 1 } },
    by decide +kernel,
    by decide +kernel,
    by decide +kernel,
    by decide +kernel,
    by decide +kernel,
    by decide +kernel,
    rfl,
    by decide +kernel⟩,
   ⟨0, _, servIn.setStack 0 { zeroFilling := true },
    by decide +kernel,
    by decide +kernel,
    by decide +kernel,
    rfl⟩,
   ⟨0, servIn,
    by decide +kernel⟩,
   ⟨0, { servIn with chip := { fitted := 1 } },
    by decide +kernel⟩,
   ⟨0, { servIn with chip := { fitted := 1 } },
    by decide +kernel⟩⟩
theorem witness_UnitFailures :
    (∃ (src n : Nat) (s : State), s.running = true ∧ s.dev.st ≠ .boot ∧ s.unitUp src n = true) ∧
    (∃ (src n : Nat) (s : State), s.unitUp src n = false) ∧
    (∃ (u : UnitRef), u.index < unitCount u.kind) ∧
    (∃ (u : UnitRef), unitCount u.kind ≤ u.index) ∧
    (∃ (pkg : Fin 24) (s : State), bit s.chip.fitted.toNat pkg = true) ∧
    (∃ (s : State), s.chip.portBRoot = true) ∧
    (∃ (s : State), s.chip.portBRoot = false) :=
  ⟨⟨0x38, 2, servIn,
    by decide +kernel⟩,
   ⟨0x38, 2, { servIn with units := { tun := 4 } },
    by decide +kernel⟩,
   ⟨⟨.tun, 2⟩,
    by decide +kernel⟩,
   ⟨⟨.tun, 8⟩,
    by decide +kernel⟩,
   ⟨0, { servIn with chip := { fitted := 1 } },
    by decide +kernel⟩,
   ⟨{ servIn with chip := { portBRoot := true } },
    by decide +kernel⟩,
   ⟨servIn,
    by decide +kernel⟩⟩
theorem witness_SelfTestCommands :
    (∃ (p : Port) (kind : Byte) (reserved : Bytes) (s : State), s.takes p false = true ∧ reserved.any (· ≠ 0) = false ∧ ((kind = 1 ∨ kind = 2)) ∧ s.dev.power < 3 ∧ s.testBusy = false ∧ (s.port p).bg = none) ∧
    (∃ (p : Port) (kind : Byte) (reserved : Bytes) (s : State), s.takes p false = true ∧ (((kind ≠ 1 ∧ kind ≠ 2) ∨ reserved.any (· ≠ 0) = true))) ∧
    (∃ (p : Port) (s : State), s.takes p true = true) ∧
    (∃ (r : SliceRef) (x : SelfTest) (s : State), s.test.selfTest = some x ∧ s.slicePhase r ≠ 3 ∧ x.left.contains r = true ∧ x.phase ≤ s.slicePhase r ∧ x.left.all (fun y => s.slicePhase r ≤ s.slicePhase y) = true ∧ ((x.paused = true → s.aonNs ≤ x.pausedAt + 100000)) ∧ s.sliceLater r = false ∧ s.canTest r = true) ∧
    (∃ (r : SliceRef) (x : SelfTest) (s : State), s.test.selfTest = some x ∧ s.slicePhase r ≠ 3 ∧ x.left.contains r = true ∧ x.phase ≤ s.slicePhase r ∧ x.left.all (fun y => s.slicePhase r ≤ s.slicePhase y) = true ∧ ((x.paused = true → s.aonNs ≤ x.pausedAt + 100000)) ∧ s.sliceLater r = false ∧ s.canTest r = true) ∧
    (∃ (r : SliceRef) (x : SelfTest) (s : State), s.test.selfTest = some x ∧ s.slicePhase r ≠ 3 ∧ x.left.contains r = true ∧ x.phase ≤ s.slicePhase r ∧ x.left.all (fun y => s.slicePhase r ≤ s.slicePhase y) = true ∧ ((x.paused = true → s.aonNs ≤ x.pausedAt + 100000)) ∧ s.sliceLater r = false ∧ s.canTest r = false) ∧
    (∃ (r : SliceRef) (x : SelfTest) (s : State), s.test.selfTest = some x ∧ s.sliceLater r = true) ∧
    (∃ (s : State), s.test.selfTest = none) ∧
    (∃ (x : SelfTest) (s : State), s.test.selfTest = some x ∧ x.paused = true ∧ x.idleSince + s.num 0xD30003 ≤ s.aonNs ∧ s.search.queries = [] ∧ s.spools.sub.all (fun y => y.outstanding = 0) = true) ∧
    (∃ (x : SelfTest) (s : State), s.test.selfTest = some x ∧ x.paused = false) ∧
    (∃ (x : SelfTest) (s : State), s.test.selfTest = some x ∧ x.begun + s.num (if x.extended then 0xD30005 else 0xD30004) * 1000000000 ≤ s.aonNs) ∧
    (∃ (x : SelfTest) (s : State), s.test.selfTest = some x ∧ s.aonNs < x.begun + s.num (if x.extended then 0xD30005 else 0xD30004) * 1000000000) :=
  ⟨⟨.a, 1, zeros 7, servIn,
    by decide +kernel⟩,
   ⟨.a, 3, zeros 7, servIn,
    by decide +kernel⟩,
   ⟨.a, servIn,
    by decide +kernel⟩,
   ⟨.compute ⟨.tun, 0⟩, { port := .a, extended := false, started := 10, left := [.compute ⟨.tun, 0⟩, .compute ⟨.tun, 1⟩] }, testIn { port := .a, extended := false, started := 10, left := [.compute ⟨.tun, 0⟩, .compute ⟨.tun, 1⟩] },
    by decide +kernel⟩,
   ⟨.compute ⟨.tun, 0⟩, { port := .a, extended := false, started := 10, left := [.compute ⟨.tun, 0⟩, .compute ⟨.tun, 1⟩] }, testIn { port := .a, extended := false, started := 10, left := [.compute ⟨.tun, 0⟩, .compute ⟨.tun, 1⟩] },
    by decide +kernel⟩,
   ⟨.compute ⟨.tun, 0⟩, { port := .a, extended := false, started := 10, left := [.compute ⟨.tun, 0⟩, .compute ⟨.tun, 1⟩] }, { testIn { port := .a, extended := false, started := 10, left := [.compute ⟨.tun, 0⟩, .compute ⟨.tun, 1⟩] } with units := { tun := 1 } },
    by decide +kernel⟩,
   ⟨.compute ⟨.tun, 0⟩, { port := .a, extended := false, started := 10, left := [.compute ⟨.tun, 0⟩, .compute ⟨.tun, 1⟩] }, { testIn { port := .a, extended := false, started := 10, left := [.compute ⟨.tun, 0⟩, .compute ⟨.tun, 1⟩] } with tun := { run := some runA } },
    by decide +kernel⟩,
   ⟨servIn,
    by decide +kernel⟩,
   ⟨{ port := .a, extended := false, started := 10, paused := true }, { testIn { port := .a, extended := false, started := 10, paused := true } with ftu := { aon := 1000000000000 } },
    by decide +kernel⟩,
   ⟨{ port := .a, extended := false, started := 10, left := [.compute ⟨.tun, 0⟩, .compute ⟨.tun, 1⟩] }, testIn { port := .a, extended := false, started := 10, left := [.compute ⟨.tun, 0⟩, .compute ⟨.tun, 1⟩] },
    by decide +kernel⟩,
   ⟨{ port := .a, extended := false, started := 10, left := [.compute ⟨.tun, 0⟩, .compute ⟨.tun, 1⟩] }, { testIn { port := .a, extended := false, started := 10, left := [.compute ⟨.tun, 0⟩, .compute ⟨.tun, 1⟩] } with ftu := { aon := 100000000000000 } },
    by decide +kernel⟩,
   ⟨{ port := .a, extended := false, started := 10, left := [.compute ⟨.tun, 0⟩, .compute ⟨.tun, 1⟩] }, testIn { port := .a, extended := false, started := 10, left := [.compute ⟨.tun, 0⟩, .compute ⟨.tun, 1⟩] },
    by decide +kernel⟩⟩
theorem witness_TestAccessPort :
    (∃ (u s : State), s.dev.st ≠ .off ∧ u = { s with test := { s.test with tap := { s.test.tap with ir := 0x01, driven := false } } }) ∧
    (∃ (u s : State), s.dev.st ≠ .off ∧ u = { s with test := { s.test with tap := { s.test.tap with ir := 0x02, driven := false } } }) ∧
    (∃ (u s : State), s.dev.st ≠ .off ∧ u = { s with test := { s.test with tap := { s.test.tap with ir := 0x03, driven := false } } } ∧ ((u.dev.frozen = true ∨ (u.dev.st = .boot ∧ u.dev.mainEn = false)))) ∧
    (∃ (u s : State), s.dev.st ≠ .off ∧ u = { s with test := { s.test with tap := { s.test.tap with ir := 0x03, driven := false } } } ∧ u.dev.frozen = false ∧ ((u.dev.st ≠ .boot ∨ u.dev.mainEn = true))) ∧
    (∃ (u s : State), s.dev.st ≠ .off ∧ u = { s with test := { s.test with tap := { s.test.tap with ir := 0x40, driven := false } } }) ∧
    (∃ (u s : State), s.dev.st ≠ .off ∧ u = { s with test := { s.test with tap := { s.test.tap with ir := 0x41, driven := false } } }) ∧
    (∃ (u s : State), s.dev.st ≠ .off ∧ u = { s with test := { s.test with tap := { s.test.tap with ir := 0x42, driven := false } } }) ∧
    (∃ (code : Byte) (s : State), s.dev.st ≠ .off ∧ [(0x01 : Byte), 0x02, 0x03, 0x40, 0x41, 0x42].contains code = false) ∧
    (∃ (s : State), s.dev.st = .off) :=
  ⟨⟨_, servIn,
    by decide +kernel,
    rfl⟩,
   ⟨_, servIn,
    by decide +kernel,
    rfl⟩,
   ⟨_, { devIn .serving with dev := { (devIn .serving).dev with frozen := true } },
    by decide +kernel,
    rfl,
    by decide +kernel⟩,
   ⟨_, servIn,
    by decide +kernel,
    rfl,
    by decide +kernel⟩,
   ⟨_, servIn,
    by decide +kernel,
    rfl⟩,
   ⟨_, servIn,
    by decide +kernel,
    rfl⟩,
   ⟨_, servIn,
    by decide +kernel,
    rfl⟩,
   ⟨0xFF, servIn,
    by decide +kernel⟩,
   ⟨State.reset,
    by decide +kernel⟩⟩
theorem witness_Transports :
    (∃ (ip : BitVec 32) (udp : BitVec 16) (b : Bytes) (u : State) (r : State × Answer) (x : Kept) (s : State), s.heard (.pap ip udp) = true ∧ s.policy (.pap ip udp) ≠ 0 ∧ papHead b = true ∧ (parsePap b).op = PapOp.get.code ∧ papLength PapOp.get (parsePap b) = true ∧ u = s.rollSecond ∧ u.rateLeft (.pap ip udp) = true ∧ s.keptFor (.pap ip udp) (parsePap b).requestId = none ∧ r = s.papPerform (.pap ip udp) PapOp.get (parsePap b) ∧ x = ⟨(.pap ip udp), (parsePap b).requestId, r.1.aonNs, (parsePap b).answer r.2⟩) ∧
    (∃ (ip : BitVec 32) (udp : BitVec 16) (b : Bytes) (u : State) (r : State × Answer) (x : Kept) (s : State), s.heard (.pap ip udp) = true ∧ s.policy (.pap ip udp) ≠ 0 ∧ papHead b = true ∧ (parsePap b).op = PapOp.set.code ∧ papLength PapOp.set (parsePap b) = true ∧ u = s.rollSecond ∧ u.rateLeft (.pap ip udp) = true ∧ s.keptFor (.pap ip udp) (parsePap b).requestId = none ∧ r = s.papPerform (.pap ip udp) PapOp.set (parsePap b) ∧ x = ⟨(.pap ip udp), (parsePap b).requestId, r.1.aonNs, (parsePap b).answer r.2⟩) ∧
    (∃ (ip : BitVec 32) (udp : BitVec 16) (b : Bytes) (u : State) (r : State × Answer) (x : Kept) (s : State), s.heard (.pap ip udp) = true ∧ s.policy (.pap ip udp) ≠ 0 ∧ papHead b = true ∧ (parsePap b).op = PapOp.commit.code ∧ papLength PapOp.commit (parsePap b) = true ∧ u = s.rollSecond ∧ u.rateLeft (.pap ip udp) = true ∧ s.keptFor (.pap ip udp) (parsePap b).requestId = none ∧ r = s.papPerform (.pap ip udp) PapOp.commit (parsePap b) ∧ x = ⟨(.pap ip udp), (parsePap b).requestId, r.1.aonNs, (parsePap b).answer r.2⟩) ∧
    (∃ (ip : BitVec 32) (udp : BitVec 16) (b : Bytes) (u : State) (r : State × Answer) (x : Kept) (s : State), s.heard (.pap ip udp) = true ∧ s.policy (.pap ip udp) ≠ 0 ∧ papHead b = true ∧ (parsePap b).op = PapOp.resync.code ∧ papLength PapOp.resync (parsePap b) = true ∧ u = s.rollSecond ∧ u.rateLeft (.pap ip udp) = true ∧ s.keptFor (.pap ip udp) (parsePap b).requestId = none ∧ r = s.papPerform (.pap ip udp) PapOp.resync (parsePap b) ∧ x = ⟨(.pap ip udp), (parsePap b).requestId, r.1.aonNs, (parsePap b).answer r.2⟩) ∧
    (∃ (eid : Byte) (b : Bytes) (u : State) (r : State × Answer) (x : Kept) (s : State), s.heard (.mctp eid) = true ∧ s.policy (.mctp eid) ≠ 0 ∧ papHead b = true ∧ (parsePap b).op = PapOp.get.code ∧ papLength PapOp.get (parsePap b) = true ∧ u = s.rollSecond ∧ u.rateLeft (.mctp eid) = true ∧ s.keptFor (.mctp eid) (parsePap b).requestId = none ∧ r = s.papPerform (.mctp eid) PapOp.get (parsePap b) ∧ x = ⟨(.mctp eid), (parsePap b).requestId, r.1.aonNs, (parsePap b).answer r.2⟩) ∧
    (∃ (eid : Byte) (b : Bytes) (u : State) (r : State × Answer) (x : Kept) (s : State), s.heard (.mctp eid) = true ∧ s.policy (.mctp eid) ≠ 0 ∧ papHead b = true ∧ (parsePap b).op = PapOp.set.code ∧ papLength PapOp.set (parsePap b) = true ∧ u = s.rollSecond ∧ u.rateLeft (.mctp eid) = true ∧ s.keptFor (.mctp eid) (parsePap b).requestId = none ∧ r = s.papPerform (.mctp eid) PapOp.set (parsePap b) ∧ x = ⟨(.mctp eid), (parsePap b).requestId, r.1.aonNs, (parsePap b).answer r.2⟩) ∧
    (∃ (eid : Byte) (b : Bytes) (u : State) (r : State × Answer) (x : Kept) (s : State), s.heard (.mctp eid) = true ∧ s.policy (.mctp eid) ≠ 0 ∧ papHead b = true ∧ (parsePap b).op = PapOp.commit.code ∧ papLength PapOp.commit (parsePap b) = true ∧ u = s.rollSecond ∧ u.rateLeft (.mctp eid) = true ∧ s.keptFor (.mctp eid) (parsePap b).requestId = none ∧ r = s.papPerform (.mctp eid) PapOp.commit (parsePap b) ∧ x = ⟨(.mctp eid), (parsePap b).requestId, r.1.aonNs, (parsePap b).answer r.2⟩) ∧
    (∃ (eid : Byte) (b : Bytes) (u : State) (r : State × Answer) (x : Kept) (s : State), s.heard (.mctp eid) = true ∧ s.policy (.mctp eid) ≠ 0 ∧ papHead b = true ∧ (parsePap b).op = PapOp.resync.code ∧ papLength PapOp.resync (parsePap b) = true ∧ u = s.rollSecond ∧ u.rateLeft (.mctp eid) = true ∧ s.keptFor (.mctp eid) (parsePap b).requestId = none ∧ r = s.papPerform (.mctp eid) PapOp.resync (parsePap b) ∧ x = ⟨(.mctp eid), (parsePap b).requestId, r.1.aonNs, (parsePap b).answer r.2⟩) ∧
    (∃ (src : Source) (s : State), s.heard src = false) ∧
    (∃ (src : Source) (b : Bytes) (s : State), s.heard src = true ∧ ((s.policy src = 0 ∨ papHead b = false))) ∧
    (∃ (src : Source) (op : PapOp) (b : Bytes) (s : State), s.heard src = true ∧ s.policy src ≠ 0 ∧ papHead b = true ∧ (parsePap b).op = op.code ∧ papLength op (parsePap b) = false) ∧
    (∃ (src : Source) (op : PapOp) (b : Bytes) (u s : State), s.heard src = true ∧ s.policy src ≠ 0 ∧ papHead b = true ∧ (parsePap b).op = op.code ∧ papLength op (parsePap b) = true ∧ u = s.rollSecond ∧ u.rateLeft src = false) ∧
    (∃ (src : Source) (op : PapOp) (b : Bytes) (u : State) (x : Kept) (s : State), s.heard src = true ∧ s.policy src ≠ 0 ∧ papHead b = true ∧ (parsePap b).op = op.code ∧ papLength op (parsePap b) = true ∧ u = s.rollSecond ∧ u.rateLeft src = true ∧ s.keptFor src (parsePap b).requestId = some x) ∧
    (∃ (a : Answer), a.value.length < 2 ^ 16) ∧
    (∃ (src : Source) (s : State), s.stagingOf src = none) ∧
    (∃ (src : Source) (x : Staging) (s : State), s.stagingOf src = some x) :=
  ⟨⟨0x0A000001, 7000, papA 1 4 [], _, _, _, netIn,
    by decide +kernel,
    by decide +kernel,
    by decide +kernel,
    by decide +kernel,
    by decide +kernel,
    rfl,
    by decide +kernel,
    by decide +kernel,
    rfl,
    rfl⟩,
   ⟨0x0A000001, 7000, papA 2 1 [1], _, _, _, netIn,
    by decide +kernel,
    by decide +kernel,
    by decide +kernel,
    by decide +kernel,
    by decide +kernel,
    rfl,
    by decide +kernel,
    by decide +kernel,
    rfl,
    rfl⟩,
   ⟨0x0A000001, 7000, papA 3 0 [], _, _, _, netIn,
    by decide +kernel,
    by decide +kernel,
    by decide +kernel,
    by decide +kernel,
    by decide +kernel,
    rfl,
    by decide +kernel,
    by decide +kernel,
    rfl,
    rfl⟩,
   ⟨0x0A000001, 7000, papA 4 4 [], _, _, _, netIn,
    by decide +kernel,
    by decide +kernel,
    by decide +kernel,
    by decide +kernel,
    by decide +kernel,
    rfl,
    by decide +kernel,
    by decide +kernel,
    rfl,
    rfl⟩,
   ⟨9, papA 1 4 [], _, _, _, netIn,
    by decide +kernel,
    by decide +kernel,
    by decide +kernel,
    by decide +kernel,
    by decide +kernel,
    rfl,
    by decide +kernel,
    by decide +kernel,
    rfl,
    rfl⟩,
   ⟨9, papA 2 1 [1], _, _, _, netIn,
    by decide +kernel,
    by decide +kernel,
    by decide +kernel,
    by decide +kernel,
    by decide +kernel,
    rfl,
    by decide +kernel,
    by decide +kernel,
    rfl,
    rfl⟩,
   ⟨9, papA 3 0 [], _, _, _, netIn,
    by decide +kernel,
    by decide +kernel,
    by decide +kernel,
    by decide +kernel,
    by decide +kernel,
    rfl,
    by decide +kernel,
    by decide +kernel,
    rfl,
    rfl⟩,
   ⟨9, papA 4 4 [], _, _, _, netIn,
    by decide +kernel,
    by decide +kernel,
    by decide +kernel,
    by decide +kernel,
    by decide +kernel,
    rfl,
    by decide +kernel,
    by decide +kernel,
    rfl,
    rfl⟩,
   ⟨.pap 1 2, State.reset,
    by decide +kernel⟩,
   ⟨.pap 1 2, [], netIn,
    by decide +kernel⟩,
   ⟨.pap 1 2, .get, papA 1 4 [1], netIn,
    by decide +kernel⟩,
   ⟨.pap 1 2, .get, papA 1 4 [], _, { netIn with trans := { secondCount := 10000 } },
    by decide +kernel,
    by decide +kernel,
    by decide +kernel,
    by decide +kernel,
    by decide +kernel,
    rfl,
    by decide +kernel⟩,
   ⟨.pap 1 2, .get, papA 1 4 [], _, ⟨.pap 1 2, 7, 0, []⟩, { netIn with trans := { kept := [⟨.pap 1 2, 7, 0, []⟩] } },
    by decide +kernel,
    by decide +kernel,
    by decide +kernel,
    by decide +kernel,
    by decide +kernel,
    rfl,
    by decide +kernel⟩,
   ⟨⟨0, 0, 0, []⟩,
    by decide +kernel⟩,
   ⟨.pap 1 2, { netIn with ftu := { aon := 2000000000 }, trans := { staging := [⟨.pap 1 2, 5, [], 0⟩] } },
    by decide +kernel⟩,
   ⟨.pap 1 2, ⟨.pap 1 2, 5, [], 0⟩, { netIn with trans := { staging := [⟨.pap 1 2, 5, [], 0⟩] } },
    by decide +kernel⟩⟩
theorem witness_EventTimers :
    (∃ (source : Byte) (inst : BitVec 16) (detail : BitVec 64) (r : Option Nat) (u s : State), s.dev.st ≠ .off ∧ u = s.raise source.toNat inst.toNat detail.toNat r ∧ source ≠ 0x39 ∧ source ≠ 0x42) ∧
    (∃ (inst : BitVec 16) (detail : BitVec 64) (r : Option Nat) (u : State) (x : Run) (s : State), s.dev.st ≠ .off ∧ u = s.raise 0x39 inst.toNat detail.toNat r ∧ u.dev.frozen = false ∧ u.tun.run = some x) ∧
    (∃ (s : State), s.dev.st = .off) ∧
    (∃ (t : Nat) (s : State), s.thimble.pulse = some t ∧ t ≤ s.aonNs) ∧
    (∃ (t : Nat) (s : State), s.thimble.pulse = some t ∧ s.aonNs < t) ∧
    (∃ (n t : Nat) (e : Event) (s : State), s.thimble.opened.find? (fun e => e.sequence = n) = some e ∧ e.timer = some t ∧ t ≤ s.aonNs ∧ s.dev.frozen = false ∧ s.dev.st ≠ .off) ∧
    (∃ (n t : Nat) (e : Event) (s : State), s.thimble.opened.find? (fun e => e.sequence = n) = some e ∧ e.timer = some t ∧ ((s.aonNs < t ∨ s.dev.frozen = true))) ∧
    (∃ (n : Nat) (s : State), s.thimble.opened.find? (fun e => e.sequence = n) = none) :=
  ⟨⟨0x10, 0, 0, none, _, servIn,
    by decide +kernel,
    rfl,
    by decide +kernel⟩,
   ⟨0, 0, none, _, runA, { servIn with tun := { run := some runA } },
    by decide +kernel,
    rfl,
    by decide +kernel⟩,
   ⟨State.reset,
    by decide +kernel⟩,
   ⟨5, { servIn with ftu := { aon := 5 }, thimble := { pulse := some 5 } },
    by decide +kernel⟩,
   ⟨5, { servIn with thimble := { pulse := some 5 } },
    by decide +kernel⟩,
   ⟨5, 0, eventA, { servIn with thimble := { opened := [eventA] } },
    by decide +kernel⟩,
   ⟨5, 0, eventA, { servIn with dev := { servIn.dev with frozen := true }, thimble := { opened := [eventA] } },
    by decide +kernel⟩,
   ⟨5, servIn,
    by decide +kernel⟩⟩
theorem witness_LinkTraining :
    (∃ (link : Fin 32) (s : State), s.linkPresent link = true ∧ (s.link link).st = .detect ∧ s.linkRuns link = true ∧ s.dev.refclk.getLsbD 1 = true) ∧
    (∃ (link : Fin 32) (s : State), s.linkPresent link = true ∧ (s.link link).st = .detect ∧ s.linkRuns link = true ∧ s.dev.refclk.getLsbD 1 = false) ∧
    (∃ (link : Fin 32) (s : State), s.linkPresent link = true ∧ (s.link link).st = .measure ∧ s.linkRuns link = true) ∧
    (∃ (link : Fin 32) (oui : BitVec 24) (s : State), s.linkPresent link = true ∧ (s.link link).st = .autoneg ∧ s.linkRuns link = true ∧ oui ≠ s.chip.vendorOui) ∧
    (∃ (link : Fin 32) (s : State), s.linkPresent link = true ∧ (s.link link).st = .autoneg ∧ s.linkRuns link = true) ∧
    (∃ (link : Fin 32) (s : State), s.linkPresent link = true ∧ (s.link link).st = .train ∧ s.linkRuns link = true ∧ (s.link link).optical = false) ∧
    (∃ (link : Fin 32) (lanes : BitVec 4) (s : State), s.linkPresent link = true ∧ (s.link link).st = .train ∧ s.linkRuns link = true ∧ lanes ≠ 0xF ∧ lanes ≠ 0x3 ∧ lanes ≠ 0xC) ∧
    (∃ (link : Fin 32) (s : State), s.linkPresent link = true ∧ (s.link link).st = .connect ∧ s.linkRuns link = true) ∧
    (∃ (link : Fin 32) (s : State), s.linkPresent link = true ∧ (s.link link).st ≠ .connect) ∧
    (∃ (link : Nat) (w : BitVec 64) (c : Nat) (s : State), (s.link link).partner = some w ∧ (s.link link).st = .connect ∧ s.linkRuns link = true ∧ s.numbered = true ∧ s.connectCause link w = some c) ∧
    (∃ (link : Fin 32) (n : Nat) (s : State), s.linkPresent link = true ∧ s.linkRuns link = true ∧ (s.link link).st.limit = some n ∧ (s.link link).since + n ≤ s.aonNs ∧ (s.link link).timeouts < 2) ∧
    (∃ (link : Fin 32) (n : Nat) (s : State), s.linkPresent link = true ∧ s.linkRuns link = true ∧ (s.link link).st.limit = some n ∧ (s.link link).since + n ≤ s.aonNs ∧ 2 ≤ (s.link link).timeouts) ∧
    (∃ (link : Fin 32) (n : Nat) (s : State), s.linkPresent link = true ∧ (s.link link).st.limit = some n ∧ s.aonNs < (s.link link).since + n) ∧
    (∃ (link : Fin 32) (s : State), s.linkPresent link = true ∧ (s.link link).st = .fault ∧ s.linkRuns link = true ∧ (s.link link).faultAt + 1000000000 ≤ s.aonNs) ∧
    (∃ (link : Fin 32) (s : State), s.linkPresent link = true ∧ (s.link link).st = .fault ∧ s.linkRuns link = true ∧ s.aonNs < (s.link link).faultAt + 1000000000) ∧
    (∃ (link : Fin 32) (s : State), s.linkPresent link = true ∧ (s.link link).st = .up ∧ s.running = true) ∧
    (∃ (link : Fin 32) (s : State), s.linkPresent link = true ∧ (s.link link).optical = true ∧ s.running = true) ∧
    (∃ (link : Fin 32) (celsius : Int) (u s : State), s.linkPresent link = true ∧ (s.link link).optical = true ∧ s.running = true ∧ u = s.setNum (key (linkIndex link) 0xF) (BitVec.ofInt 32 celsius).toNat ∧ (u.link link).st ≠ .disabled ∧ (u.link link).st ≠ .fault) ∧
    (∃ (link : Fin 32) (t : Nat) (s : State), s.linkPresent link = true ∧ (s.link link).st = .connect ∧ s.linkRuns link = true ∧ (s.link link).invalidSince = some t ∧ s.numbered = true ∧ t + 10000000000 < s.aonNs) :=
  ⟨⟨0, linkIn { st := .detect },
    by decide +kernel⟩,
   ⟨0, { linkIn { st := .detect } with dev := { servIn.dev with refclk := 5 } },
    by decide +kernel⟩,
   ⟨0, linkIn { st := .measure },
    by decide +kernel⟩,
   ⟨0, 5, { linkIn { st := .autoneg } with chip := { vendorOui := 6 } },
    by decide +kernel⟩,
   ⟨0, linkIn { st := .autoneg },
    by decide +kernel⟩,
   ⟨0, linkIn { st := .train },
    by decide +kernel⟩,
   ⟨0, 1, linkIn { st := .train },
    by decide +kernel⟩,
   ⟨0, linkIn { st := .connect },
    by decide +kernel⟩,
   ⟨0, servIn,
    by decide +kernel⟩,
   ⟨0, 0, 2, numIn { st := .connect, partner := some 0 },
    by decide +kernel⟩,
   ⟨0, 3000000000, { linkIn { st := .train } with ftu := { aon := 1000000000 } },
    by decide +kernel⟩,
   ⟨0, 3000000000, { linkIn { st := .train, timeouts := 2 } with ftu := { aon := 1000000000 } },
    by decide +kernel⟩,
   ⟨0, 3000000000, linkIn { st := .train },
    by decide +kernel⟩,
   ⟨0, { linkIn { st := .fault } with ftu := { aon := 100000000 } },
    by decide +kernel⟩,
   ⟨0, linkIn { st := .fault },
    by decide +kernel⟩,
   ⟨0, linkIn { st := .up },
    by decide +kernel⟩,
   ⟨0, linkIn { st := .up, optical := true },
    by decide +kernel⟩,
   ⟨0, 40, _, linkIn { st := .up, optical := true },
    by decide +kernel,
    by decide +kernel,
    by decide +kernel,
    rfl,
    by decide +kernel⟩,
   ⟨0, 0, { numIn { st := .connect, invalidSince := some 0 } with ftu := { aon := 2000000000 } },
    by decide +kernel⟩⟩
theorem witness_LinkControl :
    (∃ (link : Fin 32) (r : Rx) (f : Frame) (s : State), s.linkPresent link = true ∧ s.running = true ∧ s.linkUp link = true ∧ s.hears link r f = true ∧ f.kind = .control ∧ f.op = 1) ∧
    (∃ (link : Fin 32) (r : Rx) (f : Frame) (s : State), s.linkPresent link = true ∧ s.running = true ∧ s.linkUp link = true ∧ s.hears link r f = true ∧ f.kind = .control ∧ f.op = 2) ∧
    (∃ (q : BitVec 32) (l : Link), (l.replay.any fun x => x.1 = q) = false) ∧
    (∃ (q : BitVec 32) (l : Link), (l.replay.any fun x => x.1 = q) = true) ∧
    (∃ (link : Fin 32) (r : Rx) (f : Frame) (u v s : State), s.linkPresent link = true ∧ s.running = true ∧ s.linkUp link = true ∧ s.hears link r f = true ∧ f.kind = .control ∧ f.op = 3 ∧ u = (s.tookFrame link r).mapLink link (Link.release (f.operand.truncate 32)) ∧ v = (u.mapLink link fun l => { l with replays := u.aonNs :: l.replays.filter fun t => u.aonNs < t + 1000000000 }).bump (key (linkIndex link) 0xB) ∧ (v.link link).replays.length ≤ 1000) ∧
    (∃ (link : Fin 32) (r : Rx) (f : Frame) (u v s : State), s.linkPresent link = true ∧ s.running = true ∧ s.linkUp link = true ∧ s.hears link r f = true ∧ f.kind = .control ∧ f.op = 3 ∧ u = (s.tookFrame link r).mapLink link (Link.release (f.operand.truncate 32)) ∧ v = (u.mapLink link fun l => { l with replays := u.aonNs :: l.replays.filter fun t => u.aonNs < t + 1000000000 }).bump (key (linkIndex link) 0xB) ∧ 1000 < (v.link link).replays.length ∧ (v.link link).st = .up) ∧
    (∃ (link : Fin 32) (r : Rx) (s : State), s.linkPresent link = true ∧ s.running = true ∧ s.linkUp link = true ∧ (s.link link).whole r.wire = false) ∧
    (∃ (link : Fin 32) (r : Rx) (f : Frame) (s : State), s.linkPresent link = true ∧ s.running = true ∧ s.linkUp link = true ∧ (s.link link).whole r.wire = true ∧ (s.link link).frameOf r.wire = some f ∧ f.kind = .control ∧ f.op = 1 ∧ wireSeq r.wire ≠ (s.link link).seqIn) ∧
    (∃ (link : Fin 32) (s : State), s.linkPresent link = true ∧ s.running = true ∧ s.linkUp link = true ∧ (s.link link).encrypted = true) ∧
    (∃ (link : Fin 32) (s : State), s.linkPresent link = true ∧ s.running = true ∧ s.linkUp link = true ∧ (s.link link).encrypted = false) ∧
    (∃ (link : Fin 32) (late : List Sent) (u s : State), s.linkPresent link = true ∧ s.running = true ∧ s.linkUp link = true ∧ late = ((s.link link).waiting.filter fun x => x.since + s.num 0x810004 < s.aonNs) ∧ u = (s.mapLink link fun l => { l with waiting := l.waiting.filter fun x => s.aonNs ≤ x.since + s.num 0x810004 }).bumpBy 0x810007 late.length) ∧
    (∃ (link : Fin 32) (r : Rx) (f : Frame) (s : State), s.linkPresent link = true ∧ (s.link link).st = .connect ∧ s.linkRuns link = true ∧ s.hears link r f = true ∧ f.kind = .control ∧ f.op = 4) ∧
    (∃ (w : BitVec 64), w.getLsbD 63 = true) ∧
    (∃ (link : Fin 32) (r : Rx) (f : Frame) (u s : State), s.linkPresent link = true ∧ (s.link link).st = .connect ∧ s.linkRuns link = true ∧ s.hears link r f = true ∧ f.kind = .control ∧ f.op = 5 ∧ u = (s.tookFrame link r).accepted link (s.link link).seqIn (some 2)) ∧
    (∃ (link : Fin 32) (r : Rx) (f : Frame) (s : State), s.linkPresent link = true ∧ s.running = true ∧ s.linkUp link = true ∧ s.hears link r f = true ∧ f.kind = .control ∧ f.op = 5) ∧
    (∃ (link : Fin 32) (s : State), s.linkPresent link = true ∧ (s.link link).st = .connect ∧ s.linkRuns link = true ∧ s.inSession link = false) :=
  ⟨⟨0, rxA (controlA 1 0x401), controlA 1 0x401, linkIn linkUpA,
    by decide +kernel⟩,
   ⟨0, rxA (controlA 2 0), controlA 2 0, linkIn linkUpA,
    by decide +kernel⟩,
   ⟨0, {},
    by decide +kernel⟩,
   ⟨0, { replay := [(0, [])] },
    by decide +kernel⟩,
   ⟨0, rxA (controlA 3 0), controlA 3 0, _, _, linkIn linkUpA,
    by decide +kernel,
    by decide +kernel,
    by decide +kernel,
    by decide +kernel,
    by decide +kernel,
    by decide +kernel,
    rfl,
    rfl,
    by decide +kernel⟩,
   ⟨0, rxA (controlA 3 0), controlA 3 0, _, _, linkIn { linkUpA with replays := List.replicate 1000 0 },
    by decide +kernel,
    by decide +kernel,
    by decide +kernel,
    by decide +kernel,
    by decide +kernel,
    by decide +kernel,
    rfl,
    rfl,
    by decide +kernel⟩,
   ⟨0, ⟨[], {}⟩, linkIn linkUpA,
    by decide +kernel⟩,
   ⟨0, rxA (controlA 1 0x401), controlA 1 0x401, linkIn { linkUpA with seqIn := 5 },
    by decide +kernel⟩,
   ⟨0, linkIn { linkUpA with encrypted := true },
    by decide +kernel⟩,
   ⟨0, linkIn linkUpA,
    by decide +kernel⟩,
   ⟨0, _, _, linkIn linkUpA,
    by decide +kernel,
    by decide +kernel,
    by decide +kernel,
    rfl,
    rfl⟩,
   ⟨0, rxA (controlA 4 5), controlA 4 5, linkIn { st := .connect },
    by decide +kernel⟩,
   ⟨0x8000000000000000,
    by decide +kernel⟩,
   ⟨0, rxA (controlA 5 0), controlA 5 0, _, linkIn { st := .connect },
    by decide +kernel,
    by decide +kernel,
    by decide +kernel,
    by decide +kernel,
    by decide +kernel,
    by decide +kernel,
    rfl⟩,
   ⟨0, rxA (controlA 5 0), controlA 5 0, linkIn linkUpA,
    by decide +kernel⟩,
   ⟨0, linkIn { st := .connect },
    by decide +kernel⟩⟩
theorem witness_RemoteOperations :
    (∃ (link : Fin 32) (r : Rx) (f : Frame) (u : State) (x : State × RemoteAns) (s : State), s.linkPresent link = true ∧ s.running = true ∧ s.linkUp link = true ∧ s.hears link r f = true ∧ f.kind = .request ∧ f.op = opPut ∧ wireSound r.wire = true ∧ u = (s.tookFrame link r).accepted link (s.link link).seqIn (some 0) ∧ u.dev.st ≠ .fenced ∧ f.dest.toNat = u.devNum ∧ x = u.perform ⟨f.op, addrLocal f.address, f.operand, f.payload, f.operand.toNat, f.src.toNat⟩ true link []) ∧
    (∃ (link : Fin 32) (r : Rx) (f : Frame) (faults : List LineFault) (u : State) (x : State × RemoteAns) (s : State), s.linkPresent link = true ∧ s.running = true ∧ s.linkUp link = true ∧ s.hears link r f = true ∧ f.kind = .request ∧ f.op = opGet ∧ wireSound r.wire = true ∧ u = (s.tookFrame link r).accepted link (s.link link).seqIn (some 0) ∧ u.dev.st ≠ .fenced ∧ f.dest.toNat = u.devNum ∧ x = u.perform ⟨f.op, addrLocal f.address, f.operand, f.payload, f.operand.toNat, f.src.toNat⟩ true link faults) ∧
    (∃ (link : Fin 32) (r : Rx) (f : Frame) (faults : List LineFault) (u : State) (x : State × RemoteAns) (s : State), s.linkPresent link = true ∧ s.running = true ∧ s.linkUp link = true ∧ s.hears link r f = true ∧ f.kind = .request ∧ f.op = opAdd ∧ wireSound r.wire = true ∧ u = (s.tookFrame link r).accepted link (s.link link).seqIn (some 0) ∧ u.dev.st ≠ .fenced ∧ f.dest.toNat = u.devNum ∧ x = u.perform ⟨f.op, addrLocal f.address, f.operand, f.payload, f.operand.toNat, f.src.toNat⟩ true link faults) ∧
    (∃ (link : Fin 32) (r : Rx) (f : Frame) (faults : List LineFault) (u : State) (x : State × RemoteAns) (s : State), s.linkPresent link = true ∧ s.running = true ∧ s.linkUp link = true ∧ s.hears link r f = true ∧ f.kind = .request ∧ f.op = opCas ∧ wireSound r.wire = true ∧ u = (s.tookFrame link r).accepted link (s.link link).seqIn (some 0) ∧ u.dev.st ≠ .fenced ∧ f.dest.toNat = u.devNum ∧ x = u.perform ⟨f.op, addrLocal f.address, f.operand, f.payload, f.operand.toNat, f.src.toNat⟩ true link faults) ∧
    (∃ (link : Fin 32) (r : Rx) (f : Frame) (faults : List LineFault) (u : State) (x : State × RemoteAns) (s : State), s.linkPresent link = true ∧ s.running = true ∧ s.linkUp link = true ∧ s.hears link r f = true ∧ f.kind = .request ∧ f.op = opSwap ∧ wireSound r.wire = true ∧ u = (s.tookFrame link r).accepted link (s.link link).seqIn (some 0) ∧ u.dev.st ≠ .fenced ∧ f.dest.toNat = u.devNum ∧ x = u.perform ⟨f.op, addrLocal f.address, f.operand, f.payload, f.operand.toNat, f.src.toNat⟩ true link faults) ∧
    (∃ (link : Fin 32) (r : Rx) (f : Frame) (u : State) (x : State × RemoteAns) (s : State), s.linkPresent link = true ∧ s.running = true ∧ s.linkUp link = true ∧ s.hears link r f = true ∧ f.kind = .request ∧ f.op = opMerge ∧ wireSound r.wire = true ∧ u = (s.tookFrame link r).accepted link (s.link link).seqIn (some 0) ∧ u.dev.st ≠ .fenced ∧ f.dest.toNat = u.devNum ∧ x = u.perform ⟨f.op, addrLocal f.address, f.operand, f.payload, f.operand.toNat, f.src.toNat⟩ true link []) ∧
    (∃ (link : Fin 32) (r : Rx) (f : Frame) (u : State) (x : State × RemoteAns) (s : State), s.linkPresent link = true ∧ s.running = true ∧ s.linkUp link = true ∧ s.hears link r f = true ∧ f.kind = .request ∧ f.op = opFence ∧ wireSound r.wire = true ∧ u = (s.tookFrame link r).accepted link (s.link link).seqIn (some 0) ∧ u.dev.st ≠ .fenced ∧ f.dest.toNat = u.devNum ∧ x = u.perform ⟨f.op, addrLocal f.address, f.operand, f.payload, f.operand.toNat, f.src.toNat⟩ true link []) ∧
    (∃ (link : Fin 32) (r : Rx) (f : Frame) (u : State) (x : State × RemoteAns) (s : State), s.linkPresent link = true ∧ s.running = true ∧ s.linkUp link = true ∧ s.hears link r f = true ∧ f.kind = .request ∧ f.op = opSignal ∧ wireSound r.wire = true ∧ u = (s.tookFrame link r).accepted link (s.link link).seqIn (some 0) ∧ u.dev.st ≠ .fenced ∧ f.dest.toNat = u.devNum ∧ x = u.perform ⟨f.op, addrLocal f.address, f.operand, f.payload, f.operand.toNat, f.src.toNat⟩ true link []) ∧
    (∃ (s : State), s.dev.st = .fenced) ∧
    (∃ (s : State), s.dev.st ≠ .fenced) ∧
    (∃ (f : Frame) (s : State), s.dev.st ≠ .fenced ∧ f.dest.toNat ≠ s.devNum) ∧
    (∃ (o : RemoteOp), o.op = opFence) ∧
    (∃ (o : RemoteOp), knownOp o.op = false) ∧
    (∃ (link : Fin 32) (r : Rx) (f : Frame) (u s : State), s.linkPresent link = true ∧ s.running = true ∧ s.linkUp link = true ∧ s.hears link r f = true ∧ f.kind = .request ∧ knownOp f.op = false ∧ wireSound r.wire = true ∧ u = (s.tookFrame link r).accepted link (s.link link).seqIn (some 0) ∧ u.dev.st ≠ .fenced ∧ f.dest.toNat = u.devNum) ∧
    (∃ (o : RemoteOp), 1 ≤ o.op.toNat ∧ o.op.toNat ≤ 8 ∧ o.op ≠ opFence ∧ shapeOk o.op o.addr o.len o.payload.length = false) ∧
    (∃ (o : RemoteOp) (s u : State), u = s.loadAppears ∧ u.granted o = false) ∧
    (∃ (o : RemoteOp) (s u : State), u = s.loadAppears ∧ u.granted o = true ∧ rightOf o.op ≠ none ∧ u.backedRange o.addr o.size = false) ∧
    (∃ (o : RemoteOp) (s u : State), u = s.loadAppears ∧ u.granted o = true ∧ o.op = opPut ∧ u.backedRange o.addr o.size = true ∧ u.addrOffline o.addr = false) ∧
    (∃ (o : RemoteOp) (fs : List LineFault) (s u v : State), u = s.loadAppears ∧ u.granted o = true ∧ ((o.op = opGet ∨ o.op = opAdd ∨ o.op = opCas ∨ o.op = opSwap)) ∧ u.backedRange o.addr o.size = true ∧ u.addrOffline o.addr = false ∧ u.readLines fs (linesOf o.addr o.size) = (v, true)) ∧
    (∃ (link : Fin 32) (r : Rx) (f : Frame) (u : State) (x : Req) (s : State), s.linkPresent link = true ∧ s.running = true ∧ s.linkUp link = true ∧ s.hears link r f = true ∧ f.kind = .response ∧ f.status = 0 ∧ u = (s.tookFrame link r).accepted link (s.link link).seqIn (some 1) ∧ f.dest.toNat = u.devNum ∧ u.request f.tag = some x) ∧
    (∃ (link : Fin 32) (s : State), s.linkPresent link = true ∧ (s.link link).st ≠ .connect ∧ s.linkUp link = false) :=
  ⟨⟨0, rxA (frameA opPut 64 [1]), frameA opPut 64 [1], _, _, numIn linkUpA,
    by decide +kernel,
    by decide +kernel,
    by decide +kernel,
    by decide +kernel,
    by decide +kernel,
    by decide +kernel,
    by decide +kernel,
    rfl,
    by decide +kernel,
    by decide +kernel,
    rfl⟩,
   ⟨0, rxA (frameA opGet 64 []), frameA opGet 64 [], [], _, _, numIn linkUpA,
    by decide +kernel,
    by decide +kernel,
    by decide +kernel,
    by decide +kernel,
    by decide +kernel,
    by decide +kernel,
    by decide +kernel,
    rfl,
    by decide +kernel,
    by decide +kernel,
    rfl⟩,
   ⟨0, rxA (frameA opAdd 64 []), frameA opAdd 64 [], [], _, _, numIn linkUpA,
    by decide +kernel,
    by decide +kernel,
    by decide +kernel,
    by decide +kernel,
    by decide +kernel,
    by decide +kernel,
    by decide +kernel,
    rfl,
    by decide +kernel,
    by decide +kernel,
    rfl⟩,
   ⟨0, rxA (frameA opCas 64 []), frameA opCas 64 [], [], _, _, numIn linkUpA,
    by decide +kernel,
    by decide +kernel,
    by decide +kernel,
    by decide +kernel,
    by decide +kernel,
    by decide +kernel,
    by decide +kernel,
    rfl,
    by decide +kernel,
    by decide +kernel,
    rfl⟩,
   ⟨0, rxA (frameA opSwap 64 []), frameA opSwap 64 [], [], _, _, numIn linkUpA,
    by decide +kernel,
    by decide +kernel,
    by decide +kernel,
    by decide +kernel,
    by decide +kernel,
    by decide +kernel,
    by decide +kernel,
    rfl,
    by decide +kernel,
    by decide +kernel,
    rfl⟩,
   ⟨0, rxA (frameA opMerge 64 []), frameA opMerge 64 [], _, _, numIn linkUpA,
    by decide +kernel,
    by decide +kernel,
    by decide +kernel,
    by decide +kernel,
    by decide +kernel,
    by decide +kernel,
    by decide +kernel,
    rfl,
    by decide +kernel,
    by decide +kernel,
    rfl⟩,
   ⟨0, rxA (frameA opFence 64 []), frameA opFence 64 [], _, _, numIn linkUpA,
    by decide +kernel,
    by decide +kernel,
    by decide +kernel,
    by decide +kernel,
    by decide +kernel,
    by decide +kernel,
    by decide +kernel,
    rfl,
    by decide +kernel,
    by decide +kernel,
    rfl⟩,
   ⟨0, rxA (frameA opSignal 64 []), frameA opSignal 64 [], _, _, numIn linkUpA,
    by decide +kernel,
    by decide +kernel,
    by decide +kernel,
    by decide +kernel,
    by decide +kernel,
    by decide +kernel,
    by decide +kernel,
    rfl,
    by decide +kernel,
    by decide +kernel,
    rfl⟩,
   ⟨{ numIn linkUpA with dev := { servIn.dev with st := .fenced } },
    by decide +kernel⟩,
   ⟨numIn linkUpA,
    by decide +kernel⟩,
   ⟨{ frameA opGet 64 [] with dest := 3 }, numIn linkUpA,
    by decide +kernel⟩,
   ⟨⟨opFence, 0, 0, [], 0, 2⟩,
    by decide +kernel⟩,
   ⟨⟨9, 0, 0, [], 0, 2⟩,
    by decide +kernel⟩,
   ⟨0, rxA (frameA 9 64 []), frameA 9 64 [], _, numIn linkUpA,
    by decide +kernel,
    by decide +kernel,
    by decide +kernel,
    by decide +kernel,
    by decide +kernel,
    by decide +kernel,
    by decide +kernel,
    rfl,
    by decide +kernel⟩,
   ⟨⟨opAdd, 4, 0, [], 0, 2⟩,
    by decide +kernel⟩,
   ⟨⟨opAdd, 64, 8, [], 0, 2⟩, servIn, servIn,
    by decide +kernel⟩,
   ⟨⟨opAdd, 64, 8, [], 0, 2⟩, ((((numIn linkUpA).setNum 0x820001 1).setNum 0x820003 0x1000).setNum 0x820004 7).setNum 0x820006 0xFFF, ((((numIn linkUpA).setNum 0x820001 1).setNum 0x820003 0x1000).setNum 0x820004 7).setNum 0x820006 0xFFF,
    rfl,
    by decide +kernel⟩,
   ⟨⟨opPut, 64, 8, [1], 0, 2⟩, withExt 0 0 ((((((numIn linkUpA).setNum 0x820001 1).setNum 0x820003 0x1000).setNum 0x820004 7).setNum 0x820006 0xFFF).setNum 0x300002 0x1000000), withExt 0 0 ((((((numIn linkUpA).setNum 0x820001 1).setNum 0x820003 0x1000).setNum 0x820004 7).setNum 0x820006 0xFFF).setNum 0x300002 0x1000000),
    rfl,
    by decide +kernel⟩,
   ⟨⟨opGet, 64, 8, [], 8, 2⟩, [⟨64, .threeOrFour, .whole⟩], withExt 0 0 ({ ((((((numIn linkUpA).setNum 0x820001 1).setNum 0x820003 0x1000).setNum 0x820004 7).setNum 0x820006 0xFFF).setNum 0x300002 0x1000000) with chip := { servIn.chip with parity := false } }), withExt 0 0 ({ ((((((numIn linkUpA).setNum 0x820001 1).setNum 0x820003 0x1000).setNum 0x820004 7).setNum 0x820006 0xFFF).setNum 0x300002 0x1000000) with chip := { servIn.chip with parity := false } }), ((withExt 0 0 ({ ((((((numIn linkUpA).setNum 0x820001 1).setNum 0x820003 0x1000).setNum 0x820004 7).setNum 0x820006 0xFFF).setNum 0x300002 0x1000000) with chip := { servIn.chip with parity := false } })).readLines [⟨64, .threeOrFour, .whole⟩] [64]).1,
    by decide +kernel⟩,
   ⟨0, rxA { frameA opGet 64 [] with kind := .response }, { frameA opGet 64 [] with kind := .response }, _, reqA .probe, { numIn linkUpA with fabric := { links := [(0, linkUpA)], outstanding := [reqA .probe] } },
    by decide +kernel,
    by decide +kernel,
    by decide +kernel,
    by decide +kernel,
    by decide +kernel,
    by decide +kernel,
    rfl,
    by decide +kernel⟩,
   ⟨0, servIn,
    by decide +kernel⟩⟩
theorem witness_Requests :
    (∃ (tag : BitVec 32) (r : Req) (s : State), s.request tag = some r ∧ s.running = true ∧ r.issued + s.num 0x810003 ≤ s.aonNs) ∧
    (∃ (tag : BitVec 32) (r : Req) (s : State), s.request tag = some r ∧ s.aonNs < r.issued + s.num 0x810003) ∧
    (∃ (tag : BitVec 32) (s : State), s.request tag = none) ∧
    (∃ (slot : Fin 512) (u s : State), s.upstream.contains (slotPort slot) = true ∧ s.running = true ∧ ((s.dev.st.ready = true ∨ s.dev.st = .fenced)) ∧ u = s.devWrite (slotBase slot + 0x3F) [0] ∧ (u.readSlot slot).ok = false) ∧
    (∃ (slot : Fin 512) (faults : List LineFault) (u v s : State), s.upstream.contains (slotPort slot) = true ∧ s.running = true ∧ s.dev.st.ready = true ∧ u = s.devWrite (slotBase slot + 0x3F) [0] ∧ (u.readSlot slot).ok = true ∧ u.dev.st ≠ .fenced ∧ u.sourceStop (u.readSlot slot) faults = (v, none)) ∧
    (∃ (slot : Fin 512) (faults : List LineFault) (u v : State) (st : Byte) (s : State), s.upstream.contains (slotPort slot) = true ∧ s.running = true ∧ s.dev.st.ready = true ∧ u = s.devWrite (slotBase slot + 0x3F) [0] ∧ (u.readSlot slot).ok = true ∧ u.dev.st ≠ .fenced ∧ u.sourceStop (u.readSlot slot) faults = (v, some st)) ∧
    (∃ (slot : Fin 512) (u s : State), s.upstream.contains (slotPort slot) = true ∧ s.running = true ∧ s.dev.st = .fenced ∧ u = s.devWrite (slotBase slot + 0x3F) [0] ∧ (u.readSlot slot).ok = true ∧ u.dev.st = .fenced) ∧
    (∃ (window : Fin 64) (id : BitVec 32) (shard : Nat) (r : MergeRec) (x : ShardState) (s : State), s.mergeRec window id = some r ∧ r.shards[shard]? = some x ∧ s.running = true ∧ s.num 0x830005 ≠ 0 ∧ x.dispatched + s.num 0x830005 ≤ s.now ∧ x.result = none ∧ x.heard = false ∧ x.current ≠ none ∧ s.nextReplica x ≠ none) ∧
    (∃ (window : Fin 64) (id : BitVec 32) (s : State), s.mergeRec window id = none) ∧
    (∃ (window : Fin 64) (id : BitVec 32) (r : MergeRec) (s : State), s.mergeRec window id = some r ∧ s.running = true ∧ r.cutoff ≤ s.now) ∧
    (∃ (window : Fin 64) (id : BitVec 32) (r : MergeRec) (s : State), s.mergeRec window id = some r ∧ s.now < r.cutoff) :=
  ⟨⟨9, reqA .probe, { servIn with ftu := { aon := 100000000000 }, fabric := { outstanding := [reqA .probe] } },
    by decide +kernel⟩,
   ⟨9, reqA .probe, { servIn with fabric := { outstanding := [reqA .probe] } },
    by decide +kernel⟩,
   ⟨9, servIn,
    by decide +kernel⟩,
   ⟨0, _, servIn,
    by decide +kernel,
    by decide +kernel,
    by decide +kernel,
    rfl,
    by decide +kernel⟩,
   ⟨0, [], _, (servIn2.devWrite (slotBase 0 + 0x3F) [0]), servIn2,
    by decide +kernel,
    by decide +kernel,
    by decide +kernel,
    rfl,
    by decide +kernel⟩,
   ⟨0, [], _, servIn3.devWrite (slotBase 0 + 0x3F) [0], rsAlign, servIn3,
    by decide +kernel,
    by decide +kernel,
    by decide +kernel,
    rfl,
    by decide +kernel⟩,
   ⟨0, _, { servIn2 with dev := { servIn2.dev with st := .fenced } },
    by decide +kernel,
    by decide +kernel,
    by decide +kernel,
    rfl,
    by decide +kernel⟩,
   ⟨0, 5, 0, recA { replicas := [2, 3], tried := [2], current := some 2, dispatched := 0 }, { replicas := [2, 3], tried := [2], current := some 2, dispatched := 0 }, { (servIn.setNum 0x830005 1000).setNum 0x800001 3 with ftu := { st := .locked, now := 2000000 }, fabric := { records := [recA { replicas := [2, 3], tried := [2], current := some 2, dispatched := 0 }] } },
    by decide +kernel⟩,
   ⟨0, 5, servIn,
    by decide +kernel⟩,
   ⟨0, 5, recA { replicas := [2, 3], tried := [2], current := some 2, dispatched := 0 }, { servIn with fabric := { records := [recA { replicas := [2, 3], tried := [2], current := some 2, dispatched := 0 }] } },
    by decide +kernel⟩,
   ⟨0, 5, { recA { replicas := [2, 3], tried := [2], current := some 2, dispatched := 0 } with cutoff := 5000 }, { servIn with fabric := { records := [{ recA { replicas := [2, 3], tried := [2], current := some 2, dispatched := 0 } with cutoff := 5000 }] } },
    by decide +kernel⟩⟩
theorem witness_InterfaceTests :
    (∃ (bits errors : Nat) (t0 : Time) (x : TestRun) (b e : Nat) (u v s : State), s.test.loop = some x ∧ x.waiting = false ∧ x.deadline ≤ s.aonNs ∧ s.running = true ∧ b = min (s.num 0xD10007 + bits) (2 ^ 64 - 1) ∧ e = min (s.num 0xD10008 + errors) b ∧ u = (s.setNum 0xD10007 b).setNum 0xD10008 e ∧ (v = (if errors = 0 ∨ u.num 0xD1000A ≠ 0 then u else u.setNum 0xD1000A t0))) ∧
    (∃ (bits : Nat) (s : State), ((digitalDepth s.loopPort s.loopDepth = true ∨ bits = 0))) ∧
    (∃ (bits : Nat) (s : State), digitalDepth s.loopPort s.loopDepth = false ∧ bits ≠ 0) ∧
    (∃ (x : TestRun) (s : State), s.test.loop = some x ∧ s.num 0xD10002 ≠ 1 ∧ s.scannedChannel = none) ∧
    (∃ (x : TestRun) (s : State), s.test.loop = some x ∧ s.aonNs < x.deadline) ∧
    (∃ (i : Nat) (u v s : State), s.waitingChannel = some (false, i) ∧ s.scanInstant (i / 32) (i % 32) = true ∧ u = s.mapChannel (i / 32) (i % 32) (fun c => { c with st := .reconstruct, forScan := true, wanted := false }) ∧ v = u.marginRuns ∧ (v.sw 0xD200).st ≠ .starting) ∧
    (∃ (i : Nat) (u v s : State), s.waitingChannel = some (false, i) ∧ s.scanInstant (i / 32) (i % 32) = true ∧ u = s.mapChannel (i / 32) (i % 32) (fun c => { c with st := .reconstruct, forScan := true, wanted := false }) ∧ v = u.marginRuns ∧ v.sw 0xD200 = ⟨.starting, none⟩) ∧
    (∃ (s : State), s.waitingChannel = none) ∧
    (∃ (i : Nat) (x : TestRun) (s : State), s.waitingChannel = some (false, i) ∧ s.test.margin = some x ∧ 1000000000 + x.since ≤ s.aonNs) ∧
    (∃ (i : Nat) (x : TestRun) (s : State), s.waitingChannel = some (true, i) ∧ s.test.loop = some x ∧ 1000000000 + x.since ≤ s.aonNs) ∧
    (∃ (x : TestRun) (s : State), s.test.margin = some x ∧ x.waiting = false ∧ s.running = true ∧ x.step ≠ s.sideSteps x.setting) ∧
    (∃ (x : TestRun) (s : State), s.test.margin = some x ∧ x.waiting = false ∧ s.running = true ∧ x.step = s.sideSteps x.setting) ∧
    (∃ (x : TestRun) (s : State), s.test.margin = some x ∧ x.waiting = false ∧ s.running = true) ∧
    (∃ (x : TestRun), x.setting ≠ 7) ∧
    (∃ (x : TestRun), x.setting = 7) :=
  ⟨⟨64, 3, 500, { waiting := false, since := 0, deadline := 0 }, _, _, _, _, { servIn with test := { loop := some { waiting := false, since := 0, deadline := 0 } } },
    by decide +kernel,
    by decide +kernel,
    by decide +kernel,
    by decide +kernel,
    rfl,
    rfl,
    rfl,
    rfl⟩,
   ⟨0, servIn,
    by decide +kernel⟩,
   ⟨64, (servIn.setNum 0xD10002 3).setNum 0xD10004 2,
    by decide +kernel⟩,
   ⟨{ waiting := false, since := 0, deadline := 0 }, { servIn.setNum 0xD10002 2 with test := { loop := some { waiting := false, since := 0, deadline := 0 } } },
    by decide +kernel⟩,
   ⟨{ waiting := false, since := 0, deadline := 1000 }, { servIn with test := { loop := some { waiting := false, since := 0, deadline := 1000 } } },
    by decide +kernel⟩,
   ⟨0, _, _, { (chanIn {}).setNum 0xD20002 0 with switches := ((List.range 7).map fun k => (calIndex k, ⟨.off, none⟩)) ++ [(0xD200, ⟨.off, none⟩)], test := { margin := some { waiting := true, since := 0, deadline := 0 } } },
    by decide +kernel,
    by decide +kernel,
    rfl,
    rfl,
    by decide +kernel⟩,
   ⟨0, _, _, { (chanIn {}).setNum 0xD20002 0 with switches := ((List.range 7).map fun k => (calIndex k, ⟨.off, none⟩)) ++ [(0xD200, ⟨.starting, none⟩)], test := { margin := some { waiting := true, since := 0, deadline := 0 } } },
    by decide +kernel,
    by decide +kernel,
    rfl,
    rfl,
    by decide +kernel⟩,
   ⟨servIn,
    by decide +kernel⟩,
   ⟨0, waitA, waitM,
    by decide +kernel,
    rfl,
    waitM_due⟩,
   ⟨0, waitA, waitL,
    by decide +kernel,
    rfl,
    waitL_due⟩,
   ⟨{ waiting := false, since := 0, deadline := 0 }, { servIn with test := { margin := some { waiting := false, since := 0, deadline := 0 } } },
    by decide +kernel⟩,
   ⟨{ waiting := false, since := 0, deadline := 0, step := 32 }, { servIn with test := { margin := some { waiting := false, since := 0, deadline := 0, step := 32 } } },
    by decide +kernel⟩,
   ⟨{ waiting := false, since := 0, deadline := 0 }, { servIn with test := { margin := some { waiting := false, since := 0, deadline := 0 } } },
    by decide +kernel⟩,
   ⟨{ waiting := false, since := 0, deadline := 0 },
    by decide +kernel⟩,
   ⟨{ waiting := false, since := 0, deadline := 0, setting := 7 },
    by decide +kernel⟩⟩
theorem witness_DeviceReset :
    (∃ (s : State), s.mailboxUp = true) ∧
    (∃ (s : State), s.mailboxUp = true) ∧
    (∃ (s : State), s.dev.st ≠ .off) :=
  ⟨⟨devIn .fenced,
    by decide +kernel⟩,
   ⟨devIn .fenced,
    by decide +kernel⟩,
   ⟨devIn .fenced,
    by decide +kernel⟩⟩
theorem witness_SubmitRecipe :
    (∃ (p : Port) (d : Bytes) (u s : State), s.takes p false = true ∧ u = s.loadAppears ∧ d.length = 32 ∧ runReservedOk d = true ∧ (parseRun p d).recipe % 64 = 0 ∧ u.tun.queue.length < 16 ∧ u.isOn 0x7020 = true ∧ u.dev.power < 2) ∧
    (∃ (p : Port) (d : Bytes) (u s : State), s.takes p false = true ∧ u = s.loadAppears ∧ d.length = 32 ∧ runReservedOk d = true ∧ (parseRun p d).recipe % 64 = 0 ∧ 16 ≤ u.tun.queue.length ∧ u.isOn 0x7020 = true ∧ u.dev.power < 2) ∧
    (∃ (p : Port) (d : Bytes) (u s : State), s.takes p false = true ∧ u = s.loadAppears ∧ d.length = 32 ∧ runReservedOk d = true ∧ (parseRun p d).recipe % 64 = 0 ∧ u.tun.queue.length < 16 ∧ u.isOn 0x7020 = false ∧ u.dev.power < 2) ∧
    (∃ (p : Port) (d : Bytes) (u s : State), s.takes p false = true ∧ u = s.loadAppears ∧ d.length = 32 ∧ runReservedOk d = true ∧ (parseRun p d).recipe % 64 = 0 ∧ u.tun.queue.length < 16 ∧ u.isOn 0x7020 = true ∧ 2 ≤ u.dev.power) :=
  ⟨⟨.a, zeros 32, _, { servIn with switches := [(0x7020, ⟨.on, none⟩)] },
    by decide +kernel,
    rfl,
    by decide +kernel⟩,
   ⟨.a, zeros 32, _, { servIn with switches := [(0x7020, ⟨.on, none⟩)], tun := { queue := List.replicate 16 runD } },
    by decide +kernel,
    rfl,
    by decide +kernel⟩,
   ⟨.a, zeros 32, _, { servIn with switches := [(0x7020, ⟨.off, none⟩)] },
    by decide +kernel,
    rfl,
    by decide +kernel⟩,
   ⟨.a, zeros 32, _, { servIn with switches := [(0x7020, ⟨.on, none⟩)], dev := { servIn.dev with power := 2 } },
    by decide +kernel,
    rfl,
    by decide +kernel⟩⟩
theorem witness_CollectionsAreLost :
    (∃ (s : State), s.dev.st ≠ .off) ∧
    (∃ (s : State), s.mailboxUp = true) ∧
    (∃ (s : State), s.dev.st = .off) ∧
    (∃ (s : State), s.dev.st = .off) :=
  ⟨⟨{ devIn .serving with colls := [collA] },
    by decide +kernel⟩,
   ⟨{ devIn .serving with colls := [collA] },
    by decide +kernel⟩,
   ⟨{ colls := [collA] },
    by decide +kernel⟩,
   ⟨State.reset,
    by decide +kernel⟩⟩

end Tests

end Sys2Proof
end

/-!
SUPPORT. How each command ends: the fault it stops with, where it stops, or a next state that keeps what `Keeps` lists. `Ends` says
both at once, so that one case split of a command serves the statements about faults and those about what no step changes.
-/

section
namespace Sys2Proof.Machine

/-! ## The end of a command -/

/-- The outcome is the fault `o` where there is one, and else a next state of which `P` holds. -/
def Ends (o : Option Fault) (P : State → Prop) : Result → Prop
  | .next t => o = none ∧ P t
  | .fault f => o = some f
  | .refused _ => False

variable {s s₀ : State} {P Q : State → Prop} {o : Option Fault} {c : Prop} [Decidable c]

theorem Ends.next {t : State} (h : P t) : Ends none P (.next t) := ⟨rfl, h⟩

theorem Ends.fault (f : Fault) : Ends (some f) P (.fault f) := rfl

theorem Ends.ite {a b : Result} (h : Ends o P a) (k : Ends o P b) : Ends o P (if c then a else b) := by
  split
  · exact h
  · exact k

/-- A command of something that the part may lack. -/
theorem Ends.orFault {b : Bool} {f : Fault} {r : Result} (h : Ends none P r) :
    Ends (if b then none else some f) P (if !b then .fault f else r) := by
  cases b with
  | true => exact h
  | false => exact .fault f

/-- A command with a structure of a fixed length. -/
theorem Ends.ofLength {b : Bytes} {n : Nat} {r : Result} (h : Ends none P r) :
    Ends (lengthStop b n) P (if b.length ≠ n then .fault .illFormed else r) := by
  unfold lengthStop
  by_cases hb : b.length = n
  · rw [if_pos hb, if_neg (not_not.mpr hb)]; exact h
  · rw [if_neg hb, if_pos hb]; exact .fault _

theorem Ends.mono {r : Result} (h : Ends o P r) (k : ∀ t, P t → Q t) : Ends o Q r := by
  cases r with
  | next t => exact ⟨h.1, k t h.2⟩
  | fault f => exact h
  | refused x => exact h.elim

theorem Ends.of_next {r : Result} {t : State} (h : Ends o P r) (hr : r = .next t) : P t := by
  subst hr
  exact h.2

theorem Ends.of_stop {r : Result} {f : Fault} (h : Ends (some f) P r) : r = .fault f := by
  cases r with
  | next t => obtain ⟨h, -⟩ := h; cases h
  | fault g => cases h; rfl
  | refused x => exact h.elim

theorem Ends.of_none {r : Result} (h : Ends none P r) : ∃ t, r = .next t := by
  cases r with
  | next t => exact ⟨t, rfl⟩
  | fault f => cases h
  | refused x => exact h.elim

/-- A command without effect. -/
theorem Ends.stay : Ends none (Keeps s) (.next s) := .next (.refl s)

/-! ## What else the relation allows -/

theorem Keeps.either {a b : State} (h : Keeps s₀ a) (k : Keeps s₀ b) : Keeps s₀ (if c then a else b) :=
  .ite (fun _ => h) (fun _ => k)

/-- A change of the device's registers that leaves its boot and its freeze alone. -/
theorem Keeps.withDev {d : Dev} (h : Keeps s₀ s) (he : d.epoch = s.dev.epoch := by rfl) (hs : d.straps = s.dev.straps := by rfl)
    (hst : d.st = s.dev.st := by rfl) (hf : d.frozen = s.dev.frozen := by rfl) : Keeps s₀ { s with dev := d } :=
  h.upd rfl rfl he hs (fun k => hst.trans k) (fun k => hf.trans k) id id (Nat.le_refl _) (.refl _)

/-! ## The gates of the commands -/

theorem Ends.onMailbox (p : Port) (b : Bool) {f : State → State} (hf : ∀ t, Keeps s t → Keeps s (f t)) :
    Ends none (Keeps s) (s.onMailbox p b f) :=
  .ite .stay (.ite (.next (.deny _ _ (.refl s))) (.ite (.next (.deny _ _ (.refl s))) (.next (hf s (.refl s)))))

theorem Ends.onWork (p : Port) {f : State → State} (hf : ∀ t, Keeps s t → Keeps s (f t)) : Ends none (Keeps s) (s.onWork p f) :=
  .onMailbox p false fun _ h => hf _ h.loadAppears

theorem Ends.onHandle (p : Port) (x : Padded Handle) {f : Handle → State → State} (hf : ∀ h t, Keeps s t → Keeps s (f h t)) :
    Ends none (Keeps s) (s.onHandle p x f) :=
  .onMailbox p false fun _ h => .either (h.deny _ _) (hf _ _ h.loadAppears)

theorem Ends.onPort (p : Port) {f : State → State} (hf : ∀ t, Keeps s t → Keeps s (f t)) :
    Ends (s.portStop p) (Keeps s) (s.onPort p f) :=
  .orFault (.next (hf s (.refl s)))

theorem Ends.onLink (n : Nat) (st : LinkState) {f : State → State} (hf : ∀ t, Keeps s t → Keeps s (f t)) :
    Ends (s.linkStop n) (Keeps s) (s.onLink n st f) :=
  .orFault (.ite (.next (hf s (.refl s))) .stay)

theorem Ends.onUp (n : Nat) {f : State → State} (hf : ∀ t, Keeps s t → Keeps s (f t)) : Ends (s.linkStop n) (Keeps s) (s.onUp n f) :=
  .orFault (.ite (.next (hf s (.refl s))) .stay)

theorem Ends.onFrames (n : Nat) {f : State → State} (hf : ∀ t, Keeps s t → Keeps s (f t)) :
    Ends (s.linkStop n) (Keeps s) (s.onFrames n f) :=
  .ite (.onLink n _ hf) (.onUp n hf)

theorem Ends.onRequest (n : Fin 32) (op : Byte) (r : Rx) (fs : List LineFault) :
    Ends (s.linkStop n) (Keeps s) (s.onRequest n op r fs) :=
  .onFrames n fun _ h => h.receive _ _ _ _ fun _ _ _ h => (h.accepted _ _ _).requestIn _ _ _ _

theorem Ends.onTap (ir : Byte) {f : State → State} (hf : ∀ t, Keeps s t → Keeps s (f t)) : Ends none (Keeps s) (s.onTap ir f) :=
  .ite .stay (.next (hf _ (Keeps.refl s).side))

/-! ## Queries, batches and scans -/

theorem execNeighbourListArrival_ends (q : Nat) : Ends none (Keeps s) (execNeighbourListArrival q s) := by
  unfold execNeighbourListArrival
  split
  · exact .stay
  · split
    · exact .next ((((((Keeps.refl s).countHop _ _).mapQuery _ _).scoreSlots _ _).considerAll _ _).nextHop _)
    · exact .stay

theorem execCodeLinesArrival_ends (q slot : Nat) (unit : Fin 3) : Ends none (Keeps s) (execCodeLinesArrival q slot unit s) := by
  unfold execCodeLinesArrival
  split
  · exact .stay
  · split
    · exact .ite .stay (.next (((Keeps.refl s).useUnit _ _).mapQuery _ _))
    · exact .stay

theorem execRerankBatchComplete_ends (q : Nat) : Ends none (Keeps s) (execRerankBatchComplete q s) := by
  unfold execRerankBatchComplete
  split
  · exact .stay
  · split
    · refine .ite (.next (Keeps.joinBaste _ (Keeps.mapQuery _ _ ?_)))
        (.next (.either (Keeps.cutQuery _ (Keeps.checkpoint _ ?_)) (Keeps.checkpoint _ ?_)))
      all_goals exact (((Keeps.either ((Keeps.refl s).useUnit _ _) (.refl s)).mapQuery _ _).countScores _).bumpBy _ _
    · exact .stay

theorem execBasteBatchStart_ends (h : Half) : Ends none (Keeps s) (execBasteBatchStart h s) := by
  unfold execBasteBatchStart
  dsimp only
  split
  · exact .stay
  · exact .ite .stay (.next ((((Keeps.refl s).bump _).latchGrist.scanMembers _ _).openBatch _ _))

theorem execBasteBatchComplete_ends (batch : Nat) : Ends none (Keeps s) (execBasteBatchComplete batch s) := by
  unfold execBasteBatchComplete
  split
  · exact .stay
  · exact .next (((Keeps.refl s).side.scanDone _).foldl fun _ _ h => h.endQuery _ _)

theorem execFlatBatchStart_ends (h : Handle) (rerank : Bool) : Ends none (Keeps s) (execFlatBatchStart h rerank s) := by
  unfold execFlatBatchStart
  split
  · exact .ite .stay (.next (((((Keeps.refl s).latchGrist.bump _).openBatch _ _).foldl fun _ _ h => h.flatStep _ _ _).settleBatch _))
  · exact .stay

theorem execScanChunkComplete_ends (r : ScanRef) : Ends none (Keeps s) (execScanChunkComplete r s) := by
  cases r with
  | flat id =>
    unfold execScanChunkComplete
    dsimp only
    split
    · exact .stay
    · split
      · exact .stay
      · exact .next (.either ((Keeps.refl s).flatChunk _ _) (.refl s))
  | pass q =>
    unfold execScanChunkComplete
    dsimp only
    split
    · exact .stay
    · split
      · exact .next ((Keeps.refl s).passChunk _ _)
      · exact .stay

theorem execListSpaceReleased_ends (q : Nat) : Ends none (Keeps s) (execListSpaceReleased q s) := by
  unfold execListSpaceReleased
  split
  · exact .stay
  · exact .ite .stay (.ite (.next ((Keeps.refl s).cutQuery _)) (.next ((Keeps.refl s).launch _)))

theorem execQueryWaitCutoff_ends (q : Nat) : Ends none (Keeps s) (execQueryWaitCutoff q s) := by
  unfold execQueryWaitCutoff
  split
  · exact .stay
  · exact .next (.either ((Keeps.refl s).cutQuery _) (.refl s))

/-! ## Encoding -/

theorem execEncode_ends (p : Port) (n : Byte) : Ends none (Keeps s) (execEncode p n s) := by
  unfold execEncode
  split
  · exact .stay
  · exact .ite .stay (.next ((((Keeps.refl s).takeTurn _ _).takeEntry _ _).startEncode _ _ _ _ _))

theorem execEncodeBatchComplete_ends (job : Nat) : Ends none (Keeps s) (execEncodeBatchComplete job s) := by
  unfold execEncodeBatchComplete
  split
  · exact .stay
  · exact .next ((Keeps.refl s).side.runEncode _)

/-! ## The journal and mutations -/

theorem execJournalBlockTimer_ends : Ends none (Keeps s) (execJournalBlockTimer s) := by
  unfold execJournalBlockTimer
  split
  · exact .stay
  · exact .next (.either ((Keeps.refl s).closeBlock _) (.refl s))

theorem execFlushSatisfied_ends (job : Nat) : Ends none (Keeps s) (execFlushSatisfied job s) := by
  unfold execFlushSatisfied
  split
  · exact .stay
  · exact .next (.either ((Keeps.refl s).mapJob _ _).settleJobs (.refl s))

theorem execMutate_ends (p : Port) (n : Byte) : Ends none (Keeps s) (execMutate p n s) :=
  have h := (Keeps.refl s).readMutation p n 0x20 (mutateWork p)
  .next (.either h (h.mutateRun _ _).settleJobs)

theorem execFlushJournal_ends (p : Port) (n : Byte) : Ends none (Keeps s) (execFlushJournal p n s) :=
  have h := (Keeps.refl s).readMutation p n 0x21 fun _ _ _ => .ok (.flushJournal false)
  .next (.either h ((h.closeBlock _).mapJob _ _))

theorem execReplay_ends (p : Port) (n : Byte) : Ends none (Keeps s) (execReplay p n s) :=
  have h := (Keeps.refl s).readMutation p n 0x23 (replayWork p)
  .next (.either h (h.replayRun _ _).settleJobs)

theorem execReplayComplete_ends (job : Nat) : Ends none (Keeps s) (execReplayComplete job s) := by
  unfold execReplayComplete
  split
  · exact .stay
  · split
    · exact .next (.either (.refl s) (((Keeps.refl s).devWrite _ _).finishJob _ _).settleJobs)
    · exact .stay

/-- Open values may be passed (log entry 1). -/
theorem Keeps.passOpen {s₀ : State} (n : Nat) (h : Keeps s₀ s) : Keeps s₀ { s with free := s.free + n } :=
  h.upd rfl rfl rfl rfl id id id id (Nat.le_add_right _ _) (.refl _)

theorem execSaveComplete_ends (job : Nat) : Ends none (Keeps s) (execSaveComplete job s) := by
  unfold execSaveComplete
  split
  · exact .stay
  · split
    · next _ _ c _ _ _ =>
      have h := (Keeps.refl s).passOpen c.highWater
      exact .ite .stay (.ite (.next (h.finishJob _ _).settleJobs.trimBaste)
        (.next (((h.devWrite _ _).mapJob _ _).finishJob _ _).settleJobs.trimBaste))
    · exact .stay

/-! ## Seam -/

theorem execSeamInsert_ends (h : Handle) (slot : Option Nat) : Ends none (Keeps s) (execSeamInsert h slot s) :=
  .next (.either (((Keeps.refl s).seamInsert _ _).takeTiles _) (.refl s))

theorem execSeamDelete_ends (h : Handle) : Ends none (Keeps s) (execSeamDelete h s) :=
  .next (.either (((Keeps.refl s).seamDelete _).takeTiles _) (.refl s))

theorem execSlotFree_ends (h : Handle) (slot : Nat) : Ends none (Keeps s) (execSlotFree h slot s) := by
  unfold execSlotFree
  split
  · exact .stay
  · exact .ite .stay (.ite (.next ((Keeps.refl s).countHeld _ _)) (.next (((Keeps.refl s).mapColl _ _).bump _)))

/-! ## The calendar (R53 to R58) -/

theorem execGenerationBell_ends : Ends none (Keeps s) (execGenerationBell s) := by
  unfold execGenerationBell
  split
  · next _ _ e => exact .next ((((Keeps.refl s).fire_if e).bump _).ringGeneration _)
  · exact .stay

theorem execMergeBell_ends (entry : Fin 128) : Ends none (Keeps s) (execMergeBell entry s) := by
  unfold execMergeBell
  split
  · next _ _ e => exact .next ((((Keeps.refl s).fire_if e).bump _).ringMerge _)
  · exact .stay

theorem execWindowStart_ends (entry : Fin 128) : Ends none (Keeps s) (execWindowStart entry s) := by
  unfold execWindowStart
  dsimp only
  split
  · next _ t e =>
    have h : Keeps s (if (t.calEntry entry).openUntil.isSome then t.closeWindow entry else t) :=
      have ht := (Keeps.refl s).fire_if e
      .either (ht.closeWindow _) ht
    exact .ite (.next (h.bump _)) (.next (h.openWindow _ _))
  · exact .stay

theorem execWindowEnd_ends (entry : Fin 128) : Ends none (Keeps s) (execWindowEnd entry s) := by
  unfold execWindowEnd
  split
  · exact .ite (.next ((Keeps.refl s).closeWindow _)) .stay
  · exact .stay

theorem execTelemetrySample_ends (entry : Fin 128) : Ends none (Keeps s) (execTelemetrySample entry s) := by
  unfold execTelemetrySample
  dsimp only
  split
  · next _ _ e => exact .next ((((Keeps.refl s).fire_if e).bump _).takeSample _ _).sendTraces
  · exact .stay

/-! ## Collections (R116 to R131) -/

theorem execCreateCollection_ends (p : Port) (d : Bytes) : Ends (lengthStop d 256) (Keeps s) (execCreateCollection p d s) := by
  refine .ofLength (.onWork p fun t h => ?_)
  refine .either (h.collReply _ _ _) (.either ((h.side.bump _).collReply _ _ _) (.either (h.collReply _ _ _) ?_))
  split
  · next e => exact ((h.addColl _).all _ e).collReply _ _ _
  · exact h.collReply _ _ _

theorem execDeleteCollection_ends (p : Port) (x : Padded Handle) : Ends none (Keeps s) (execDeleteCollection p x s) := by
  refine .onHandle p x fun hd t h => ?_
  split
  · exact .either (h.collReply _ _ _) (h.side.collReply _ _ _)
  · exact h.onColl _ _ _ fun _ _ h => .either (h.collReply _ _ _) ((h.startDelete _).collReply _ _ _)

theorem execCollectionDrained_ends (h : Handle) : Ends none (Keeps s) (execCollectionDrained h s) := by
  unfold execCollectionDrained
  split
  · exact .stay
  · refine .ite .stay ?_
    dsimp only
    split
    · refine .next (Keeps.countColls (Keeps.runDeferred _ ?_))
      exact ((((Keeps.refl s).logChange _ _ _ _).release _).side.bump _).countColls
    · exact .next ((((Keeps.refl s).logChange _ _ _ _).release _).side.bump _).countColls

theorem execLoadBegin_ends (p : Port) (x : Padded Handle) (pre : Bytes) : Ends none (Keeps s) (execLoadBegin p x pre s) := by
  refine .onHandle p x fun hd t h => h.onColl _ _ _ fun c t h => .either (h.collReply _ _ _) ?_
  split
  · refine .either (h.collReply _ _ _) ?_
    split
    · exact h.collReply _ _ _
    · exact ((h.mapColl _ _).setCollState _ _).reply _ _ _ _
  · exact h.collReply _ _ _

theorem execImageWindowWrite_ends (p : Port) (offset : Nat) (data : Bytes) :
    Ends (s.portStop p) (Keeps s) (execImageWindowWrite p offset data s) :=
  .orFault (.ite .stay (.next (.either ((Keeps.refl s).imageWrite _ _ _) (Keeps.refl s).unbacked)))

theorem execLoadEnd_ends (p : Port) (x : Padded Handle) : Ends none (Keeps s) (execLoadEnd p x s) := by
  refine .onHandle p x fun hd t h => ?_
  split
  · exact h.reply _ _ _ _
  · split
    · exact h.reply _ _ _ _
    · exact .either (h.reply _ _ _ _) (h.startBg _ _ _ _ fun _ h => h.mapColl _ _)

theorem execLoadEndComplete_ends (h : Handle) : Ends none (Keeps s) (execLoadEndComplete h s) := by
  unfold execLoadEndComplete
  split
  · exact .stay
  · split
    · exact .stay
    · refine .ite .stay (.ite (.next (((Keeps.refl s).failLoad _ _).bump _)) (.next (Keeps.foldl ?_ fun t q ht => ?_)))
      · have hm := (Keeps.refl s).mapColl h
        exact (Keeps.either ((hm _).bump _) (hm _)).setCollState _ _
      · split
        · exact .either (ht.endBg _ _ _ _) ht
        · exact ht

theorem execLoadAbort_ends (p : Port) (x : Padded Handle) : Ends none (Keeps s) (execLoadAbort p x s) :=
  .onHandle p x fun _ _ h => h.onColl _ _ _ fun _ _ h => .either (h.collReply _ _ _) ((h.failLoad _ _).collReply _ _ _)

theorem execCollectionOnline_ends (p : Port) (x : Padded Handle) : Ends none (Keeps s) (execCollectionOnline p x s) :=
  .onHandle p x fun _ _ h => h.onColl _ _ _ fun _ _ h => .either (h.collReply _ _ _) ((h.setCollState _ _).firstOnline.collReply _ _ _)

theorem execCollectionOffline_ends (p : Port) (x : Padded Handle) : Ends none (Keeps s) (execCollectionOffline p x s) :=
  .onHandle p x fun _ _ h => h.onColl _ _ _ fun _ _ h =>
    .either (h.collReply _ _ _) (((h.setCollState _ _).endOffline _).collReply _ _ _)

/-! ## Links (R289 to R308, R321) -/

theorem execDetect_ends (n : Fin 32) (r : DetectResult) : Ends (s.linkStop n) (Keeps s) (execDetect n r s) := by
  refine .onLink n _ fun t h => .either h ?_
  cases r with
  | copper => exact (h.enterLink _ _).mapLink _ _
  | optical info fault =>
    have ho := h.mapLink n fun l => { l with optical := true }
    exact .either (ho.linkFault _ _) ((((ho.setBlob _ _).setNum _ _).setNum _ _).enterLink _ _)

theorem execMeasure_ends (n : Fin 32) (cm : BitVec 16) : Ends (s.linkStop n) (Keeps s) (execMeasure n cm s) :=
  .onLink n _ fun _ h => ((h.setNum _ _).enterLink _ _).emitAll _

theorem execAutoneg_ends (n : Fin 32) (oui : BitVec 24) (word : BitVec 64) : Ends (s.linkStop n) (Keeps s) (execAutoneg n oui word s) :=
  .onLink n _ fun _ h => .either (h.linkFault _ _) (((h.setPartner _ _).enterLink _ _).mapLink _ _)

theorem execLinkTrainingComplete_ends (n : Fin 32) (lanes : BitVec 4) (loss : F32) :
    Ends (s.linkStop n) (Keeps s) (execLinkTrainingComplete n lanes loss s) :=
  .onLink n _ fun _ h => .either h (((Keeps.either h (h.setNum _ _)).enterLink _ _).mapLink _ _)

theorem execAlign_ends (e : LinkEnd) : Ends (s.linkStop e.link) (Keeps s) (execAlign e s) :=
  .onLink e.link _ fun _ h => ((h.enterLink _ _).mapLink _ _).control _ _ _ _

theorem execConnect_ends (n : Fin 32) : Ends (s.linkStop n) (Keeps s) (execConnect n s) :=
  .onLink n _ fun _ h => h.tryConnect _

theorem execLinkTimeout_ends (n : Fin 32) : Ends (s.linkStop n) (Keeps s) (execLinkTimeout n s) := by
  refine .orFault ?_
  split
  · exact .stay
  · exact .next (.either ((Keeps.refl s).linkFailed _) (.refl s))

theorem execFaultRetry_ends (n : Fin 32) : Ends (s.linkStop n) (Keeps s) (execFaultRetry n s) :=
  .onLink n _ fun _ h => .either h (h.enterLink _ _)

theorem execAlignmentLost_ends (n : Fin 32) : Ends (s.linkStop n) (Keeps s) (execAlignmentLost n s) :=
  .orFault (.ite (.next ((Keeps.refl s).linkDown _ _)) .stay)

theorem execModulePoll_ends (n : Fin 32) (celsius : Int) (alarm fault : Bool) :
    Ends (s.linkStop n) (Keeps s) (execModulePoll n celsius alarm fault s) := by
  have h := (Keeps.refl s).setNum (key (linkIndex n) 0xF) (BitVec.ofInt 32 celsius).toNat
  have ha := Keeps.either (c := alarm = true) (h.event 0x5A n (s.link n).cause.toNat) h
  exact .orFault (.ite .stay (.ite (.next (ha.linkFault _ _)) (.next ha)))

theorem execKeyUpdate_ends (n : Fin 32) : Ends (s.linkStop n) (Keeps s) (execKeyUpdate n s) :=
  .onUp n fun _ h => .either (h.rekey _) h

theorem execNumberInvalid_ends (n : Fin 32) : Ends (s.linkStop n) (Keeps s) (execNumberInvalid n s) := by
  refine .onLink n _ fun t h => ?_
  split
  · exact .either (h.linkFault _ _) h
  · exact h

theorem execCapability_ends (n : Fin 32) (r : Rx) : Ends (s.linkStop n) (Keeps s) (execCapability n r s) :=
  .onLink n _ fun _ h => h.receive _ _ _ _ fun _ _ _ h => (h.setPartner _ _).accepted _ _ _

theorem execLinkSpdm_ends (n : Fin 32) (x : SessionStep) : Ends (s.linkStop n) (Keeps s) (execLinkSpdm n x s) := by
  refine .onFrames n fun t h => ?_
  cases x with
  | message r => exact h.receive _ _ _ _ fun _ _ _ h => .either (h.answerSpdm _ _) (h.accepted _ _ _)
  | keyUpdate r => exact h.receive _ _ _ _ fun _ _ _ h => .either ((h.mapLink _ _).answerSpdm _ _) (h.accepted _ _ _)
  | established => exact .either ((h.mapLink _ _).spend.tryConnect _) h
  | failed => exact .either (h.linkFault _ _) h

theorem execCredit_ends (n : Fin 32) (wire : Bytes) (fec : Fec) : Ends (s.linkStop n) (Keeps s) (execCredit n wire fec s) :=
  .onFrames n fun _ h => h.receive _ _ _ _ fun _ _ _ h => (h.mapLink _ _).drainWaiting _

theorem execAck_ends (n : Fin 32) (r : Rx) : Ends (s.linkStop n) (Keeps s) (execAck n r s) :=
  .onFrames n fun _ h => h.receive _ _ _ _ fun _ _ _ h => ((h.mapLink _ _).drainWaiting _).giveCredit _ _

theorem execLinkReplay_ends (n : Fin 32) (r : Rx) : Ends (s.linkStop n) (Keeps s) (execLinkReplay n r s) :=
  .onFrames n fun _ h => h.receive _ _ _ _ fun f _ _ h =>
    have hc := (h.mapLink n (Link.release (f.operand.truncate 32))).countReplay n
    .either ((hc.emitAll _).giveCredit _ _) hc

theorem execRequestTimeout_ends (tag : BitVec 32) : Ends none (Keeps s) (execRequestTimeout tag s) := by
  unfold execRequestTimeout
  split
  · exact .ite (.next ((Keeps.refl s).settleRequest _ _)) .stay
  · exact .stay

theorem execCreditStall_ends (n : Fin 32) : Ends (s.linkStop n) (Keeps s) (execCreditStall n s) := by
  refine .onFrames n fun t h => ((h.mapLink _ _).bumpBy _ _).foldl fun t x h => .either h ?_
  split
  · exact h.settleRequest _ _
  · exact h

theorem execResponse_ends (n : Fin 32) (wire : Bytes) (corrected uncorrected : Nat) :
    Ends (s.linkStop n) (Keeps s) (execResponse n wire corrected uncorrected s) :=
  .onFrames n fun _ h => h.receive _ _ _ _ fun _ _ _ h => (h.accepted _ _ _).responseIn _ _

theorem execTimeBeacon_ends (n : Fin 32) (r : Rx) : Ends (s.linkStop n) (Keeps s) (execTimeBeacon n r s) :=
  .onFrames n fun _ h => h.receive _ _ _ _ fun _ _ _ h => (h.accepted _ _ _).beaconIn _ _

theorem execHostRequestGo_ends (g : SlotGo) : Ends none (Keeps s) (execHostRequestGo g s) := by
  have h := (Keeps.refl s).devWrite (slotBase g.slot + 0x3F) [0]
  refine .ite .stay (.ite (.next (h.finishSlot _ _ _ _ _)) (.ite (.next (h.finishSlot _ _ _ _ _)) ?_))
  dsimp only
  split
  · exact .next ((h.sourceStop _ _).finishSlot _ _ _ _ _)
  · exact .next ((h.sourceStop _ _).runSlot _ _ _ _)

theorem execHedgeTimer_ends (w : Fin 64) (id : BitVec 32) (shard : Nat) : Ends none (Keeps s) (execHedgeTimer w id shard s) := by
  unfold execHedgeTimer
  split
  · exact .stay
  · exact .ite (.next (((Keeps.refl s).bump _).redispatch _ _ _)) .stay

theorem execLeadCutoff_ends (w : Fin 64) (id : BitVec 32) : Ends none (Keeps s) (execLeadCutoff w id s) := by
  unfold execLeadCutoff
  split
  · exact .ite (.next ((Keeps.refl s).checkRecord _ _)) .stay
  · exact .stay

/-! ## Fleet time (R39 to R48) -/

theorem execSync_ends (m : PtpSync) : Ends none (Keeps s) (execSync m s) :=
  have h := (Keeps.refl s).mapPtp fun x => { x with
    syncSeq := m.seq, t2 := s.ftuNs - s.num 0x200105, awaiting := m.twoStep, interval := m.interval, syncCorrection := m.correction }
  .ite .stay (.next (.either h (h.ptpMeasure _ _)))

theorem execFollowUp_ends (m : PtpSync) : Ends none (Keeps s) (execFollowUp m s) :=
  .ite (.next ((Keeps.refl s).ptpMeasure _ _)) .stay

theorem execDelayResponse_ends (m : PtpDelay) : Ends none (Keeps s) (execDelayResponse m s) :=
  .ite .stay (.next ((Keeps.refl s).mapPtp _))

theorem execAnnounce_ends (m : PtpAnnounce) : Ends none (Keeps s) (execAnnounce m s) := by
  refine .ite .stay (.ite .stay (.next (Keeps.setNum _ _ (Keeps.setNum _ _ (Keeps.setNum _ _ (.either ?_ ?_))))))
  · exact ((Keeps.refl s).mapPtp _).mapFtu _ fun _ => rfl
  · exact (Keeps.refl s).mapPtp _

theorem execFtPpsIn_ends : Ends none (Keeps s) (execFtPpsIn s) :=
  .ite .stay (.ite (.next ((Keeps.refl s).bump _)) (.ite .stay (.next ((Keeps.refl s).mapFtu _ fun _ => rfl))))

theorem execFtPpsOut_ends : Ends none (Keeps s) (execFtPpsOut s) := .next (Keeps.refl s).withDev

theorem execBeaconSend_ends : Ends none (Keeps s) (execBeaconSend s) :=
  .ite .stay (.next ((Keeps.refl s).foldl fun _ _ h => h.sendBeacon _))

theorem execSourceQualification_ends : Ends none (Keeps s) (execSourceQualification s) :=
  .ite (.next (.either (.refl s) (Keeps.refl s).timeLost)) (.next (.selectSource _ _ (.mapFtu _ (fun _ => rfl) (.refl s))))

theorem execHoldoverErrorLimit_ends : Ends none (Keeps s) (execHoldoverErrorLimit s) :=
  .ite (.next (((Keeps.refl s).setTimeState _).event _ _ _)) .stay

/-! ## Recipes and Tun -/

theorem execRecipeRunStart_ends : Ends none (Keeps s) (execRecipeRunStart s) := by
  unfold execRecipeRunStart
  split
  · refine .ite .stay ?_
    dsimp only
    split
    · exact .next ((Keeps.refl s).side.endRun _ _ _)
    · exact .next ((Keeps.refl s).side.side.setNum _ _)
  · exact .stay

theorem execTunStep_ends (cluster : Fin 8) : Ends none (Keeps s) (execTunStep cluster s) := by
  refine .ite .stay (.ite (.next ((Keeps.refl s).seamStep _)) (.ite .stay ?_))
  split
  · exact .stay
  · exact .next (.either ((Keeps.refl s).runUnit _ _) (.refl s))

theorem execSubmitRecipe_ends (p : Port) (d : Bytes) : Ends (lengthStop d 32) (Keeps s) (execSubmitRecipe p d s) :=
  .ofLength (.onWork p fun _ h =>
    .either (h.deny _ _) (.either (h.deny _ _) (.either (h.deny _ _) (.either (h.deny _ _) (h.side.ok _ _)))))

/-! ## Units that fail, events and their reactions (R36, R382 to R391) -/

theorem execUnitOffline_ends (u : UnitRef) :
    Ends (if u.index < unitCount u.kind then none else some .absentUnit) (Keeps s) (execUnitOffline u s) := by
  unfold execUnitOffline
  by_cases hu : u.index < unitCount u.kind
  · rw [if_pos hu, if_neg (Nat.not_le.mpr hu)]
    exact .next ((Keeps.refl s).failUnit _ _)
  · rw [if_neg hu, if_pos (Nat.le_of_not_lt hu)]
    exact .fault _

theorem execBulkPackageOffline_ends (n : Fin 24) : Ends (s.packageStop n) (Keeps s) (execBulkPackageOffline n s) :=
  .orFault (.next ((Keeps.refl s).failUnit _ _))

theorem execExpanderOffline_ends (e : Fin 4) :
    Ends (if s.chip.portBRoot then none else some .absentUnit) (Keeps s) (execExpanderOffline e s) :=
  .orFault (.next ((Keeps.refl s).failUnit _ _))

theorem execEventRaised_ends (source : Byte) (inst : BitVec 16) (detail : BitVec 64) (reaction : Option Nat) :
    Ends none (Keeps s) (execEventRaised source inst detail reaction s) := by
  have h := (Keeps.refl s).raise source.toNat inst.toNat detail.toNat reaction
  refine .ite .stay (.ite (.next h) (.ite ?_ (.ite (.next (h.endInternal _)) (.next h))))
  split
  · exact .next (h.endRun _ _ _)
  · exact .next h

theorem execFaultNPulseEnd_ends : Ends none (Keeps s) (execFaultNPulseEnd s) := by
  unfold execFaultNPulseEnd
  split
  · exact .ite .stay (.next (Keeps.refl s).side)
  · exact .stay

/-! ## The memories (R256 to R288) -/

theorem execMemoryReadComplete_ends (addr : Nat) (e : LineErrors) (stripe : Stripe) (r : Reader) :
    Ends none (Keeps s) (execMemoryReadComplete addr e stripe r s) :=
  have h := (Keeps.refl s).readVia (s.classOf r) addr e stripe
  .ite .stay (.next (Keeps.lineAfter _ (.either h (h.poisoned _ _ _))))

theorem execScrubRead_ends (u : ScrubUnit) (e : LineErrors) (stripe : Stripe) (d : Bool) :
    Ends none (Keeps s) (execScrubRead u e stripe d s) :=
  have h := (Keeps.refl s).scrubLine u (s.scrubPass u).line e stripe d
  .ite .stay (.ite (.next h) (.next h.side))

theorem execRetrainStart_ends (n : Fin 12) (c : Fin 32) (x : RetrainCause) :
    Ends (s.stackStop n) (Keeps s) (execRetrainStart n c x s) := by
  refine .orFault (.ite .stay ?_)
  cases x with
  | forced => exact .ite (.next (((Keeps.refl s).mapChannel _ _ _).startRetrain _ _ _ _)) .stay
  | planned =>
    dsimp only
    split
    · exact .stay
    · split
      · exact .stay
      · refine .ite .stay (.ite (.next (Keeps.bump _ (Keeps.deferStack _ ?_)))
          (.next (Keeps.startRetrain _ _ _ _ (Keeps.mapChannel _ _ _ (Keeps.setStack _ _ ?_)))))
        all_goals exact (Keeps.refl s).stackServed _ _ _

theorem execRetrainVerify_ends (n : Fin 12) (c : Fin 32) (ok : Bool) : Ends (s.stackStop n) (Keeps s) (execRetrainVerify n c ok s) :=
  .orFault (.ite .stay (.ite (.next ((Keeps.refl s).mapChannel _ _ _)) (.ite (.next ((Keeps.refl s).mapChannel _ _ _)) .stay)))

theorem execRetrainTimeout_ends (n : Fin 12) (c : Fin 32) : Ends (s.stackStop n) (Keeps s) (execRetrainTimeout n c s) :=
  .orFault (.ite .stay (.ite (.next ((Keeps.refl s).loseChannel _ _)) (.next ((Keeps.refl s).mapChannel _ _ _))))

theorem execDrainComplete_ends (n : Fin 12) (c : Fin 32) : Ends (s.stackStop n) (Keeps s) (execDrainComplete n c s) :=
  .orFault (.ite .stay (.next (((Keeps.refl s).mapChannel _ _ _).bump _)))

theorem execHbmTemperatureReading_ends (n : Fin 12) (celsius : Int) :
    Ends (s.stackStop n) (Keeps s) (execHbmTemperatureReading n celsius s) := by
  refine .orFault (.ite .stay (.ite (.next (.setStack _ _ (.refl s))) (.next (.either (.raise _ _ _ _ ?_) ?_))))
  all_goals refine .either (.raise _ _ _ _ ?_) ?_
  all_goals refine .either (.raise _ _ _ _ ?_) ?_
  all_goals exact .either (.cutScan _ (.setStack _ _ (.refl s))) (.setStack _ _ (.refl s))

theorem execStackReturn_ends (n : Fin 12) (failed : BitVec 32) : Ends (s.stackStop n) (Keeps s) (execStackReturn n failed s) := by
  refine .orFault (.ite .stay ?_)
  dsimp only
  generalize hl : List.foldl _ s (List.range 32) = t
  have h : Keeps s t := hl ▸ (Keeps.refl s).foldl fun u c h =>
    .either (h.loseChannel _ _) (.either h ((h.mapChannel _ _ _).bump _))
  exact .ite (.next h) (.next (h.setStack _ _))

theorem execBulkTemperatureRead_ends (n : Fin 24) (rate : Byte) (above : Bool) :
    Ends (s.packageStop n) (Keeps s) (execBulkTemperatureRead n rate above s) :=
  .orFault (.ite .stay (.next (.either ((Keeps.refl s).side.failUnit _ _) (Keeps.refl s).side)))

/-! ## Interface tests (R427 to R434) -/

theorem execMarginScanStart_ends : Ends none (Keeps s) (execMarginScanStart s) := by
  unfold execMarginScanStart
  split
  · exact .stay
  · next loop i _ =>
    refine .ite .stay (.next ?_)
    generalize hm : s.mapChannel _ _ _ = t
    have ht : Keeps s t := hm ▸ (Keeps.refl s).mapChannel _ _ _
    have h := Keeps.either (c := loop = true) ht.loopRuns ht.marginRuns
    exact .either (h.setSw _ _) h

theorem execBellConflict_ends : Ends none (Keeps s) (execBellConflict s) := by
  unfold execBellConflict
  split
  · exact .stay
  · exact .ite .stay (.next (.either ((Keeps.refl s).endLoop _) ((Keeps.refl s).endMargin _)))

theorem execLoopBackDuration_ends (bits errors : Nat) (firstError : Time) :
    Ends none (Keeps s) (execLoopBackDuration bits errors firstError s) := by
  unfold execLoopBackDuration
  split
  · exact .stay
  · refine .ite .stay (.next (Keeps.endLoop _ (.either ?_ (Keeps.setNum _ _ ?_))))
    all_goals exact ((Keeps.refl s).setNum _ _).setNum _ _

theorem execMarginStep_ends (pass : Bool) : Ends none (Keeps s) (execMarginStep pass s) := by
  unfold execMarginStep
  split
  · exact .stay
  · exact .ite .stay (.ite (.next ((Keeps.refl s).sideDone _ _)) (.ite (.next ((Keeps.refl s).sideDone _ _)) (.next (Keeps.refl s).side)))

/-! ## Functions (R362) -/

theorem execFunctionStartComplete_ends (i : BitVec 16) (ok : Bool) : Ends none (Keeps s) (execFunctionStartComplete i ok s) :=
  have h := ((Keeps.refl s).setSw i.toNat ⟨.on, none⟩).startEnds i.toNat
  .ite .stay (.ite (.next ((Keeps.refl s).startFails _)) (.next (.either (h.goStopping _) h)))

theorem execFunctionStopComplete_ends (i : BitVec 16) : Ends none (Keeps s) (execFunctionStopComplete i s) :=
  have h := ((Keeps.refl s).stopEnds i.toNat).setSw i.toNat ⟨.off, none⟩
  .ite .stay (.ite (.next h) (.ite (.next (h.event _ _ _)) (.next (h.goStarting _))))

/-! ## Firmware and SPDM (R413 to R423) -/

theorem execTransferFw_ends (p : Port) (action : FwAction) (slot : Byte) (offset : Nat) (data : Bytes) :
    Ends none (Keeps s) (execTransferFw p action slot offset data s) := by
  refine .onMailbox p true fun t h => ?_
  cases action with
  | full | finish =>
    dsimp only
    split
    · exact h.reply _ _ _ _
    · exact .either (h.reply _ _ _ _) (.either (h.reply _ _ _ _) (.either (h.deny _ _) ((h.writeSlot _ _ _).fwFinish _ _)))
  | abort =>
    dsimp only
    split
    · exact .either (h.side.ok _ _) (h.reply _ _ _ _)
    · exact h.reply _ _ _ _
  | _ => -- a part that more parts follow: the first, or one after it
    dsimp only
    split
    · exact h.reply _ _ _ _
    · exact .either (h.reply _ _ _ _) (.either (h.reply _ _ _ _) (.either (h.deny _ _) ((h.writeSlot _ _ _).side.ok _ _)))

theorem execActivateFw_ends (p : Port) (online : Bool) (slot : Byte) : Ends none (Keeps s) (execActivateFw p online slot s) := by
  refine .onMailbox p true fun t h => .either (h.reply _ _ _ _) ?_
  split
  · exact h.reply _ _ _ _
  · exact .either (h.ok _ _) ((h.setRecord _).ok _ _)

theorem execSpdmRequest_ends (via : Source) (r : SpdmRequest) : Ends none (Keeps s) (execSpdmRequest via r s) := by
  have h := Keeps.refl s
  refine .ite .stay (.ite (.next (h.emit _)) (.ite (.next (h.emit _)) ?_))
  split
  case h_1 | h_2 =>
    split
    all_goals exact .next (h.emit _)
  case h_3 => exact .next (h.emit _)
  case h_4 =>
    exact .ite (.next (h.emit _)) (.ite (.next (.either (h.spdmOpen _ _) (h.emit _)))
      (.ite (.next (h.emit _)) (.next (.either (h.spdmOpen _ _) (h.emit _)))))
  case h_5 | h_9 => exact .next (h.spdmOpen _ _)
  case h_6 | h_7 => exact .next ((h.setSession _ _).spdmOpen _ _)
  case h_8 =>
    split
    · exact .ite (.next ((h.setPort _ _).spdmOpen _ _)) (.next (h.emit _))
    · exact .next (h.emit _)

/-! ## The Pattern book over its transports (R356 to R373) -/

theorem execStagingDiscard_ends (x : Source) : Ends none (Keeps s) (execStagingDiscard x s) :=
  .ite (.next ((Keeps.refl s).unstage _)) .stay

theorem execResynchronise_ends (p : Port) : Ends none (Keeps s) (execResynchronise p s) :=
  .onMailbox p true fun _ h => h.capture.ok _ _

theorem execGetEntry_ends (p : Port) (i : BitVec 16) (sub : Byte) (offset : BitVec 32) (length : Padded (BitVec 32)) :
    Ends none (Keeps s) (execGetEntry p i sub offset length s) :=
  .onMailbox p true fun _ h => .either (h.deny _ _) ((h.dictRead _ _ _ _).ok _ _)

theorem execSetEntry_ends (p : Port) (i : BitVec 16) (sub flags : Byte) (offset : Padded (BitVec 32)) (value : Bytes) :
    Ends none (Keeps s) (execSetEntry p i sub flags offset value s) :=
  .onMailbox p true fun _ h => .either (h.deny _ _) ((h.pieceWrite _ _ _ _ _ _).reply _ _ _ _)

theorem execCommitRetained_ends (p : Port) : Ends none (Keeps s) (execCommitRetained p s) :=
  .onMailbox p true fun _ h => (h.commitFrom _).reply _ _ _ _

/-! ## The host's ports, spools and mailboxes (R324 to R352) -/

theorem execSubmissionDoorbell_ends (p : Port) (n : Byte) (v : BitVec 64) :
    Ends (s.portStop p) (Keeps s) (execSubmissionDoorbell p n v s) :=
  .onPort p fun _ h => .either (h.ringSub _ _ _) h

theorem execCompletionHeadDoorbell_ends (p : Port) (n : Byte) (v : BitVec 64) :
    Ends (s.portStop p) (Keeps s) (execCompletionHeadDoorbell p n v s) :=
  .onPort p fun _ h => .either (h.ringComp _ _ _) h

theorem execCoalesceTimer_ends (p : Port) (n : Byte) : Ends (s.portStop p) (Keeps s) (execCoalesceTimer p n s) := by
  refine .onPort p fun t h => ?_
  split
  · exact .either (h.signalComp _ _) h
  · exact h

theorem execHostAccess_ends (p : Port) (dpa : Nat) (op : HostOp) : Ends (s.portStop p) (Keeps s) (execHostAccess p dpa op s) := by
  refine .onPort p fun t h => ?_
  cases op with
  | read n => exact h.hostWindow _ _ _
  | write b => exact h.hostWindow _ _ _
  | msix o => exact .either (h.msixWrite _ _) h
  | gpfDvsec => exact .either (h.emit _) h

theorem execCxlLinkDown_ends (d : PortDown) : Ends (s.portStop d.port) (Keeps s) (execCxlLinkDown d s) :=
  .onPort d.port fun _ h => .either h ((h.setPort _ _).raise _ _ _ _)

theorem execHostLinkUp_ends (p : Port) (speed width : Byte) (flit : Bool) :
    Ends (s.portStop p) (Keeps s) (execHostLinkUp p speed width flit s) :=
  .onPort p fun _ h => .either h (h.setPort _ _)

theorem execCreateSpool_ends (p : Port) (b : Bytes) : Ends (lengthStop b 64) (Keeps s) (execCreateSpool p b s) :=
  .ofLength (.onMailbox p false fun _ h =>
    .either (h.deny _ _) (.either (h.deny _ _) (.either (h.deny _ _) (.either (h.deny _ _) ((h.addSpool _ _).ok _ _)))))

theorem execDeleteSpool_ends (p : Port) (kind : Byte) (n : Padded Byte) : Ends none (Keeps s) (execDeleteSpool p kind n s) := by
  refine .onMailbox p false fun t h => .either (h.deny _ _) (.either (.either (h.deny _ _) (h.side.ok _ _)) ?_)
  split
  · exact .either (h.deny _ _) (h.side.ok _ _)
  · exact h.deny _ _

theorem execResetSpool_ends (p : Port) (kind : Byte) (n : Padded Byte) : Ends none (Keeps s) (execResetSpool p kind n s) := by
  refine .onMailbox p false fun t h => .either (h.deny _ _) ?_
  split
  · exact .either (h.deny _ _) (h.startBg _ _ _ _ fun _ h => (h.mapSub _ _ _).endSpoolWork _ _)
  · exact h.deny _ _

theorem execSpoolResetComplete_ends (p : Port) (n : Byte) : Ends (s.portStop p) (Keeps s) (execSpoolResetComplete p n s) := by
  refine .onPort p fun t h => ?_
  split
  · exact h
  · next x _ =>
    have hd := h.drainReset p n x.unread
    exact .either h (.either hd ((hd.mapSub _ _ _).endBg _ _ _ _))

theorem execFlush_ends (p : Port) (kind : Byte) (x : Padded Handle) : Ends none (Keeps s) (execFlush p kind x s) :=
  .onMailbox p false fun _ h =>
    .either (h.deny _ _) (h.startBg _ _ _ _ fun _ h => .either ((h.addJob _).closeBlock _) (h.addJob _))

theorem execSetPowerState_ends (p : Port) (target : Byte) (flags : Padded Byte) :
    Ends none (Keeps s) (execSetPowerState p target flags s) :=
  .onMailbox p false fun _ h =>
    .either (h.deny _ _) (.either (h.deny _ _) (.either (h.deny _ _) (.either (h.startBg _ _ _ _ fun _ h => h.endBg _ _ _ _)
      (.either (h.deny _ _) (.either (h.deny _ _) (h.startBg _ _ _ _ fun _ h => h.beginPower _ _ _))))))

theorem execPowerTransitionComplete_ends : Ends none (Keeps s) (execPowerTransitionComplete s) := by
  have h := Keeps.refl s
  unfold execPowerTransitionComplete
  split
  · exact .stay
  · exact .ite .stay (.ite .stay (.ite (.next (h.reachPower _)) (.ite .stay (.ite (.next (h.closeBlock _))
      (.ite .stay (.next (h.reachPower _)))))))

theorem execBackgroundOperationStatus_ends (p : Port) : Ends none (Keeps s) (execBackgroundOperationStatus p s) := by
  refine .onMailbox p true fun t h => ?_
  dsimp only
  split
  · exact (h.ok _ _).spend
  · exact h.ok _ _

theorem execRequestAbort_ends (p : Port) : Ends none (Keeps s) (execRequestAbort p s) := by
  refine .onMailbox p false fun t h => ?_
  split
  · exact .either ((h.ok _ _).endSelfTest _) (h.reply _ _ _ _)
  · exact h.reply _ _ _ _

theorem execGetLog_ends (p : Port) (effects : Bool) (offset length : Nat) : Ends none (Keeps s) (execGetLog p effects offset length s) :=
  .onMailbox p true fun _ h => .either (h.reply _ _ _ _) (.either (h.deny _ _) (h.ok _ _))

theorem execClearEventRecords_ends (p : Port) (log : EventLog) (handles : Option (List Nat)) :
    Ends none (Keeps s) (execClearEventRecords p log handles s) := by
  refine .onMailbox p false fun t h => ?_
  split
  · exact (h.setPort _ _).ok _ _
  · exact h.reply _ _ _ _

/-! ## Start-up and the pins (R31, R32, R263, R407 to R415, R440) -/

theorem execRetainedCopyWritten_ends (ok : Bool) : Ends none (Keeps s) (execRetainedCopyWritten ok s) := by
  unfold execRetainedCopyWritten
  split
  · exact .stay
  · exact .ite .stay (.ite (.next ((Keeps.refl s).storeCopy _ _).side.nextCopy.bootSteps)
      (.ite (.next (Keeps.refl s).side) (.next ((Keeps.refl s).side.event _ _ _).nextCopy.bootSteps)))

theorem execMainPg_ends : Ends none (Keeps s) (execMainPg s) :=
  .ite .stay (.next (Keeps.refl s).withDev.loadPhiug.enterTrain)

theorem execMainPgTimeout_ends (rails : List (BitVec 16)) : Ends none (Keeps s) (execMainPgTimeout rails s) := by
  refine .ite .stay ?_
  dsimp only
  split
  · exact .next ((Keeps.refl s).withDev.raise _ _ _ _)
  · exact .next (.either (Keeps.refl s).withDev ((Keeps.refl s).withDev.raise _ _ _ _))

theorem execPerstaNDeasserted_ends : Ends none (Keeps s) (execPerstaNDeasserted s) :=
  .next (Keeps.refl s).withDev.enterTrain

theorem execTrainComplete_ends (r : TrainReport) :
    Ends (if r.wellFormed then none else some .illFormed) (Keeps s) (execTrainComplete r s) := by
  refine .orFault (.ite .stay ?_)
  generalize ht : ((s.trainStacks r.failedStacks).trainBulk r.packages).trainRoot r.expanders = t
  have h : Keeps s t := ht ▸ (((Keeps.refl s).trainStacks _).trainBulk _).trainRoot _
  dsimp only
  split
  · exact .next h
  · generalize hu : ((t.retainCalib r).measureTiers).setOut = u
    have hs : Keeps s u := hu ▸ (h.retainCalib _).measureTiers.setOut
    split
    · exact .next hs
    · next hst => exact .next (hs.setDevState .readyEmpty fun k => by simp [k] at hst).endTrial.memoryReady

theorem execPerstbN_ends : Ends none (Keeps s) (execPerstbN s) := by
  refine .ite .stay (.next (Keeps.portReset _ ?_))
  dsimp only
  generalize hf : List.foldl _ _ _ = t
  have h : Keeps s t := hf ▸ (Keeps.refl s).side.foldl fun _ _ h => (h.mapSub _ _ _).endSpoolWork _ _
  exact h.upd rfl rfl rfl rfl id id (Memory.wf_drop _) id (Nat.le_refl _) (.refl _)

theorem execPwrFailN_ends : Ends none (Keeps s) (execPwrFailN s) :=
  have h : Keeps s { s with dev := { s.dev with pwrFail := true } } := (Keeps.refl s).withDev
  .ite (.next (h.powerClose _)) (.next h)

theorem execPwrFailNDeasserted_ends : Ends none (Keeps s) (execPwrFailNDeasserted s) :=
  have h : Keeps s { s with dev := { s.dev with pwrFail := false } } := (Keeps.refl s).withDev
  .ite (.next h.resumeIntake) (.next h)

theorem execGpfPhase1_ends : Ends none (Keeps s) (execGpfPhase1 s) := .ite (.next ((Keeps.refl s).powerClose _)) .stay

theorem execGpfPhase2_ends : Ends none (Keeps s) (execGpfPhase2 s) := by
  have hw := (Keeps.refl s).writeBlocks s.muts.journal.unwritten.length
  have h := Keeps.either (c := (s.writeBlocks s.muts.journal.unwritten.length).expandersUp.isEmpty = true) hw (hw.emit .flushExpanders)
  exact .ite .stay (.ite (.next h) (.ite (.next (h.mapJournal _)) (.next h.resumeIntake)))

theorem execFreezeN_ends : Ends none (Keeps s) (execFreezeN s) :=
  have h : Keeps s { s with dev := { s.dev with freezePin := true } } := (Keeps.refl s).withDev
  .next (.either h (h.freezeNow _ _))

theorem execFreezeNReleased_ends : Ends none (Keeps s) (execFreezeNReleased s) :=
  .next (Keeps.refl s).withDev.bootSteps

theorem execRefclkCheck_ends (present : BitVec 3) : Ends none (Keeps s) (execRefclkCheck present s) :=
  .ite .stay (.next (Keeps.refl s).withDev)

theorem execManagementPortState_ends (up : Bool) : Ends none (Keeps s) (execManagementPortState up s) :=
  .ite .stay (.next (Keeps.refl s).withDev)

theorem execSetEndpointId_ends (eid : Byte) : Ends none (Keeps s) (execSetEndpointId eid s) :=
  .ite .stay (.next ((Keeps.refl s).setNum _ _))

/-! ## The self-test and the test access port (R435 to R443) -/

theorem execStartSelfTest_ends (p : Port) (kind : Padded Byte) : Ends none (Keeps s) (execStartSelfTest p kind s) :=
  .onMailbox p false fun _ h =>
    .either (h.deny _ _) (.either (h.deny _ _) (.either (h.deny _ _) (h.startBg _ _ _ _ fun _ h => h.side)))

theorem execSelfTestSlice_ends (r : SliceRef) (pass : Bool) : Ends none (Keeps s) (execSelfTestSlice r pass s) := by
  unfold execSelfTestSlice
  split
  · exact .stay
  · refine .ite .stay (.next (Keeps.testEnds (.either (Keeps.sliceFails _ (Keeps.side ?_)) (Keeps.side ?_))))
    all_goals exact .either ((Keeps.refl s).marchStarts _) (.refl s)

theorem execSelfTestResume_ends : Ends none (Keeps s) (execSelfTestResume s) := by
  unfold execSelfTestResume
  split
  · exact .ite (.next (Keeps.refl s).side) .stay
  · exact .stay

theorem execSelfTestLimit_ends : Ends none (Keeps s) (execSelfTestLimit s) := by
  unfold execSelfTestLimit
  split
  · exact .ite (.next ((Keeps.refl s).endSelfTest _)) .stay
  · exact .stay

theorem execSamplePreload_ends (b : BoundaryScan) : Ends none (Keeps s) (execSamplePreload b s) :=
  .onTap _ fun _ h => h.side.shiftPins _

theorem execExtest_ends : Ends none (Keeps s) (execExtest s) :=
  .onTap _ fun _ h => .either (h.side.shiftPins _) h.shiftBypass

theorem execBypass_ends (code : Byte) : Ends none (Keeps s) (execBypass code s) :=
  .ite .stay (.onTap _ fun _ h => h.shiftBypass)

/-! ## Readings (R392 to R394) -/

theorem execPowerEstimate_ends (watts : BitVec 16) : Ends none (Keeps s) (execPowerEstimate watts s) := by
  refine .ite .stay (.next (.either (Keeps.bump _ (Keeps.setReading _ _ ?_)) (Keeps.setReading _ _ ?_)))
  all_goals exact (Keeps.refl s).upd rfl rfl rfl rfl id id id id (Nat.le_refl _) (.refl _)

theorem execRailSample_ends (rail : Fin 6) (mv : BitVec 16) : Ends none (Keeps s) (execRailSample rail mv s) :=
  have h := (Keeps.refl s).setReading (0xB00001 + rail) (mv.setWidth 32)
  .ite .stay (.next ((Keeps.either (h.raise _ _ _ _) h).warn _ _ _ _).loadPhiug.enterTrain)

theorem execJunctionSample_ends (x : Half) (celsius : Int) : Ends none (Keeps s) (execJunctionSample x celsius s) :=
  have h := (Keeps.refl s).setReading (0xB00007 + Half.num x) (BitVec.ofInt 32 celsius)
  .ite .stay (.next ((Keeps.either (h.withDev.raise _ _ _ _) h).warn _ _ _ _))

/-! ## Every command -/

/-- The commands that some field of `Keeps` does not outlast: the entries to BOOT and to OFF, and the return of a stack. -/
def restarts : Instr → Bool
  | .powerGood _ | .vauxLost | .perstaN _ | .deviceReset _ _ | .zeroFillComplete _ => true
  | _ => false

/-- Every other command stops with the fault that `Instr.stop` names, or ends in a next state that keeps what `Keeps` lists. -/
theorem exec_ends_keeps (c : Instr) (s : State) (hc : restarts c = false) : Ends (c.stop s) (Keeps s) (exec c s) := by
  cases c with
  | powerGood | vauxLost | perstaN | deviceReset | zeroFillComplete => cases hc
  | mainPg => exact execMainPg_ends
  | mainPgTimeout => exact execMainPgTimeout_ends _
  | perstaNDeasserted => exact execPerstaNDeasserted_ends
  | trainComplete => exact execTrainComplete_ends _
  | perstbN => exact execPerstbN_ends
  | pwrFailN => exact execPwrFailN_ends
  | pwrFailNDeasserted => exact execPwrFailNDeasserted_ends
  | gpfPhase1 => exact execGpfPhase1_ends
  | gpfPhase2 => exact execGpfPhase2_ends
  | freezeN => exact execFreezeN_ends
  | freezeNReleased => exact execFreezeNReleased_ends
  | powerEstimate => exact execPowerEstimate_ends _
  | railSample => exact execRailSample_ends _ _
  | junctionSample => exact execJunctionSample_ends _ _
  | sourceQualification => exact execSourceQualification_ends
  | holdoverErrorLimit => exact execHoldoverErrorLimit_ends
  | sync => exact execSync_ends _
  | followUp => exact execFollowUp_ends _
  | delayResponse => exact execDelayResponse_ends _
  | announce => exact execAnnounce_ends _
  | ftPpsIn => exact execFtPpsIn_ends
  | ftPpsOut => exact execFtPpsOut_ends
  | beaconSend => exact execBeaconSend_ends
  | timeBeacon => exact execTimeBeacon_ends _ _
  | setTime | acceptBackwardStep | setGeneration | factoryReset | registerWrite | rebaseline | shardMap | bindings
    | setSigPolicy | commitSvn | recoveryData | recoveryVerify | handle | acknowledge | clear | force | level | rearm =>
    exact .next (.entryWrite _ _ _ (.refl s))
  | generationBell => exact execGenerationBell_ends
  | mergeBell => exact execMergeBell_ends _
  | windowStart => exact execWindowStart_ends _
  | windowEnd => exact execWindowEnd_ends _
  | telemetrySample => exact execTelemetrySample_ends _
  | calendarEntryOn | calendarEntryOff | journalOn | journalOff | seamOn | seamOff | recipesOn | recipesOff | lendOn
    | lendOff | tracesOn | tracesOff | linkOn | linkOff | loopBackOn | loopBackOff | marginScanOn | marginScanOff =>
    exact .next (.functionWrite _ _ _ (.refl s))
  | functionStartComplete => exact execFunctionStartComplete_ends _ _
  | functionStopComplete => exact execFunctionStopComplete_ends _
  | submissionDoorbell => exact execSubmissionDoorbell_ends _ _ _
  | completionHeadDoorbell => exact execCompletionHeadDoorbell_ends _ _ _
  | graphSearch | flatScan | getByVid | hybrid => exact .next (.readEntryOf _ _ _ (.refl s))
  | encode => exact execEncode_ends _ _
  | encodeBatchComplete => exact execEncodeBatchComplete_ends _
  | driftWindow => exact .next (.judgeWindow _ (.refl s))
  | neighbourListArrival => exact execNeighbourListArrival_ends _
  | codeLinesArrival => exact execCodeLinesArrival_ends _ _ _
  | rerankBatchComplete => exact execRerankBatchComplete_ends _
  | basteBatchStart => exact execBasteBatchStart_ends _
  | basteBatchComplete => exact execBasteBatchComplete_ends _
  | flatBatchStart => exact execFlatBatchStart_ends _ _
  | scanChunkComplete => exact execScanChunkComplete_ends _
  | listSpaceReleased => exact execListSpaceReleased_ends _
  | queryWaitCutoff => exact execQueryWaitCutoff_ends _
  | coalesceTimer => exact execCoalesceTimer_ends _ _
  | mutate => exact execMutate_ends _ _
  | basteRoom => exact .next (.resumeJob _ (.refl s))
  | journalBlockTimer => exact execJournalBlockTimer_ends
  | journalBlockWriteComplete => exact .next ((Keeps.refl s).readRelease.blockOutcome _).resumeJobs
  | journalSpaceReleased => exact .next (Keeps.refl s).readRelease.resumeJobs
  | flushJournal => exact execFlushJournal_ends _ _
  | flushSeam | save => exact .next (.readMutation _ _ _ _ (.refl s))
  | flushSatisfied => exact execFlushSatisfied_ends _
  | replay => exact execReplay_ends _ _
  | seamInsert => exact execSeamInsert_ends _ _
  | seamDelete => exact execSeamDelete_ends _
  | slotFree => exact execSlotFree_ends _ _
  | createCollection => exact execCreateCollection_ends _ _
  | deleteCollection => exact execDeleteCollection_ends _ _
  | collectionDrained => exact execCollectionDrained_ends _
  | loadBegin => exact execLoadBegin_ends _ _ _
  | imageWindowWrite => exact execImageWindowWrite_ends _ _ _
  | loadEnd => exact execLoadEnd_ends _ _
  | loadEndComplete => exact execLoadEndComplete_ends _
  | loadAbort => exact execLoadAbort_ends _ _
  | collectionOnline => exact execCollectionOnline_ends _ _
  | collectionOffline => exact execCollectionOffline_ends _ _
  | submitRecipe => exact execSubmitRecipe_ends _ _
  | recipeRunStart => exact execRecipeRunStart_ends
  | tunStep => exact execTunStep_ends _
  | memoryReadComplete => exact execMemoryReadComplete_ends _ _ _ _
  | retrainStart => exact execRetrainStart_ends _ _ _
  | retrainVerify => exact execRetrainVerify_ends _ _ _
  | retrainTimeout => exact execRetrainTimeout_ends _ _
  | drainComplete => exact execDrainComplete_ends _ _
  | scrubRead => exact execScrubRead_ends _ _ _ _
  | hbmTemperatureReading => exact execHbmTemperatureReading_ends _ _
  | stackReturn => exact execStackReturn_ends _ _
  | bulkTemperatureRead => exact execBulkTemperatureRead_ends _ _ _
  | bulkPackageOffline => exact execBulkPackageOffline_ends _
  | expanderOffline => exact execExpanderOffline_ends _
  | caskSliceOffline | d2dLaneRetired => exact .next (.failUnit _ _ (.refl s))
  | unitOffline => exact execUnitOffline_ends _
  | hostAccess => exact execHostAccess_ends _ _ _
  | hostLinkUp => exact execHostLinkUp_ends _ _ _ _
  | hdmDecoderCommit | busMasterEnable => exact .onPort _ fun _ h => h.setPort _ _
  | cxlLinkDown => exact execCxlLinkDown_ends _
  | createSpool => exact execCreateSpool_ends _ _
  | deleteSpool => exact execDeleteSpool_ends _ _ _
  | resetSpool => exact execResetSpool_ends _ _ _
  | spoolResetComplete => exact execSpoolResetComplete_ends _ _
  | flush => exact execFlush_ends _ _ _
  | setPowerState => exact execSetPowerState_ends _ _ _
  | powerTransitionComplete => exact execPowerTransitionComplete_ends
  | startSelfTest => exact execStartSelfTest_ends _ _
  | getSelfTestResult | identify | getSupportedLogs | getEventRecords | getEventInterruptPolicy | getFwInfo
    | identifyMemoryDevice =>
    exact .onMailbox _ _ fun _ h => h.ok _ _
  | selfTestSlice => exact execSelfTestSlice_ends _ _
  | selfTestResume => exact execSelfTestResume_ends
  | selfTestLimit => exact execSelfTestLimit_ends
  | resynchronise => exact execResynchronise_ends _
  | getEntry => exact execGetEntry_ends _ _ _ _ _
  | setEntry => exact execSetEntry_ends _ _ _ _ _ _
  | commitRetained => exact execCommitRetained_ends _
  | retainedCopyWritten => exact execRetainedCopyWritten_ends _
  | backgroundOperationStatus => exact execBackgroundOperationStatus_ends _
  | requestAbort => exact execRequestAbort_ends _
  | getLog => exact execGetLog_ends _ _ _ _
  | clearEventRecords => exact execClearEventRecords_ends _ _ _
  | setEventInterruptPolicy => exact .onMailbox _ _ fun _ h => (h.setPort _ _).ok _ _
  | transferFw => exact execTransferFw_ends _ _ _ _ _
  | activateFw => exact execActivateFw_ends _ _ _
  | getTimestamp | setTimestamp => exact .onMailbox _ _ fun _ h => h.reply _ _ _ _
  | spdmRequest => exact execSpdmRequest_ends _ _
  | papGet | papSet | papCommit | papResynchronise | mctpGet | mctpSet | mctpCommit | mctpResynchronise =>
    exact .next (.papRequest _ _ _ (.refl s))
  | stagingDiscard => exact execStagingDiscard_ends _
  | papAnswerExpiry => exact .next (Keeps.refl s).side
  | eventRaised => exact execEventRaised_ends _ _ _ _
  | faultNPulseEnd => exact execFaultNPulseEnd_ends
  | reactionTimer => exact .next (.escalateDue _ (.refl s))
  | detect => exact execDetect_ends _ _
  | measure => exact execMeasure_ends _ _
  | autoneg => exact execAutoneg_ends _ _ _
  | linkTrainingComplete => exact execLinkTrainingComplete_ends _ _ _
  | align => exact execAlign_ends _
  | connect => exact execConnect_ends _
  | linkTimeout => exact execLinkTimeout_ends _
  | faultRetry => exact execFaultRetry_ends _
  | alignmentLost => exact execAlignmentLost_ends _
  | modulePoll => exact execModulePoll_ends _ _ _ _
  | keyUpdate => exact execKeyUpdate_ends _
  | put | get | add64 | cas64 | swap64 | merge | fence | signal => exact .onRequest _ _ _ _
  | response => exact execResponse_ends _ _ _ _
  | credit => exact execCredit_ends _ _ _
  | ack => exact execAck_ends _ _
  | linkReplay => exact execLinkReplay_ends _ _
  | capability => exact execCapability_ends _ _
  | linkSpdm => exact execLinkSpdm_ends _ _
  | requestTimeout => exact execRequestTimeout_ends _
  | creditStall => exact execCreditStall_ends _
  | hostRequestGo => exact execHostRequestGo_ends _
  | hedgeTimer => exact execHedgeTimer_ends _ _ _
  | loopBackDuration => exact execLoopBackDuration_ends _ _ _
  | marginScanStart => exact execMarginScanStart_ends
  | bellConflict => exact execBellConflict_ends
  | marginStep => exact execMarginStep_ends _
  | idcode | freezeStatus | chainRead => exact .onTap _ fun _ h => h.emit _
  | samplePreload => exact execSamplePreload_ends _
  | extest => exact execExtest_ends
  | chainSelect => exact .onTap _ fun _ h => h.side
  | bypass => exact execBypass_ends _
  | leadCutoff => exact execLeadCutoff_ends _ _
  | numberInvalid => exact execNumberInvalid_ends _
  | replayComplete => exact execReplayComplete_ends _
  | saveComplete => exact execSaveComplete_ends _
  | refclkCheck => exact execRefclkCheck_ends _
  | managementPortState => exact execManagementPortState_ends _
  | setEndpointId => exact execSetEndpointId_ends _

/-! ## The part over a reset -/

/-- The part is the same in both states. -/
def SamePart (s t : State) : Prop := t.chip.part = s.chip.part

theorem Keeps.samePart {s t u : State} (h : Keeps t u) (k : SamePart s t) : SamePart s u := h.part.trans k

/-- A reset forgets what a start-up measured of the chip, and keeps the part. -/
theorem survivors_samePart {s₀ : State} (h : SamePart s₀ s) : SamePart s₀ s.survivors := h

theorem setDevState_samePart {s₀ : State} (x : DevState) (h : SamePart s₀ s) : SamePart s₀ (s.setDevState x) := by
  unfold State.setDevState
  split
  · exact h
  · exact (Keeps.logChange _ _ _ _ (.refl _)).samePart h

theorem beginBoot_samePart {s₀ : State} (straps : BitVec 2) (epoch : Nat) (h : SamePart s₀ s) :
    SamePart s₀ (s.beginBoot straps epoch) := by
  unfold State.beginBoot
  dsimp only
  split
  · exact setDevState_samePart _ h
  · exact setDevState_samePart _ h

theorem reboot_samePart {s₀ : State} (straps : BitVec 2) (h : SamePart s₀ s) : SamePart s₀ (s.reboot straps) :=
  (Keeps.refl _).bootSteps.samePart (beginBoot_samePart straps _ (survivors_samePart ((Keeps.refl s).flashLanded.samePart h)))

theorem execPowerGood_samePart (straps : BitVec 2) : Ends none (SamePart s) (execPowerGood straps s) :=
  .ite (.next rfl) (.next ((Keeps.refl _).bootSteps.samePart (beginBoot_samePart straps 1 (survivors_samePart rfl))))

theorem execVauxLost_samePart : Ends none (SamePart s) (execVauxLost s) :=
  .next (survivors_samePart ((Keeps.refl s).flashCut.samePart rfl))

theorem execPerstaN_samePart (straps : BitVec 2) : Ends none (SamePart s) (execPerstaN straps s) :=
  .ite (.next rfl) (.next (reboot_samePart straps rfl))

theorem execDeviceReset_samePart (p : Port) (straps : BitVec 2) : Ends none (SamePart s) (execDeviceReset p straps s) := by
  have hd (e : Ext) : SamePart s (s.deny p e) := ((Keeps.refl s).deny p e).part
  have hr : SamePart s ((s.ok p []).reboot straps) := reboot_samePart straps ((Keeps.refl s).ok p []).part
  refine .ite (.next rfl) (.ite (.next (hd _)) (.ite (.next (hd _)) (.next ?_)))
  dsimp only
  split
  · exact hd _
  · exact hr

theorem execZeroFillComplete_samePart (n : Fin 12) : Ends (s.stackStop n) (SamePart s) (execZeroFillComplete n s) :=
  .orFault (.ite (.next rfl) (.next ((Keeps.refl _).restore.samePart rfl)))

/-- Every command stops with the fault that `Instr.stop` names, or ends in a next state of the same part. -/
theorem exec_ends_samePart (c : Instr) (s : State) : Ends (c.stop s) (SamePart s) (exec c s) := by
  cases c with
  | powerGood straps => exact execPowerGood_samePart straps
  | vauxLost => exact execVauxLost_samePart
  | perstaN straps => exact execPerstaN_samePart straps
  | deviceReset p straps => exact execDeviceReset_samePart p straps
  | zeroFillComplete n => exact execZeroFillComplete_samePart n
  | _ => exact (exec_ends_keeps _ s rfl).mono fun _ h => h.part

theorem tick_samePart : SamePart s s.tick := by
  unfold State.tick
  split
  · exact rfl
  · split
    · exact rfl
    · exact (Keeps.refl s).keepCounts.part

/-! ## The statements -/

/-- Settles O3: each command has its end by `exec_ends_samePart`, and an end is no refusal. -/
theorem nothingIsRefused : Obligations.NothingIsRefused := by
  intro c s
  have h := exec_ends_samePart c s
  cases hc : c.stop s with
  | some f => exact (hc ▸ h).of_stop
  | none => exact (hc ▸ h).of_none

/-- Settles O9: a step is a cycle of the clock or a command, and neither changes the part; a reset keeps it among its survivors. -/
theorem partNeverChanges : Obligations.PartNeverChanges := by
  intro s t h
  unfold step at h
  split at h
  · cases h
    exact tick_samePart
  · next c rest _ => exact (exec_ends_samePart c { s with pending := rest }).of_next h

end Sys2Proof.Machine
end

/-!
SUPPORT. What one step can do, for the statements about every step: `Carries` is what even a reset does not take back, and
`step_cases` tells the steps apart, a cycle of the clock, a command that keeps all of `Keeps`, and the commands that restart the
device or bring a unit back.
-/

section
namespace Sys2Proof.Machine

variable {s s₀ t u : State} {c : Instr}

/-! ## What a reset does not take back -/

/-- The queue and the always-on count are the same, outputs are only added, and open values only passed. -/
structure Carries (s t : State) : Prop where
  pending : t.pending = s.pending
  aon : t.ftu.aon = s.ftu.aon
  free : s.free ≤ t.free
  out : s.out <:+ t.out

theorem Carries.refl (s : State) : Carries s s := ⟨rfl, rfl, Nat.le_refl _, List.suffix_refl _⟩

theorem Carries.trans (h : Carries s t) (k : Carries t u) : Carries s u :=
  ⟨k.pending.trans h.pending, k.aon.trans h.aon, Nat.le_trans h.free k.free, h.out.trans k.out⟩

theorem Keeps.carries (h : Keeps s t) : Carries s t := ⟨h.pending, h.aon, h.free, h.out⟩

theorem Carries.survivors (h : Carries s₀ s) : Carries s₀ s.survivors := ⟨h.pending, h.aon, h.free, h.out⟩

theorem Carries.beginBoot (straps : BitVec 2) (epoch : Nat) (h : Carries s₀ s) : Carries s₀ (s.beginBoot straps epoch) := by
  have hb := (State.beginBoot_only (rfl : s.beginBoot straps epoch = _)).1
  rw [hb]
  exact ⟨h.pending, h.aon, h.free, h.out⟩

theorem Carries.bootSteps (h : Carries s₀ s) : Carries s₀ s.bootSteps := h.trans (Keeps.refl s).bootSteps.carries

theorem Carries.restore (h : Carries s₀ s) : Carries s₀ s.restore := h.trans (Keeps.refl s).restore.carries

theorem Carries.reenter (straps : BitVec 2) (h : Carries s₀ s) : Carries s₀ (s.reenter straps) :=
  have k : Carries s₀ s.flashLanded.survivors := (h.trans (Keeps.refl s).flashLanded.carries).survivors
  .beginBoot straps _ ⟨k.pending, k.aon, k.free, k.out⟩

theorem Carries.reboot (straps : BitVec 2) (h : Carries s₀ s) : Carries s₀ (s.reboot straps) := (h.reenter straps).bootSteps

/-! ## The commands that restart the device, and the return of a stack -/

/-- The causes of R32 that end FENCED: PERSTA_N, DEVICE_RESET on Port A, and loss of VAUX. -/
def IsReset (c : Instr) : Prop := (∃ straps, c = .perstaN straps) ∨ (∃ straps, c = .deviceReset .a straps) ∨ c = .vauxLost

/-- POWER_GOOD and ZERO_FILL_COMPLETE bring units back and reset nothing of a device that is FENCED. -/
def BringsBack (c : Instr) : Prop := (∃ n, c = .zeroFillComplete n) ∨ (∃ straps, c = .powerGood straps)

theorem execPowerGood_carries (straps : BitVec 2) :
    Ends none (fun t => Carries s t ∧ (s.dev.st = .fenced → t.dev.st = .fenced)) (execPowerGood straps s) := by
  unfold execPowerGood
  split
  · exact .next ⟨.refl s, id⟩
  · next hoff =>
    exact .next ⟨((Carries.refl s).survivors.beginBoot straps 1).bootSteps, fun hf => absurd hf fun hf => by simp [hf] at hoff⟩

theorem execVauxLost_carries : Ends none (Carries s) (execVauxLost s) :=
  have h : Carries s s.flashCut.survivors := (Keeps.refl s).flashCut.carries.survivors
  .next ⟨h.pending, h.aon, h.free, h.out⟩

theorem execPerstaN_carries (straps : BitVec 2) : Ends none (Carries s) (execPerstaN straps s) :=
  have h : Carries s { s with dev := { s.dev with perstA := true } } := ⟨rfl, rfl, Nat.le_refl _, List.suffix_refl _⟩
  .ite (.next h) (.next (h.reboot straps))

theorem execDeviceReset_a_carries (straps : BitVec 2) : Ends none (Carries s) (execDeviceReset .a straps s) :=
  have hd (e : Ext) : Carries s (s.deny .a e) := ((Keeps.refl s).deny .a e).carries
  .ite (.next (.refl s)) (.ite (.next (hd _)) (.ite (.next (hd _)) (.next (((Keeps.refl s).ok .a []).carries.reboot straps))))

/-- On Port B the command is denied. -/
theorem execDeviceReset_b_keeps (straps : BitVec 2) : Ends none (Keeps s) (execDeviceReset .b straps s) :=
  .onMailbox .b true fun _ h => h.deny _ _

theorem execZeroFillComplete_carries (n : Fin 12) :
    Ends (s.stackStop n) (fun t => Carries s t ∧ (s.dev.st = .fenced → t.dev.st = .fenced)) (execZeroFillComplete n s) := by
  refine .orFault (.ite (.next ⟨.refl s, id⟩) (.next ?_))
  exact ⟨.restore ⟨rfl, rfl, Nat.le_refl _, List.suffix_refl _⟩, fun hf => (Keeps.refl _).restore.fenced hf⟩

/-- What a command that answers a next state can have been. -/
theorem exec_next_cases (h : exec c s = .next t) :
    Keeps s t ∨ Carries s t ∧ (IsReset c ∨ BringsBack c ∧ (s.dev.st = .fenced → t.dev.st = .fenced)) := by
  cases c with
  | powerGood straps =>
    obtain ⟨hc, hf⟩ := (execPowerGood_carries straps).of_next h
    exact .inr ⟨hc, .inr ⟨.inr ⟨straps, rfl⟩, hf⟩⟩
  | zeroFillComplete n =>
    obtain ⟨hc, hf⟩ := (execZeroFillComplete_carries n).of_next h
    exact .inr ⟨hc, .inr ⟨.inl ⟨n, rfl⟩, hf⟩⟩
  | vauxLost => exact .inr ⟨execVauxLost_carries.of_next h, .inl (.inr (.inr rfl))⟩
  | perstaN straps => exact .inr ⟨(execPerstaN_carries straps).of_next h, .inl (.inl ⟨straps, rfl⟩)⟩
  | deviceReset p straps =>
    cases p with
    | a => exact .inr ⟨(execDeviceReset_a_carries straps).of_next h, .inl (.inr (.inl ⟨straps, rfl⟩))⟩
    | b => exact .inl ((execDeviceReset_b_keeps straps).of_next h)
  | _ => exact .inl ((exec_ends_keeps _ s rfl).of_next h)

/-! ## One step -/

/-- A cycle of the clock changes the time unit and the counts kept for samples. -/
theorem tick_frame (s : State) : s.tick = { s with ftu := s.tick.ftu, tele := s.tick.tele } := by
  unfold State.tick
  split
  · rfl
  · split <;> rfl

/-- A step is a cycle of the clock, where nothing waits, or runs the front of the queue against the rest. -/
theorem step_cases (h : step s = .next t) :
    (s.pending = [] ∧ t = s.tick) ∨ ∃ c rest, s.pending = c :: rest ∧ exec c { s with pending := rest } = .next t := by
  unfold step at h
  split at h
  · next hp => cases h; exact .inl ⟨hp, rfl⟩
  · next c rest hp => exact .inr ⟨c, rest, hp, h⟩

/-- What even a reset does not take back is left by every command. -/
theorem exec_carries (h : exec c s = .next t) : Carries s t := (exec_next_cases h).elim Keeps.carries And.left

/-! ## The statements -/

/-- Settles O4: a cycle of the clock finds the queue empty and leaves it so, and a command leaves the rest as it is. -/
theorem queueInOrder : Obligations.QueueInOrder := by
  intro s t h
  rcases step_cases h with ⟨hp, rfl⟩ | ⟨c, rest, hp, h⟩
  · rw [tick_frame]; simp [hp]
  · rw [hp]; exact (exec_carries h).pending

/-- Settles O11: `Carries` says it of a command, and a cycle of the clock sends nothing and draws nothing. -/
theorem outputsAreNeverWithdrawn : Obligations.OutputsAreNeverWithdrawn := by
  intro s t h
  rcases step_cases h with ⟨hp, rfl⟩ | ⟨c, rest, hp, h⟩
  · rw [tick_frame]; exact ⟨List.suffix_refl _, Nat.le_refl _, fun hn => absurd hp hn⟩
  · have k := exec_carries h
    exact ⟨k.out, k.free, fun _ => k.aon⟩

/-- Settles O7: a command that is no reset keeps FENCED, by `exec_next_cases`. -/
theorem fencedLeftOnlyByReset : Obligations.FencedLeftOnlyByReset := by
  intro s t h hs ht
  rcases step_cases h with ⟨-, rfl⟩ | ⟨c, rest, hp, h⟩
  · rw [tick_frame] at ht; exact absurd hs ht
  · refine ⟨c, rest, hp, ?_⟩
    rcases exec_next_cases h with k | ⟨-, hr | ⟨-, hf⟩⟩
    · exact absurd (k.fenced hs) ht
    · exact hr
    · exact absurd (hf hs) ht

/-- Settles O10: the commands that do not keep every unit's loss are the resets and the two of `BringsBack`. -/
theorem offlineUnitsStayOffline : Obligations.OfflineUnitsStayOffline := by
  intro s t h hu
  rcases step_cases h with ⟨-, rfl⟩ | ⟨c, rest, hp, h⟩
  · rw [tick_frame] at hu; exact absurd (.refl _) hu
  · refine ⟨c, rest, hp, ?_⟩
    rcases exec_next_cases h with k | ⟨-, (hp | hd | hv) | ⟨hz | hg, -⟩⟩
    · exact absurd k.units hu
    · exact .inr (.inr (.inl hp))
    · exact .inr (.inr (.inr (.inl hd)))
    · exact .inr (.inr (.inr (.inr hv)))
    · exact .inl hz
    · exact .inr (.inl hg)

/-- Settles O6: the state after reset lists nothing, and each field has the value its structure gives it. -/
theorem resetState : Obligations.ResetState := by
  exact ⟨⟨rfl, rfl, rfl, rfl⟩, rfl, rfl, rfl, rfl, rfl, rfl, rfl, rfl, rfl⟩

end Sys2Proof.Machine
end

/-!
SUPPORT. The resets, the readings, the failure of a unit, seam and the scan batches: what each command answers in each of its cases,
and the statements that gather the cases.
-/

section
namespace Sys2Proof.Machine

variable {s : State}

/-! ## Resets (R32, R338, R414, R415, R441) -/

/-- Loss of VAUX leaves what no reset reaches of the state in which flash writes were cut. -/
theorem execVauxLost_eq (s : State) :
    execVauxLost s = .next { s.flashCut.survivors with dev := { s.flashCut.survivors.dev with st := .off } } := rfl

/-- PERSTA_N is asserted. -/
def State.assertPerstA (s : State) : State := { s with dev := { s.dev with perstA := true } }

/-- PERSTA_N of a powered device: BOOT again, and its steps. -/
theorem execPerstaN_powered (straps : BitVec 2) (h : s.dev.st ≠ .off) :
    execPerstaN straps s = .next (s.assertPerstA.reenter straps).bootSteps := by
  simp [execPerstaN, State.reboot, State.assertPerstA, h]

section
variable {straps : BitVec 2} {u : State} (hu : u = s.reenter straps)
include hu

/-- A later entry to BOOT: the device's registers. -/
theorem reenter_dev :
    u.dev = { st := .boot, since := u.dev.since, straps := straps, epoch := (s.dev.epoch + 1) % 2 ^ 32, previous := s.dev.st,
              freezeWait := s.dev.freezePin, perstA := s.dev.perstA, pwrFail := s.dev.pwrFail, freezePin := s.dev.freezePin,
              refclk := s.dev.refclk, mainEn := s.dev.mainEn, mainPg := s.dev.mainPg } :=
  (State.beginBoot_only hu).2.1

/-- A later entry to BOOT: FAULT_N is armed, and of Thimble only the log of the entry stands. -/
theorem reenter_thimble : u.thimble = { log := u.thimble.log, logNext := u.thimble.logNext, armed := true } :=
  (State.beginBoot_only hu).2.2

/-- A later entry to BOOT: the rest of the state is as after any reset, but for a retained copy being written. -/
theorem reenter_frame :
    u = { s.flashLanded.survivors with
            ret := { s.flashLanded.survivors.ret with writing := s.ret.writing }, dev := u.dev, book := u.book,
            thimble := u.thimble } :=
  (State.beginBoot_only hu).1

/-- What a later entry to BOOT leaves of the device and what it forgets. -/
theorem reenter_leaves :
    u.dev.st = .boot ∧ u.dev.frozen = false ∧ u.dev.straps = straps ∧ u.dev.epoch = (s.dev.epoch + 1) % 2 ^ 32 ∧
      u.dev.perstA = s.dev.perstA ∧ u.thimble.armed = true ∧ u.thimble.opened = [] ∧ u.colls = [] ∧ u.spools = {} ∧
      u.search.queries = [] ∧ u.tun.run = none := by
  have hd := reenter_dev hu
  have ht := reenter_thimble hu
  have hs := reenter_frame hu
  exact ⟨by rw [hd], by rw [hd], by rw [hd], by rw [hd], by rw [hd], by rw [ht], by rw [ht], by rw [hs]; rfl, by rw [hs]; rfl,
    by rw [hs]; rfl, by rw [hs]; rfl⟩

end

/-- Steps that wait for FREEZE_N do not go on. -/
theorem bootSteps_waiting (h : s.dev.freezeWait = true) : s.bootSteps = s := by
  simp [State.bootSteps, h]

/-- Loading Phiug sets its register and nothing else of the device. -/
theorem loadPhiug_dev (s : State) : s.loadPhiug.dev = { s.dev with phiug := s.loadPhiug.dev.phiug } := by
  unfold State.loadPhiug
  split
  · rfl
  · rw [State.calArmAll_dev]

/-- BOOT is not left while PERSTA_N is asserted. -/
theorem enterTrain_held (h : s.dev.perstA = true) : s.enterTrain = s := by
  simp [State.enterTrain, h]

/-- Steps that fence and freeze nothing end in BOOT while PERSTA_N is asserted, done. -/
theorem bootSteps_dev {u v : State} (hst : u.dev.st = .boot) (hf : u.dev.frozen = false) (hd : u.dev.stepsDone = false)
    (hw : u.dev.freezeWait = false) (hr : u.ret.writing = none) (hp : u.dev.perstA = true)
    (hv : v = u.selectFirmware.deriveKeys.retainedRestore) (hdev : v.dev = u.dev) :
    u.bootSteps.dev = { u.dev with stepsDone := true, mainEn := u.bootSteps.dev.mainEn, mainEnAt := u.bootSteps.dev.mainEnAt,
                                   phiug := u.bootSteps.dev.phiug } := by
  have hgo : (u.dev.st != .boot || u.dev.frozen || u.dev.stepsDone || u.dev.freezeWait || u.ret.writing.isSome) = false := by
    simp [hst, hf, hd, hw, hr]
  simp only [State.bootSteps, hgo, ← hv, Bool.false_eq_true, if_false]
  have hheld (t : State) (ht : t.dev.perstA = true) : t.calArmAll.loadPhiug.enterTrain = t.calArmAll.loadPhiug :=
    enterTrain_held (by rw [loadPhiug_dev, State.calArmAll_dev]; exact ht)
  rw [hheld _ (by rw [hdev]; exact hp), loadPhiug_dev, State.calArmAll_dev, hdev]

/-! ## Reset of Port B (R338) -/

@[simp] theorem port_setPort (p : Port) (x : PortState) (s : State) : (s.setPort p x).port p = x := by
  cases p <;> rfl

theorem setPort_frame (p : Port) (x : PortState) (s : State) : s.setPort p x = { s with ports := (s.setPort p x).ports } := by
  cases p <;> rfl

theorem msix_frame (p : Port) (v : Nat) (s : State) : s.msix p v = { s with out := (s.msix p v).out, ports := (s.msix p v).ports } := by
  unfold State.msix
  split
  · rfl
  · dsimp only
    rw [setPort_frame]
    split <;> rfl

/-- The end of a background command changes its port, and what leaves the device. -/
theorem endBg_frame (p : Port) (opcode : Nat) (rc : Rc) (ext : Nat) (s : State) :
    s.endBg p opcode rc ext = { s with out := (s.endBg p opcode rc ext).out, ports := (s.endBg p opcode rc ext).ports } := by
  unfold State.endBg
  split
  · split
    · rw [msix_frame, setPort_frame]; rfl
    · rfl
  · rfl

/-- A port's reset changes the port, and what leaves the device. -/
theorem portReset_frame (p : Port) (s : State) :
    s.portReset p = { s with out := (s.portReset p).out, ports := (s.portReset p).ports } := by
  unfold State.portReset
  rw [setPort_frame, endBg_frame]

/-- After its reset a port masters no bus, and its MSI-X capability is as at power-on. -/
theorem portReset_port (p : Port) (s : State) :
    ((s.portReset p).port p).busMaster = false ∧ ((s.portReset p).port p).msix = {} := by
  simp [State.portReset]

/-- The spools of Port B are deleted and its host area zero-filled. -/
def State.clearPortB (s : State) : State :=
  { s with spools := s.spools.without .b, mem := s.mem.drop fun a => s.hostBase .b ≤ a && a < s.hostBase .b + s.hostBytes .b }

/-- PERSTB_N in UPSTREAM mode: work of the spools ends first, and where there is no submission spool there is none. -/
theorem execPerstbN_upstream (hr : s.running = true) (hb : s.dev.st ≠ .boot) (hp : s.chip.portBRoot = false) :
    ∃ u : State, execPerstbN s = .next (u.clearPortB.portReset .b) ∧
      ((s.spools.sub.filter fun x => x.port = Port.b) = [] →
        u = { s with spools := { s.spools with comp := s.spools.comp.filter fun c => decide (c.port ≠ Port.b) } }) := by
  have hgo : (!s.running || s.dev.st == .boot || s.chip.portBRoot) = false := by simp [hr, hb, hp]
  simp only [execPerstbN, hgo]
  exact ⟨_, rfl, fun hm => by rw [hm]; rfl⟩

theorem execPerstbN_idle (h : s.running = false ∨ s.dev.st = .boot ∨ s.chip.portBRoot = true) : execPerstbN s = .next s := by
  have hstop : (!s.running || s.dev.st == .boot || s.chip.portBRoot) = true := by rcases h with h | h | h <;> simp [h]
  simp only [execPerstbN, hstop, if_true]

theorem Spools.without_port {p : Port} {x : Spools} :
    (∀ y ∈ (x.without p).sub, y.port ≠ p) ∧ (∀ y ∈ (x.without p).comp, y.port ≠ p) := by
  simp [Spools.without]

theorem Port.eq_a {p : Port} (h : p ≠ .b) : p = .a := by
  cases p with
  | a => rfl
  | b => exact absurd rfl h

theorem clearPortB_byte {u : State} {a : Nat} (hl : u.hostBase .b ≤ a) (hh : a < u.hostBase .b + u.hostBytes .b) :
    u.clearPortB.mem.byte a = 0 := by
  rw [State.clearPortB, Memory.byte_drop, if_pos (by simp [hl, hh])]

/-- What Port B's reset leaves of its spools and its host area, whatever their work left. -/
theorem clearPortB_reset {u t : State} (ht : t = u.clearPortB.portReset .b) :
    (∀ x ∈ t.spools.sub, x.port = .a) ∧ (∀ x ∈ t.spools.comp, x.port = .a) ∧
      (∀ a, t.hostBase .b ≤ a → a < t.hostBase .b + t.hostBytes .b → t.mem.byte a = 0) ∧
      t.ports.b.busMaster = false ∧ t.ports.b.msix = {} := by
  subst ht
  obtain ⟨hm, hx⟩ := portReset_port .b u.clearPortB
  have hf := portReset_frame .b u.clearPortB
  refine ⟨?_, ?_, ?_, hm, hx⟩
  · rw [hf]; exact fun x h => Port.eq_a (Spools.without_port.1 x h)
  · rw [hf]; exact fun x h => Port.eq_a (Spools.without_port.2 x h)
  · rw [hf]; exact fun a hl hh => clearPortB_byte (u := u) hl hh

/-- Settles O13: each entry to BOOT by what `reenter` and the steps leave of the device, and Port B's by `clearPortB_reset`. -/
theorem resets : Obligations.Resets := by
  refine ⟨fun s => execVauxLost_eq s, fun s => ⟨_, execVauxLost_eq s, rfl, rfl, rfl, rfl, rfl, rfl, rfl, rfl⟩, ?_, ?_, ?_, ?_, ?_, ?_,
    ?_, fun s h => execPerstbN_idle h⟩
  · intro straps s hs -- PERSTA_N in OFF
    simp [exec, execPerstaN, hs]
  · intro straps u s hs hu -- PERSTA_N with power
    subst hu
    exact execPerstaN_powered straps hs
  · exact fun straps s u _ hu => reenter_leaves hu
  · intro straps s hs hpin -- FREEZE_N held
    obtain ⟨u, hu⟩ : ∃ u, u = s.assertPerstA.reenter straps := ⟨_, rfl⟩
    have hd := reenter_dev hu
    have hwait : u.bootSteps = u := bootSteps_waiting (by rw [hd]; exact hpin)
    refine ⟨_, hu ▸ execPerstaN_powered straps hs, ?_⟩
    dsimp only
    rw [hwait, hd]
    exact ⟨rfl, rfl, rfl, rfl, rfl⟩
  · intro straps u v s hs hpin hw hu hv hdev -- FREEZE_N released
    replace hu : u = s.assertPerstA.reenter straps := hu
    have hd := reenter_dev hu
    have hwriting : u.ret.writing = none := by rw [reenter_frame hu]; exact hw
    have hpersta : u.dev.perstA = true := by rw [hd]; rfl
    have hdone := bootSteps_dev (by rw [hd]) (by rw [hd]) (by rw [hd]) (by rw [hd]; exact hpin) hwriting hpersta hv hdev
    refine ⟨_, hu ▸ execPerstaN_powered straps hs, ?_⟩
    dsimp only
    rw [hdone, hd]
    exact ⟨rfl, rfl, rfl, rfl, rfl⟩
  · intro s hr hb hp -- PERSTB_N in UPSTREAM mode
    obtain ⟨u, hu, -⟩ := execPerstbN_upstream hr hb hp
    exact ⟨_, hu, clearPortB_reset rfl⟩
  · intro s hr hb hp hm -- and with no submission spool
    obtain ⟨u, hu, hcase⟩ := execPerstbN_upstream hr hb hp
    have hsp : u.spools.without .b = s.spools.without .b := by simp [hcase hm, Spools.without]
    rw [exec, hu, State.clearPortB, hsp, hcase hm]
    rfl

/-! ## Units that fail (R381) -/

theorem failUnit_of_up {src n : Nat} (hr : s.running = true) (hb : s.dev.st ≠ .boot) (hu : s.unitUp src n = true) :
    s.failUnit src n = s.raise src n 0 none := by
  simp [State.failUnit, hr, hb, hu]

theorem failUnit_of_down {src n : Nat} (hu : s.unitUp src n = false) : s.failUnit src n = s := by
  simp [State.failUnit, hu]

/-- Settles O48: each command of a unit the part has is `failUnit` of its source, and of another it is a fault. -/
theorem unitFailures : Obligations.UnitFailures := by
  refine ⟨fun _ _ _ => failUnit_of_up, fun _ _ _ => failUnit_of_down, ?_, ?_, ?_, ?_, ?_, fun _ _ => rfl, fun _ _ => rfl⟩
  · exact fun u s hu => if_neg (Nat.not_le.mpr hu)
  · exact fun u s hu => if_pos hu
  · exact fun pkg s hp => by simp [exec, execBulkPackageOffline, hp]
  · exact fun e s he => by simp [exec, execExpanderOffline, he]
  · exact fun e s he => by simp [exec, execExpanderOffline, he]

/-! ## Seam (R213 to R216) -/

theorem execSeamInsert_takes {h : Handle} {want : Option Nat} (hw : s.seamWorks h = true) (hc : s.seamContext h = true)
    (hs : s.seamScored h = true) : execSeamInsert h want s = .next ((s.seamInsert h want).takeTiles h) := by
  simp [execSeamInsert, hw, hc, hs]

theorem execSeamDelete_takes {h : Handle} (hw : s.seamWorks h = true) (hc : s.seamContext h = true)
    (hs : s.seamScored h = true) : execSeamDelete h s = .next ((s.seamDelete h).takeTiles h) := by
  simp [execSeamDelete, hw, hc, hs]

/-- Where seam does not work, or no context is free or no tile given, neither kind of entry is taken. -/
theorem seamGate_shut {h : Handle} (hn : s.seamWorks h = false ∨ s.seamContext h = false ∨ s.seamScored h = false) :
    (s.seamWorks h && s.seamContext h && s.seamScored h) = false := by
  rcases hn with hn | hn | hn <;> simp [hn]

theorem num_bumpBy_other {j k : Nat} (h : j ≠ k) (n : Nat) (s : State) : (s.bumpBy k n).num j = s.num j :=
  State.num_setNum_other h _ _

/-- How an entry is placed does not depend on how many reuses of slots have been counted. -/
theorem alpha_countReuse (n : Nat) (s : State) : (s.bumpBy 0x41300A n).alpha = s.alpha :=
  congrArg (BitVec.ofNat 32) (num_bumpBy_other (by decide) n s)

/-- Settles O42: the gate is open or shut, and the entry and the slot chosen for it decide the rest. -/
theorem seamSteps : Obligations.SeamSteps := by
  refine ⟨?_, ?_, ?_, ?_, ?_, ?_, fun _ _ => ⟨rfl, rfl⟩, fun _ _ => rfl, ?_, ?_, ?_⟩
  · intro h want c e u v w s hw hc hs hh he hu hslot hv -- SEAM_INSERT with a slot to take
    have hwidth n : (u.bumpBy 0x41300A n).num 0x413003 = u.num 0x413003 := num_bumpBy_other (by decide) n u
    refine ⟨_, execSeamInsert_takes hw hc hs, ?_⟩
    subst hu
    simp only [alpha_countReuse, hwidth, State.bumpBy_muts] at hv
    simp only [State.seamInsert, hh, he, hslot, alpha_countReuse, hwidth, State.bumpBy_muts, hv]
  · intro h want c e u s hw hc hs hh he hu hslot hheld -- with none
    subst hu
    rw [exec, execSeamInsert_takes hw hc hs]
    simp [State.seamInsert, hh, he, hslot, hheld]
  · intro h want s hw hc hs he -- with no entry
    rw [exec, execSeamInsert_takes hw hc hs]
    simp [State.seamInsert, he]
  · intro h want s hn -- with the gate shut
    simp [exec, execSeamInsert, seamGate_shut hn]
  · intro h c e s hw hc hs hh he -- SEAM_DELETE
    rw [exec, execSeamDelete_takes hw hc hs]
    simp [State.seamDelete, hh, he]
  · intro h s hn -- with the gate shut
    simp [exec, execSeamDelete, seamGate_shut hn]
  · intro h slot c s hw hh ht hf -- SLOT_FREE, free to go
    simp [exec, execSlotFree, hw, hh, ht, hf]
  · intro h slot c s hw hh ht hf -- held back
    simp [exec, execSlotFree, hw, hh, ht, hf]
  · intro h slot c s hh ht -- of no tombstone
    simp [exec, execSlotFree, hh, ht]

/-! ## Scan batches (R165, R166, R196) -/

/-- A batch whose number of members is reached, or whose first has waited long enough, waits no more. -/
theorem batch_due {n m : Nat} {t d : Time} (h : m ≤ n ∨ d ≤ t) : (decide (n < m) && decide (t < d)) = false := by
  simpa [or_iff_not_imp_left] using h

theorem batch_waits {n m : Nat} {t d : Time} (hn : n < m) (ht : t < d) : (decide (n < m) && decide (t < d)) = true := by
  simp [hn, ht]

theorem latchGrist_num (k : Nat) (s : State) : s.latchGrist.num k = s.num k := by
  unfold State.latchGrist
  split <;> rfl

/-- Settles O37: a batch that waits is due or not by `batch_due` and `batch_waits`, and a chunk is of a batch or pass that is there. -/
theorem scanBatches : Obligations.ScanBatches := by
  refine ⟨?_, fun _ _ _ => rfl, ?_, ?_, ?_, ?_, ?_, ?_, ?_, ?_, ?_, ?_, ?_, ?_⟩
  · intro h a r s hw hgo -- BASTE_BATCH_START, due
    simp only [exec, execBasteBatchStart, hw, batch_due hgo]
    rfl
  · intro h s hw -- nothing waits
    simp only [exec, execBasteBatchStart, hw]
  · intro h a r s hw hl ht -- not due
    simp only [exec, execBasteBatchStart, hw, batch_waits hl ht, if_true]
  · intro id b s hb -- BASTE_BATCH_COMPLETE
    simp only [exec, execBasteBatchComplete, hb, State.scanDone]
  · intro id s hb -- of no batch
    simp only [exec, execBasteBatchComplete, hb]
  · intro h rerank c a r ids s hc hw ht hgo hids -- FLAT_BATCH_START, due
    subst hids
    simp only [exec, execFlatBatchStart, hc, hw, ht, batch_due hgo, latchGrist_num]
    rfl
  · intro h rerank c a r s hc hw hl ht -- not due
    simp only [exec, execFlatBatchStart, hc, hw, batch_waits hl ht, Bool.or_true, if_true]
  · intro h rerank s hn -- nothing waits, or Tun does not scan
    simp only [exec, execFlatBatchStart]
    split
    · next c a r hc hw =>
      have ht : s.tunScans = false := hn.resolve_left (by simp [hw])
      simp [ht]
    · rfl
  · intro id b c s hb hc ht hu -- SCAN_CHUNK_COMPLETE of a flat batch, with a cluster for it
    simp [exec, execScanChunkComplete, hb, hc, ht, hu]
  · intro id b c s hb hc hn -- with none
    have hshut : (s.tunScans && !s.upClusters.all s.basteOn) = false := by rcases hn with hn | hn <;> simp [hn]
    simp [exec, execScanChunkComplete, hb, hc, hshut]
  · intro qid q c s hq hs hc -- of a pass
    simp [exec, execScanChunkComplete, hq, hs, hc]
  · intro qid s hq -- of no query
    simp [exec, execScanChunkComplete, hq]
  · intro id s hb -- of no batch
    simp only [exec, execScanChunkComplete, hb]

/-! ## Readings (R18, R392 to R394) -/

/-- A reading inside its limit, whose warning is not raised, changes nothing. -/
theorem warn_inside {src n detail : Nat} (h : look s.thimble.warned (256 * src + n) ≠ some none) :
    s.warn src n detail false = s := by
  simp [State.warn, h]

/-- Settles O17: a reading is kept, then its limits are judged by `raise` and `warn`; a sample is taken as its calendar entry fires. -/
theorem telemetry : Obligations.Telemetry := by
  refine ⟨?_, ?_, ?_, ?_, ?_, ?_, ?_, ?_⟩
  · intro watts s hr -- POWER_ESTIMATE
    simp only [Answers, exec, execPowerEstimate, hr]
    refine ⟨_, rfl, ?_⟩
    by_cases hw : s.num 0xC10001 < watts.toNat
    · simp only [hw, decide_true, if_true]
      exact ⟨rfl, look_put_same .., rfl, rfl, rfl⟩
    · simp only [hw, decide_false, if_false]
      exact ⟨rfl, look_put_same .., rfl, rfl, rfl⟩
  · intro rail mv u s hs hm ho hu -- RAIL_SAMPLE beyond 8 percent
    subst hu
    simp only [exec, execRailSample, ho]
    rw [if_neg (by simpa [hs] using hm)]
    rfl
  · intro rail mv s hs hm ho hl hw -- inside its limits
    simp only [exec, execRailSample, ho]
    rw [if_neg (by simpa [hs] using hm)]
    have hn : (s.setReading (0xB00001 + rail) (mv.setWidth 32)).num 0xB0000A = s.num 0xB0000A := rfl
    simp only [Bool.false_eq_true, if_false, hn, hl]
    exact congrArg (fun t : State => (Host.Outcome.next t.loadPhiug.enterTrain : Result)) (warn_inside hw)
  · intro s hs -- out of BOOT
    simp [State.loadPhiug, State.enterTrain, hs]
  · intro h celsius u s hs hc hu -- JUNCTION_SAMPLE at 115 degrees
    subst hu
    have h100 : (100 : Int) ≤ celsius := by omega
    simp only [exec, execJunctionSample, hc, h100, decide_true, if_true]
    exact if_neg (by simpa using hs)
  · intro h celsius s hs hc hw -- inside its limits
    have h115 : ¬ (115 : Int) ≤ celsius := by omega
    have h100 : ¬ (100 : Int) ≤ celsius := by omega
    simp only [exec, execJunctionSample, h115, h100]
    rw [if_neg (by simpa using hs)]
    exact congrArg _ (warn_inside hw)
  · intro entry at_ u s hk hf -- TELEMETRY_SAMPLE, its entry fires
    simp [exec, execTelemetrySample, hk, hf]
  · intro entry s hn -- and does not fire
    have hnone : (if s.calKind entry = 6 then s.fire entry else none) = none := by rcases hn with hn | hn <;> simp [hn]
    simp only [exec, execTelemetrySample, hnone]

end Sys2Proof.Machine
end

/-!
SUPPORT. One step of the machine, and one cycle of the always-on clock: what a cycle does without power, while fleet time is not
known, and otherwise.
-/

section
namespace Sys2Proof.Machine

variable {s : State}

/-! ## One step, and one cycle of the clock (R38, R16) -/

theorem step_cons (c : Instr) (s : State) (rest : List Instr) :
    step { s with pending := c :: rest } = exec c { s with pending := rest } := rfl

theorem step_nil (h : s.pending = []) : step s = .next s.tick := by
  simp [step, h]

/-- Settles O1: both clauses are the two cases of the queue. -/
theorem stepRunsFront : Obligations.StepRunsFront := ⟨step_cons, fun _ h => step_nil h⟩

theorem tick_off (h : s.dev.st = .off) : s.tick = s := by
  simp [State.tick, h]

theorem tick_unset (h : s.dev.st ≠ .off) (ht : s.ftu.st = .unset) :
    s.tick = { s with ftu := { s.ftu with aon := s.ftu.aon + 1 } } := by
  simp [State.tick, State.timeKnown, h, ht]

/-- What the slew gives to one cycle, in units of 2^-32 ns. -/
def State.slewNow (s : State) : Int := slewStep (slewUnits (s.num 0x200201)) s.ftu.slew

/-- How far one cycle takes fleet time, in units of 2^-32 ns. -/
def State.cycleAdvance (s : State) : Nat := ((cycleUnits : Int) + s.learned + s.slewNow).toNat

theorem tick_known (h : s.dev.st ≠ .off) (ht : s.ftu.st ≠ .unset) :
    s.tick = { s.keepCounts with ftu := { s.ftu with
      aon := s.ftu.aon + 1, now := s.ftu.now + (s.ftu.frac.toNat + s.cycleAdvance) / 2 ^ 32
      frac := BitVec.ofNat 32 (s.ftu.frac.toNat + s.cycleAdvance), slew := s.ftu.slew - s.slewNow } } := by
  have hk : (!s.timeKnown) = false := by simp [State.timeKnown, ht]
  simp only [State.tick, h, hk, if_false, Bool.false_eq_true]
  rfl

/-- A time and its fraction hold every unit added to the fraction. -/
theorem carry_units (n u : Nat) : (n + u / 2 ^ 32) * 2 ^ 32 + (BitVec.ofNat 32 u).toNat = n * 2 ^ 32 + u := by
  simp only [BitVec.toNat_ofNat]
  omega

/-- Whole nanoseconds leave the fraction as it is. -/
theorem carry_whole (f : BitVec 32) (k : Nat) :
    (f.toNat + k * 2 ^ 32) / 2 ^ 32 = k ∧ BitVec.ofNat 32 (f.toNat + k * 2 ^ 32) = f := by
  have hf := f.isLt
  refine ⟨by omega, BitVec.eq_of_toNat_eq ?_⟩
  simp only [BitVec.toNat_ofNat]
  omega

theorem slewStep_zero (lim : Nat) : slewStep lim 0 = 0 := by
  simp [slewStep]

theorem slewNow_zero (h : s.ftu.slew = 0) : s.slewNow = 0 := by
  rw [State.slewNow, h, slewStep_zero]

theorem cycleAdvance_nominal (hs : s.ftu.slew = 0) (hl : s.learned = 0) : s.cycleAdvance = 10 * 2 ^ 32 := by
  rw [State.cycleAdvance, hl, slewNow_zero hs]
  rfl

/-- Settles O2: `tick_off` without power, `tick_unset` while UNSET, and otherwise `tick_known` with the carry of its fraction. -/
theorem clockCycle : Obligations.ClockCycle := by
  refine ⟨fun s hp hs => by rw [step_nil hp, tick_off hs], fun s hp hs => ⟨s.tick, step_nil hp, ?_⟩⟩
  by_cases ht : s.ftu.st = .unset
  · rw [tick_unset hs ht]
    exact ⟨rfl, rfl, Nat.le_refl _, fun _ => rfl, fun h => absurd ht h, fun h => absurd ht h⟩
  · rw [tick_known hs ht]
    refine ⟨rfl, rfl, Nat.le_add_right _ _, fun h => absurd h ht, fun _ => ?_, fun _ hslew hl => ?_⟩
    · exact (carry_units ..).trans (Nat.add_assoc ..).symm
    · obtain ⟨hnow, hfrac⟩ := carry_whole s.ftu.frac 10
      dsimp only
      rw [cycleAdvance_nominal hslew hl, slewNow_zero hslew, hslew, hnow, hfrac]
      exact ⟨rfl, rfl, rfl⟩

end Sys2Proof.Machine
end

/-!
SUPPORT. Writes of fleet time (R39, R41, R62): what each case of a write, of a correction and of the pending step leaves, and that
answering a write leaves the FTU alone.
-/

section
namespace Sys2Proof.Machine

variable {s u : State} {w : Writer}

/-! ## Writes that act (R356) -/

/-- A write-only number that no rule of its own refuses is its action. -/
theorem numWrite_action {r : Row} {k v : Nat} (ho : s.ownRule k v = none) (hr : r.access = .wo) :
    s.numWrite r k v = s.numAction k v := by
  simp [State.numWrite, ho, hr]

/-- Counting the write of an entry leaves the FTU alone. -/
@[simp] theorem countSet_ftu (k r : Nat) (s : State) : (s.countSet k r).ftu = s.ftu := by
  unfold State.countSet
  split
  · exact State.bump_ftu ..
  · dsimp only
    split <;> simp [State.bumpSat]

@[simp] theorem rollSecond_ftu (s : State) : s.rollSecond.ftu = s.ftu := by
  unfold State.rollSecond
  split <;> rfl

@[simp] theorem spendRate_ftu (x : Source) (s : State) : (s.spendRate x).ftu = s.ftu := by
  cases x <;> rfl

@[simp] theorem countPap_ftu (x : Source) (answered : Bool) (s : State) : (s.countPap x answered).ftu = s.ftu := by
  unfold State.countPap
  split
  · exact State.bump_ftu ..
  · rfl

@[simp] theorem papAnswer_ftu (x : Source) (a : Kept) (s : State) : (s.papAnswer x a).ftu = s.ftu := by
  unfold State.papAnswer
  dsimp only
  rw [State.emit_ftu, countPap_ftu]
  split <;> rfl

/-- Keeping and sending an answer leaves the FTU alone. -/
@[simp] theorem papServed_ftu (x : Source) (f : PapFrame) (a : Answer) (s : State) : (s.papServed x f a).ftu = s.ftu := by
  have hkeep (y : Kept) (t : State) : (t.keep y).ftu = t.ftu := rfl
  unfold State.papServed
  dsimp only
  rw [papAnswer_ftu, hkeep, spendRate_ftu, rollSecond_ftu]

/-- The answer of a write leaves the FTU alone. -/
@[simp] theorem written_ftu (w : Writer) (k r : Nat) (type : Byte) (n : Nat) (s : State) :
    (s.written w k r type n).ftu = s.ftu := by
  unfold State.written
  dsimp only
  split
  · rw [papServed_ftu, countSet_ftu]
  · rw [papServed_ftu, countSet_ftu]
  · rw [State.emit_ftu, countSet_ftu]

/-! ## Setting fleet time (R39, R41, R62) -/

theorem rowOf_setTime : rowOf 0x20000A = some ⟨0x0A, .ft64, .wo, true, 0, 0, 0xFFFFFFFFFFFFFFFF⟩ := by decide +kernel

theorem rowOf_acceptStep : rowOf 0x200206 = some ⟨0x06, .bool, .wo, true, 0, 0, 1⟩ := by decide +kernel

theorem execSetTime_eq (v : BitVec 64) (h : s.mayWrite w 0x20000A = true) :
    exec (.setTime w v) s =
      .next ((orState s (s.setFleetTime v.toNat)).1.written w 0x20000A (orState s (s.setFleetTime v.toNat)).2 8 8) := by
  have hv : leNat (natLE 8 v.toNat) = v.toNat := by rw [leNat_natLE]; exact Nat.mod_eq_of_lt v.isLt
  have hrange : s.rangeOk 0x20000A v.toNat = true :=
    State.rangeOk_of rowOf_setTime (by simp [storedValue, rowOf_setTime]) (Nat.zero_le _) (Nat.le_of_lt_succ v.isLt) rfl
  have hw := State.entryWrite_num (natLE 8 v.toNat) h (by decide) rowOf_setTime rfl (natLE_length ..) rfl (by rw [hv]; exact hrange)
  rw [hv, numWrite_action rfl rfl] at hw
  exact congrArg Host.Outcome.next hw

theorem execAcceptBackwardStep_eq (h : s.mayWrite w 0x200206 = true) :
    exec (.acceptBackwardStep w 1) s = .next ((orState s s.acceptStep).1.written w 0x200206 (orState s s.acceptStep).2 1 1) := by
  have hrange : s.rangeOk 0x200206 1 = true :=
    State.rangeOk_of rowOf_acceptStep (by simp [storedValue, rowOf_acceptStep]) (Nat.zero_le _) (Nat.le_refl _) rfl
  have hw := State.entryWrite_num [1] h (by decide) rowOf_acceptStep rfl rfl rfl hrange
  rw [numWrite_action rfl rfl] at hw
  exact congrArg Host.Outcome.next hw

theorem execSetTime_accepted {v : BitVec 64} {t : State} (h : s.mayWrite w 0x20000A = true) (ht : s.setFleetTime v.toNat = some t) :
    exec (.setTime w v) s = .next (t.written w 0x20000A rOk 8 8) := by
  rw [execSetTime_eq v h, ht, orState]

theorem execSetTime_refused {v : BitVec 64} (h : s.mayWrite w 0x20000A = true) (ht : s.setFleetTime v.toNat = none) :
    exec (.setTime w v) s = .next (s.written w 0x20000A rState 8 8) := by
  rw [execSetTime_eq v h, ht, orState]

theorem execAcceptBackwardStep_accepted {t : State} (h : s.mayWrite w 0x200206 = true) (ht : s.acceptStep = some t) :
    exec (.acceptBackwardStep w 1) s = .next (t.written w 0x200206 rOk 1 1) := by
  rw [execAcceptBackwardStep_eq h, ht, orState]

theorem execAcceptBackwardStep_refused (h : s.mayWrite w 0x200206 = true) (ht : s.acceptStep = none) :
    exec (.acceptBackwardStep w 1) s = .next (s.written w 0x200206 rState 1 1) := by
  rw [execAcceptBackwardStep_eq h, ht, orState]

theorem setFleetTime_unset (t : Nat) (h : s.ftu.st = .unset) : s.setFleetTime t = some (s.byHost.firstTime t .hostset) := by
  simp [State.setFleetTime, h]

/-- The states in which a write of the time steps to it. -/
def DevState.early (x : DevState) : Prop := x = .boot ∨ x = .train ∨ x = .readyEmpty

theorem DevState.early_iff {x : DevState} : (x == .boot || x == .train || x == .readyEmpty) = true ↔ x.early := by
  simp [DevState.early, or_assoc]

theorem setFleetTime_refused (t : Nat) (he : ¬ s.dev.st.early) (hu : s.ftu.st ≠ .unset) (hh : s.ftu.st ≠ .hostset) :
    s.setFleetTime t = none := by
  have he' : (s.dev.st == .boot || s.dev.st == .train || s.dev.st == .readyEmpty) = false := by
    simpa [DevState.early_iff] using mt DevState.early_iff.1 he
  simp [State.setFleetTime, he', hu, hh]

section
variable {t : Nat} {d : Int} (hd : d = (t : Int) - s.ftu.now) (hu : u = s.byHost.setTimeState .hostset)
include hd hu

theorem setFleetTime_early (h : s.ftu.st ≠ .unset) (he : s.dev.st.early) :
    s.setFleetTime t = some (if d = 0 then u else u.stepTime d) := by
  subst hd
  simp only [State.setFleetTime, DevState.early_iff.2 he, ← hu, (State.byHost_hostset hu).1]
  simp [h]

theorem setFleetTime_later (h : s.ftu.st = .hostset) (he : ¬ s.dev.st.early) :
    s.setFleetTime t = some ((u.correct d).getD (u.holdStep d)) := by
  have he' : (s.dev.st == .boot || s.dev.st == .train || s.dev.st == .readyEmpty) = false := by
    simpa using mt DevState.early_iff.1 he
  have hd' : (t : Int) - u.now = d := by rw [hd, (State.byHost_hostset hu).1]
  simp only [State.setFleetTime, he', ← hu, hd', h]
  cases u.correct d <;> rfl

end

/-! ## A correction (R41) -/

theorem correct_forward {d : Int} (h : 0 ≤ d) :
    s.correct d = some (if d ≤ (s.num 0x200202 : Int) then s.mapFtu fun f => { f with slew := d * 2 ^ 32 } else s.stepTime d) := by
  simp [State.correct, h]

theorem correct_backward_small {d : Int} (h : d < 0) (hl : -d ≤ (s.num 0x200203 : Int)) :
    s.correct d = some (s.mapFtu fun f => { f with slew := d * 2 ^ 32 }) := by
  simp only [State.correct, if_neg (Int.not_le.2 h), if_pos hl]

theorem correct_backward_large {d : Int} (hl : d < -(s.num 0x200203 : Int)) :
    s.correct d = if s.stepsBack then some (s.stepTime d) else none := by
  simp only [State.correct]
  rw [if_neg (by omega), if_neg (by omega)]

/-! ## The pending step (R41) -/

theorem idleForStep_iff : s.idleForStep = true ↔
    s.search.queries = [] ∧ (∀ x ∈ s.spools.sub, x.unread = 0) ∧ s.fabric.queue = [] ∧ ∀ j ∈ s.muts.jobs, j.unacked = 0 := by
  simp [State.idleForStep, and_assoc]

theorem acceptStep_idle {d : Int} (hp : s.ftu.pending = some d) (hi : s.idleForStep = true) :
    s.acceptStep = some ((s.stepTime d).mapFtu fun f => { f with pending := none }) := by
  simp [State.acceptStep, State.applyPending, hp, hi]

theorem acceptStep_refused (h : s.ftu.pending = none ∨ s.idleForStep = false) : s.acceptStep = none := by
  rcases h with h | h <;> simp [State.acceptStep, h]

/-! ## Steps and the first time (R39, R41, R62) -/

theorem byHost_frame (s : State) :
    s.byHost.ftu = { s.ftu with source := .host, sourceLink := 0xFF, lockRun := 0, hostSecs := true } ∧
      s.byHost = { s with ftu := s.byHost.ftu } := ⟨rfl, rfl⟩

/-- The first time of day is taken as it is, with nothing to slew, and leaves the source alone. -/
theorem firstTime_ftu (v : Nat) (st : TimeState) (s : State) :
    (s.firstTime v st).ftu.st = st ∧ (s.firstTime v st).ftu.now = v ∧ (s.firstTime v st).ftu.slew = 0 ∧
      (s.firstTime v st).ftu.source = s.ftu.source := by
  simp only [State.firstTime, State.calArmAll_ftu]
  rw [(State.setTimeState_only ..).1]
  exact ⟨rfl, rfl, rfl, rfl⟩

theorem topOf_steps : topOf 0x200207 = 0xFFFFFFFF := by decide +kernel

theorem defaultOf_steps : defaultOf 0x200207 = 0 := by decide +kernel

/-- A counter below its largest value goes up by one. -/
theorem num_bump {k : Nat} (hw : Book.wf s.book = true) (hk : s.num k < topOf k) (ht : topOf k < 2 ^ 64)
    (hd : defaultOf k < 2 ^ 64) :
    (s.bump k).num k = s.num k + 1 := by
  rw [State.bump, State.bumpBy, if_pos (Nat.succ_le_of_lt hk)]
  exact State.num_setNum_same _ _ hw (by omega) hd

theorem moveTime_ftu (d : Int) (s : State) :
    (s.moveTime d).ftu.now = ((s.ftu.now : Int) + d).toNat ∧ (s.moveTime d).ftu.slew = 0 ∧ (s.moveTime d).ftu.st = s.ftu.st ∧
      (s.moveTime d).ftu.pending = s.ftu.pending := ⟨rfl, rfl, rfl, rfl⟩

/-- A step of fleet time is counted. -/
theorem moveTime_counted (d : Int) (hw : Book.wf s.book = true) (hk : s.num 0x200207 < 0xFFFFFFFF) :
    (s.moveTime d).num 0x200207 = s.num 0x200207 + 1 :=
  num_bump hw (topOf_steps ▸ hk) (by rw [topOf_steps]; decide) (by rw [defaultOf_steps]; decide)

theorem not_early (hb : s.dev.st ≠ .boot) (ht : s.dev.st ≠ .train) (hr : s.dev.st ≠ .readyEmpty) : ¬ s.dev.st.early := by
  simp [DevState.early, hb, ht, hr]

/-- A write of the time that is a correction: what it leaves is the corrected state, or the state that holds the step. -/
theorem execSetTime_later {v : BitVec 64} {d : Int} {t : State} (hw : s.mayWrite w 0x20000A = true) (hst : s.ftu.st = .hostset)
    (hd : d = (v.toNat : Int) - s.ftu.now) (hu : u = s.byHost.setTimeState .hostset) (he : ¬ s.dev.st.early)
    (ht : (u.correct d).getD (u.holdStep d) = t) : exec (.setTime w v) s = .next (t.written w 0x20000A rOk 8 8) := by
  rw [← ht]
  exact execSetTime_accepted hw (setFleetTime_later hd hu hst he)

/-- Settles O19: a write of the time by its case of `setFleetTime`, and for a correction of `correct`; the accepted step by its case
of `acceptStep`. -/
theorem timeWrites : Obligations.TimeWrites := by
  have accepted {w : Writer} {d : Int} {s : State} (hw : s.mayWrite w 0x200206 = true) (hp : s.ftu.pending = some d)
      (hq : s.search.queries = []) (hx : ∀ x ∈ s.spools.sub, x.unread = 0) (hf : s.fabric.queue = [])
      (hj : ∀ j ∈ s.muts.jobs, j.unacked = 0) :
      exec (.acceptBackwardStep w 1) s =
        .next (((s.stepTime d).mapFtu fun f => { f with pending := none }).written w 0x200206 rOk 1 1) :=
    execAcceptBackwardStep_accepted hw (acceptStep_idle hp (idleForStep_iff.2 ⟨hq, hx, hf, hj⟩))
  refine ⟨fun w v s hw hst => execSetTime_accepted hw (setFleetTime_unset _ hst),
    fun w v d u s hw hst he hd hu => execSetTime_accepted hw (setFleetTime_early hd hu hst he), ?_, ?_, ?_, ?_, ?_,
    fun w v s hw hb ht hr hu hh => execSetTime_refused hw (setFleetTime_refused _ (not_early hb ht hr) hu hh), byHost_frame,
    fun v s _ => firstTime_ftu v _ s, moveTime_ftu, fun d s hc => moveTime_counted d hc.1,
    fun _ _ _ => accepted,
    fun w d s hw hp hq hx hf hj => ⟨_, accepted hw hp hq hx hf hj, by simp [State.mapFtu]⟩, ?_⟩
  · intro w v d u s hw hst hd hu hb ht hr h0 hl -- slewed forward
    refine execSetTime_later hw hst hd hu (not_early hb ht hr) ?_
    rw [correct_forward h0, (State.byHost_hostset hu).2.2.1, if_pos hl, Option.getD_some]
  · intro w v d u s hw hst hd hu hb ht hr hl -- stepped forward
    refine execSetTime_later hw hst hd hu (not_early hb ht hr) ?_
    rw [correct_forward (by omega), (State.byHost_hostset hu).2.2.1, if_neg (by omega), Option.getD_some]
  · intro w v d u s hw hst hd hu hb ht hr h0 hl -- slewed backward
    refine execSetTime_later hw hst hd hu (not_early hb ht hr) ?_
    rw [correct_backward_small h0 (by rw [(State.byHost_hostset hu).2.2.2]; exact hl), Option.getD_some]
  · intro w v d u s hw hst hd hu hdev hl -- held
    obtain ⟨-, hdu, -, hlim⟩ := State.byHost_hostset hu
    have hback : u.stepsBack = false := by
      rw [State.stepsBack, hdu]
      rcases hdev with h | h | h <;> rw [h]
    refine execSetTime_later hw hst hd hu (by rcases hdev with h | h | h <;> simp [h, DevState.early]) ?_
    rw [correct_backward_large (by rw [hlim]; exact hl), hback]
    rfl
  · intro w v d u s hw hst hd hu hdev hl -- stepped backward
    obtain ⟨-, hdu, -, hlim⟩ := State.byHost_hostset hu
    have hback : u.stepsBack = true := by rw [State.stepsBack, hdu, hdev]
    refine execSetTime_later hw hst hd hu (by simp [hdev, DevState.early]) ?_
    rw [correct_backward_large (by rw [hlim]; exact hl), hback, if_pos rfl, Option.getD_some]
  · intro w s hw hn -- refused
    have hrefused : s.ftu.pending = none ∨ s.idleForStep = false := by
      refine hn.imp_right fun h => Bool.eq_false_iff.2 fun hi => ?_
      obtain ⟨hq, hx, hf, hj⟩ := idleForStep_iff.1 hi
      rcases h with h | ⟨x, hm, h⟩ | h | ⟨j, hm, h⟩
      · exact h hq
      · exact h (hx x hm)
      · exact h hf
      · exact h (hj j hm)
    exact execAcceptBackwardStep_refused hw (acceptStep_refused hrefused)

end Sys2Proof.Machine
end

/-!
SUPPORT. Switchable functions, the calendar and the retrain of a channel: what each of their commands answers in each of its cases.
-/

section
namespace Sys2Proof.Machine

variable {s : State}

/-! ## Switching a function (R361, R362) -/

/-- The row of a function's state is that of its family's index. -/
theorem rowOf_state (i : Nat) : rowOf (256 * i + 1) = ((look rowTable (baseIndex i)).getD []).find? fun r => r.sub = 1 := by
  have hdiv : (256 * i + 1) / 256 = i := by omega
  have hmod : (256 * i + 1) % 256 = 1 := by omega
  rw [rowOf, hdiv, hmod]

/-- The index is a switchable function, and its state is a number of one byte. -/
def HasSwitch (i : Nat) : Prop := switchable i = true ∧ ∃ r, rowOf (256 * i + 1) = some r ∧ r.ty = .u8

theorem hasSwitch_of_row {i : Nat} {l : List Row} {r : Row} (hs : switchable i = true) (hl : look rowTable (baseIndex i) = some l)
    (hr : l.find? (fun r => r.sub = 1) = some r) (ht : r.ty = .u8) : HasSwitch i :=
  ⟨hs, r, by rw [rowOf_state, hl]; exact hr, ht⟩

theorem baseIndex_calIndex {n : Nat} (h : n < 128) : baseIndex (calIndex n) = 0x2100 := by
  unfold baseIndex calIndex
  rw [if_pos (by omega)]

theorem baseIndex_linkIndex {n : Nat} (h : n < 32) : baseIndex (linkIndex n) = 0x8010 := by
  unfold baseIndex linkIndex
  rw [if_neg (by omega), if_neg (by omega), if_pos (by omega)]

theorem switchable_calIndex {n : Nat} (h : n < 128) : switchable (calIndex n) = true := by
  have hl : 0x2100 ≤ calIndex n := Nat.le_add_right ..
  have hh : calIndex n ≤ 0x217F := by unfold calIndex; omega
  simp [switchable, hl, hh]

theorem switchable_linkIndex {n : Nat} (h : n < 32) : switchable (linkIndex n) = true := by
  have hl : 0x8010 ≤ linkIndex n := Nat.le_add_right ..
  have hh : linkIndex n ≤ 0x802F := by unfold linkIndex; omega
  simp [switchable, hl, hh]

theorem hasSwitch_calIndex (n : Fin 128) : HasSwitch (calIndex n) :=
  hasSwitch_of_row (l := rows2100) (switchable_calIndex n.isLt) (by rw [baseIndex_calIndex n.isLt]; decide +kernel) rfl rfl

theorem hasSwitch_linkIndex (n : Fin 32) : HasSwitch (linkIndex n) :=
  hasSwitch_of_row (l := rows8010) (switchable_linkIndex n.isLt) (by rw [baseIndex_linkIndex n.isLt]; decide +kernel) rfl rfl

/-- The switchable functions that are neither calendar entries nor links. -/
def singleSwitches : List Nat := [0x3400, 0x4100, 0x4130, 0x7020, 0xB030, 0xD100, 0xD200]

theorem hasSwitch_single : ∀ i ∈ singleSwitches, HasSwitch i := by
  intro i hi
  have hrow : ∀ i ∈ singleSwitches,
      switchable i = true ∧ (rowOf (256 * i + 1)).map Row.ty = some .u8 := by decide +kernel
  obtain ⟨hs, hr⟩ := hrow i hi
  exact ⟨hs, Option.map_eq_some_iff.1 hr⟩

/-- A write of ON from OFF that the function's own rules let through (R362). -/
theorem switchWrite_start {i : Nat} (h : (s.sw i).st = .off) (hr : s.startRefusal i = none) :
    s.switchWrite i true = (s.goStarting i, rOk) := by
  simp [State.switchWrite, h, hr]

/-- A write of OFF to a function that is ON (R362). -/
theorem switchWrite_stop {i : Nat} (hi : i ≠ 0x2100) (h : (s.sw i).st = .on) : s.switchWrite i false = (s.goStopping i, rOk) := by
  simp [State.switchWrite, h, hi]

/-- Calendar entry 0x00 is not switched off (R58). -/
theorem switchWrite_bell (h : (s.sw 0x2100).st = .on) : s.switchWrite 0x2100 false = (s, rState) := by
  simp [State.switchWrite, h]

/-- A command that is the write of a function's state answers as the table of R362 does. -/
theorem functionWrite_answers {i : Nat} (hi : HasSwitch i) {w : Writer} (on : Bool) (hw : s.mayWrite w (256 * i + 1) = true)
    {t : State} {r : Nat} (h : s.switchWrite i on = (t, r)) :
    s.functionWrite w i on = t.written w (256 * i + 1) r 2 1 := by
  obtain ⟨hs, row, hr, ht⟩ := hi
  rw [State.functionWrite_passed on hs hw hr ht, h]

theorem switchesOn_of {c : Writer → Instr} {i : Nat} (hi : HasSwitch i)
    (hc : ∀ w s, exec (c w) s = .next (s.functionWrite w i true)) :
    SwitchesOn c i := fun w s hw hst hr => by
  rw [hc, functionWrite_answers hi true hw (switchWrite_start hst hr)]

theorem switchesOff_of {c : Writer → Instr} {i : Nat} (hi : HasSwitch i) (h0 : i ≠ 0x2100)
    (hc : ∀ w s, exec (c w) s = .next (s.functionWrite w i false)) : SwitchesOff c i := fun w s hw hst => by
  rw [hc, functionWrite_answers hi false hw (switchWrite_stop h0 hst)]

/-- Settles O23: each command is the write of its function's state, by `switchesOn_of` and `switchesOff_of`. -/
theorem functionSwitches : Obligations.FunctionSwitches := by
  have on {c : Writer → Instr} {i : Nat} (h : i ∈ singleSwitches)
      (hc : ∀ w s, exec (c w) s = .next (s.functionWrite w i true)) : SwitchesOn c i := switchesOn_of (hasSwitch_single i h) hc
  have off {c : Writer → Instr} {i : Nat} (h : i ∈ singleSwitches)
      (hc : ∀ w s, exec (c w) s = .next (s.functionWrite w i false)) : SwitchesOff c i :=
    switchesOff_of (hasSwitch_single i h) (fun h0 => absurd (h0 ▸ h) (by decide)) hc
  refine ⟨fun n => switchesOn_of (hasSwitch_calIndex n) fun _ _ => rfl,
    fun n hn => switchesOff_of (hasSwitch_calIndex n) (fun h => hn (Fin.ext ?_)) fun _ _ => rfl, fun w s hw hst => ?_,
    fun n => switchesOn_of (hasSwitch_linkIndex n) fun _ _ => rfl,
    fun n => switchesOff_of (hasSwitch_linkIndex n) (by simp only [linkIndex]; omega) fun _ _ => rfl,
    on ?_ fun _ _ => rfl, on ?_ fun _ _ => rfl, on ?_ fun _ _ => rfl, on ?_ fun _ _ => rfl, on ?_ fun _ _ => rfl,
    on ?_ fun _ _ => rfl, on ?_ fun _ _ => rfl, off ?_ fun _ _ => rfl, off ?_ fun _ _ => rfl, off ?_ fun _ _ => rfl,
    off ?_ fun _ _ => rfl, off ?_ fun _ _ => rfl, off ?_ fun _ _ => rfl, off ?_ fun _ _ => rfl⟩
  · simpa [calIndex] using h
  · exact congrArg Host.Outcome.next (functionWrite_answers (hasSwitch_calIndex 0) false hw (switchWrite_bell hst))
  all_goals decide

/-! ## The end of a start and of a stop (R362) -/

section
variable {index : BitVec 16} (hi : switchable index.toNat = true) (hr : s.running = true)
include hi hr

theorem execFunctionStartComplete_ok (hst : (s.sw index.toNat).st = .starting) (hf : s.failing.contains index.toNat = false) :
    execFunctionStartComplete index true s =
      .next (if (s.sw index.toNat).pend = some false then
        ((s.setSw index.toNat ⟨.on, none⟩).startEnds index.toNat).goStopping index.toNat
        else (s.setSw index.toNat ⟨.on, none⟩).startEnds index.toNat) := by
  have hgo : (!switchable index.toNat || (s.sw index.toNat).st != .starting || !s.running) = false := by simp [hi, hst, hr]
  simp only [execFunctionStartComplete, hgo, hf, Bool.not_true, Bool.or_self, Bool.false_eq_true, if_false]

theorem execFunctionStartComplete_fails {ok : Bool} (hst : (s.sw index.toNat).st = .starting)
    (hf : ok = false ∨ s.failing.contains index.toNat = true) :
    execFunctionStartComplete index ok s = .next (s.startFails index.toNat) := by
  have hgo : (!switchable index.toNat || (s.sw index.toNat).st != .starting || !s.running) = false := by simp [hi, hst, hr]
  have hfail : (!ok || s.failing.contains index.toNat) = true := by
    rcases hf with h | h <;> simp only [h, Bool.not_false, Bool.true_or, Bool.or_true]
  simp only [execFunctionStartComplete, hgo, hfail, Bool.false_eq_true, if_false, if_true]

theorem execFunctionStopComplete_ready (hst : (s.sw index.toNat).st = .stopping) (hd : s.stopReady index.toNat = true)
    {u : State} (hu : u = (s.stopEnds index.toNat).setSw index.toNat ⟨.off, none⟩) :
    execFunctionStopComplete index s =
      if (s.sw index.toNat).pend ≠ some true then .next u
      else .next (if (u.startRefusal index.toNat).isSome then u.event 0x6C index.toNat 0 else u.goStarting index.toNat) := by
  have hgo : (!switchable index.toNat || (s.sw index.toNat).st != .stopping || !s.running || !s.stopReady index.toNat) = false := by
    simp [hi, hst, hr, hd]
  simp only [execFunctionStopComplete, hgo, ← hu, Bool.false_eq_true, if_false]
  rw [apply_ite Host.Outcome.next]

end

/-- Settles O25: a start that completes or fails, and a stop that is ready, with or without a pending change. -/
theorem functionCompletion : Obligations.FunctionCompletion := by
  refine ⟨fun _ _ hi hst hr hf => execFunctionStartComplete_ok hi hr hst hf,
    fun _ _ _ hi hst hr hf => execFunctionStartComplete_fails hi hr hst hf, ?_, ?_⟩
  · intro index s hi hst hr hd hp
    exact (execFunctionStopComplete_ready hi hr hst hd rfl).trans (if_pos hp)
  · intro index u s hi hst hr hd hp hu
    exact (execFunctionStopComplete_ready hi hr hst hd hu).trans (if_neg (not_not.2 hp))

/-! ## The calendar (R55, R59, R210) -/

/-- An entry fires when its next occurrence has come and it is its turn, and only its schedule and counts of late fires change. -/
theorem fire_some {n : Nat} {at_ : Time} {u : State} (h : s.fire n = some (at_, u)) :
    (s.calEntry n).next = some at_ ∧ at_ ≤ s.now ∧ s.calFires n = true ∧ s.inTurn at_ (kindRank (s.calKind n)) n = true ∧
      u = { s with cal := u.cal, book := u.book } := by
  unfold State.fire at h
  dsimp only at h
  split at h
  · cases h
  · next t hnext =>
    split at h
    · cases h
    · next hgo =>
      simp only [Bool.not_eq_true', Bool.or_eq_true, decide_eq_true_eq, not_or, Bool.not_eq_false, not_lt] at hgo
      obtain ⟨⟨hfires, hdue⟩, hturn⟩ := hgo
      simp only [Option.some.injEq, Prod.mk.injEq] at h
      obtain ⟨rfl, rfl⟩ := h
      have hlate (x : State) (p : Prop) [Decidable p] :
          (if p then (x.bump (key (calIndex n) 9)).bump 0x200404 else x) =
            { x with book := (if p then (x.bump (key (calIndex n) 9)).bump 0x200404 else x).book } := by split <;> rfl
      refine ⟨hnext, hdue, hfires, hturn, ?_⟩
      rw [hlate]
      rfl

/-- Where there are no mutations to become visible, a higher generation changes nothing else. -/
theorem openGeneration_empty (g : Nat) (h : s.muts.baste = []) :
    s.openGeneration g = { s with muts := { s.muts with generation := g, lastBell := 0 } } := by
  simp [State.openGeneration, h]

theorem ringGeneration_empty (t : Time) (h : s.muts.baste = []) :
    (s.ringGeneration t).muts = { s.muts with generation := (s.muts.generation + 1) % 2 ^ 48, lastBell := t } := by
  rw [State.ringGeneration, openGeneration_empty _ h]
  rfl

/-- A command that fires an entry of its kind does nothing where it is not of that kind, or does not fire. -/
theorem fire_guarded_none {p : Prop} [Decidable p] {n : Nat} (h : ¬ p ∨ s.fire n = none) :
    (if p then s.fire n else none) = none := by
  rcases h with h | h <;> simp [h]

theorem execGenerationBell_fires {at_ : Time} {u : State} (hk : s.calKind 0 = 1) (hf : s.fire 0 = some (at_, u)) :
    execGenerationBell s = .next ((u.bump 0x210008).ringGeneration at_) := by
  simp only [execGenerationBell, hk, hf, if_true]
  rfl

/-- Settles O26: each command looks whether its entry fires, and what a firing entry has met is `fire_some`. -/
theorem calendar : Obligations.Calendar := by
  refine ⟨fun at_ u s hk hf => execGenerationBell_fires hk hf, ?_, ?_, ?_, ?_, ?_, ?_, ?_, ?_, ?_⟩
  · intro s h -- no generation bell
    simp only [exec, execGenerationBell, fire_guarded_none h]
  · intro entry at_ u s hk hf -- a merge bell
    simp only [exec, execMergeBell, hk, hf, if_true]
  · intro entry at_ u v s hw hf hv -- a window starts
    simp only [exec, execWindowStart, hw, hf, if_true, ← hv]
    rw [apply_ite Host.Outcome.next]
  · intro entry until_ s ho hn hc ht -- a window ends
    simp [exec, execWindowEnd, ho, hn, hc, ht]
  · intro entry until_ s ho hn -- and has not ended
    have hl : ¬ until_ ≤ s.now := Nat.not_le.2 hn
    simp [exec, execWindowEnd, ho, hl]
  · intro n s at_ u hf -- what fires has its turn
    obtain ⟨hnext, hdue, hfires, hturn, hu⟩ := fire_some hf
    exact ⟨hnext, hdue, hfires, hturn, by rw [hu], by rw [hu]⟩
  · intro at_ u s hk hf hb -- the generation after its bell
    obtain ⟨-, -, -, -, hu⟩ := fire_some hf
    have hmuts : (u.bump 0x210008).muts = s.muts := by rw [State.bump_muts, hu]
    refine ⟨_, execGenerationBell_fires hk hf, ?_⟩
    dsimp only
    rw [ringGeneration_empty _ (by rw [hmuts]; exact hb), hmuts]
    exact ⟨rfl, rfl⟩
  · intro entry s h -- no merge bell
    simp only [exec, execMergeBell, fire_guarded_none h]
  · intro entry s h -- no window starts
    have hn : ¬ s.windowEntry entry = true ∨ s.fire entry = none := h.imp_left Bool.eq_false_iff.1
    simp only [exec, execWindowStart, fire_guarded_none hn]

/-! ## Retrain (R60, R268, R271, R272) -/

section
variable {stack : Fin 12} {channel : Fin 32}

theorem execRetrainStart_idle (c : RetrainCause) (hp : s.stackPresent stack = true) (hc : s.canRetrain stack channel = false) :
    execRetrainStart stack channel c s = .next s := by
  simp [execRetrainStart, hp, hc]

theorem execRetrainStart_closed (hp : s.stackPresent stack = true) (ho : s.retrainOpen stack = none) :
    execRetrainStart stack channel .planned s = .next s := by
  simp [execRetrainStart, hp, ho]

section
variable (hp : s.stackPresent stack = true) (hc : s.canRetrain stack channel = true)
include hp hc

theorem execRetrainStart_forced (hw : (s.channel stack channel).wanted = true) :
    execRetrainStart stack channel .forced s =
      .next ((s.mapChannel stack channel fun x => { x with nextKind := .periodic }).startRetrain stack channel
        (s.channel stack channel).nextKind true) := by
  simp [execRetrainStart, hp, hc, hw]

variable {k i : Nat} (ho : s.retrainOpen stack = some k) (hi : s.startInstant (s.calEntry k) = some i)
include ho hi

theorem execRetrainStart_notAllowed (ha : s.startAllowed stack (s.calEntry k) i = false) :
    execRetrainStart stack channel .planned s = .next s := by
  simp [execRetrainStart, hp, hc, ho, hi, ha]

variable (hold : s.oldest stack channel = true) (ha : s.startAllowed stack (s.calEntry k) i = true) {u : State}
  (hu : u = s.stackServed k stack i)
include hold ha hu

theorem execRetrainStart_deferred (hg : u.groupOut stack channel = true) :
    execRetrainStart stack channel .planned s = .next ((u.deferStack stack).bump 0x200402) := by
  subst hu
  simp [execRetrainStart, hp, hc, ho, hi, hold, ha, hg]

theorem execRetrainStart_planned (hg : u.groupOut stack channel = false) {v : State}
    (hv : v = u.setStack stack { u.stack stack with deferrals := 0 }) :
    execRetrainStart stack channel .planned s =
      .next ((v.mapChannel stack channel fun x => { x with nextKind := .periodic }).startRetrain stack channel
        (if (groupOf channel).any (fun i => (v.channel stack i).st == .offline) then .periodic
         else (v.channel stack channel).nextKind) false) := by
  subst hv hu
  simp only [execRetrainStart, hp, hc, ho, hi, hold, ha, hg, Bool.not_true, Bool.or_self, Bool.false_eq_true, if_false]

end

section
variable (hp : s.stackPresent stack = true)
include hp

/-- The verify of a channel that retrains and is not scanned: by whether it verified, and by its kind. -/
theorem execRetrainVerify_eq (ok : Bool) (hr : s.running = true) (hst : (s.channel stack channel).st = .reconstruct)
    (hf : (s.channel stack channel).forScan = false) :
    execRetrainVerify stack channel ok s =
      if ok then .next (s.mapChannel stack channel fun x => { x with
        st := .draining, trained := s.aonNs, errors := []
        lastFull := if x.kind == .full then some s.aonNs else x.lastFull
        lastRepair := if x.kind == .repair then some s.aonNs else x.lastRepair })
      else if (s.channel stack channel).kind == .periodic then
        .next (s.mapChannel stack channel fun x => { x with st := .draining, nextKind := .full })
      else .next s := by
  simp only [execRetrainVerify, hp, hr, hst, hf, bne_self_eq_false, Bool.not_true, Bool.or_self, Bool.false_eq_true, if_false]

theorem execRetrainVerify_failed (hk : (s.channel stack channel).kind ≠ .periodic) :
    execRetrainVerify stack channel false s = .next s := by
  simp [execRetrainVerify, hp, hk]

theorem execRetrainTimeout_early (h : s.aonNs < (s.channel stack channel).began + 2000000) :
    execRetrainTimeout stack channel s = .next s := by
  simp [execRetrainTimeout, hp, h]

theorem execRetrainTimeout_due (hr : s.running = true) (hst : (s.channel stack channel).st = .reconstruct)
    (hf : (s.channel stack channel).forScan = false) (hd : (s.channel stack channel).began + 2000000 ≤ s.aonNs) :
    execRetrainTimeout stack channel s =
      if (s.channel stack channel).retried then .next (s.loseChannel stack channel)
      else .next (s.mapChannel stack channel fun x => { x with retried := true, began := s.aonNs }) := by
  simp [execRetrainTimeout, hp, hr, hst, hf, Nat.not_lt.2 hd]

theorem execDrainComplete_draining (hr : s.running = true) (hst : (s.channel stack channel).st = .draining) :
    execDrainComplete stack channel s =
      .next ((s.mapChannel stack channel fun x => { x with st := .online, hold := [], marked := [], retried := false }).bump
        (key (0x3010 + stack) 5)) := by
  simp [execDrainComplete, hp, hr, hst]

theorem execDrainComplete_idle (hst : (s.channel stack channel).st ≠ .draining) :
    execDrainComplete stack channel s = .next s := by
  simp [execDrainComplete, hp, hst]

end

end

/-- Settles O46: the start by what the window and the group allow, the end by whether the channel verifies, times out or drains. -/
theorem retrain : Obligations.Retrain := by
  refine ⟨fun _ _ _ hp hc hw => execRetrainStart_forced hp hc hw, fun _ _ c _ hp hc => execRetrainStart_idle c hp hc, ?_, ?_,
    fun _ _ _ _ _ hp hc ho hi ha => execRetrainStart_notAllowed hp hc ho hi ha,
    fun _ _ _ _ _ _ hp hc ho hi hold ha hu hg => execRetrainStart_deferred hp hc ho hi hold ha hu hg,
    fun _ _ _ hp ho => execRetrainStart_closed hp ho,
    fun _ _ _ hp hr hst hf => execRetrainVerify_eq hp true hr hst hf, ?_, fun _ _ _ hp hk => execRetrainVerify_failed hp hk, ?_, ?_,
    fun _ _ _ hp h => execRetrainTimeout_early hp h, fun _ _ _ hp hr hst => execDrainComplete_draining hp hr hst,
    fun _ _ _ hp hst => execDrainComplete_idle hp hst⟩
  · intro stack channel k i u v s hp hc ho hi hold ha hu hg hv hoff -- the kind the channel is due
    refine (execRetrainStart_planned hp hc ho hi hold ha hu hg hv).trans ?_
    rw [hoff, if_neg Bool.false_ne_true]
  · intro stack channel k i u v s hp hc ho hi hold ha hu hg hv hoff -- PERIODIC, for a channel OFFLINE
    refine (execRetrainStart_planned hp hc ho hi hold ha hu hg hv).trans ?_
    rw [hoff, if_pos rfl]
  · intro stack channel s hp hr hst hf hk -- a PERIODIC one that does not verify
    refine (execRetrainVerify_eq hp false hr hst hf).trans ?_
    rw [hk]
    rfl
  · intro stack channel s hp hr hst hf hre hd -- a first timeout
    refine (execRetrainTimeout_due hp hr hst hf hd).trans ?_
    rw [hre, if_neg Bool.false_ne_true]
  · intro stack channel s hp hr hst hf hre hd -- a second
    refine (execRetrainTimeout_due hp hr hst hf hd).trans ?_
    rw [hre, if_pos rfl]
    rfl

end Sys2Proof.Machine
end

/-!
SUPPORT. The sources of fleet time (R43 to R47, R309): how they are qualified and lost, the exchange with a PTP master, the PPS, and
beacons over the links.
-/

section
namespace Sys2Proof.Machine

variable {s u : State}

/-! ## Qualification (R46, R47) -/

/-- A disqualified source whose offset agrees again is heard again. -/
def State.healed (s : State) : State :=
  s.mapFtu fun f => { f with
    ptp := f.ptp.heal (s.num 0x200203), pps := f.pps.heal (s.num 0x200203)
    beacons := f.beacons.map fun x => (x.1, x.2.heal (s.num 0x200203)) }

theorem execSourceQualification_hostOnly (hs : s.dev.st ≠ .off) (hm : s.num 0x200101 = 4) :
    execSourceQualification s = .next s.timeLost := by
  simp [execSourceQualification, hs, hm]

/-- Qualification chooses among the candidates of the healed sources. -/
theorem execSourceQualification_chooses (hs : s.dev.st ≠ .off) (hm : s.num 0x200101 ≠ 4) :
    execSourceQualification s = .next (s.healed.selectSource (s.healed.candidates.length + 1) s.healed.candidates) := by
  simp only [execSourceQualification, hm, decide_false, Bool.or_false, beq_iff_eq, hs, if_false]
  rfl

theorem selectSource_none {l : List Candidate} (n : Nat) (h : l = []) : s.selectSource (n + 1) l = s.timeLost := by
  subst h
  rfl

/-- The best candidate is followed where it agrees, and while fleet time is not known. -/
theorem selectSource_follows {l : List Candidate} {c : Candidate} (n : Nat) (hb : bestOf l = some c)
    (h : s.ftu.st = .unset ∨ s.agrees c = true) : s.selectSource (n + 1) l = s.follow c := by
  have hgo : (s.ftu.st == .unset || s.agrees c) = true := by rcases h with h | h <;> simp [h]
  simp only [State.selectSource, hb, hgo, if_true]

theorem execHoldoverErrorLimit_passed (hs : s.ftu.st = .holdover) (he : s.num 0x200205 < s.errorEstimate) :
    execHoldoverErrorLimit s = .next ((s.setTimeState .freerun).event 0x01 0xFFFF 0) := by
  simp [execHoldoverErrorLimit, hs, he]

/-! ## PTP (R43) -/

/-- What a Sync notes: its arrival less the ingress delay, and whether a Follow_Up is to come. -/
def State.noteSync (m : PtpSync) (s : State) : State :=
  s.mapPtp fun x => { x with
    syncSeq := m.seq, t2 := s.ftuNs - s.num 0x200105, awaiting := m.twoStep, interval := m.interval
    syncCorrection := m.correction }

theorem execSync_heard {m : PtpSync} (h : s.fromGm m.ethernet m.domain m.gm = true) :
    execSync m s = .next (if m.twoStep then s.noteSync m else (s.noteSync m).ptpMeasure m.origin m.correction) := by
  simp only [execSync, h, Bool.not_true, Bool.false_eq_true, if_false]
  rfl

theorem execFollowUp_awaited {m : PtpSync} (h : s.fromGm m.ethernet m.domain m.gm = true) (ha : s.ftu.exchange.awaiting = true)
    (hq : s.ftu.exchange.syncSeq = m.seq) :
    execFollowUp m s = .next (s.ptpMeasure m.origin (s.ftu.exchange.syncCorrection + m.correction)) := by
  simp [execFollowUp, h, ha, hq]

/-- A delay response to our request, of the mechanism in use, gives the path delay. -/
theorem execDelayResponse_awaited {m : PtpDelay} (hh : s.ptpHeard m.ethernet = true) (hr : s.ftu.exchange.requested = true)
    (hq : s.ftu.exchange.reqSeq = m.seq) (hm : m.peer = (s.num 0x200104 == 1)) :
    execDelayResponse m s = .next (s.mapPtp fun x => { x with
      requested := false
      pathDelay :=
        if m.peer then
          (((s.ftuNs - s.num 0x200105 : Nat) : Int) - s.ftu.exchange.t3 - (m.sent - m.received : Int) - m.correction) / 2
        else ((s.ftu.exchange.t2 : Int) - s.ftu.exchange.t1 + ((m.received : Int) - s.ftu.exchange.t3 - m.correction)) / 2 }) := by
  have hgo : (!s.ptpHeard m.ethernet || !s.ftu.exchange.requested || decide (s.ftu.exchange.reqSeq ≠ m.seq) ||
      decide (m.peer ≠ (s.num 0x200104 == 1))) = false := by simp [hh, hr, hq, ← hm]
  simp only [execDelayResponse, hgo, Bool.false_eq_true, if_false]

/-- The first master heard is taken. -/
theorem execAnnounce_first {m : PtpAnnounce} (hh : s.ptpHeard m.ethernet = true) (hd : m.domain.toNat = s.num 0x200102)
    (hg : s.ftu.exchange.gm = none) (hm : m.gm ≠ 0) :
    execAnnounce m s = .next (((((s.mapPtp fun x => { gm := some m, reqSeq := x.reqSeq }).mapFtu fun f => { f with ptp := {} }).setNum
      0x200006 m.gm.toNat).setNum 0x200007 m.clockClass.toNat).setNum 0x200008 m.accuracy.toNat) := by
  have hchanged : s.ftu.exchange.gmId ≠ m.gm := by
    rw [Ptp.gmId, hg]
    exact hm.symm
  simp [execAnnounce, hh, hd, hg, hchanged]

/-! ## The PPS (R44) -/

/-- When the edge happened: the cable delays it. -/
def State.edgeAt (s : State) : Nat := s.now - s.num 0x200107

/-- The whole second nearest to the edge, in nanoseconds. -/
def State.edgeSecond (s : State) : Nat := (s.edgeAt + 500000000) / 1000000000 * 1000000000

theorem execFtPpsIn_far (hs : s.dev.st ≠ .off) (hk : s.timeKnown = true)
    (hd : 100000 < ((s.edgeSecond : Int) - s.edgeAt).natAbs) : execFtPpsIn s = .next (s.bump 0x200108) := by
  have hgo : (s.dev.st == .off || !s.timeKnown) = false := by simp [hs, hk]
  simp only [execFtPpsIn, hgo, Bool.false_eq_true, if_false]
  exact if_pos hd

theorem execFtPpsIn_near (hs : s.dev.st ≠ .off) (hk : s.timeKnown = true)
    (hd : ((s.edgeSecond : Int) - s.edgeAt).natAbs ≤ 100000) (hq : s.ftu.hostSecs = true ∨ s.ptpQualified = true) :
    execFtPpsIn s = .next (s.mapFtu fun f => { f with
      pps := updated s.aonNs 1000000000 ((s.edgeSecond : Int) - s.edgeAt) (Config.ppsSourceError + 10) 0 f.pps }) := by
  have hgo : (s.dev.st == .off || !s.timeKnown) = false := by simp [hs, hk]
  have hsec : (!(s.ftu.hostSecs || s.ptpQualified)) = false := by rcases hq with h | h <;> simp [h]
  simp only [execFtPpsIn, hgo, hsec, Bool.false_eq_true, if_false]
  exact if_neg (Nat.not_lt.2 hd)

/-! ## Beacons that leave (R298, R309) -/

/-- A link after a frame has left on it, not encrypted: the frame's sequence is used, and its bytes are kept. -/
def Link.sent (l : Link) (f : Frame) : Link :=
  { l with seqOut := l.seqOut + 1, replay := l.replay ++ [(l.seqOut, l.wireOf f)] }

theorem wireOf_plain {l : Link} (f : Frame) (h : l.encrypted = false) :
    l.wireOf f = f.header ++ f.payload ++ trailer l.seqOut f.header f.payload := by
  simp [Link.wireOf, h]

theorem push_plain {n : Nat} (f : Frame) (h : (s.link n).encrypted = false) :
    s.push n f = (s.setLink n ((s.link n).sent f)).emit (.frame n ((s.link n).wireOf f)) := by
  unfold State.push Link.sent
  simp [h]

theorem send_plain {n : Nat} (f : Frame) (h : (s.link n).encrypted = false) : s.send n f = s.push n f := by
  simp [State.send, h]

theorem link_mapLink {n : Nat} {f : Link → Link} (h : f (s.link n) ≠ {}) : (s.mapLink n f).link n = f (s.link n) :=
  State.link_setLink h _

/-- A link that waits for the answer to a beacon is not as at reset. -/
theorem ne_reset_of_beaconSent {l : Link} (h : l.beaconSent ≠ []) : l ≠ {} := fun hl => h (by rw [hl])

/-- A beacon's number is used, and the time at which it leaves is kept for the answer to it. -/
def Link.noteBeacon (at_ : Nat) (frac : BitVec 32) (l : Link) : Link :=
  { l with beaconOut := l.beaconOut + 1, beaconSent := ((l.beaconOut, at_, frac) :: l.beaconSent).take 16 }

theorem noteBeacon_beaconSent (at_ : Nat) (frac : BitVec 32) (l : Link) : (l.noteBeacon at_ frac).beaconSent ≠ [] := by
  simp [Link.noteBeacon]

theorem sendBeacon_held {n : Nat} (h : (s.link n).canSend (s.beaconFrame n) = false) : s.sendBeacon n = s := by
  simp [State.sendBeacon, h]

/-- A frame leaves on a link that is not encrypted and waits for the answer to a beacon. -/
theorem transmit_plain {n : Nat} (f : Frame) (hw : (s.link n).beaconSent ≠ []) (he : (s.link n).encrypted = false) :
    s.transmit n f =
      ((s.mapLink n (Link.useCredit f.vc)).setLink n (((s.link n).useCredit f.vc).sent f)).emit
        (.frame n ((s.link n).wireOf f)) := by
  have hl : (s.mapLink n (Link.useCredit f.vc)).link n = (s.link n).useCredit f.vc :=
    link_mapLink (ne_reset_of_beaconSent (l := (s.link n).useCredit f.vc) hw)
  have hl' : ((s.link n).useCredit f.vc).encrypted = false := he
  have hwire : ((s.link n).useCredit f.vc).wireOf f = (s.link n).wireOf f := by rw [wireOf_plain f hl', wireOf_plain f he]; rfl
  rw [State.transmit, send_plain f (by rw [hl, hl']), push_plain f (by rw [hl, hl']), hl, hwire]

/-- What that frame leaves: the link's own counts, the frame among what leaves the device, and nothing else. -/
theorem transmit_leaves {n : Nat} (f : Frame) (hw : (s.link n).beaconSent ≠ []) (he : (s.link n).encrypted = false) :
    (s.transmit n f).out = .frame n ((s.link n).wireOf f) :: s.out ∧
      (s.transmit n f).link n = ((s.link n).useCredit f.vc).sent f ∧
      s.transmit n f = { s with fabric := (s.transmit n f).fabric, out := (s.transmit n f).out } := by
  have hlink (o : Out) (t : State) : (t.emit o).link n = t.link n := rfl
  have hframe (x : Link) (o : Out) (g : Link → Link) :
      ((s.mapLink n g).setLink n x).emit o =
        { s with fabric := (((s.mapLink n g).setLink n x).emit o).fabric, out := (((s.mapLink n g).setLink n x).emit o).out } := by
    simp only [State.emit, State.setLink, State.mapLink]
  rw [transmit_plain f hw he, hlink, State.link_setLink (ne_reset_of_beaconSent (l := ((s.link n).useCredit f.vc).sent f) hw)]
  exact ⟨rfl, rfl, hframe ..⟩

/-- The state in which the beacon about to leave on a link is noted. -/
def State.noteBeacon (n : Nat) (s : State) : State := s.mapLink n (Link.noteBeacon s.ftuNs s.ftu.frac)

theorem noteBeacon_link (n : Nat) (s : State) : (s.noteBeacon n).link n = (s.link n).noteBeacon s.ftuNs s.ftu.frac :=
  link_mapLink (ne_reset_of_beaconSent (noteBeacon_beaconSent _ _ _))

theorem noteBeacon_frame (n : Nat) (s : State) : s.noteBeacon n = { s with fabric := (s.noteBeacon n).fabric } := rfl

theorem sendBeacon_sends {n : Nat} (h : (s.link n).canSend (s.beaconFrame n) = true) :
    s.sendBeacon n = (s.noteBeacon n).transmit n (s.beaconFrame n) := by
  simp only [State.sendBeacon, h, Bool.not_true, Bool.false_eq_true, if_false]
  rfl

/-- A beacon that leaves is noted on its link, and sent as it is. -/
theorem sendBeacon_leaves {n : Nat} {l : Link} (hl : l = s.link n) (hc : l.canSend (s.beaconFrame n) = true)
    (he : l.encrypted = false) :
    (s.sendBeacon n).out = .frame n (l.wireOf (s.beaconFrame n)) :: s.out ∧
      ((s.sendBeacon n).link n).beaconOut = l.beaconOut + 1 ∧
      ((s.sendBeacon n).link n).beaconSent = ((l.beaconOut, s.ftuNs, s.ftu.frac) :: l.beaconSent).take 16 ∧
      s.sendBeacon n = { s with fabric := (s.sendBeacon n).fabric, out := (s.sendBeacon n).out } := by
  subst hl
  have hlink := noteBeacon_link n s
  have henc : ((s.link n).noteBeacon s.ftuNs s.ftu.frac).encrypted = false := he
  have hwire : ((s.link n).noteBeacon s.ftuNs s.ftu.frac).wireOf (s.beaconFrame n) = (s.link n).wireOf (s.beaconFrame n) := by
    rw [wireOf_plain _ henc, wireOf_plain _ he]
    rfl
  obtain ⟨hout, hsent, hframe⟩ := transmit_leaves (s := s.noteBeacon n) (s.beaconFrame n)
    (by rw [hlink]; exact noteBeacon_beaconSent _ _ _) (by rw [hlink, henc])
  rw [hlink, hwire] at hout
  rw [hlink] at hsent
  rw [sendBeacon_sends hc]
  refine ⟨by rw [hout, noteBeacon_frame], by rw [hsent]; rfl, by rw [hsent]; rfl, ?_⟩
  rw [hframe, noteBeacon_frame]

/-! ## Beacons that arrive (R45, R309) -/

theorem execTimeBeacon_heard {link : Fin 32} {r : Rx} {f : Frame} (hp : s.linkPresent link = true) (hr : s.running = true)
    (hu : s.linkUp link = true) (hh : s.hears link r f = true) (hk : f.kind = .beacon) (hl : f.payload.length = 48) :
    execTimeBeacon link r s =
      .next (((s.tookFrame link r).accepted link (s.link link).seqIn (some 2)).beaconIn link (parseBeacon f.payload)) := by
  rw [execTimeBeacon, State.onFrames_up _ hp hr hu, State.receive_hears _ _ hh (by simp [hk, hl])]

theorem lookDef_put_same {α : Type} (d v : α) (k : Nat) (l : List (Nat × α)) : lookDef d (put k v l) k = v := by
  rw [lookDef, look_put_same]
  rfl

/-- A beacon's number and arrival are kept, for our answer to it. -/
def State.keepBeacon (n : Nat) (b : Beacon) (s : State) : State :=
  s.mapLink n fun l => { l with beaconIn := some (b.sequence, s.stamp, s.ftu.frac) }

theorem beaconIn_unanswering {n : Nat} {b : Beacon} (h : ((s.link n).beaconSent.find? fun x => x.1 = b.echo) = none) :
    s.beaconIn n b = s.keepBeacon n b := by
  simp only [State.beaconIn, h]
  rfl

/-- A LOCKED sender's answer to our beacon, on a link without asymmetry, sets the link's delay and updates its source. -/
theorem beaconIn_locked {n : Nat} {b : Beacon} {q : BitVec 32} {t1 : Nat} {f1 : BitVec 32} {d : Int}
    (h : ((s.link n).beaconSent.find? fun x => x.1 = b.echo) = some (q, t1, f1)) (hm : s.num (key (linkIndex n) 6) = 0xFFFF)
    (hd : d = (fine s.ftuNs s.ftu.frac - fine t1 f1 - (fine b.tSend b.tSendFrac - fine b.tRecv b.tRecvFrac)) / 2)
    (hs : b.state = 2) (hb : s.num 0x200109 = 1) (hk : 0x200109 ≠ key (linkIndex n) 8) :
    s.beaconIn n b = ((s.keepBeacon n b).setNum (key (linkIndex n) 8) (min (d / 2 ^ 32).toNat 0xFFFFFFFF)).mapFtu fun f => { f with
      beacons := put n (updated s.aonNs 1000000 ((fine b.tSend b.tSendFrac + d - fine s.ftuNs s.ftu.frac) / 2 ^ 32)
        (b.err.toNat + 5) (b.hops.toNat + 1) (lookDef {} f.beacons n)) f.beacons } := by
  have hon (v : Nat) : ((s.keepBeacon n b).setNum (key (linkIndex n) 8) v).num 0x200109 = 1 :=
    (State.num_setNum_other hk v _).trans hb
  have hdelay : (s.keepBeacon n b).num (key (linkIndex n) 6) = 0xFFFF := hm
  have hns : (s.keepBeacon n b).ftuNs = s.ftuNs := rfl
  have hfrac : (s.keepBeacon n b).ftu.frac = s.ftu.frac := rfl
  have hkept : (s.mapLink n fun l => { l with beaconIn := some (b.sequence, s.stamp, s.ftu.frac) }) = s.keepBeacon n b := rfl
  simp only [State.beaconIn, h, Option.map_some, hkept, hdelay, if_true, hns, hfrac, Int.mul_zero, Int.add_zero, ← hd, hon, hs,
    decide_true, Bool.and_self]
  rfl

/-- Settles O18: qualification by its choice, the PTP and PPS commands by what they measure, beacons by what leaves and arrives. -/
theorem timeSources : Obligations.TimeSources := by
  refine ⟨fun s hs hm => execSourceQualification_hostOnly hs hm, ?_, ?_, fun s hs he => execHoldoverErrorLimit_passed hs he, ?_, ?_,
    fun m s h ha hq => execFollowUp_awaited h ha hq, ?_, ?_, fun m s hh hd hg hm => execAnnounce_first hh hd hg hm,
    fun s hs hk hd => execFtPpsIn_far hs hk hd, ?_, fun s => rfl, ?_, fun n s h => sendBeacon_held h,
    fun n l s hl hc he => sendBeacon_leaves hl hc he, fun link r f s hp hr hu hh hk hl => execTimeBeacon_heard hp hr hu hh hk hl,
    fun n b s h => beaconIn_unanswering h, ?_⟩
  · intro u s hs hm hu hn -- no candidate is left
    replace hu : u = s.healed := hu
    subst hu
    exact (execSourceQualification_chooses hs hm).trans (congrArg _ (selectSource_none _ hn))
  · intro u c s hs hm hu hb hgo -- the first is followed
    replace hu : u = s.healed := hu
    subst hu
    exact (execSourceQualification_chooses hs hm).trans (congrArg _ (selectSource_follows _ hb hgo))
  · intro m s h htwo -- a Sync of two steps
    refine (execSync_heard h).trans ?_
    rw [if_pos htwo, State.noteSync, htwo]
  · intro m s h hone -- and of one
    refine (execSync_heard h).trans ?_
    rw [if_neg (by rw [hone]; exact Bool.false_ne_true), State.noteSync, hone]
  · intro m s hh hr hq hp hm -- a delay response, end to end
    refine (execDelayResponse_awaited hh hr hq (by simp [hp, hm])).trans ?_
    rw [hp]
    rfl
  · intro m s hh hr hq hp hm -- and between peers
    refine (execDelayResponse_awaited hh hr hq (by simp [hp, hm])).trans ?_
    rw [hp]
    rfl
  · intro sec s hs hk hsec hd hq -- a PPS edge near its second
    replace hsec : sec * 1000000000 = s.edgeSecond := hsec
    rw [hsec] at hd ⊢
    refine ⟨_, execFtPpsIn_near hs hk hd hq, ?_⟩
    exact ⟨rfl, rfl, rfl, rfl, rfl⟩
  · intro s hr -- beacons leave
    simp [exec, execBeaconSend, hr]
  · intro n b q t1 f1 d s t h hm hd hs hb hk ht -- a LOCKED sender's answer
    rw [ht, beaconIn_locked h hm hd hs hb hk]
    simp only [State.mapFtu, lookDef_put_same]
    refine ⟨rfl, rfl, rfl, rfl, ?_, fun k hkey => State.num_setNum_other (by simpa using hkey) _ _⟩
    simp only [State.setNum, State.keepBeacon, State.mapLink, State.setLink]

end Sys2Proof.Machine
end

/-!
SUPPORT. Writes of single entries (R356): one lemma each for a number that is stored, for one that is an action and for a byte string,
and what SET_GENERATION, REBASELINE, SHARD_MAP and FACTORY_RESET do.
-/

section
namespace Sys2Proof.Machine

variable {s : State} {w : Writer}

/-! ## Entries that act (R356) -/

/-- A write-only number in its range that no rule of its own refuses is its action, answered with what that gives. -/
theorem entryWrite_action {k n v q : Nat} {r : Row} {b : Bytes} {t : State} (h : s.mayWrite w k = true) (hk : k % 256 ≠ 0)
    (hr : rowOf k = some r) (hn : r.ty.size = some n) (hb : b.length = n) (hval : leNat b = v) (hs : switchable (k / 256) = false)
    (hv : s.rangeOk k v = true) (ho : s.ownRule k v = none) (ha : r.access = .wo) (hd : s.numAction k v = (t, q)) :
    s.entryWrite w k b = t.written w k q r.ty.code n := by
  subst hval
  rw [State.entryWrite_num b h hk hr hn hb (by rw [hs]; rfl) hv, numWrite_action ho ha, hd]

/-- A stored number in its range that no rule of its own refuses is stored. -/
theorem numWrite_stores {r : Row} {k v : Nat} (ho : s.ownRule k v = none) (hr : r.access ≠ .wo) :
    s.numWrite r k v = (s.storeNum k v, rOk) := by
  simp [State.numWrite, ho, hr]

theorem key_mod_256 (index : Nat) (sub : Byte) : key index sub.toNat % 256 = sub.toNat := by
  have := sub.isLt
  unfold key
  omega

/-- Any number entry but an index's first: what a REGISTER_WRITE of it stores. -/
theorem execRegisterWrite_stores {index : BitVec 16} {sub : Byte} {value : Bytes} {k n : Nat} {r : Row}
    (hkey : k = key index.toNat sub.toNat) (h : s.mayWrite w k = true) (hsub : sub ≠ 0) (hr : rowOf k = some r)
    (hn : r.ty.size = some n) (hl : value.length = n) (hs : (switchable (k / 256) && k % 256 = 1) = false)
    (hv : s.rangeOk k (leNat value) = true) (ho : s.ownRule k (leNat value) = none) (ha : r.access ≠ .wo) :
    exec (.registerWrite w index sub value) s = .next ((s.storeNum k (leNat value)).written w k rOk r.ty.code n) := by
  have hk : k % 256 ≠ 0 := by
    rw [hkey, key_mod_256]
    exact fun h0 => hsub (BitVec.eq_of_toNat_eq h0)
  have hw := State.entryWrite_num value h hk hr hn hl hs hv
  rw [numWrite_stores ho ha] at hw
  simp only [exec, execRegisterWrite, ← hkey, hw]

/-! ## Byte strings (R300, R310) -/

theorem rowOf_routeTable : rowOf 0x810001 = some ⟨1, .domain, .rwr, true, 0, 0, 0⟩ := by decide +kernel

theorem rowOf_shardMap : rowOf 0x830002 = some ⟨2, .domain, .rw, false, 0, 0, 0⟩ := by decide +kernel

/-- A route table of its length, each byte a link or none. -/
theorem textOk_routeTable {b : Bytes} (hl : b.length = 16384) (ha : (b.all fun x => x.toNat < 32 || x = 0xFF) = true) :
    textOk 0x810001 b = true := by
  simp only [textOk, hl, ha, decide_true, Bool.and_self]

theorem writeShardMap_selected {b : Bytes} {c : Coll} (h : s.selected 0x830001 = some c) :
    s.writeShardMap b =
      (s.mapColl c.d.handle fun c => { c with shardMap := (chunks 8 (b.length / 8 + 1) b).map fun r => (chunks 2 5 r).map leNat },
        rOk) := by
  simp only [State.writeShardMap, h]

/-- A byte string of up to 64 KiB whose layout is kept, outside the recovery index: it is stored or carried out. -/
theorem entryWrite_domain {k q : Nat} {r : Row} {b : Bytes} {t : State} (h : s.mayWrite w k = true) (hk : k % 256 ≠ 0)
    (hr : rowOf k = some r) (ht : r.ty = .domain) (hw : b.length ≤ sourceLimit w.src) (hb : textOk k b = true)
    (hi : k / 256 ≠ 0xE010) (hd : (s.unstage w.src).textWrite k b = (t, q)) :
    s.entryWrite w k b = t.written w k q 0x0A b.length := by
  have hlen : b.length ≤ if r.ty = .str then 256 else 65536 := by
    rw [ht]
    exact hw.trans (sourceLimit_le w.src)
  rw [State.entryWrite_text b h hk hr (by rw [ht]; rfl) hlen hw hb fun h => absurd h hi, hd, ht]
  rfl

/-! ## The generation counter (R212) -/

theorem rowOf_setGeneration : rowOf 0x411003 = some ⟨3, .u64, .wo, true, 0, 0, 0xFFFFFFFFFFFFFFFF⟩ := by decide +kernel

theorem setGenerationTo_taken {v : Nat} (hv : v < 2 ^ 48) (hc : s.colls = []) (hd : s.deferred = []) (hg : s.muts.generation ≤ v) :
    s.setGenerationTo v = (s.openGeneration v, rOk) := by
  rw [State.setGenerationTo, if_neg (Nat.not_le.2 hv)]
  simp [hc, hd, Nat.not_lt.2 hg]

theorem setGenerationTo_refused {v : Nat} (hv : v < 2 ^ 48) (h : s.colls ≠ [] ∨ s.deferred ≠ [] ∨ v < s.muts.generation) :
    s.setGenerationTo v = (s, rState) := by
  have hif : (!s.colls.isEmpty || !s.deferred.isEmpty || decide (v < s.muts.generation)) = true := by simpa [or_assoc] using h
  rw [State.setGenerationTo, if_neg (Nat.not_le.2 hv), if_pos hif]

theorem execSetGeneration_answers {v : BitVec 64} {t : State} {q : Nat} (h : s.mayWrite w 0x411003 = true)
    (ht : s.setGenerationTo v.toNat = (t, q)) : exec (.setGeneration w v) s = .next (t.written w 0x411003 q 5 8) := by
  have hv : leNat (natLE 8 v.toNat) = v.toNat := by rw [leNat_natLE]; exact Nat.mod_eq_of_lt v.isLt
  have hrange : s.rangeOk 0x411003 v.toNat = true :=
    State.rangeOk_of rowOf_setGeneration (by simp [storedValue, rowOf_setGeneration]) (Nat.zero_le _) (Nat.le_of_lt_succ v.isLt) rfl
  have hw := entryWrite_action h (by decide) rowOf_setGeneration rfl (natLE_length ..) hv rfl hrange rfl rfl ht
  exact congrArg Host.Outcome.next hw

/-! ## Commands that are a write of 1: REBASELINE and FACTORY_RESET (R117, R368) -/

theorem rowOf_rebaseline : rowOf 0x603007 = some ⟨7, .bool, .wo, true, 0, 0, 1⟩ := by decide +kernel

theorem rowOf_factoryReset : rowOf 0x100307 = some ⟨7, .bool, .wo, true, 0, 0, 1⟩ := by decide +kernel

theorem rebaselineColl_selected {c : Coll} (h : s.selected 0x603001 = some c) :
    s.rebaselineColl = s.mapColl c.d.handle fun c =>
      { c with drift := { c.drift with flag := false, windows := 0, baseline := none } } := by
  simp only [State.rebaselineColl, h]

/-- A write of 1 to a BOOL that acts. -/
theorem entryWrite_one {k q : Nat} {r : Row} {t : State} (h : s.mayWrite w k = true) (hk : k % 256 ≠ 0) (hr : rowOf k = some r)
    (ht : r.ty = .bool) (ha : r.access = .wo) (hs : switchable (k / 256) = false) (hv : s.rangeOk k 1 = true)
    (ho : s.ownRule k 1 = none) (hd : s.numAction k 1 = (t, q)) :
    s.entryWrite w k [1] = t.written w k q 1 1 := by
  rw [entryWrite_action (b := [1]) h hk hr (by rw [ht]; rfl) rfl rfl hs hv ho ha hd, ht]
  rfl

theorem execRebaseline_selected {c : Coll} (h : s.mayWrite w 0x603007 = true) (hc : s.selected 0x603001 = some c) :
    exec (.rebaseline w 1) s = .next ((s.mapColl c.d.handle fun c =>
      { c with drift := { c.drift with flag := false, windows := 0, baseline := none } }).written w 0x603007 rOk 1 1) := by
  have hrange : s.rangeOk 0x603007 1 = true :=
    State.rangeOk_of rowOf_rebaseline (by simp [storedValue, rowOf_rebaseline]) (Nat.zero_le _) (Nat.le_refl _) rfl
  have hact : s.numAction 0x603007 1 = (s.rebaselineColl, rOk) := rfl
  rw [rebaselineColl_selected hc] at hact
  exact congrArg Host.Outcome.next (entryWrite_one h (by decide) rowOf_rebaseline rfl rfl rfl hrange rfl hact)

theorem execFactoryReset_commits {u : State} {r q : Nat} (h : s.mayWrite w 0x100307 = true) (hc : s.commit true = (u, r, q)) :
    exec (.factoryReset w 1) s = .next (u.written w 0x100307 r 1 1) := by
  have hrange : s.rangeOk 0x100307 1 = true :=
    State.rangeOk_of rowOf_factoryReset (by simp [storedValue, rowOf_factoryReset]) (Nat.zero_le _) (Nat.le_refl _) rfl
  have hact : s.numAction 0x100307 1 = ((s.commit true).1, (s.commit true).2.1) := rfl
  rw [hc] at hact
  exact congrArg Host.Outcome.next (entryWrite_one h (by decide) rowOf_factoryReset rfl rfl rfl hrange rfl hact)

/-- Settles O22: a number is stored or is its action, a byte string stored or carried out, by what its entry is. -/
theorem otherWrites : Obligations.OtherWrites := by
  refine ⟨fun w index sub value k n r s hkey h hsub hr hn hl hs hv ho ha =>
      execRegisterWrite_stores hkey h hsub hr hn hl hs hv ho ha, ?_,
    fun w v s h hv hc hd hg => execSetGeneration_answers h (setGenerationTo_taken hv hc hd hg),
    fun w v s h hv hn => execSetGeneration_answers h (setGenerationTo_refused hv hn),
    fun w c s h hc => execRebaseline_selected h hc, ?_, fun w u r q s h hc => execFactoryReset_commits h hc⟩
  · intro w value s h hl hw ha -- the route table
    exact congrArg Host.Outcome.next
      (entryWrite_domain h (by decide) rowOf_routeTable rfl hw (textOk_routeTable hl ha) (by decide) rfl)
  · intro w value c u s h hw hu hb hc -- the shard map
    subst hu
    exact congrArg Host.Outcome.next
      (entryWrite_domain h (by decide) rowOf_shardMap rfl hw hb (by decide) (writeShardMap_selected hc))

end Sys2Proof.Machine
end

/-!
SUPPORT. Encode batches and drift: what becomes of an encode entry in each branch of R96, of a batch that ends, and of a collection's
first full drift window.
-/

section
namespace Sys2Proof.Machine

variable {s : State}

/-! ## An encode entry (R94 to R96) -/

section
variable {p : Port} {n : Byte} {head tenant : Nat} {e : EncodeEntry}

theorem execEncode_takes {x : SubSpool} (hx : s.subSpool p n = some x) (hm : x.mutation = false)
    (ht : s.hasTurn (.spool p n) = true) (hop : field (s.headEntry x) 0 1 = 0x40) :
    exec (.encode p n) s = .next (((s.takeTurn (intakePlace (.spool p n)) x.weight).takeEntry p n).startEncode p n
      (x.head + 1).toNat x.tenant.toNat (parseEncode (s.headEntry x))) := by
  simp [exec, execEncode, hx, hm, ht, hop]

theorem execEncode_absent (hx : s.subSpool p n = none) : exec (.encode p n) s = .next s := by
  simp only [exec, execEncode, hx]

theorem startEncode_unknown (hc : e.coll ≠ 0xFFFF) (hn : s.collFor (BitVec.ofNat 16 e.coll) tenant = none) :
    s.startEncode p n head tenant e = s.complete p n head e.tag 0 0 0x40 stNoColl := by
  simp [State.startEncode, hc, hn]

theorem startEncode_invalid (hc : e.coll = 0xFFFF) (hp : s.encodeParams p tenant e none = none) :
    s.startEncode p n head tenant e = s.complete p n head e.tag 0 0 0x40 stInvalid := by
  simp [State.startEncode, hc, hp]

/-- Kiln is online, and Tun where the entry asks for its statistics. -/
theorem startEncode_starts {x : EncP} (hc : e.coll = 0xFFFF) (hp : s.encodeParams p tenant e none = some x)
    (hk : s.anyKiln = true) (ht : e.flag 1 = false ∨ s.tunScans = true) :
    s.startEncode p n head tenant e = { s with
      search := { s.search with nextId := s.search.nextId + 1 }
      encodes := s.encodes ++ [{ e.job s.search.nextId p n head none x with unit := s.encodeUnit }] } := by
  have hup : (!s.anyKiln || (e.flag 1 && !s.tunScans)) = false := by rcases ht with h | h <;> simp [hk, h]
  simp [State.startEncode, hc, hp, hup]

theorem startEncode_degraded {x : EncP} (hc : e.coll = 0xFFFF) (hp : s.encodeParams p tenant e none = some x)
    (hk : s.anyKiln = false) :
    s.startEncode p n head tenant e = s.endEncode (e.job s.search.nextId p n head none x) x stDegraded {} := by
  simp [State.startEncode, hc, hp, hk]

end

/-! ## The end of a batch, and a drift window (R116, R117) -/

theorem execEncodeBatchComplete_found {id : Nat} {j : EncodeJob} (h : s.encodes.find? (fun j => j.id = id) = some j) :
    exec (.encodeBatchComplete id) s = .next (({ s with encodes := s.encodes.filter fun x => x.id ≠ id }).runEncode j) := by
  simp only [exec, execEncodeBatchComplete, h]

theorem execEncodeBatchComplete_absent {id : Nat} (h : s.encodes.find? (fun j => j.id = id) = none) :
    exec (.encodeBatchComplete id) s = .next s := by
  simp only [exec, execEncodeBatchComplete, h]

/-- The first full window of a collection is its baseline. -/
theorem judgeWindow_first {h : Handle} {c : Coll} {x : F32 × F32} {r : List (F32 × F32)} (hc : s.coll h = some c)
    (hr : c.drift.ready = x :: r) (hb : c.drift.baseline = none) :
    s.judgeWindow h = s.mapColl h fun c =>
      { c with drift := { c.drift with ready := r, lastNmse := x.1, lastSat := x.2, baseline := some x.1 } } := by
  simp only [State.judgeWindow, hc, hr, hb]

theorem judgeWindow_absent {h : Handle} (hc : s.coll h = none) : s.judgeWindow h = s := by
  simp only [State.judgeWindow, hc]

/-- Settles O41: an entry by the branches of `startEncode`, a batch by whether it is there, a window by its collection. -/
theorem encodeCommands : Obligations.EncodeCommands :=
  ⟨fun _ _ _ _ hx hm ht hop => execEncode_takes hx hm ht hop, fun _ _ _ hx => execEncode_absent hx,
    fun _ _ _ _ _ _ hc hn => startEncode_unknown hc hn, fun _ _ _ _ _ _ hc hp => startEncode_invalid hc hp,
    fun _ _ _ _ _ _ _ hc hp hk ht => startEncode_starts hc hp hk ht,
    fun _ _ _ _ _ _ _ hc hp hk => startEncode_degraded hc hp hk, fun _ _ _ h => execEncodeBatchComplete_found h,
    fun _ _ h => execEncodeBatchComplete_absent h,
    fun _ _ _ _ _ hc hr hb => congrArg Host.Outcome.next (judgeWindow_first hc hr hb),
    fun _ _ hc => congrArg Host.Outcome.next (judgeWindow_absent hc)⟩

end Sys2Proof.Machine
end

/-!
SUPPORT. What a start-up takes up (R32, R133): an entry to BOOT leaves no collection, no query and no step of fleet time held back,
and none of the steps of start-up brings one.
-/

section
namespace Sys2Proof.Machine

variable {s t : State}

/-! ## Nothing to take up -/

/-- No collection, no query in flight and no backward step held. -/
structure State.Blank (s : State) : Prop where
  colls : s.colls = []
  queries : s.search.queries = []
  step : s.ftu.pending = none

/-- A change that leaves collections, queries and the time unit alone. -/
theorem State.Blank.of_eq (h : s.Blank) (hc : t.colls = s.colls := by rfl) (hs : t.search = s.search := by rfl)
    (hf : t.ftu = s.ftu := by rfl) : t.Blank :=
  ⟨hc.trans h.colls, (congrArg _ hs).trans h.queries, (congrArg _ hf).trans h.step⟩

theorem State.Blank.withSec (x : Security) (h : s.Blank) : State.Blank { s with sec := x } := h.of_eq

theorem State.Blank.withDev (x : Dev) (h : s.Blank) : State.Blank { s with dev := x } := h.of_eq

theorem State.Blank.ite {c : Prop} [Decidable c] {a b : State} (ha : a.Blank) (hb : b.Blank) : (if c then a else b).Blank := by
  split
  · exact ha
  · exact hb

theorem State.Blank.foldl {α : Type} {f : State → α → State} (hf : ∀ u x, u.Blank → (f u x).Blank) (l : List α)
    (h : s.Blank) : (l.foldl f s).Blank := by
  induction l generalizing s with
  | nil => exact h
  | cons x l ih => exact ih (hf s x h)

/-- Recording an event is such a change. -/
theorem EventOnly.blank (k : EventOnly s t) (h : s.Blank) : t.Blank := by
  unfold EventOnly at k
  rw [k]
  exact h.of_eq

theorem State.Blank.bump (k : Nat) (h : s.Blank) : (s.bump k).Blank :=
  (State.bump_log k s).event.blank h

theorem State.Blank.record (src : Nat) (inst : BitVec 16) (detail : BitVec 64) (forced : Bool) (reaction : Option Nat)
    (h : s.Blank) : (s.record src inst detail forced reaction).Blank :=
  (State.record_only ..).blank h

theorem State.Blank.event (src inst detail : Nat) (h : s.Blank) : (s.event src inst detail).Blank :=
  h.record _ _ _ _ _

theorem State.Blank.setDevState (x : DevState) (h : s.Blank) : (s.setDevState x).Blank := by
  rw [(State.setDevState_only x s).1]
  exact h.of_eq

theorem State.Blank.endBg (p : Port) (opcode : Nat) (rc : Rc) (ext : Nat) (h : s.Blank) : (s.endBg p opcode rc ext).Blank := by
  rw [endBg_frame]
  exact h.of_eq

/-! ## Entering FENCED (R32) -/

theorem State.Blank.endSelfTest (outcome : Nat) (h : s.Blank) : (s.endSelfTest outcome).Blank := by
  unfold State.endSelfTest
  split
  · exact h
  · exact State.Blank.endBg _ _ _ _ h.of_eq

theorem State.Blank.closeBlock (flag : Nat) (h : s.Blank) : (s.closeBlock flag).Blank := by
  unfold State.closeBlock
  dsimp only
  split
  · exact h
  · exact h.of_eq

theorem State.Blank.powerClose (cause : Nat) (h : s.Blank) : (s.powerClose cause).Blank := by
  have hclosed := State.Blank.closeBlock closedPower
    (s := s.mapJournal fun j => { j with intakeStopped := some (max (j.intakeStopped.getD 0) cause) }) h.of_eq
  unfold State.powerClose
  exact (hclosed.bump 0x41000F).record _ _ _ _ _

/-- With no query in flight there is none to end. -/
theorem State.Blank.endQueries_eq (p : Query → Bool) (f : Query → Query) (h : s.Blank) : s.endQueries p f = s := by
  rw [State.endQueries, h.queries]
  rfl

theorem State.Blank.applyPending_eq (h : s.Blank) : s.applyPending = s := by
  rw [State.applyPending, h.step]

theorem State.Blank.enterFenced (cause : Byte) (h : s.Blank) : (s.enterFenced cause).Blank := by
  have ended {u : State} (hu : u.Blank) : (u.endQueries (fun _ => true) fun q => { q with degraded := true }).Blank := by
    rwa [hu.endQueries_eq]
  have applied {u : State} (hu : u.Blank) : u.applyPending.Blank := by rwa [hu.applyPending_eq]
  refine applied (.powerClose 2 (ended (.setDevState .fenced ?_)))
  have htest := h.endSelfTest selfAborted
  split
  · exact (htest.endBg _ _ _ _).of_eq
  · exact htest.of_eq

theorem State.Blank.settle (h : s.Blank) : s.settle.Blank := by
  unfold State.settle
  split
  · exact .ite h (h.enterFenced _)
  · exact h

/-- An event of a class other than C3 takes no unit offline. -/
theorem State.Blank.raise_whole {src : Nat} {r : SourceRow} (hr : sourceRow src = some r) (hc : r.cls ≠ 3) (inst detail : Nat)
    (reaction : Option Nat) (h : s.Blank) : (s.raise src inst detail reaction).Blank := by
  simp only [State.raise, hr, if_neg hc]
  exact (h.record _ _ _ _ _).settle

/-! ## The steps of start-up (R414) -/

theorem State.Blank.setRecord (f : SecRecord → SecRecord) (h : s.Blank) : (s.setRecord f).Blank :=
  .ite h.of_eq h.of_eq

theorem State.Blank.verifySlots (h : s.Blank) : s.verifySlots.Blank := by
  have one {u : State} (b : Bool) (hu : u.Blank) :
      (if holdsMagic (u.slot b) && !u.slotVerifies b then u.event 0x78 (bitIf b 0) 0 else u).Blank := .ite (hu.event _ _ _) hu
  unfold State.verifySlots
  exact one true (one false (h.withSec _))

theorem State.Blank.bootOrder (h : s.Blank) : s.bootOrder.2.Blank := by
  unfold State.bootOrder
  dsimp only
  split
  · exact h
  · split
    · exact h
    · exact .ite (h.setRecord _) (.ite (h.setRecord _) h)

theorem sourceRow_noFirmware : sourceRow 0x79 = some ⟨0x79, 16, 4⟩ := by decide

theorem State.Blank.runFirst (order : List Bool) (h : s.Blank) : (s.runFirst order).Blank := by
  unfold State.runFirst
  split
  · exact h.of_eq
  · exact h.raise_whole sourceRow_noFirmware (by decide) _ _ _

theorem State.Blank.selectFirmware (h : s.Blank) : s.selectFirmware.Blank := by
  have hv : s.readRecord.clearImage.verifySlots.Blank := .verifySlots h.of_eq
  unfold State.selectFirmware
  exact .ite (hv.withSec _) (.runFirst _ (hv.bootOrder.withSec _))

theorem State.Blank.restoreRecord (r : RetRecord) (h : s.Blank) : (s.restoreRecord r).Blank := by
  have hreject := h.bump 0x100309
  unfold State.restoreRecord
  dsimp only
  split
  · exact hreject
  · refine .ite hreject ?_
    split
    · exact .ite h.of_eq hreject
    · exact .ite h.of_eq hreject

theorem State.Blank.retainedRestore (h : s.Blank) : s.retainedRestore.Blank := by
  have hflash : (if s.chip.flashA != s.chip.flashB then s.event 0x69 0xFFFF 0 else s).Blank := .ite (h.event _ _ _) h
  unfold State.retainedRestore
  dsimp only
  split
  · exact .event _ _ _ hflash.of_eq
  · refine .ite (.event _ _ _ ?_) ?_
    all_goals exact .foldl (fun _ r hu => hu.restoreRecord r) _ hflash.of_eq

theorem State.Blank.openWindow (n u : Nat) (h : s.Blank) : (s.openWindow n u).Blank := by
  have hopen : (s.setCal n { s.calEntry n with openUntil := some u, openedAt := s.now, instant := none, retrained := [] }).Blank :=
    h.of_eq
  have hcount := hopen.bump (key (calIndex n) 8)
  exact .ite hcount.of_eq hcount

theorem State.Blank.calArm (n : Nat) (h : s.Blank) : (s.calArm n).Blank := by
  unfold State.calArm
  dsimp only
  split
  · exact State.Blank.openWindow _ _ h.of_eq
  · exact h.of_eq

theorem State.Blank.calArmAll (h : s.Blank) : s.calArmAll.Blank :=
  .foldl (fun _ n hu => .ite (hu.calArm n) hu) _ h

theorem State.Blank.loadPhiug (h : s.Blank) : s.loadPhiug.Blank := .ite h (.calArmAll h.of_eq)

theorem State.Blank.setPort (p : Port) (x : PortState) (h : s.Blank) : (s.setPort p x).Blank := by
  rw [setPort_frame]
  exact h.of_eq

theorem State.Blank.portsTrain (h : s.Blank) : s.portsTrain.Blank := by
  have htrain := h.foldl (f := fun s p => s.setPort p { s.port p with linkState := 1 }) (fun _ p hu => hu.setPort p _) s.upstream
  exact .ite h (.ite htrain htrain.of_eq)

theorem State.Blank.linksStart (h : s.Blank) : s.linksStart.Blank :=
  .foldl (fun _ _ hu => .ite hu.of_eq hu) _ h

theorem State.Blank.enterTrain (h : s.Blank) : s.enterTrain.Blank :=
  .ite h (.linksStart (.portsTrain (.setDevState .train h.of_eq)))

theorem State.Blank.bootSteps (h : s.Blank) : s.bootSteps.Blank := by
  have hkeys : s.selectFirmware.deriveKeys.Blank := h.selectFirmware.withSec _
  unfold State.bootSteps
  exact .ite h (.enterTrain (.loadPhiug (.calArmAll (hkeys.retainedRestore.withDev _))))

/-! ## The entry to BOOT (R133, R415) -/

/-- What no reset reaches holds no collection, no query and no held step. -/
theorem survivors_blank (s : State) : s.survivors.Blank := ⟨rfl, rfl, rfl⟩

theorem State.Blank.beginBoot (straps : BitVec 2) (epoch : Nat) (h : s.Blank) : (s.beginBoot straps epoch).Blank := by
  rw [(State.beginBoot_only (rfl : s.beginBoot straps epoch = _)).1]
  exact h.of_eq

theorem reboot_blank (straps : BitVec 2) (s : State) : (s.reboot straps).Blank :=
  .bootSteps (.beginBoot _ _ (survivors_blank s.flashLanded).of_eq)

theorem powerUp_blank (straps : BitVec 2) (s : State) : (s.survivors.beginBoot straps 1).bootSteps.Blank :=
  .bootSteps ((survivors_blank s).beginBoot straps 1)

/-- Two states that differ in their collections only leave the same after a reset. -/
theorem survivors_withColls (c : List Coll) (s : State) : State.survivors { s with colls := c } = s.survivors := rfl

theorem reenter_withColls (straps : BitVec 2) (c : List Coll) (s : State) :
    State.reenter straps { s with colls := c } = s.reenter straps := by
  have hs : (State.flashLanded { s with colls := c }).survivors = s.flashLanded.survivors := rfl
  simp only [State.reenter, hs]

theorem execPowerGood_off (straps : BitVec 2) (h : s.dev.st = .off) :
    execPowerGood straps s = .next (s.survivors.beginBoot straps 1).bootSteps := by
  simp [execPowerGood, h]

theorem execPowerGood_withColls (straps : BitVec 2) (c : List Coll) (h : s.dev.st = .off) :
    execPowerGood straps { s with colls := c } = execPowerGood straps s := by
  rw [execPowerGood_off straps h, execPowerGood_off straps (s := { s with colls := c }) h, survivors_withColls]

theorem execVauxLost_withColls (c : List Coll) (s : State) : execVauxLost { s with colls := c } = execVauxLost s := by
  have hs : (State.flashCut { s with colls := c }).survivors = s.flashCut.survivors := rfl
  rw [execVauxLost_eq, execVauxLost_eq, hs]

theorem contains_upstream_a (s : State) : s.upstream.contains .a = true := by
  unfold State.upstream
  split <;> rfl

/-- Device reset on Port A is answered, and restarts the device. -/
theorem execDeviceReset_a (straps : BitVec 2) (h : s.mailboxUp = true) :
    execDeviceReset .a straps s = .next ((s.ok .a []).reboot straps) :=
  State.onMailbox_taken _ (by simp only [State.takes, h, contains_upstream_a, Bool.or_true, Bool.and_self])

/-- Settles O60: an entry to BOOT and a loss of VAUX leave `survivors`, which hold and read no collection. -/
theorem collectionsAreLost : Obligations.CollectionsAreLost :=
  ⟨fun straps _ hs => ⟨_, execPerstaN_powered straps hs, (reboot_blank straps _).colls⟩,
    fun straps _ hm => ⟨_, execDeviceReset_a straps hm, (reboot_blank straps _).colls⟩,
    fun straps _ hs => ⟨_, execPowerGood_off straps hs, (powerUp_blank straps _).colls⟩,
    fun s => ⟨_, execVauxLost_eq s, rfl⟩,
    fun straps c s => congrArg State.bootSteps ((reenter_withColls straps c s).trans (reenter_withColls straps [] s).symm),
    fun straps c _ hs => (execPowerGood_withColls straps c hs).trans (execPowerGood_withColls straps [] hs).symm,
    fun c s => (execVauxLost_withColls c s).trans (execVauxLost_withColls [] s).symm⟩

end Sys2Proof.Machine
end

/-!
SUPPORT. The life of collections: what a command of a handle comes to once its mailbox takes it, then what each command of R340
and R345 answers in each of its cases.
-/

section
namespace Sys2Proof.Machine

variable {s u : State} {p : Port} {h : Handle} {pad : Bytes} {c : Coll}

/-! ## Commands of a definition and of a handle (R340, R345) -/

theorem onWork_taken (f : State → State) (ht : s.takes p false = true) : s.onWork p f = .next (f s.loadAppears) :=
  State.onMailbox_taken _ ht

theorem onHandle_reserved (f : Handle → State → State) (ht : s.takes p false = true) (hp : pad.any (· ≠ 0) = true) :
    s.onHandle p ⟨h, pad⟩ f = .next (s.deny p .field) :=
  (State.onMailbox_taken _ ht).trans (by rw [if_pos hp])

theorem onHandle_taken (f : Handle → State → State) (ht : s.takes p false = true) (hp : pad.any (· ≠ 0) = false) :
    s.onHandle p ⟨h, pad⟩ f = .next (f h s.loadAppears) :=
  (State.onMailbox_taken _ ht).trans (by rw [if_neg (by rw [hp]; exact Bool.false_ne_true)])

theorem onColl_permitted (f : Coll → State → State) (hc : s.coll h = some c) (hp : s.permitted p c.d.tenant.toNat = true) :
    s.onColl p h f = f c s := by
  simp only [State.onColl, hc, if_pos hp]

theorem onColl_absent (f : Coll → State → State) (hc : s.coll h = none) : s.onColl p h f = s.collReply p .state false := by
  simp only [State.onColl, hc]

/-- A command of a handle that its mailbox takes, on a collection whose tenant its port permits. -/
theorem onHandle_onColl {f : Handle → Coll → State → State} (ht : s.takes p false = true) (hu : u = s.loadAppears)
    (hc : u.coll h = some c) (hp : u.permitted p c.d.tenant.toNat = true) (hz : pad.any (· ≠ 0) = false) :
    (s.onHandle p ⟨h, pad⟩ fun h s => s.onColl p h fun c s => f h c s) = .next (f h c u) := by
  subst hu
  rw [onHandle_taken _ ht hz, onColl_permitted _ hc hp]

/-! ## Reserved bytes of a handle (R340) -/

section
variable (ht : s.takes p false = true) (hz : pad.any (· ≠ 0) = true)
include ht hz

theorem execDeleteCollection_reserved : execDeleteCollection p ⟨h, pad⟩ s = .next (s.deny p .field) :=
  onHandle_reserved _ ht hz

theorem execLoadBegin_reserved (pre : Bytes) : execLoadBegin p ⟨h, pad⟩ pre s = .next (s.deny p .field) :=
  onHandle_reserved _ ht hz

theorem execLoadEnd_reserved : execLoadEnd p ⟨h, pad⟩ s = .next (s.deny p .field) :=
  onHandle_reserved _ ht hz

theorem execLoadAbort_reserved : execLoadAbort p ⟨h, pad⟩ s = .next (s.deny p .field) :=
  onHandle_reserved _ ht hz

theorem execCollectionOnline_reserved : execCollectionOnline p ⟨h, pad⟩ s = .next (s.deny p .field) :=
  onHandle_reserved _ ht hz

theorem execCollectionOffline_reserved : execCollectionOffline p ⟨h, pad⟩ s = .next (s.deny p .field) :=
  onHandle_reserved _ ht hz

end

/-! ## Creating (R123, R125, R131) -/

section
variable {b : Bytes}

theorem execCreateCollection_illFormed (hl : b.length ≠ 256) : execCreateCollection p b s = .fault .illFormed := by
  rw [execCreateCollection, if_pos hl]

section
variable (ht : s.takes p false = true) (hu : u = s.loadAppears) (hl : b.length = 256)
include ht hu hl

theorem execCreateCollection_refused {x : Cause} (hx : x = u.createCause p (parseDef b) (u.defTables (parseDef b)))
    (hn : x ≠ .none) : execCreateCollection p b s = .next (u.collReply p x false) := by
  subst hu hx
  rw [execCreateCollection, if_neg (not_not.2 hl), onWork_taken _ ht]
  simp only [if_pos hn]

variable (hx : u.createCause p (parseDef b) (u.defTables (parseDef b)) = .none)
include hx

theorem execCreateCollection_held (hm : c ∈ u.colls) (hd : c.d.handle = (parseDef b).handle) :
    execCreateCollection p b s =
      .next ((State.bump 0x400008 { u with
        deferred := u.deferred ++ [{ coll := newColl (parseDef b) (u.defTables (parseDef b)), port := p }] }).collReply p .none
          true) := by
  subst hu
  have hany : (s.loadAppears.colls.any fun c => c.d.handle = (parseDef b).handle) = true :=
    List.any_eq_true.2 ⟨c, hm, decide_eq_true hd⟩
  rw [execCreateCollection, if_neg (not_not.2 hl), onWork_taken _ ht]
  simp only [hx, hany, ne_eq, not_true_eq_false, if_false, if_true]

/-- A create on a free handle, in a device with room for one more collection: its parts are placed, or CAPACITY. -/
theorem execCreateCollection_free (hf : ∀ c ∈ u.colls, c.d.handle ≠ (parseDef b).handle) (hr : u.colls.length < 1024) :
    execCreateCollection p b s =
      .next ((u.addColl (newColl (parseDef b) (u.defTables (parseDef b)))).elim (u.collReply p .capacity false) fun v =>
        v.collReply p .none false) := by
  subst hu
  have hany : (s.loadAppears.colls.any fun c => c.d.handle = (parseDef b).handle) = false :=
    List.any_eq_false.2 fun c hc => by simpa using hf c hc
  rw [execCreateCollection, if_neg (not_not.2 hl), onWork_taken _ ht]
  simp only [hx, hany, ne_eq, not_true_eq_false, if_false, Bool.false_eq_true, if_neg (Nat.not_le.2 hr)]
  cases s.loadAppears.addColl _ <;> rfl

end

end

/-! ## Deleting and draining (R130, R131) -/

section
variable (ht : s.takes p false = true) (hu : u = s.loadAppears) (hz : pad.any (· ≠ 0) = false)
include ht hu hz

theorem execDeleteCollection_undeferred (hx : u.deferred.find? (fun x => x.coll.d.handle = h) = none) :
    execDeleteCollection p ⟨h, pad⟩ s = .next (u.onColl p h fun c s =>
      if c.st = .deleting then s.collReply p .state false else (s.startDelete h).collReply p .none false) := by
  subst hu
  rw [execDeleteCollection, onHandle_taken _ ht hz]
  simp only [hx]

theorem execDeleteCollection_deferred {x : Deferred} (hx : u.deferred.find? (fun x => x.coll.d.handle = h) = some x)
    (hp : u.permitted p x.coll.d.tenant.toNat = true) :
    execDeleteCollection p ⟨h, pad⟩ s = .next (({ u with
      deferred := update (fun y => y.coll.d.handle = h) (fun y => { y with thenDelete := true }) u.deferred }).collReply p .none
        true) := by
  subst hu
  rw [execDeleteCollection, onHandle_taken _ ht hz]
  simp only [hx, hp, Bool.not_true, Bool.false_eq_true, if_false]

end

/-- A collection that drains leaves the list, its memory free. -/
def State.dropColl (h : Handle) (c : Coll) (s : State) : State :=
  let t := (s.logChange 3 c.st.code 0 h.toNat).release h.toNat
  (State.bump 0x400007 { t with colls := t.colls.filter fun c => c.d.handle ≠ h }).countColls

theorem execCollectionDrained_drained (hc : s.coll h = some c) (hst : c.st = .deleting) (hd : s.drained h = true) :
    execCollectionDrained h s =
      .next (((s.dropColl h c).deferred.find? fun x => x.coll.d.handle = h).elim (s.dropColl h c) fun x =>
        ((s.dropColl h c).runDeferred x).countColls) := by
  have hgo : (decide (c.st ≠ .deleting) || !s.drained h) = false := by simp [hst, hd]
  simp only [execCollectionDrained, hc, hgo, Bool.false_eq_true, if_false]
  simp only [State.dropColl]
  split
  · next e => rw [e, Option.elim_some]
  · next e => rw [e, Option.elim_none]

theorem execCollectionDrained_waits (hc : s.coll h = some c) (hw : c.st ≠ .deleting ∨ s.drained h = false) :
    execCollectionDrained h s = .next s := by
  have hstay : (decide (c.st ≠ .deleting) || !s.drained h) = true := by simpa using hw
  simp only [execCollectionDrained, hc, hstay, if_true]

/-! ## Beginning a load, and its bytes (R140) -/

section
variable {pre : Bytes} (ht : s.takes p false = true) (hu : u = s.loadAppears) (hz : pad.any (· ≠ 0) = false)
  (hc : u.coll h = some c) (hp : u.permitted p c.d.tenant.toNat = true)
include ht hu hz hc hp

theorem execLoadBegin_refused (hst : c.st ≠ .created) (hst' : c.st ≠ .offline) :
    execLoadBegin p ⟨h, pad⟩ pre s = .next (u.collReply p .state false) := by
  rw [execLoadBegin, onHandle_onColl ht hu hc hp hz, if_pos (by simp [hst, hst'])]

section
variable (hst : c.st = .created ∨ c.st = .offline)
include hst

theorem execLoadBegin_badPrefix (hx : prefixCause c.d pre ≠ .none) :
    execLoadBegin p ⟨h, pad⟩ pre s = .next (u.collReply p (prefixCause c.d pre) false) := by
  rw [execLoadBegin, onHandle_onColl ht hu hc hp hz, if_neg (by rcases hst with e | e <;> simp [e])]
  split
  · next e => exact absurd e hx
  · rfl

theorem execLoadBegin_opens {b : Nat} (hx : prefixCause c.d pre = .none) (hr : u.openLoads.length < 16)
    (hb : u.imageBase p (field pre 0x18 8) = some b) :
    execLoadBegin p ⟨h, pad⟩ pre s =
      .next (((u.mapColl h fun c => { c.emptied with load := some (openLoad p b pre) }).setCollState h .loading).reply p
        .success 0 (collOut .none false ++ natLE 8 b)) := by
  rw [execLoadBegin, onHandle_onColl ht hu hc hp hz, if_neg (by rcases hst with e | e <;> simp [e])]
  simp only [hx, if_neg (Nat.not_le.2 hr), hb]

end

end

/-- A count that is made where a condition holds. -/
theorem bump_ite (q : Prop) [Decidable q] (k : Nat) (s : State) :
    (if q then s.bump k else s) = (if q then State.bump k else id) s := by
  split <;> rfl

theorem execImageWindowWrite_kept {off : Nat} {data : Bytes} {x : Handle × Load} (hp : s.upstream.contains p = true)
    (hr : s.running = true) (hw : s.windowsBacked = true) (hi : s.imageAt p off = some x) :
    execImageWindowWrite p off data s =
      .next ((if (x.2.kept (off - x.2.base) data).length < data.length then State.bump 0x40000B else id) (s.mapColl x.1 fun c =>
        { c with load := c.load.map fun l =>
          { l with bytes := (x.2.kept (off - x.2.base) data).foldl (fun m y => m.setByte y.1 y.2) l.bytes } })) := by
  simp only [execImageWindowWrite, hp, hr, hw, Bool.not_true, Bool.false_eq_true, if_false, if_true, State.imageWrite, hi, bump_ite]

theorem execImageWindowWrite_unbacked {off : Nat} {data : Bytes} (hp : s.upstream.contains p = true) (hr : s.running = true)
    (hi : s.imageAt p off = none) : execImageWindowWrite p off data s = .next s.unbacked := by
  simp only [execImageWindowWrite, hp, hr, Bool.not_true, Bool.false_eq_true, if_false, State.imageWrite, hi, ite_self]

/-! ## Ending a load, and its checks (R140, R141) -/

section
variable (ht : s.takes p false = true) (hu : u = s.loadAppears) (hz : pad.any (· ≠ 0) = false)
include ht hu hz

theorem execLoadEnd_absent (hc : u.coll h = none) :
    execLoadEnd p ⟨h, pad⟩ s = .next (u.reply p .invalidInput (0x100 + Cause.state.code) []) := by
  subst hu
  rw [execLoadEnd, onHandle_taken _ ht hz]
  simp only [hc]

theorem execLoadEnd_starts {l : Load} (hc : u.coll h = some c) (hp : u.permitted p c.d.tenant.toNat = true) (hl : c.load = some l)
    (hst : c.st = .loading) (hk : l.checking = false) (hb : (u.port p).bg = none) :
    execLoadEnd p ⟨h, pad⟩ s =
      .next (((u.setPort p { u.port p with bg := some ⟨0xC023, h.toNat⟩ }).reply p .backgroundStarted 0 []).mapColl h fun c =>
        { c with load := some { l with checking := true } }) := by
  subst hu
  have hgo : (!s.loadAppears.permitted p c.d.tenant.toNat || decide (c.st ≠ .loading) || l.checking) = false := by
    simp [hp, hst, hk]
  rw [execLoadEnd, onHandle_taken _ ht hz]
  simp only [hc, hl, hgo, Bool.false_eq_true, if_false, State.startBg, hb, Option.isSome_none]

end

/-- The checks have passed: the load end of a port's mailbox, where it is this collection's, has succeeded. -/
def State.loadPassed (h : Handle) (s : State) (q : Port) : State :=
  match (s.port q).bg with
  | some b => if b.opcode = 0xC023 && b.arg = h.toNat then s.endBg q 0xC023 .success 0 else s
  | none => s

theorem loadPassed_idle {q : Port} (hb : (s.port q).bg = none) : s.loadPassed h q = s := by
  simp only [State.loadPassed, hb]

theorem loadPassed_running {q : Port} (hb : (s.port q).bg = some ⟨0xC023, h.toNat⟩) :
    s.loadPassed h q = s.endBg q 0xC023 .success 0 := by
  simp only [State.loadPassed, hb, decide_true, Bool.and_self, if_true]

/-- The end of Port A's background command leaves Port B alone. -/
theorem endBg_a_b (opcode : Nat) (rc : Rc) (ext : Nat) (s : State) : (s.endBg .a opcode rc ext).ports.b = s.ports.b := by
  have hmsix (u : State) : (u.msix .a 0).ports.b = u.ports.b := by
    unfold State.msix
    split
    · rfl
    · dsimp only
      split <;> rfl
  unfold State.endBg
  split
  · split
    · exact hmsix _
    · rfl
  · rfl

section
variable {l : Load} (hc : s.coll h = some c) (hl : c.load = some l) (hk : l.checking = true) (hst : c.st = .loading)
include hc hl hk hst

theorem execLoadEndComplete_failed (hx : l.endCause ≠ .none) :
    execLoadEndComplete h s = .next ((s.failLoad h l.endCause).bump 0x40000A) := by
  have hgo : (!l.checking || decide (c.st ≠ .loading)) = false := by simp [hk, hst]
  simp only [execLoadEndComplete, hc, hl, hgo, Bool.false_eq_true, if_false, if_pos hx]

/-- The image is taken in, and the load ends of both mailboxes are looked at in turn. -/
theorem execLoadEndComplete_passed {v : State} (hx : l.endCause = .none)
    (hv : v = ((if (c.loaded l s.muts.generation).2 then State.bump 0x504007 else id) (s.mapColl h fun _ =>
      { (c.loaded l s.muts.generation).1 with load := none, imageLoaded := true, dataLost := false,
                                              imageGeneration := l.generation, journalPosition := l.position })).setCollState
        h .created) :
    execLoadEndComplete h s = .next ((v.loadPassed h .a).loadPassed h .b) := by
  have hgo : (!l.checking || decide (c.st ≠ .loading)) = false := by simp [hk, hst]
  rw [← bump_ite] at hv
  subst hv
  simp only [execLoadEndComplete, hc, hl, hgo, hx, Bool.false_eq_true, if_false, ne_eq, not_true_eq_false]
  rfl

end

theorem execLoadEndComplete_absent (hc : s.coll h = none) : execLoadEndComplete h s = .next s := by
  simp only [execLoadEndComplete, hc]

/-! ## Aborting a load, ONLINE and OFFLINE (R129, R345) -/

section
variable (ht : s.takes p false = true) (hu : u = s.loadAppears) (hz : pad.any (· ≠ 0) = false)
  (hc : u.coll h = some c) (hp : u.permitted p c.d.tenant.toNat = true)
include ht hu hz hc hp

theorem execLoadAbort_eq : execLoadAbort p ⟨h, pad⟩ s =
    .next (if c.st ≠ .loading then u.collReply p .state false else (u.failLoad h .state).collReply p .none false) :=
  onHandle_onColl ht hu hc hp hz

theorem execCollectionOnline_eq : execCollectionOnline p ⟨h, pad⟩ s =
    .next (if (c.st ≠ .created && c.st ≠ .offline) || c.dataLost then u.collReply p .state false
      else ((u.setCollState h .online).firstOnline).collReply p .none false) :=
  onHandle_onColl ht hu hc hp hz

theorem execCollectionOffline_eq : execCollectionOffline p ⟨h, pad⟩ s =
    .next (if c.st ≠ .online then u.collReply p .state false
      else ((u.setCollState h .offline).endOffline h).collReply p .none false) :=
  onHandle_onColl ht hu hc hp hz

end

/-- Settles O43: each command by its case, once its mailbox has taken it. -/
theorem collectionLife : Obligations.CollectionLife := by
  refine ⟨fun p b c u s ht hu hl hx hn => execCreateCollection_refused ht hu hl hx hn, ?_, ?_, ?_,
    fun p b s hl => execCreateCollection_illFormed hl, fun p h pad s ht hz => execDeleteCollection_reserved ht hz,
    fun p h pad pre s ht hz => execLoadBegin_reserved ht hz pre, fun p h pad s ht hz => execLoadEnd_reserved ht hz,
    fun p h pad s ht hz => execLoadAbort_reserved ht hz, fun p h pad s ht hz => execCollectionOnline_reserved ht hz,
    fun p h pad s ht hz => execCollectionOffline_reserved ht hz, ?_, ?_,
    fun p h pad x u s ht hu hx hp hz => execDeleteCollection_deferred ht hu hz hx hp, ?_, ?_,
    fun h c s hc hw => execCollectionDrained_waits hc hw,
    fun p h pad pre c u s ht hu hc hp hst hx hz => execLoadBegin_badPrefix ht hu hz hc hp hst hx,
    fun p h pad pre c b u s ht hu hc hp hst hx hr hb hz => execLoadBegin_opens ht hu hz hc hp hst hx hr hb, ?_,
    fun p off data x s hp hr hw hi => execImageWindowWrite_kept hp hr hw hi,
    fun p off data s hp hr hi => execImageWindowWrite_unbacked hp hr hi,
    fun p h pad c l u s ht hu hc hp hl hst hk hb hz => execLoadEnd_starts ht hu hz hc hp hl hst hk hb,
    fun p h pad u s ht hu hc hz => execLoadEnd_absent ht hu hz hc,
    fun h c l s hc hl hk hst hx => execLoadEndComplete_failed hc hl hk hst hx, ?_, ?_,
    fun h s hc => execLoadEndComplete_absent hc, ?_, ?_, ?_, ?_, ?_, ?_⟩
  · intro p b v u s ht hu hl hx hf hr ha -- a create that fits
    exact (execCreateCollection_free ht hu hl hx hf hr).trans (by rw [ha, Option.elim_some])
  · intro p b u s ht hu hl hx hf hr ha -- and one that a tier cannot hold
    exact (execCreateCollection_free ht hu hl hx hf hr).trans (by rw [ha, Option.elim_none])
  · intro p b c u s ht hu hl hx hm hd -- a create held while its handle drains
    exact execCreateCollection_held ht hu hl hx (List.contains_iff_mem.1 hm) hd
  · intro p h pad c u s ht hu hx hc hp hst hz -- a delete accepted
    refine (execDeleteCollection_undeferred ht hu hz hx).trans ?_
    rw [onColl_permitted _ hc hp, if_neg hst]
  · intro p h pad u s ht hu hx hc hz -- a delete of an absent handle
    exact (execDeleteCollection_undeferred ht hu hz hx).trans (by rw [onColl_absent _ hc])
  · intro h c u v s hc hst hd hu hv hx -- drained
    subst hu hv
    exact (execCollectionDrained_drained hc hst hd).trans (by rw [State.dropColl, hx, Option.elim_none])
  · intro h c u v x s hc hst hd hu hv hx -- drained, with a create held
    subst hu hv
    exact (execCollectionDrained_drained hc hst hd).trans (by rw [State.dropColl, hx, Option.elim_some])
  · intro p h pad pre c u s ht hu hc hp hst hz -- a load of a collection that is ONLINE
    exact execLoadBegin_refused ht hu hz hc hp (by simp [hst]) (by simp [hst])
  · intro h c l v s hc hl hk hst hx hv ha hb -- a load taken in, with no mailbox waiting
    refine (execLoadEndComplete_passed hc hl hk hst hx hv).trans ?_
    rw [loadPassed_idle (q := .a) ha, loadPassed_idle (q := .b) hb]
  · intro h c l v s hc hl hk hst hx hv ha hb -- and with Port A's waiting
    refine (execLoadEndComplete_passed hc hl hk hst hx hv).trans ?_
    have hother : ((v.endBg .a 0xC023 .success 0).port .b).bg = none := (congrArg _ (endBg_a_b ..)).trans hb
    rw [loadPassed_running (q := .a) ha, loadPassed_idle hother]
  · intro p h pad c u s ht hu hc hp hst hz -- an abort
    exact (execLoadAbort_eq ht hu hz hc hp).trans (by rw [if_neg (not_not.2 hst)])
  · intro p h pad c u s ht hu hc hp hst hz -- with no load
    exact (execLoadAbort_eq ht hu hz hc hp).trans (by rw [if_pos hst])
  · intro p h pad c u s ht hu hc hp hst hd hz -- ONLINE
    refine (execCollectionOnline_eq ht hu hz hc hp).trans ?_
    rw [if_neg (by rcases hst with e | e <;> simp [e, hd])]
  · intro p h pad c u s ht hu hc hp hd hz -- with data lost
    exact (execCollectionOnline_eq ht hu hz hc hp).trans (by rw [if_pos (by simp [hd])])
  · intro p h pad c u s ht hu hc hp hst hz -- OFFLINE
    exact (execCollectionOffline_eq ht hu hz hc hp).trans (by rw [if_neg (not_not.2 hst)])
  · intro p h pad c u s ht hu hc hp hst hz -- elsewhere
    exact (execCollectionOffline_eq ht hu hz hc hp).trans (by rw [if_pos hst])

end Sys2Proof.Machine
end

/-!
SUPPORT. The intake of queries and the stages of a query in flight: what the core reads in an intake's turn, how the checks of R149
answer, and what each event of a traversal, a rerank or a wait does to its query.
-/

section
namespace Sys2Proof.Machine

variable {s : State}

/-! ## Reading a spool's entry (R144, R333) -/

section
variable {p : Port} {n : Byte} {x : SubSpool} {op needle : Nat}

theorem readQuery_notTurn (h : ∀ x, s.subSpool p n = some x → x.mutation = true ∨ s.hasTurn (.spool p n) = false) :
    s.readQuery p n op needle = s := by
  unfold State.readQuery
  split
  · rfl
  · next x hx => exact if_pos (by rcases h x hx with h | h <;> simp [h])

variable (hx : s.subSpool p n = some x) (hm : x.mutation = false) (ht : s.hasTurn (.spool p n) = true)
include hx hm ht

/-- An entry of the row's opcode is taken and arrives, as its spool's tenant asks it. -/
theorem readQuery_arrives (hk : isQueryOpcode op = true) (hop : field (s.headEntry x) 0 1 = op) :
    s.readQuery p n op needle =
      ((s.takeTurn (intakePlace (.spool p n)) x.weight).takeEntry p n).arrive
        ⟨.spool p n (x.head + 1).toNat, some (p, x.tenant.toNat), portHalf p⟩ (parseQuery (s.headEntry x))
        (s.collFor (parseQuery (s.headEntry x)).coll x.tenant.toNat) needle := by
  simp [State.readQuery, hx, hm, ht, hop, hk]

/-- An entry of no known opcode, which is no encode entry either, is taken by whichever row reads it. -/
theorem readQuery_unknown (hk : isQueryOpcode (field (s.headEntry x) 0 1) = false) (he : field (s.headEntry x) 0 1 ≠ 0x40) :
    s.readQuery p n op needle =
      (((s.takeTurn (intakePlace (.spool p n)) x.weight).takeEntry p n).complete p n (x.head + 1).toNat
        (field (s.headEntry x) 4 4) 0 0 (field (s.headEntry x) 0 1) stInvalid).bump 0x502001 := by
  simp [State.readQuery, hx, hm, ht, hk, he]

end

/-! ## Reading a descriptor of the fleet query queue (R311) -/

/-- The fleet query queue's turn and the descriptor at its head are taken. -/
def State.takeDescriptor (rest : List (Bytes × DevNum × Nat)) (s : State) : State :=
  { (s.takeTurn (intakePlace .fleet) 1).hostWork with fabric := { s.fabric with queue := rest } }

section
variable {b : Bytes} {dev : DevNum} {link shard op needle : Nat} {rest : List (Bytes × DevNum × Nat)} {c : Coll}
  (hq : s.fabric.queue = (b, dev, link) :: rest) (ht : s.hasTurn .fleet = true)
include hq ht

/-- With no shard map that lists this device, the shard it answers as is an open value. -/
theorem readFleet_unlisted (hk : isQueryOpcode op = true) (hop : field b 0 1 = op)
    (hn : ((s.coll (parseQuery b).coll).bind fun c => c.shardOf s.devNum) = none) :
    s.readFleet op needle = (s.takeDescriptor rest).spend.endEarly
      ⟨.peer dev link (s.fresh.toNat % 2 ^ 16), none, halfOfLink link⟩ (parseQuery b) stNoColl 0 0 := by
  cases hc : s.coll (parseQuery b).coll with
  | none => simp [State.readFleet, State.ownShard, State.takeDescriptor, hq, ht, hop, hk, hc]
  | some c =>
    have hs : c.shardOf s.devNum = none := by rwa [hc] at hn
    simp [State.readFleet, State.ownShard, State.takeDescriptor, hq, ht, hop, hk, hc, hs, Option.filter_some]

variable (hc : s.coll (parseQuery b).coll = some c) (hs : c.shardOf s.devNum = some shard)
include hc hs

/-- A descriptor of a collection that its device and this one hold arrives as the shard's that this one answers as. -/
theorem readFleet_arrives (hk : isQueryOpcode op = true) (hop : field b 0 1 = op) (hst : c.st ≠ .deleting)
    (hd : c.shardOf dev.toNat ≠ none) (hf : (parseQuery b).fleet = true) :
    s.readFleet op needle =
      (s.takeDescriptor rest).arrive ⟨.peer dev link shard, none, halfOfLink link⟩ (parseQuery b) (some c) needle := by
  have hd : (c.shardOf dev.toNat).isSome = true := Option.isSome_iff_ne_none.2 hd
  simp [State.readFleet, State.ownShard, State.takeDescriptor, hq, ht, hop, hk, hc, hs, hst, hd, hf, Option.filter_some]

theorem readFleet_noColl (hk : isQueryOpcode op = true) (hop : field b 0 1 = op)
    (hn : c.st = .deleting ∨ c.shardOf dev.toNat = none) :
    s.readFleet op needle =
      (s.takeDescriptor rest).endEarly ⟨.peer dev link shard, none, halfOfLink link⟩ (parseQuery b) stNoColl 0 0 := by
  have hgone : (!decide (c.st = .deleting) && (c.shardOf dev.toNat).isSome) = false := by
    rcases hn with h | h <;> simp [h]
  simp [State.readFleet, State.ownShard, State.takeDescriptor, hq, ht, hop, hk, hc, hs, hgone, Option.filter_some]

theorem readFleet_unknown (hk : isQueryOpcode (field b 0 1) = false) :
    s.readFleet op needle =
      (s.takeDescriptor rest).endEarly ⟨.peer dev link shard, none, halfOfLink link⟩ (parseQuery b) stInvalid 0 0 := by
  simp [State.readFleet, State.ownShard, State.takeDescriptor, hq, ht, hk, hc, hs]

end

/-! ## The arrival checks (R149) -/

section
variable {r : Asker} {d : QueryDesc}

theorem arrive_stopped {c : Option Coll} {needle st fl : Nat} (h : s.arrivalStatus r.who d c = some (st, fl)) :
    s.arrive r d c needle = s.endEarly r d st fl 0 := by
  simp only [State.arrive, h]

theorem arrive_get {c : Coll} {needle : Nat} (h : s.arrivalStatus r.who d (some c) = none) (ho : d.opcode = 3) :
    s.arrive r d (some c) needle = s.answerGet r d c := by
  simp only [State.arrive, h, if_pos ho]

end

section
variable {who : Option (Port × Nat)} {d : QueryDesc} {c : Coll}

theorem arrivalStatus_offline (h : c.st ≠ .online) : s.arrivalStatus who d (some c) = some (stOffline, 0) := if_pos h

variable (hon : c.st = .online)
include hon

theorem arrivalStatus_invalid (h : (!s.entryOk who d c.d || (d.fleet && who.isSome && !s.leadOk d c)) = true) :
    s.arrivalStatus who d (some c) = some (stInvalid, 0) := by
  rw [State.arrivalStatus, if_neg (not_not.2 hon), if_pos h]

variable (he : s.entryOk who d c.d = true) (hl : (d.fleet && who.isSome && !s.leadOk d c) = false)
include he hl

/-- What a well-formed entry of an online collection is asked next: whether its deadline, and then its cutoff, still lie ahead. -/
theorem arrivalStatus_wellFormed :
    s.arrivalStatus who d (some c) =
      if d.deadline ≤ s.now then some (stExpired, 0)
      else if s.cutoffOf d.deadline ≤ s.now then some (stDeadline, 0)
      else if !s.unitsOnline d.opcode c.d.distance then some (stDegraded, 0)
      else if !s.unitsPowered d.opcode then some (stDegraded, bitIf true 10)
      else none := by
  rw [State.arrivalStatus, if_neg (not_not.2 hon), if_neg (by simp [he, hl])]

theorem arrivalStatus_expired (h : d.deadline ≤ s.now) : s.arrivalStatus who d (some c) = some (stExpired, 0) :=
  (arrivalStatus_wellFormed hon he hl).trans (if_pos h)

theorem arrivalStatus_pastCutoff (hd : s.now < d.deadline) (h : s.cutoffOf d.deadline ≤ s.now) :
    s.arrivalStatus who d (some c) = some (stDeadline, 0) :=
  (arrivalStatus_wellFormed hon he hl).trans (by rw [if_neg (Nat.not_le.2 hd), if_pos h])

end

/-- Settles O35: an entry by the intake whose turn it is and its opcode, an arrival by the first check of R149 that stops it. -/
theorem queryIntake : Obligations.QueryIntake := by
  refine ⟨?_, ?_, ?_, ?_, ?_, ?_, ?_, ?_, ?_, ?_, ?_, ?_, fun r d c needle st fl s h => arrive_stopped h,
    fun r d c needle s h ho => arrive_get h ho, fun _ _ _ => rfl, fun who d c s h => arrivalStatus_offline h,
    fun who d c s hon h => arrivalStatus_invalid hon h, fun who d c s hon he hl h => arrivalStatus_expired hon he hl h,
    fun who d c s hon he hl hd h => arrivalStatus_pastCutoff hon he hl hd h⟩
  · intro p n needle x s hx hm ht hop -- GRAPH_SEARCH from a spool
    exact congrArg Host.Outcome.next (readQuery_arrives hx hm ht rfl hop)
  · intro needle b dev link shard rest c s hq ht hop hc hs hst hd hf -- and from the fleet query queue
    exact congrArg Host.Outcome.next (readFleet_arrives hq ht hc hs rfl hop hst hd hf)
  · intro p n x s hx hm ht hop -- FLAT_SCAN from a spool
    exact congrArg Host.Outcome.next (readQuery_arrives hx hm ht rfl hop)
  · intro b dev link shard rest c s hq ht hop hc hs hst hd hf -- and from the fleet query queue
    exact congrArg Host.Outcome.next (readFleet_arrives hq ht hc hs rfl hop hst hd hf)
  · intro p n x s hx hm ht hop -- GET_BY_VID
    exact congrArg Host.Outcome.next (readQuery_arrives hx hm ht rfl hop)
  · intro p n needle x s hx hm ht hop -- HYBRID from a spool
    exact congrArg Host.Outcome.next (readQuery_arrives hx hm ht rfl hop)
  · intro needle b dev link shard rest c s hq ht hop hc hs hst hd hf -- and from the fleet query queue
    exact congrArg Host.Outcome.next (readFleet_arrives hq ht hc hs rfl hop hst hd hf)
  · intro p n needle x s hx hm ht hk he -- a spool's entry of no known opcode
    exact congrArg Host.Outcome.next (readQuery_unknown hx hm ht hk he)
  · intro p n needle s h -- a spool that is not read
    exact congrArg Host.Outcome.next (readQuery_notTurn h)
  · intro needle b dev link rest c shard s hq ht hop hc hs hn -- a collection that goes, or that the source does not hold
    exact congrArg Host.Outcome.next (readFleet_noColl hq ht hc hs rfl hop hn)
  · intro needle b dev link rest s hq ht hop hn -- a collection that this device does not hold
    exact congrArg Host.Outcome.next (readFleet_unlisted hq ht rfl hop hn)
  · intro needle b dev link rest c shard s hq ht hk hc hs -- a descriptor of no known opcode
    exact congrArg Host.Outcome.next (readFleet_unknown hq ht hc hs hk)

/-! ## A hop, and prefetched lines (R153, R154) -/

section
variable {qid : Nat} {q : Query}

/-- A hop ends: its slot's list and the lines that the list asked for are used, and the slot is marked as expanded. -/
theorem execNeighbourListArrival_hop {v : Nat} {c : Coll} (hq : s.query qid = some q) (hs : q.stage = .hops)
    (hv : q.current = some v) (hc : s.coll q.d.coll = some c) :
    execNeighbourListArrival qid s = .next (((((s.countHop q v).mapQuery qid fun q =>
      { q with hops := q.hops + 1, current := none, requested := q.requested.filter (· ≠ v),
               lines := q.lines.filter fun l => !(c.slot v).nbrs.contains l,
               list := update (fun e => e.ref = v) (fun e => { e with expanded := true }) q.list }).scoreSlots q
        (c.slot v).nbrs).considerAll qid (c.slot v).nbrs).nextHop qid) := by
  simp only [execNeighbourListArrival, hq, hs, hv, hc]

theorem execNeighbourListArrival_absent (hq : s.query qid = none) : execNeighbourListArrival qid s = .next s := by
  simp only [execNeighbourListArrival, hq]

section
variable {slot : Nat} {unit : Fin 3} {c : Coll} (hq : s.query qid = some q) (hs : q.stage = .hops)
  (hc : s.coll q.d.coll = some c)
include hq hs hc

theorem execCodeLinesArrival_joins (ha : (q.requested.any fun v => (c.slot v).nbrs.contains slot) = true)
    (hv : q.visited.contains slot = false) (hl : q.lines.contains slot = false)
    (hu : (s.unitsOf q.needle).contains (3 * q.needle + unit.val) = true) :
    execCodeLinesArrival qid slot unit s =
      .next ((s.useUnit q (3 * q.needle + unit.val)).mapQuery qid fun q => { q with lines := q.lines ++ [slot] }) := by
  simp only [execCodeLinesArrival, hq, hs, hc, ha, hv, hl, hu]
  rfl

/-- Lines that no requested list asks for, and those of a slot met or scored before, are of no use. -/
theorem execCodeLinesArrival_unused (hn : (q.requested.any fun v => (c.slot v).nbrs.contains slot) = false ∨
      q.visited.contains slot = true ∨ q.lines.contains slot = true) :
    execCodeLinesArrival qid slot unit s = .next s := by
  have hstop : (!(q.requested.any fun v => (c.slot v).nbrs.contains slot) || q.visited.contains slot ||
      q.lines.contains slot) = true := by rcases hn with h | h | h <;> simp only [h, Bool.not_false, Bool.true_or, Bool.or_true]
  simp only [execCodeLinesArrival, hq, hs, hc, hstop, if_true]

end

/-! ## Rerank (R164) -/

theorem execRerankBatchComplete_absent (hq : s.query qid = none) : execRerankBatchComplete qid s = .next s := by
  simp only [execRerankBatchComplete, hq]

/-- A batch of at most sixteen takes in all candidates that are left, where there are no more. -/
theorem rerankBatch_last {α : Type} {l : List α} {k : Nat} (h : l.length ≤ k + 16) (hk : k ≤ l.length) :
    l.length ≤ k + ((l.drop k).take 16).length := by
  rw [List.length_take, List.length_drop]
  omega

/-- The last batch of a query that lists no VID: no unit scores a listed one, and the query goes on to the baste scan. -/
theorem execRerankBatchComplete_last {c : Coll} {now_ : List Nat} {r : List LEntry × List ConvMark} (hq : s.query qid = some q)
    (hs : q.stage = .rerank) (hc : s.coll q.d.coll = some c) (hn : now_ = (q.rerankPlaces.drop q.reranked).take 16)
    (hl : q.listedVids = []) (hlast : q.rerankPlaces.length ≤ q.reranked + now_.length)
    (hr : r = rerankList c (q.prep c) now_ q.list) :
    execRerankBatchComplete qid s = .next (((((s.mapQuery qid fun _ =>
      { q with list := r.1, reranked := q.reranked + now_.length }).countScores r.2).bumpBy 0x504006 0).mapQuery qid fun q =>
        { q with list := sortBy LEntry.before q.list }).joinBaste qid) := by
  simp [execRerankBatchComplete, hq, hs, hc, hl, ← hn, ← hr, hlast]

/-! ## Waits for space (R183) -/

theorem execListSpaceReleased_checks (hq : s.query qid = some q) (hs : q.stage = .waiting) (ht : s.now < q.cutoff) :
    execListSpaceReleased qid s = .next (s.launch qid) := by
  simp [execListSpaceReleased, hq, hs, Nat.not_le.2 ht]

theorem execListSpaceReleased_cut (hq : s.query qid = some q) (hs : q.stage = .waiting) (ht : q.cutoff ≤ s.now) :
    execListSpaceReleased qid s = .next (s.cutQuery qid) := by
  simp [execListSpaceReleased, hq, hs, ht]

theorem execQueryWaitCutoff_cut (hq : s.query qid = some q) (hs : q.stage = .waiting) (ht : q.cutoff ≤ s.now) :
    execQueryWaitCutoff qid s = .next (s.cutQuery qid) := by
  simp [execQueryWaitCutoff, hq, hs, ht]

theorem execQueryWaitCutoff_notDue (hq : s.query qid = some q) (hn : q.stage ≠ .waiting ∨ s.now < q.cutoff) :
    execQueryWaitCutoff qid s = .next s := by
  have hstop : (q.stage == .waiting && decide (q.cutoff ≤ s.now)) = false := by rcases hn with h | h <;> simp [h]
  simp [execQueryWaitCutoff, hq, hstop]

end

/-- Settles O36: an event finds its query at its stage or has no effect; the last rerank batch by `rerankBatch_last`. -/
theorem queryStages : Obligations.QueryStages := by
  refine ⟨?_, fun qid s hq => execNeighbourListArrival_absent hq,
    fun qid q slot unit c s hq hs hc ha hv hl hu => execCodeLinesArrival_joins hq hs hc ha hv hl hu,
    fun qid q slot unit c s hq hs hc hn => execCodeLinesArrival_unused hq hs hc hn, ?_,
    fun qid s hq => execRerankBatchComplete_absent hq, fun qid q s hq hs ht => execListSpaceReleased_checks hq hs ht,
    fun qid q s hq hs ht => execListSpaceReleased_cut hq hs ht, fun qid q s hq hs ht => execQueryWaitCutoff_cut hq hs ht,
    fun qid q s hq hn => execQueryWaitCutoff_notDue hq hn⟩
  · intro qid q v c u s hq hs hv hc hu -- a neighbour list arrives
    subst hu
    exact execNeighbourListArrival_hop hq hs hv hc
  · intro qid q c now_ r s hq hs hc hn hl hlen hle hr -- the last rerank batch
    exact ⟨_, execRerankBatchComplete_last hq hs hc hn hl (hn ▸ rerankBatch_last hlen hle) hr, rfl⟩

end Sys2Proof.Machine
end

/-!
SUPPORT. Mutation and durability: the blocks of the journal and their writes, the reading of a mutation entry, the events of a job that
waits, and the warnings of a loss of power.
-/

section
namespace Sys2Proof.Machine

variable {s : State}

/-! ## Journal blocks (R220, R222, R223) -/

section
variable {b : JBlock} {r : List JBlock}

theorem execJournalBlockTimer_open (hb : s.muts.journal.current = some b) :
    execJournalBlockTimer s = .next (if s.blockDue b then s.closeBlock closedTimer else s) := by
  simp only [execJournalBlockTimer, hb]

theorem execJournalBlockTimer_none (hb : s.muts.journal.current = none) : execJournalBlockTimer s = .next s := by
  simp only [execJournalBlockTimer, hb]

/-- Neither its place nor its sequence counts in a block's length and last version. -/
theorem closeBlock_journal (flag : Nat) (hb : s.muts.journal.current = some b) :
    (s.closeBlock flag).muts.journal =
      { s.muts.journal with
          current := none
          unwritten := s.muts.journal.unwritten ++ [{ b with
            flags := b.flags + flag, sequence := s.muts.journal.nextSequence
            position := placeBlock s.windowLength s.muts.journal.append b.length }]
          append := placeBlock s.windowLength s.muts.journal.append b.length + b.length
          lastClosed := placeBlock s.windowLength s.muts.journal.append b.length
          nextSequence := s.muts.journal.nextSequence + 1
          written := s.muts.journal.written ++
            [(placeBlock s.windowLength s.muts.journal.append b.length, b.lastGeneration)] } := by
  simp only [State.closeBlock, hb]
  rfl

theorem blockWritten_oldest (hu : s.muts.journal.unwritten = b :: r) :
    s.blockWritten = (((((s.windowWrite b.position b.bytes).mapJournal fun j =>
      { j with unwritten := r, durable := b.position + b.length }).bump 0x41000C).setNum 0x41000E b.sequence).ackBlock b).settleJobs := by
  simp only [State.blockWritten, hu]

/-- The oldest unwritten block, where it does not run over the release position. -/
theorem blockOutcome_fits (ok : Bool) (hu : s.muts.journal.unwritten = b :: r) (hf : s.windowFits (b.position + b.length) = true) :
    s.blockOutcome ok = if ok then s.blockWritten else if b.retried then s.journalFail
      else s.mapJournal fun j => { j with unwritten := { b with retried := true } :: r } := by
  simp only [State.blockOutcome, hu, hf, Bool.not_true, Bool.false_eq_true, if_false]

end

/-- Settles O40: the timer asks whether the open block is due, and an outcome is that of the oldest block, by `blockOutcome_fits`. -/
theorem journal : Obligations.Journal := by
  refine ⟨?_, ?_, fun s hb => execJournalBlockTimer_none hb, ?_, ?_, ?_, ?_⟩
  · intro b s hb hd -- a block that is due
    exact (execJournalBlockTimer_open hb).trans (by rw [if_pos hd])
  · intro b s hb hd -- and one that is not
    exact (execJournalBlockTimer_open hb).trans (by rw [if_neg (by simp [hd])])
  · intro flag p b s hb hp -- closing
    subst hp
    exact closeBlock_journal flag hb
  · intro b r s hu hf hr -- a first failure
    simp only [blockOutcome_fits false hu hf, hr, Bool.false_eq_true, if_false]
  · intro b r s u hu hf hv -- a good write
    subst hv
    exact (blockOutcome_fits true hu hf).trans (blockWritten_oldest hu)
  · intro b r s hu hf hr -- a second failure
    simp only [blockOutcome_fits false hu hf, hr, Bool.false_eq_true, if_false, if_true]

/-! ## Reading a mutation entry (R199, R200, R333) -/

@[simp] theorem State.takeTurn_muts (place weight : Nat) (s : State) : (s.takeTurn place weight).muts = s.muts := rfl

@[simp] theorem State.takeEntry_muts (p : Port) (n : Byte) (s : State) : (s.takeEntry p n).muts = s.muts := by
  unfold State.takeEntry
  split
  · rfl
  · simp

/-- The turn of a mutation spool and the entry at its head are taken, and a job is added with the work that the entry's checks give, or
with the status they give. -/
def State.takeMutation (p : Port) (n : Byte) (x : SubSpool) (w : MutWork) (st : Option Nat) (s : State) : State :=
  ((s.takeTurn (intakePlace (.spool p n)) x.weight).takeEntry p n).addJob
    ((parseMutEntry (s.headEntry x)).job p n (x.head + 1).toNat w st s.now)

section
variable {p : Port} {n : Byte} {x : SubSpool} {w : MutWork} {st : Option Nat}

/-- What reading an entry does to jobs, journal and baste list: one job more. -/
theorem takeMutation_muts :
    (s.takeMutation p n x w st).muts = { s.muts with
      nextId := s.muts.nextId + 1
      jobs := s.muts.jobs ++ [{ (parseMutEntry (s.headEntry x)).job p n (x.head + 1).toNat w st s.now with id := s.muts.nextId }] } := by
  simp [State.takeMutation, State.addJob]

theorem takeMutation_adds : (s.takeMutation p n x w st).muts.nextId ≠ s.muts.nextId := by
  simp [takeMutation_muts]

/-- The job read last, where every job before it has a lower number. -/
theorem takeMutation_job (hid : ∀ j ∈ s.muts.jobs, j.id < s.muts.nextId) :
    (s.takeMutation p n x w st).job (s.takeMutation p n x w st).lastJob =
      some { (parseMutEntry (s.headEntry x)).job p n (x.head + 1).toNat w st s.now with id := s.muts.nextId } := by
  have hold : s.muts.jobs.find? (fun j => decide (j.id = s.muts.nextId)) = none := by
    simpa using fun j hj => Nat.ne_of_lt (hid j hj)
  simp [State.job, State.lastJob, takeMutation_muts, hold]

section
variable {op : Nat} {f : State → Nat → MutEntry → Except Nat MutWork}

theorem readMutation_notTurn (ht : s.hasTurn (.spool p n) = false) : s.readMutation p n op f = s := by
  unfold State.readMutation
  split
  · rfl
  · exact if_pos (by simp [ht])

variable (hx : s.subSpool p n = some x) (hm : x.mutation = true) (ht : s.hasTurn (.spool p n) = true)
  (hop : (parseMutEntry (s.headEntry x)).opcode = op) (hlo : 0x20 ≤ op) (hhi : op ≤ 0x24)
include hx hm ht hop hlo hhi

/-- An entry of the row's opcode whose checks give its work. -/
theorem readMutation_ok (hf : f s x.tenant.toNat (parseMutEntry (s.headEntry x)) = .ok w) :
    s.readMutation p n op f = s.takeMutation p n x w none := by
  simp [State.readMutation, State.takeMutation, hx, hm, ht, hop, Nat.not_lt.2 hlo, Nat.not_lt.2 hhi, hf]

/-- And one whose checks give a status, with which it completes once no earlier entry of its spool is outstanding. -/
theorem readMutation_error {st : Nat} (hf : f s x.tenant.toNat (parseMutEntry (s.headEntry x)) = .error st) :
    s.readMutation p n op f = (s.takeMutation p n x .refused (some st)).settleJobs := by
  simp [State.readMutation, State.takeMutation, hx, hm, ht, hop, Nat.not_lt.2 hlo, Nat.not_lt.2 hhi, hf]

end

/-! ## The five mutation entries (R202, R222, R227, R228) -/

section
variable (hx : s.subSpool p n = some x) (hm : x.mutation = true) (ht : s.hasTurn (.spool p n) = true)
include hx hm ht

theorem execMutate_takes (hop : (parseMutEntry (s.headEntry x)).opcode = 0x20)
    (hw : mutateWork p s x.tenant.toNat (parseMutEntry (s.headEntry x)) = .ok w) :
    execMutate p n s = .next (((s.takeMutation p n x w none).mutateRun (s.takeMutation p n x w none).lastJob 65540).settleJobs) := by
  have hread := readMutation_ok hx hm ht hop (by decide) (by decide) hw
  simp only [execMutate, hread, takeMutation_adds, if_false]

/-- FLUSH_JOURNAL closes the open block, and its job holds the place of the block closed last. -/
theorem execFlushJournal_takes {t : State} (hop : (parseMutEntry (s.headEntry x)).opcode = 0x21)
    (hid : ∀ j ∈ s.muts.jobs, j.id < s.muts.nextId)
    (hclosed : t = (s.takeMutation p n x (.flushJournal false) none).closeBlock closedFlush) :
    execFlushJournal p n s = .next (t.mapJob t.lastJob fun j => { j with aux := t.muts.journal.lastClosed }) := by
  subst hclosed
  have hread := readMutation_ok (f := fun _ _ _ => .ok (.flushJournal false)) hx hm ht hop (by decide) (by decide) rfl
  simp [execFlushJournal, hread, takeMutation_adds, takeMutation_job hid, MutEntry.job]

theorem execFlushSeam_takes (hop : (parseMutEntry (s.headEntry x)).opcode = 0x22) :
    execFlushSeam p n s = .next (s.takeMutation p n x .flushSeam none) :=
  congrArg Host.Outcome.next (readMutation_ok hx hm ht hop (by decide) (by decide) rfl)

theorem execReplay_takes (hop : (parseMutEntry (s.headEntry x)).opcode = 0x23)
    (hw : replayWork p s x.tenant.toNat (parseMutEntry (s.headEntry x)) = .ok w) :
    execReplay p n s = .next (((s.takeMutation p n x w none).replayRun (s.takeMutation p n x w none).lastJob
      ((s.takeMutation p n x w none).windowLength / 128 + 2)).settleJobs) := by
  have hread := readMutation_ok hx hm ht hop (by decide) (by decide) hw
  simp only [execReplay, hread, takeMutation_adds, if_false]

theorem execSave_takes (hop : (parseMutEntry (s.headEntry x)).opcode = 0x24)
    (hw : saveWork p s x.tenant.toNat (parseMutEntry (s.headEntry x)) = .ok w) :
    execSave p n s = .next (s.takeMutation p n x w none) :=
  congrArg Host.Outcome.next (readMutation_ok hx hm ht hop (by decide) (by decide) hw)

end

end

/-- A mutation entry waits for records that wait, and a MUTATE entry for a replay of its collection. -/
theorem headReady_mutation {x : SubSpool} (hm : x.mutation = true) :
    s.headReady x = (!s.muts.jobs.any MutJob.waiting && !s.outOfOrder x &&
      !(decide (field (s.headEntry x) 0 1 = 0x20) && s.replaying (field (s.headEntry x) 2 2))) := by
  simp only [State.headReady, hm, if_true]

/-- Settles O38: each opcode by its own lemma over `readMutation_ok`, which adds one job. -/
theorem mutationEntries : Obligations.MutationEntries := by
  refine ⟨?_, ?_, ?_, ?_, ?_, ?_, fun p n s ht => congrArg Host.Outcome.next (readMutation_notTurn ht), ?_, ?_⟩
  · intro p n x e w u s hx hm ht he hop hw hu -- MUTATE
    subst he hu
    exact execMutate_takes hx hm ht hop hw
  · intro p n x e w u s hx hm ht he hop hid hw hu -- FLUSH_JOURNAL
    subst he hw hu
    exact execFlushJournal_takes hx hm ht hop hid rfl
  · intro p n x e w u s hx hm ht he hop hw hu -- FLUSH_SEAM
    subst he hw hu
    exact execFlushSeam_takes hx hm ht hop
  · intro p n x e w u s hx hm ht he hop hw hu -- REPLAY
    subst he hu
    exact execReplay_takes hx hm ht hop hw
  · intro p n x e w u s hx hm ht he hop hw hu -- SAVE
    subst he hu
    exact execSave_takes hx hm ht hop hw
  · intro p n x op f e st s hx hm ht he hop hlo hhi hf -- an entry whose checks fail
    subst he
    exact readMutation_error hx hm ht hop hlo hhi hf
  · intro x s hm h -- an entry that is not ready
    rw [headReady_mutation hm]
    rcases h with hwait | ⟨hop, hreplay⟩
    · simp [hwait]
    · simp [hop, hreplay]
  · intro p tenant e s hc -- no collection
    simp only [mutateWork, replayWork, saveWork, hc, and_self]

/-! ## The events of a job (R208, R222, R223, R227, R228) -/

section
variable {job : Nat} {j : MutJob}

theorem resumeJob_mutate {w : MutateWork} (hj : s.job job = some j) (hwait : j.waiting = true) (hw : j.work = .mutate w) :
    s.resumeJob job = (s.mutateRun job (w.count + 2)).settleJobs := by
  simp [State.resumeJob, hj, hwait, hw]

theorem resumeJob_notWaiting (hj : s.job job = some j) (hwait : j.waiting = false) : s.resumeJob job = s := by
  simp [State.resumeJob, hj, hwait]

theorem execFlushSatisfied_eq (hj : s.job job = some j) :
    execFlushSatisfied job s = .next (if j.status.isNone && s.flushDone j then
      (s.mapJob job fun j => { j with status := some stOk }).settleJobs else s) := by
  simp only [execFlushSatisfied, hj]

section
variable {w : ReplayWork} (hj : s.job job = some j) (hw : j.work = .replay w)
include hj hw

theorem execReplayComplete_ended (hst : j.status = none) (he : w.ended = true) :
    execReplayComplete job s =
      .next (((s.devWrite w.report (replayReport j.accepted w.position w)).finishJob job stOk).settleJobs) := by
  simp [execReplayComplete, hj, hw, hst, he]

/-- A replay that has not ended goes on waiting, and one that has its status already is left alone. -/
theorem execReplayComplete_goesOn (he : w.ended = false) : execReplayComplete job s = .next s := by
  cases hst : j.status with
  | none => simp [execReplayComplete, hj, hw, hst, he]
  | some _ => simp [execReplayComplete, hj, hw, hst]

end

theorem replayReport_length (applied start : Nat) (w : ReplayWork) : (replayReport applied start w).length = 64 := by
  simp [replayReport]

section
variable {w : SaveWork} {h : Handle} {c : Coll} (hj : s.job job = some j) (hw : j.work = .save w) (hst : j.status = none)
  (hh : j.coll = some h) (hc : s.coll h = some c)
include hj hw hst hh hc

theorem execSaveComplete_waits (hr : s.saveReady c.d.handle w.snapshot = false) : execSaveComplete job s = .next s := by
  simp [execSaveComplete, hj, hw, hst, hh, hc, hr]

/-- A snapshot in place becomes an image, for which open values are passed; it is written where it fits. -/
theorem execSaveComplete_image {u : State} {x : Bytes × Nat} (hr : s.saveReady c.d.handle w.snapshot = true)
    (hx : x = c.image w.snapshot (s.savePosition w.snapshot) fun i => Config.freeValue (s.free + i))
    (hu : u = { s with free := s.free + c.highWater }) :
    execSaveComplete job s =
      if w.capacity < x.1.length then .next ((u.finishJob job stInvalid).settleJobs).trimBaste
      else .next (((((u.devWrite w.dest x.1).mapJob job fun j =>
        { j with accepted := x.2 }).finishJob job stOk).settleJobs).trimBaste) := by
  subst hx hu
  simp only [execSaveComplete, hj, hw, hst, hh, hc, hr, Option.bind_some, Bool.not_true, Bool.false_eq_true, if_false]

end

end

/-- Settles O39: each event finds its job in the state its condition names, and an image fits or does not. -/
theorem mutationProgress : Obligations.MutationProgress := by
  refine ⟨fun job j w s hj hwait hw => congrArg Host.Outcome.next (resumeJob_mutate hj hwait hw),
    fun job j s hj hwait => congrArg Host.Outcome.next (resumeJob_notWaiting hj hwait), fun _ _ => rfl, fun _ => rfl, fun _ => rfl,
    ?_, ?_, fun job j w s hj hst hw he => execReplayComplete_ended hj hw hst he, replayReport_length,
    fun job j w s hj hw he => execReplayComplete_goesOn hj hw he, ?_, ?_,
    fun job j w h c s hj hw hst hh hc hr => execSaveComplete_waits hj hw hst hh hc hr⟩
  · intro job j s hj hst hd -- a flush whose condition holds
    exact (execFlushSatisfied_eq hj).trans (by rw [if_pos (by simp [hst, hd])])
  · intro job j s hj hd -- and one whose condition does not
    exact (execFlushSatisfied_eq hj).trans (by rw [if_neg (by simp [hd])])
  · intro job j w h c u x s hj hw hst hh hc hr hx hfit hu -- an image that fits
    exact (execSaveComplete_image hj hw hst hh hc hr hx hu).trans (if_neg (Nat.not_lt.2 hfit))
  · intro job j w h c u x s hj hw hst hh hc hr hx hbig hu -- and one that does not
    exact (execSaveComplete_image hj hw hst hh hc hr hx hu).trans (if_pos hbig)

/-! ## Power warnings (R225, R408, R415) -/

/-- The level of PWR_FAIL_N. -/
def State.setPwrFail (on : Bool) (s : State) : State := { s with dev := { s.dev with pwrFail := on } }

theorem execPwrFailN_eq (s : State) :
    execPwrFailN s = if s.serves then .next ((s.setPwrFail true).powerClose 0) else .next (s.setPwrFail true) := rfl

theorem execPwrFailNDeasserted_eq (s : State) :
    execPwrFailNDeasserted s = if s.serves && s.muts.journal.intakeStopped = some 0 then .next (s.setPwrFail false).resumeIntake
      else .next (s.setPwrFail false) := rfl

theorem execGpfPhase1_serves (h : s.serves = true) : execGpfPhase1 s = .next (s.powerClose 1) := if_pos h

/-- Every block write completes, and the flush goes on to the expanders where there are any. -/
def State.gpfFlush (s : State) : State :=
  let u := s.writeBlocks s.muts.journal.unwritten.length
  if u.expandersUp.isEmpty then u else u.emit .flushExpanders

/-- What GPF phase 2 does for intake after the flush: it resumes what phase 1 stopped, unless PWR_FAIL_N holds it. -/
theorem execGpfPhase2_serves (h : s.serves = true) :
    execGpfPhase2 s = .next (if s.gpfFlush.muts.journal.intakeStopped ≠ some 1 then s.gpfFlush
      else if s.gpfFlush.dev.pwrFail then s.gpfFlush.mapJournal fun j => { j with intakeStopped := some 0 }
      else s.gpfFlush.resumeIntake) := by
  rw [apply_ite Host.Outcome.next, apply_ite Host.Outcome.next]
  exact if_neg (by simp [h])

/-- Settles O14: the pins ask whether the device serves, and phase 2 asks who stopped intake, by `execGpfPhase2_serves`. -/
theorem powerWarnings : Obligations.PowerWarnings := by
  refine ⟨?_, ?_, ?_, ?_, fun s h => execGpfPhase1_serves h, ?_⟩
  · intro s h -- PWR_FAIL_N in READY-EMPTY to DEGRADED
    exact (execPwrFailN_eq s).trans (if_pos h)
  · intro s h -- and elsewhere
    exact (execPwrFailN_eq s).trans (if_neg (by simp [h]))
  · intro s h hst -- its deassertion, where it stopped intake
    exact (execPwrFailNDeasserted_eq s).trans (if_pos (by simp [h, hst]))
  · intro s h -- and where it did not
    exact (execPwrFailNDeasserted_eq s).trans (if_neg (by rcases h with h | h <;> simp [h]))
  · intro u v s h hu hv -- GPF phase 2
    replace hv : v = s.gpfFlush := by subst hu; exact hv
    subst hv
    refine ⟨_, execGpfPhase2_serves h, fun hst => if_pos hst, fun hst hp => ?_, fun hst hp => ?_⟩
    · rw [if_neg (not_not.2 hst), if_pos hp]
    · rw [if_neg (not_not.2 hst), if_neg (by simp [hp])]

end Sys2Proof.Machine
end

/-!
SUPPORT. Recipes: the reasons to refuse Submit recipe in their order, the start of a queued run, and whose tile a cluster's next step
runs.
-/

section
namespace Sys2Proof.Machine

variable {s u : State} {p : Port} {b : Bytes} {d : RunDesc} {r : Run} {cluster : Fin 8}

/-! ## Submitting a recipe (R244, R347) -/

theorem execSubmitRecipe_illFormed (hl : b.length ≠ 32) : execSubmitRecipe p b s = .fault .illFormed := if_pos hl

section
variable (ht : s.takes p false = true) (hu : u = s.loadAppears) (hl : b.length = 32)
include ht hu hl

theorem execSubmitRecipe_badForm (hf : runReservedOk b = false ∨ (parseRun p b).recipe % 64 ≠ 0) :
    execSubmitRecipe p b s = .next (u.deny p .field) := by
  subst hu
  rw [execSubmitRecipe, if_neg (not_not.2 hl), onWork_taken _ ht]
  exact congrArg Host.Outcome.next (if_pos (by simpa using hf))

/-- A descriptor that keeps its form: the other reasons to refuse it follow in their order. -/
theorem execSubmitRecipe_goodForm (hf : runReservedOk b = true) (ha : (parseRun p b).recipe % 64 = 0) :
    execSubmitRecipe p b s = .next (
      if 16 ≤ u.tun.queue.length then u.deny p .queueFull
      else if !u.isOn 0x7020 then u.deny p .notOn
      else if 2 ≤ u.dev.power then u.deny p .powerState
      else ({ u with tun := { u.tun with queue := u.tun.queue ++ [parseRun p b] } }).ok p
        (natLE 1 u.tun.queue.length ++ zeros 7)) := by
  subst hu
  rw [execSubmitRecipe, if_neg (not_not.2 hl), onWork_taken _ ht]
  exact congrArg Host.Outcome.next (if_neg (by simp [hf, ha]))

end

/-! ## The start and the end of a run (R250, R251) -/

theorem execRecipeRunStart_busy (hr : s.tun.run = some r) : execRecipeRunStart s = .next s := by
  simp only [execRecipeRunStart, hr]

/-- The run of a descriptor whose image has passed its checks: its tensors and steps read, its clusters those it may use. -/
def State.beginRun (d : RunDesc) (img : Bytes) (s : State) : State :=
  ({ s with tun := { s.tun with
    run := some (newRun { d with clusters := BitVec.ofNat 8 (maskOf (s.runClusters d.clusters)) }
      ((imageParts img).1.map readTensor) ((imageParts img).2.map readStep) (field img 0xC 4) s.stamp) } }).setNum
        0x702007 d.tag.toNat

/-- The next queued run leaves the queue, and ends at once with the status its check gives or begins. -/
theorem execRecipeRunStart_next {q : List RunDesc} (hr : s.tun.run = none) (hq : s.tun.queue = d :: q) (hs : s.serves = true)
    (hu : u = { s with tun := { s.tun with queue := q } }) :
    execRecipeRunStart s =
      .next ((u.runCheck d (u.recipeImage d.recipe)).elim (u.beginRun d (u.recipeImage d.recipe)) fun st =>
        u.endRun (newRun d [] [] 0 u.stamp) st none) := by
  subst hu
  unfold execRecipeRunStart
  split
  · next d' q' _ hq' =>
    obtain ⟨rfl, rfl⟩ := List.cons.inj (hq'.symm.trans hq)
    rw [if_neg (by simp [hs])]
    dsimp only
    split
    · next hc => rw [hc, Option.elim_some]
    · next hc => rw [hc, Option.elim_none]; rfl
  · next hno => exact absurd hq (hno d q hr)

theorem statusRecord_length (r : Run) (status : Nat) (failed : Option Nat) (t : Time) :
    (statusRecord r status failed t).length = 64 := by
  simp [statusRecord]

/-! ## The next tile of a cluster (R22, R242) -/

theorem execTunStep_offline (ho : bit s.units.tun.toNat cluster = true) : execTunStep cluster s = .next s :=
  if_pos (by simp [ho])

section
variable (hr : s.running = true) (hp : s.tunPowered = true) (ho : bit s.units.tun.toNat cluster = false)
include hr hp ho

theorem execTunStep_seam (hm : s.seamTakes cluster = true) : execTunStep cluster s = .next (s.seamStep cluster) := by
  rw [execTunStep, if_neg (by simp [hr, hp, ho]), if_pos hm]

theorem execTunStep_recipe (hm : s.seamTakes cluster = false) (hf : s.scanFirst cluster = false) (hrun : s.tun.run = some r)
    (hb : bit r.d.clusters.toNat cluster = true) : execTunStep cluster s = .next (s.runUnit cluster r) := by
  rw [execTunStep, if_neg (by simp [hr, hp, ho]), if_neg (by simp [hm]), if_neg (by simp [hf])]
  simp only [hrun, if_pos hb]

end

/-- Where seam does not take the tile, no run is there to take it, or a scan's own commands do. -/
theorem execTunStep_notRecipe (hm : s.seamTakes cluster = false) (hn : s.tun.run = none ∨ s.scanFirst cluster = true) :
    execTunStep cluster s = .next s := by
  rw [execTunStep, if_neg (by simp [hm] : ¬s.seamTakes cluster = true)]
  rcases hn with hrun | hf
  · simp only [hrun, ite_self]
  · rw [if_pos hf, ite_self]

/-- Settles O44: Submit recipe by the first reason of `execSubmitRecipe_goodForm`, and the start of a run and a step by their cases. -/
theorem recipes : Obligations.Recipes := by
  refine ⟨fun p b u s ht hu hl hf => execSubmitRecipe_badForm ht hu hl hf, ?_, ?_, fun p b s hl => execSubmitRecipe_illFormed hl,
    ?_, ?_, fun _ _ _ _ _ => ⟨rfl, rfl, rfl, rfl⟩, fun r s hr => execRecipeRunStart_busy hr,
    fun c r s hrun hr hp ho hb hm hf => execTunStep_recipe hr hp ho hm hf hrun hb, ?_,
    fun c s hm hn => execTunStep_notRecipe hm hn, fun c r s _ ho => execTunStep_offline ho, statusRecord_length⟩
  · intro p b u s ht hu hl hf ha hfull -- QUEUE_FULL
    exact (execSubmitRecipe_goodForm ht hu hl hf ha).trans (by rw [if_pos hfull])
  · intro p b u s ht hu hl hf ha hroom hoff -- NOT_ON
    exact (execSubmitRecipe_goodForm ht hu hl hf ha).trans (by rw [if_neg (Nat.not_le.2 hroom), if_pos (by simp [hoff])])
  · intro d q u st s hr hq hs hu hc -- a run that ends at once
    exact (execRecipeRunStart_next hr hq hs hu).trans (by rw [hc, Option.elim_some])
  · intro d q u img s hr hq hs hu hi hc -- and one that begins
    subst hi
    exact (execRecipeRunStart_next hr hq hs hu).trans (by rw [hc, Option.elim_none, State.beginRun])
  · intro c t s hr hp ho hm ht -- a tile of seam
    subst ht
    exact execTunStep_seam hr hp ho hm

end Sys2Proof.Machine
end

/-!
SUPPORT. Reads of memory lines: what one comes to, by its place, its channel and its error; what its reader does; and scrub reads.
-/

section
namespace Sys2Proof.Machine

variable {s u t : State}

/-! ## Reads of an HBM channel (R258, R266, R268, R269) -/

@[simp] theorem State.countRead_chip (tier lines : Nat) (s : State) : (s.countRead tier lines).chip = s.chip := by
  unfold State.countRead
  split <;> rfl

theorem covered_of_noParity {n c : Nat} (h : s.chip.parity = false) : s.covered n c = false := by
  simp [State.covered, h]

section
variable {n c b line : Nat} {addr : Option Nat} {e : LineErrors} {stripe : Stripe}

theorem readOnline_reconstructs (hc : s.covered n c = true) (hb : badFor c stripe = none) :
    s.readOnline n c addr .threeOrFour stripe =
      ((s.bump 0x300009).raise 0x11 (32 * n + c) (lineDetail addr) none, { detail := lineDetail addr, forced := [(n, c, .full)] }) := by
  simp [State.readOnline, hc, hb]

section
variable (hu : u = (s.bump 0x30000A).raise 0x12 (32 * n + c) (lineDetail addr) none)
include hu

/-- A chunk of a later channel of the stripe is bad too: both channels are to retrain. -/
theorem readOnline_twoBad (hb : badFor c stripe = some b) (hlt : c < b) (hc : s.covered n c = true) :
    s.readOnline n c addr .threeOrFour stripe =
      (u, { outcome := .poison, holder := u.thimble.holder, detail := lineDetail addr, forced := [(n, c, .full), (n, b, .full)] }) := by
  subst hu
  simp [State.readOnline, State.poisonLine, hb, hc, Nat.not_lt.2 hlt.le]

theorem readOnline_noParity (hb : badFor c stripe = none) (hp : s.chip.parity = false) :
    s.readOnline n c addr .threeOrFour stripe =
      (u, { outcome := .poison, holder := u.thimble.holder, detail := lineDetail addr, forced := [(n, c, .full)] }) := by
  subst hu
  simp [State.readOnline, State.poisonLine, hb, hp, covered_of_noParity hp]

end

theorem readHbm_held (hh : (s.channel n c).holds line = true) : s.readHbm n c line addr e stripe = (s, {}) := by
  simp [State.readHbm, hh]

section
variable (hh : (s.channel n c).holds line = false)
include hh

theorem readHbm_online (ho : (s.channel n c).st = .online) :
    s.readHbm n c line addr e stripe = (s.countRead 0 1).readOnline n c addr e stripe := by
  simp [State.readHbm, hh, ho]

variable (ho : (s.channel n c).st ≠ .online)
include ho

theorem readHbm_waits (hc : s.covered n c = false) : s.readHbm n c line addr e stripe = (s, { outcome := .wait }) := by
  simp [State.readHbm, hh, ho, hc]

theorem readHbm_fromGroup (hc : s.covered n c = true) (hb : badFor c stripe = none) :
    s.readHbm n c line addr e stripe = ((s.bump (key (0x3010 + n) 6)).countRead 0 15, {}) := by
  simp [State.readHbm, hh, ho, hc, hb]

/-- A bad chunk of another channel is that channel's error, and of the event that took the channel read where it is OFFLINE. -/
theorem readHbm_groupBad (hc : s.covered n c = true) (hb : badFor c stripe = some b)
    (ht : t = (s.bump (key (0x3010 + n) 6)).countRead 0 15)
    (hu : u = (t.bump 0x30000A).raise 0x12 (32 * n + b) (lineDetail (t.hbmLine n b line))
      (if (s.channel n c).st = .offline then (s.channel n c).lossEvent else none)) :
    s.readHbm n c line addr e stripe =
      (u, { outcome := .poison, holder := u.thimble.holder, ofUnit := (s.channel n c).st = .offline,
            detail := lineDetail (t.hbmLine n b line), forced := [(n, b, .full)] }) := by
  subst hu ht
  simp only [State.readHbm, hh, beq_iff_eq, ho, hc, hb, Bool.not_true, Bool.false_eq_true, if_false]
  rfl

end

section
variable {d : Nat} (ht : t = s.noteError n c)
include ht

theorem corrected_fine (hv : t.verdict n c = .fine) : s.corrected n c d = (t.raise 0x10 (32 * n + c) d none, {}) := by
  subst ht
  simp only [State.corrected, hv]

theorem corrected_retrains {k : RetrainKind} (hv : t.verdict n c = .retrain k) :
    s.corrected n c d = (t.raise 0x10 (32 * n + c) d none, { detail := d, forced := [(n, c, k)] }) := by
  subst ht
  simp only [State.corrected, hv]

theorem corrected_loses (hv : t.verdict n c = .lost) :
    s.corrected n c d = ((t.raise 0x15 (32 * n + c) 0 none).raise 0x10 (32 * n + c) d none, {}) := by
  subst ht
  simp only [State.corrected, hv, State.loseChannel]

end

end

/-! ## Reads by address, and their readers (R26, R266) -/

section
variable {addr : Nat} {e : LineErrors} {stripe : Stripe} {r : Reader}

theorem readLine_offline (ho : s.addrOffline addr = true) :
    s.readLine addr e stripe = (s.bump 0x30000A, { outcome := .poison, ofUnit := true }) := by
  rw [State.readLine, if_pos ho, State.poisonLine]

theorem readVia_hit {c : TrafficClass} (hc : s.cacheable c addr = true) (ho : s.addrOffline addr = false)
    (hh : s.cacheHolds addr = true) : s.readVia c addr e stripe = ((s.cacheUse addr).bump 0x320005, {}) := by
  simp [State.readVia, hc, ho, hh]

theorem execMemoryReadComplete_boot (hb : s.dev.st = .boot) : execMemoryReadComplete addr e stripe r s = .next s := by
  simp [execMemoryReadComplete, hb]

section
variable {x : LineRead} (hr : s.running = true) (hb : s.dev.st ≠ .boot) (hp : s.dev.power < 4)
  (hv : s.readVia (s.classOf r) addr e stripe = (u, x))
include hr hb hp hv

/-- The reader acts on poison, in a device that the read has not frozen, before the retrains that the read forces. -/
theorem execMemoryReadComplete_next :
    execMemoryReadComplete addr e stripe r s =
      .next ((if x.outcome ≠ .poison ∨ u.dev.frozen = true then u else u.poisoned addr x r).lineAfter x) := by
  simp [execMemoryReadComplete, hr, hb, Nat.not_le.2 hp, hv]

theorem execMemoryReadComplete_poisoned (hx : x.outcome = .poison) (hf : u.dev.frozen = false) :
    execMemoryReadComplete addr e stripe r s = .next ((u.poisoned addr x r).lineAfter x) := by
  rw [execMemoryReadComplete_next hr hb hp hv, if_neg (by simp [hx, hf])]

theorem execMemoryReadComplete_kept (h : x.outcome ≠ .poison ∨ u.dev.frozen = true) :
    execMemoryReadComplete addr e stripe r s = .next (u.lineAfter x) := by
  rw [execMemoryReadComplete_next hr hb hp hv, if_pos h]

end

end

theorem poisoned_query {addr q : Nat} {x : LineRead} :
    s.poisoned addr x (.query q) = if x.ofUnit then s.endInternal (fun y => y.id = q) else s.containQuery q x.holder := rfl

theorem containQuery_some {qid : Nat} {q : Query} {holder : Option Nat} (hq : s.query qid = some q) :
    s.containQuery qid holder =
      (s.endInternal fun x => x.id = qid).raise 0x42 (if q.d.graph then q.needle else 0xFFFF) q.detail holder := by
  rw [State.containQuery, hq]

theorem lineAfter_awake {x : LineRead} (hf : s.dev.frozen = false) :
    s.lineAfter x = x.forced.foldl (fun (s : State) y => s.forceRetrain y.1 y.2.1 x.detail y.2.2) s :=
  if_neg (by simp [hf])

theorem lineAfter_noneForced {x : LineRead} (h : x.forced = []) : s.lineAfter x = s := by
  rw [State.lineAfter, h, List.foldl_nil, ite_self]

/-! ## Scrub reads (R267) -/

section
variable {e : LineErrors} {stripe : Stripe} {d : Bool} {v : ScrubUnit}

theorem execScrubRead_closed (h : s.running = false ∨ s.scrubOpen v = false) : execScrubRead v e stripe d s = .next s := by
  rcases h with h | h <;> simp [execScrubRead, h]

/-- A line of the pass before its last, whose share of the pass has come and which does not wait, is read. -/
theorem execScrubRead_next {x : LineOutcome} (hr : s.running = true) (hp : s.dev.power < 3) (hu : s.scrubUp v = true)
    (ho : s.scrubOpen v = true)
    (hd : (s.scrubPass v).began + (s.scrubPass v).line * s.scrubNs / (ScrubUnit.channels v * s.rawLines v) ≤ s.aonNs)
    (hl : (s.scrubPass v).line + 1 < ScrubUnit.channels v * s.rawLines v)
    (hx : s.scrubLine v (s.scrubPass v).line e stripe d = (t, x)) (hw : x ≠ .wait) :
    execScrubRead v e stripe d s =
      .next { t with tiers := { t.tiers with
        scrubs := put (ScrubUnit.key v) ⟨(s.scrubPass v).began, (s.scrubPass v).line + 1⟩ t.tiers.scrubs } } := by
  simp [execScrubRead, hr, Nat.not_le.2 hp, hu, ho, Nat.not_lt.2 hd, hl, hx, hw]

/-- Parity that disagrees with a data line read without error is rewritten. -/
theorem scrubLine_rewrites {n : Fin 12} {k line c : Nat} (hk : s.rawPlace (.stack n) k = (c, some line))
    (hh : (s.channel n c).holds line = false) (ho : (s.channel n c).st = .online) (hc : s.covered n c = true) :
    s.scrubLine (.stack n) k .none stripe true =
      ((s.countRead 0 1).raise 0x13 (32 * n + c) (lineDetail (s.rawAddr (.stack n) c line)) none, .good) := by
  have hread (a : Option Nat) : s.readHbm n c line a .none stripe = (s.countRead 0 1, {}) := readHbm_online hh ho
  simp [State.scrubLine, hk, ho, hc, hread, lineDone, LineErrors.accepted, lineAfter_noneForced]

end

/-- Settles O45: a command by its reader and the line's outcome, a line by its channel's state, its error and the stripe. -/
theorem lineReads : Obligations.LineReads := by
  refine ⟨fun _ _ _ _ _ _ _ hr hb hp hv hx hf => execMemoryReadComplete_poisoned hr hb hp hv hx hf, ?_, ?_,
    fun _ _ _ _ => containQuery_some,
    fun _ _ _ _ _ _ _ => execMemoryReadComplete_kept, fun _ _ => lineAfter_awake, fun _ _ _ _ _ => execMemoryReadComplete_boot,
    fun _ _ _ _ _ => readVia_hit, fun _ _ _ _ => readLine_offline, fun _ _ _ _ _ _ _ => readHbm_held,
    fun _ _ _ _ _ _ => readHbm_online, ?_, ?_, ?_, ?_, fun _ _ _ _ _ _ _ => readHbm_fromGroup,
    fun _ _ _ _ _ _ _ _ _ _ => readHbm_groupBad, fun _ _ _ _ _ _ _ => readHbm_waits, ?_, fun _ _ _ _ _ => execScrubRead_closed,
    fun _ _ _ _ _ _ _ => execScrubRead_next, fun _ _ _ _ _ _ hk hh ho hc _ => scrubLine_rewrites hk hh ho hc⟩
  · intro addr e stripe q u x s hr hb hp hv hx hf hu -- a query's line on an offline unit
    exact (execMemoryReadComplete_poisoned hr hb hp hv hx hf).trans (by rw [poisoned_query, if_pos hu])
  · intro addr e stripe q u x s hr hb hp hv hx hf hu -- and one that is a fault of its own
    exact (execMemoryReadComplete_poisoned hr hb hp hv hx hf).trans (by rw [poisoned_query, if_neg (by simp [hu])])
  · intro n c d s t ht -- a corrected error
    cases hv : t.verdict n c with
    | fine => exact corrected_fine ht hv
    | retrain k => exact corrected_retrains ht hv
    | lost => exact corrected_loses ht hv
  · intro n c line addr stripe s hh ho hc hb -- a line that parity gives
    exact (readHbm_online hh ho).trans (readOnline_reconstructs hc hb)
  · intro n c b line addr stripe u s hh ho hb hlt hc hu -- one with two bad chunks
    exact (readHbm_online hh ho).trans (readOnline_twoBad hu hb hlt hc)
  · intro n c line addr stripe u s hh ho hb hp hu -- one without parity
    exact (readHbm_online hh ho).trans (readOnline_noParity hu hb (by rw [State.countRead_chip, hp]))
  · intro pkg c addr u s hu -- a bulk line
    subst hu
    rfl

end Sys2Proof.Machine
end

/-!
SUPPORT. The temperature of the stacks and packages: a reading kept, and the tier it enters or falls to; the return of a stack; and its
zero-fill.
-/

section
namespace Sys2Proof.Machine

variable {s u : State} {stack : Fin 12} {celsius : Int}

/-! ## A stack's reading (R274) -/

@[simp] theorem tierOf_code (r : TempTier) : tierOf r.code = r := by
  cases r <;> rfl

theorem code_ne_critical {r : TempTier} (h : r ≠ .critical) : r.code ≠ 3 := by
  cases r with
  | critical => exact absurd rfl h
  | normal | warm | hot => decide

/-- A stack with a reading kept and counted, its tier as it was. -/
def State.reads (s : State) (n : Nat) (celsius : Int) : Stack :=
  { s.stack n with
    celsius := some celsius
    belowWarm := countBelow (celsius < s.threshold 1 - (s.num 0x330004 : Int)) (s.stack n).belowWarm
    belowHot := countBelow (celsius < s.threshold 2 - (s.num 0x330004 : Int)) (s.stack n).belowHot
    belowCritical := countBelow (celsius < s.threshold 3 - 5) (s.stack n).belowCritical }

/-- The code of the highest tier whose threshold a reading reaches. -/
def State.reached (s : State) (celsius : Int) : Nat :=
  if s.threshold 3 ≤ celsius then 3 else if s.threshold 2 ≤ celsius then 2 else if s.threshold 1 ≤ celsius then 1 else 0

/-- The events of the tiers passed from one code to another, the highest first. -/
def State.passes (n cur new : Nat) (s : State) : State :=
  let s := if new = 3 then s.raise 0x19 n 0 none else s
  let s := if cur < 2 && 2 ≤ new then s.raise 0x18 n 0 none else s
  if cur < 1 then s.raise 0x17 n 0 none else s

/-- The stack with a reading and the tier it enters; HOT and CRITICAL end a scan of the stack (R432). -/
def State.entersTier (n : Nat) (celsius : Int) (new : Nat) (s : State) : State :=
  let t := s.setStack n { s.reads n celsius with tier := tierOf new }
  if 2 ≤ new then t.cutScan fun i => i / 32 = n else t

theorem reached_critical (h : s.threshold 3 ≤ celsius) : s.reached celsius = 3 := if_pos h

theorem reached_hot (h₂ : s.threshold 2 ≤ celsius) (h₃ : celsius < s.threshold 3) : s.reached celsius = 2 := by
  simp [State.reached, Int.not_le.2 h₃, h₂]

theorem reached_warm (h₁ : s.threshold 1 ≤ celsius) (h₂ : celsius < s.threshold 2) (h₃ : celsius < s.threshold 3) :
    s.reached celsius = 1 := by
  simp [State.reached, Int.not_le.2 h₃, Int.not_le.2 h₂, h₁]

theorem reached_normal (h₁ : celsius < s.threshold 1) (h₂ : celsius < s.threshold 2) (h₃ : celsius < s.threshold 3) :
    s.reached celsius = 0 := by
  simp [State.reached, Int.not_le.2 h₃, Int.not_le.2 h₂, Int.not_le.2 h₁]

theorem reached_le_critical : s.reached celsius ≤ 3 := by
  unfold State.reached
  split_ifs <;> omega

theorem reached_le_hot (h₃ : celsius < s.threshold 3) : s.reached celsius ≤ 2 := by
  unfold State.reached
  split_ifs <;> omega

theorem reached_le_warm (h₂ : celsius < s.threshold 2) (h₃ : celsius < s.threshold 3) : s.reached celsius ≤ 1 := by
  unfold State.reached
  split_ifs <;> omega

theorem entersTier_hotter {n : Nat} {r : TempTier} (h : 2 ≤ r.code) :
    s.entersTier n celsius r.code = (s.setStack n { s.reads n celsius with tier := r }).cutScan (fun i => i / 32 = n) := by
  rw [State.entersTier, if_pos h, tierOf_code]

theorem tierOf_fallen_warm (x : Stack) : tierOf (x.fallen 1) = if 10 ≤ x.belowWarm then .normal else .warm := by
  by_cases h : 10 ≤ x.belowWarm <;> simp [Stack.fallen, h, tierOf]

theorem tierOf_fallen_hot (x : Stack) :
    tierOf (x.fallen 2) = if 10 ≤ x.belowHot then (if 10 ≤ x.belowWarm then .normal else .warm) else .hot := by
  by_cases h : 10 ≤ x.belowHot <;> by_cases k : 10 ≤ x.belowWarm <;> simp [Stack.fallen, h, k, tierOf]

/-- A stack keeps its tier where the tier is what it was. -/
theorem reads_withTier {n : Nat} {r : TempTier} (ht : (s.stack n).tier = r) :
    { s.reads n celsius with tier := r } = s.reads n celsius := by
  subst ht
  rfl

section
variable (hp : s.stackPresent stack = true) (hr : s.running = true) (hb : s.dev.st ≠ .boot) (hw : s.dev.power < 4)
include hp hr hb hw

/-- A reading that reaches no higher tier lets the stack fall, and one that does enters the tier it reaches. -/
theorem execHbmTemperatureReading_eq :
    execHbmTemperatureReading stack celsius s =
      if s.reached celsius ≤ (s.stack stack).tier.code then .next (s.setStack stack { s.reads stack celsius with
        tier := if (s.stack stack).tier.code = 3 then (s.stack stack).tier
          else tierOf ((s.reads stack celsius).fallen (s.stack stack).tier.code) })
      else .next (State.passes stack (s.stack stack).tier.code (s.reached celsius)
        (s.entersTier stack celsius (s.reached celsius))) := by
  rw [execHbmTemperatureReading, if_neg (by simp [hp]), if_neg (by simp [hr, hb, hw])]
  rfl

theorem execHbmTemperatureReading_stays {r : TempTier} {x : Stack} (ht : (s.stack stack).tier = r) (hn : r ≠ .critical)
    (h : s.reached celsius ≤ r.code) (hx : x = s.reads stack celsius) :
    execHbmTemperatureReading stack celsius s = .next (s.setStack stack { x with tier := tierOf (x.fallen r.code) }) := by
  rw [execHbmTemperatureReading_eq hp hr hb hw, ht, if_pos h, if_neg (code_ne_critical hn), hx]

/-- CRITICAL is not left by a reading. -/
theorem execHbmTemperatureReading_critical (ht : (s.stack stack).tier = .critical) :
    execHbmTemperatureReading stack celsius s = .next (s.setStack stack (s.reads stack celsius)) := by
  have hle : s.reached celsius ≤ TempTier.critical.code := reached_le_critical
  have hcode : TempTier.critical.code = 3 := rfl
  rw [execHbmTemperatureReading_eq hp hr hb hw, ht, if_pos hle, if_pos hcode, reads_withTier ht]

theorem execHbmTemperatureReading_toWarm {x : Stack} (ht : (s.stack stack).tier = .normal) (hn : s.reached celsius = 1)
    (hx : x = { s.reads stack celsius with tier := .warm }) (hu : u = s.setStack stack x) :
    execHbmTemperatureReading stack celsius s = .next (u.raise 0x17 stack 0 none) := by
  subst hu hx
  rw [execHbmTemperatureReading_eq hp hr hb hw, ht, hn, if_neg (by decide)]
  simp [State.passes, State.entersTier, TempTier.code, tierOf]

/-- The events come after the end of a scan of the stack. -/
theorem execHbmTemperatureReading_toHotter {cur new : TempTier} {x : Stack} (ht : (s.stack stack).tier = cur)
    (hn : s.reached celsius = new.code) (h : cur.code < new.code) (h₂ : 2 ≤ new.code)
    (hx : x = { s.reads stack celsius with tier := new }) (hu : u = (s.setStack stack x).cutScan (fun i => i / 32 = stack)) :
    execHbmTemperatureReading stack celsius s = .next (u.passes stack cur.code new.code) := by
  subst hu hx
  rw [execHbmTemperatureReading_eq hp hr hb hw, ht, hn, if_neg (Nat.not_le.2 h), entersTier_hotter h₂]

end

/-! ## The return of a stack (R275) -/

/-- A channel that is not OFFLINE for good is back, as a FULL retrain leaves it. -/
def State.channelBack (s : State) (n c : Nat) : State :=
  if (s.channel n c).st == .offline then s
  else (s.mapChannel n c fun y => { y with
    st := .online, hold := [], marked := [], trained := s.aonNs, wanted := false, nextKind := .periodic, retried := false, errors := []
    lastFull := some s.aonNs }).bump (key (0x3010 + n) 5)

section
variable {failed : BitVec 32} (hp : s.stackPresent stack = true)
include hp

theorem execStackReturn_stays
    (h : (s.stack stack).belowCritical < 10000 ∨ (s.stack stack).tier ≠ .critical ∨ (s.stack stack).zeroFilling = true) :
    execStackReturn stack failed s = .next s := by
  rcases h with h | h | h <;> simp [execStackReturn, hp, h]

/-- A stack none of whose channels fails the retrain, and that has lost none, returns to a zero-fill. -/
theorem execStackReturn_whole (hr : s.running = true) (ht : (s.stack stack).tier = .critical)
    (hc : 10000 ≤ (s.stack stack).belowCritical) (hz : (s.stack stack).zeroFilling = false) (ho : bit s.units.stack.toNat stack = true)
    (hu : u = (List.range 32).foldl (fun s c => s.channelBack stack c) s)
    (h₀ : ((groupOf 0).filter fun c => (u.channel stack c).st == .offline) = [])
    (h₁ : ((groupOf 16).filter fun c => (u.channel stack c).st == .offline) = []) :
    execStackReturn stack 0 s = .next (u.setStack stack { u.stack stack with zeroFilling := true }) := by
  have hstep (t : State) (c : Nat) : (if bit (0 : BitVec 32).toNat c then t.loseChannel stack c else t.channelBack stack c) =
      t.channelBack stack c := if_neg (by simp [bit])
  rw [execStackReturn, if_neg (by simp [hp]), if_neg (by simp [hr, ht, Nat.not_lt.2 hc, hz, ho])]
  dsimp only
  generalize hl : List.foldl _ s (List.range 32) = t
  obtain rfl : u = t := hu.trans ((congrArg (fun f => List.foldl f s (List.range 32)) (funext₂ hstep)).symm.trans hl)
  exact if_neg (by simp [h₀, h₁])

theorem execZeroFillComplete_idle (hz : (s.stack stack).zeroFilling = false) : execZeroFillComplete stack s = .next s := by
  simp [execZeroFillComplete, hp, hz]

theorem execZeroFillComplete_filled (hr : s.running = true) (hz : (s.stack stack).zeroFilling = true)
    (hu : u = s.setStack stack { s.stack stack with zeroFilling := false, tier := tierOf ((s.stack stack).fallen 2) }) :
    execZeroFillComplete stack s =
      .next (({ u with units := { u.units with stack := u.units.stack &&& ~~~ oneBit 12 stack },
                       mem := Memory.drop (u.liesOn 0 stack) u.mem }).restore) := by
  subst hu
  simp [execZeroFillComplete, hp, hr, hz]

end

/-! ## A package's reading (R276) -/

theorem execBulkTemperatureRead_online {pkg : Fin 24} {rate : Byte} (above : Bool) (hf : bit s.chip.fitted.toNat pkg = true)
    (hr : s.running = true) (hb : s.dev.st ≠ .boot) (hw : s.dev.power < 4) (ho : bit s.units.package.toNat pkg = false)
    (hu : u = { s with tiers := { s.tiers with refresh := put pkg.val rate s.tiers.refresh } }) :
    execBulkTemperatureRead pkg rate above s = .next (if above then u.failUnit 0x22 pkg else u) := by
  subst hu
  simp [execBulkTemperatureRead, hf, hr, hb, Nat.not_le.2 hw, ho]

/-- Settles O47: a reading by the tier it reaches and the stack's, a return and a zero-fill by whether the stack is due one. -/
theorem temperature : Obligations.Temperature := by
  refine ⟨?_, ?_, ?_, ?_, ?_, ?_, ?_, ?_, ?_, ?_, fun _ _ _ hp h => execStackReturn_stays hp (.inl h),
    fun _ _ _ hp h => execStackReturn_stays hp (.inr h),
    fun _ _ _ hp hr ht hc hz ho hu h₀ h₁ => ⟨_, execStackReturn_whole hp hr ht hc hz ho hu h₀ h₁, rfl⟩,
    fun _ _ _ => execZeroFillComplete_filled, fun _ _ => execZeroFillComplete_idle,
    fun _ _ _ hf hr hb hw ho => execBulkTemperatureRead_online false hf hr hb hw ho rfl,
    fun _ _ _ hf hr hb hw ho => execBulkTemperatureRead_online true hf hr hb hw ho rfl⟩
  · intro stack celsius x s hp hr hb hw h₁ h₂ h₃ ht hx -- NORMAL stays
    have hkeeps : x.tier = .normal := by rw [hx, ht]
    refine (execHbmTemperatureReading_stays hp hr hb hw ht (by decide) (reached_normal h₁ h₂ h₃).le hx).trans ?_
    rw [show tierOf (x.fallen TempTier.normal.code) = x.tier from hkeeps.symm]
  · intro stack celsius x s hp hr hb hw h₂ h₃ ht hx -- WARM stays or falls
    refine (execHbmTemperatureReading_stays hp hr hb hw ht (by decide) (reached_le_warm h₂ h₃) hx).trans ?_
    rw [TempTier.code, tierOf_fallen_warm]
  · intro stack celsius x s hp hr hb hw h₃ ht hx -- HOT stays or falls
    refine (execHbmTemperatureReading_stays hp hr hb hw ht (by decide) (reached_le_hot h₃) hx).trans ?_
    rw [TempTier.code, tierOf_fallen_hot]
  · intro stack celsius x s hp hr hb hw ht hx -- CRITICAL stays
    subst hx
    exact execHbmTemperatureReading_critical hp hr hb hw ht
  · intro stack celsius x u s hp hr hb hw h₁ h₂ h₃ ht hx hu -- NORMAL to WARM
    exact execHbmTemperatureReading_toWarm hp hr hb hw ht (reached_warm h₁ h₂ h₃) hx hu
  · intro stack celsius x u s hp hr hb hw h₂ h₃ ht hx hu -- NORMAL to HOT
    refine (execHbmTemperatureReading_toHotter hp hr hb hw ht (reached_hot h₂ h₃) (by decide) (by decide) hx hu).trans ?_
    simp [State.passes, TempTier.code]
  · intro stack celsius x u s hp hr hb hw h₃ ht hx hu -- NORMAL to CRITICAL
    refine (execHbmTemperatureReading_toHotter hp hr hb hw ht (reached_critical h₃) (by decide) (by decide) hx hu).trans ?_
    simp [State.passes, TempTier.code]
  · intro stack celsius x u s hp hr hb hw h₂ h₃ ht hx hu -- WARM to HOT
    refine (execHbmTemperatureReading_toHotter hp hr hb hw ht (reached_hot h₂ h₃) (by decide) (by decide) hx hu).trans ?_
    simp [State.passes, TempTier.code]
  · intro stack celsius x u s hp hr hb hw h₃ ht hx hu -- WARM to CRITICAL
    refine (execHbmTemperatureReading_toHotter hp hr hb hw ht (reached_critical h₃) (by decide) (by decide) hx hu).trans ?_
    simp [State.passes, TempTier.code]
  · intro stack celsius x u s hp hr hb hw h₃ ht hx hu -- HOT to CRITICAL
    refine (execHbmTemperatureReading_toHotter hp hr hb hw ht (reached_critical h₃) (by decide) (by decide) hx hu).trans ?_
    simp [State.passes, TempTier.code]

end Sys2Proof.Machine
end

/-!
SUPPORT. Shuttle links: the commands of training by the state a link is in, and what ends a training state before it is complete.
-/

section
namespace Sys2Proof.Machine

variable {s : State} {link : Fin 32}

/-! ## Guards of the commands about a link (R290) -/

theorem bit_toNat {k : Nat} (w : BitVec k) (n : Nat) : bit w.toNat n = w.getLsbD n := by
  simp [bit, BitVec.getLsbD, Nat.testBit_eq_decide_div_mod_eq, Bool.beq_eq_decide_eq]

section
variable {n : Nat} {st : LinkState} (f : State → State) (hp : s.linkPresent n = true)
include hp

/-- A command about a link in the training state that it is about. -/
theorem onLink_next (hst : (s.link n).st = st) (hr : s.linkRuns n = true) : s.onLink n st f = .next (f s) := by
  simp [State.onLink, hp, hst, hr]

/-- A command about a link in another state. -/
theorem onLink_elsewhere (hst : (s.link n).st ≠ st) : s.onLink n st f = .next s := by
  simp [State.onLink, hp, hst]

/-- A command that brings a frame to a link in CONNECT. -/
theorem onFrames_connect (hst : (s.link n).st = .connect) (hr : s.linkRuns n = true) : s.onFrames n f = .next (f s) := by
  rw [State.onFrames, if_pos (by rw [hst]; rfl), onLink_next f hp hst hr]

/-- A command that brings a frame to a link that carries none. -/
theorem onFrames_silent (hst : (s.link n).st ≠ .connect) (hu : s.linkUp n = false) : s.onFrames n f = .next s := by
  simp [State.onFrames, State.onUp, hst, hp, hu]

end

theorem onLink_absent {n : Nat} (st : LinkState) (f : State → State) (hp : s.linkPresent n = false) :
    s.onLink n st f = .fault .absentUnit := by
  simp [State.onLink, hp]

/-- A link in a training state other than DISABLED, once it has entered it. -/
theorem enterLink_link (n : Nat) {st : LinkState} (h : st ≠ .disabled) (s : State) :
    (s.enterLink n st).link n = { s.link n with st := st, since := s.aonNs } :=
  link_mapLink (f := fun l => { l with st := st, since := s.aonNs }) fun hl => h (congrArg Link.st hl)

/-! ## From DETECT to CONNECT (R290, R291, R294) -/

section
variable (hp : s.linkPresent link = true)
include hp

theorem execDetect_copper (hst : (s.link link).st = .detect) (hr : s.linkRuns link = true) (hc : s.dev.refclk.getLsbD 1 = true) :
    execDetect link .copper s = .next ((s.enterLink link .measure).mapLink link fun l => { l with optical := false }) := by
  rw [execDetect, onLink_next _ hp hst hr, hc]
  rfl

theorem execDetect_noClock (r : DetectResult) (hst : (s.link link).st = .detect) (hr : s.linkRuns link = true)
    (hc : s.dev.refclk.getLsbD 1 = false) : execDetect link r s = .next s := by
  rw [execDetect, onLink_next _ hp hst hr, hc]
  rfl

theorem execMeasure_next (cm : BitVec 16) (hst : (s.link link).st = .measure) (hr : s.linkRuns link = true) :
    execMeasure link cm s =
      .next (((s.setNum (key (linkIndex link) 6) cm.toNat).enterLink link .autoneg).emitAll (s.pages link)) :=
  onLink_next _ hp hst hr

section
variable (hst : (s.link link).st = .autoneg) (hr : s.linkRuns link = true)
include hst hr

theorem execAutoneg_foreign {oui : BitVec 24} (word : BitVec 64) (ho : oui ≠ s.chip.vendorOui) :
    execAutoneg link oui word s = .next (s.linkFault link 2) := by
  rw [execAutoneg, onLink_next _ hp hst hr, if_pos ho]

theorem execAutoneg_own (word : BitVec 64) :
    execAutoneg link s.chip.vendorOui word s =
      .next (((s.setPartner link word).enterLink link .train).mapLink link fun l => { l with invalidSince := none }) := by
  rw [execAutoneg, onLink_next _ hp hst hr, if_neg (not_not_intro rfl)]

end

section
variable (loss : F32) (hst : (s.link link).st = .train) (hr : s.linkRuns link = true)
include hst hr

theorem execLinkTrainingComplete_four (ho : (s.link link).optical = false) :
    execLinkTrainingComplete link 0xF loss s =
      .next (((s.setNum (key (linkIndex link) 7) loss.toNat).enterLink link .align).mapLink link fun l => { l with lanes := 4 }) := by
  rw [execLinkTrainingComplete, onLink_next _ hp hst hr]
  simp [ho]

theorem execLinkTrainingComplete_otherLanes {lanes : BitVec 4} (h₄ : lanes ≠ 0xF) (h₀ : lanes ≠ 0x3) (h₁ : lanes ≠ 0xC) :
    execLinkTrainingComplete link lanes loss s = .next s := by
  rw [execLinkTrainingComplete, onLink_next _ hp hst hr]
  dsimp only
  rw [if_neg h₄, decide_eq_false h₀, decide_eq_false h₁]
  rfl

end

theorem execAlign_copper {w : BitVec 64} (device : BitVec 64) (hst : (s.link link).st = .align) (hr : s.linkRuns link = true)
    (hw : (s.link link).partner = some w) (hv : w.getLsbD 63 = true) (ho : (s.link link).optical = false) :
    execAlign ⟨link, device⟩ s =
      .next (((s.enterLink link .connect).mapLink link fun l =>
        { l with device := device, credits := [0, 0, 1], timeouts := 0, invalidSince := none }).control link 4 (s.capWord link) []) := by
  rw [execAlign, onLink_next _ hp hst hr]
  simp only [State.mapLink, enterLink_link (link : Nat) (st := .connect) (by decide) s, hw, ho, bit_toNat, hv, Bool.and_false,
    Bool.false_eq_true, if_false, if_true]

/-! ## CONNECT (R292) -/

theorem execConnect_next (hst : (s.link link).st = .connect) (hr : s.linkRuns link = true) :
    execConnect link s = .next (s.tryConnect link) :=
  onLink_next _ hp hst hr

theorem execConnect_elsewhere (hst : (s.link link).st ≠ .connect) : execConnect link s = .next s := onLink_elsewhere _ hp hst

theorem execNumberInvalid_due {t : Nat} (hst : (s.link link).st = .connect) (hr : s.linkRuns link = true)
    (hi : (s.link link).invalidSince = some t) (hn : s.numbered = true) (ht : t + 10000000000 < s.aonNs) :
    execNumberInvalid link s = .next (s.linkFault link 4) := by
  rw [execNumberInvalid, onLink_next _ hp hst hr, hi]
  simp [hn, ht]

end

theorem tryConnect_refused {n c : Nat} {w : BitVec 64} (hw : (s.link n).partner = some w) (hst : (s.link n).st = .connect)
    (hr : s.linkRuns n = true) (hn : s.numbered = true) (hc : s.connectCause n w = some c) : s.tryConnect n = s.linkFault n c := by
  simp [State.tryConnect, hw, hst, hr, hn, hc]

/-! ## Time limits, faults and losses (R290, R295, R307) -/

theorem linkFailed_again {n : Nat} (h : (s.link n).timeouts < 2) :
    s.linkFailed n = (s.linkDown n .detect).mapLink n fun l => { l with timeouts := l.timeouts + 1 } := if_neg (Nat.not_le.2 h)

theorem linkFailed_third {n : Nat} (h : 2 ≤ (s.link n).timeouts) : s.linkFailed n = s.linkFault n 1 := if_pos h

section
variable (hp : s.linkPresent link = true)
include hp

theorem execLinkTimeout_due {n : Nat} (hr : s.linkRuns link = true) (hl : (s.link link).st.limit = some n)
    (ht : (s.link link).since + n ≤ s.aonNs) : execLinkTimeout link s = .next (s.linkFailed link) := by
  simp [execLinkTimeout, hp, hl, hr, ht]

theorem execLinkTimeout_early {n : Nat} (hl : (s.link link).st.limit = some n) (ht : s.aonNs < (s.link link).since + n) :
    execLinkTimeout link s = .next s := by
  simp [execLinkTimeout, hp, hl, Nat.not_le.2 ht]

theorem execFaultRetry_due (hst : (s.link link).st = .fault) (hr : s.linkRuns link = true)
    (ht : (s.link link).faultAt + 1000000000 ≤ s.aonNs) : execFaultRetry link s = .next (s.enterLink link .detect) := by
  rw [execFaultRetry, onLink_next _ hp hst hr, if_neg (Nat.not_lt.2 ht)]

theorem execFaultRetry_early (hst : (s.link link).st = .fault) (hr : s.linkRuns link = true)
    (ht : s.aonNs < (s.link link).faultAt + 1000000000) : execFaultRetry link s = .next s := by
  rw [execFaultRetry, onLink_next _ hp hst hr, if_pos ht]

theorem execAlignmentLost_up (hst : (s.link link).st = .up) (hr : s.running = true) :
    execAlignmentLost link s = .next (s.linkDown link .detect) := by
  simp [execAlignmentLost, hp, hst, hr]

section
variable (celsius : Int) (ho : (s.link link).optical = true) (hr : s.running = true)
include ho hr

theorem execModulePoll_sound :
    execModulePoll link celsius false false s =
      .next (s.setNum (key (linkIndex link) 0xF) (BitVec.ofInt 32 celsius).toNat) := by
  simp [execModulePoll, hp, ho, hr]

theorem execModulePoll_faulty {u : State} (hu : u = s.setNum (key (linkIndex link) 0xF) (BitVec.ofInt 32 celsius).toNat)
    (hd : (u.link link).st ≠ .disabled) (hf : (u.link link).st ≠ .fault) :
    execModulePoll link celsius false true s = .next (u.linkFault link 8) := by
  have hgo : (true && (u.link link).st != .disabled && (u.link link).st != .fault) = true := by
    rw [bne_iff_ne.2 hd, bne_iff_ne.2 hf, Bool.and_self, Bool.and_self]
  subst hu
  rw [execModulePoll, hp, ho, hr]
  exact if_pos hgo

end

end

section
variable (hp : s.linkPresent link = false)
include hp

theorem execAlign_absent (device : BitVec 64) : execAlign ⟨link, device⟩ s = .fault .absentUnit := onLink_absent _ _ hp

theorem execLinkTimeout_absent : execLinkTimeout link s = .fault .absentUnit := by
  simp [execLinkTimeout, hp]

theorem execAlignmentLost_absent : execAlignmentLost link s = .fault .absentUnit := by
  simp [execAlignmentLost, hp]

end

/-- Settles O53: training state by state, then what ends a state before it is complete, and the link that the part lacks. -/
theorem linkTraining : Obligations.LinkTraining := by
  refine ⟨fun _ _ hp hst hr hc => execDetect_copper hp hst hr hc, fun _ r _ hp hst hr hc => execDetect_noClock hp r hst hr hc,
    fun _ _ _ => rfl, fun _ cm _ hp hst hr => execMeasure_next hp cm hst hr,
    fun _ _ word _ hp hst hr ho => execAutoneg_foreign hp hst hr word ho, fun _ word _ hp hst hr => execAutoneg_own hp hst hr word,
    fun _ loss _ hp hst hr ho => execLinkTrainingComplete_four hp loss hst hr ho,
    fun _ _ loss _ hp hst hr h₄ h₀ h₁ => execLinkTrainingComplete_otherLanes hp loss hst hr h₄ h₀ h₁,
    fun _ device _ _ hp hst hr hw hv ho => execAlign_copper hp device hst hr hw hv ho,
    fun _ _ hp hst hr => execConnect_next hp hst hr, fun _ _ hp hst => execConnect_elsewhere hp hst,
    fun _ _ _ _ hw hst hr hn hc => tryConnect_refused hw hst hr hn hc, fun st => by cases st <;> rfl, ?_, ?_,
    fun _ _ _ hp hl ht => execLinkTimeout_early hp hl ht, fun _ _ _ => rfl,
    fun _ _ hp hst hr ht => execFaultRetry_due hp hst hr ht, fun _ _ hp hst hr ht => execFaultRetry_early hp hst hr ht,
    fun _ _ hp hst hr => execAlignmentLost_up hp hst hr, fun _ celsius _ hp ho hr => execModulePoll_sound hp celsius ho hr,
    fun _ celsius _ _ hp ho hr hu hd hf => execModulePoll_faulty hp celsius ho hr hu hd hf,
    fun _ _ _ hp hst hr hi hn ht => execNumberInvalid_due hp hst hr hi hn ht,
    fun _ device _ hp => ⟨execAlign_absent hp device, execLinkTimeout_absent hp, execAlignmentLost_absent hp⟩⟩
  · intro link n s hp hr hl ht hn -- a first or second time
    refine (execLinkTimeout_due hp hr hl ht).trans ?_
    rw [linkFailed_again hn]
  · intro link n s hp hr hl ht hn -- a third
    refine (execLinkTimeout_due hp hr hl ht).trans ?_
    rw [linkFailed_third hn]

end Sys2Proof.Machine
end

/-!
SUPPORT. Link control on a Shuttle link: frames that a link hears and those it does not take, by the row of each; keys, and frames that
have waited too long for credit.
-/

section
namespace Sys2Proof.Machine

variable {s : State} {link : Fin 32} {r : Rx} {f : Frame}

/-! ## Frames that arrive (R291, R296, R297) -/

theorem isControl_of {op : Byte} (hk : f.kind = .control) (ho : f.op = op) : isControl op f = true := by
  simp [isControl, hk, ho]

/-- A whole frame of the command's row that is out of sequence is discarded. -/
theorem receive_outOfSequence {n : Nat} (want : Frame → Bool) (take : Frame → BitVec 32 → State → State)
    (hw : (s.link n).whole r.wire = true) (hf : (s.link n).frameOf r.wire = some f) (hwant : want f = true)
    (hq : wireSeq r.wire ≠ (s.link n).seqIn) : s.receive n r want take = s.countFec n r := by
  simp [State.receive, hw, hf, hwant, hq]

/-- A link that carries frames is UP. -/
theorem st_of_linkUp {n : Nat} (hu : s.linkUp n = true) : (s.link n).st = .up := by
  simp only [State.linkUp, Bool.and_eq_true, beq_iff_eq] at hu
  exact hu.1.1.2

/-- A frame that has been taken leaves the training state of its link. -/
theorem tookFrame_link_st {n : Nat} {st : LinkState} (r : Rx) (hst : (s.link n).st = st) (hd : st ≠ .disabled) :
    ((s.tookFrame n r).link n).st = st := by
  rw [State.tookFrame_link r (hst.trans_ne hd)]
  exact hst

section
variable (hp : s.linkPresent link = true)
include hp

/-! ## Credit, acknowledgement and replay on an UP link (R296, R298) -/

section
variable (hr : s.running = true) (hu : s.linkUp link = true)
include hr hu

section
variable (hh : s.hears link r f = true) (hk : f.kind = .control)
include hh hk

theorem execCredit_heard (ho : f.op = 1) :
    execCredit link r.wire r.fec s =
      .next (((s.tookFrame link r).mapLink link fun l =>
        { l with credits := l.credits.set (f.operand.toNat % 256)
                   (((l.credits[f.operand.toNat % 256]?).getD 0) + f.operand.toNat / 256) }).drainWaiting link) := by
  rw [execCredit, State.onFrames_up _ hp hr hu, State.receive_hears _ _ hh (isControl_of hk ho)]

theorem execAck_heard (ho : f.op = 2) :
    execAck link r s =
      .next ((((s.tookFrame link r).mapLink link (Link.release (f.operand.truncate 32))).drainWaiting link).giveCredit link 2) := by
  rw [execAck, State.onFrames_up _ hp hr hu, State.receive_hears _ _ hh (isControl_of hk ho)]

/-- A REPLAY that a link hears: it is counted with those of the last second, and answered where the link stays UP. -/
theorem execLinkReplay_heard {u : State} (ho : f.op = 3)
    (hu' : u = (s.tookFrame link r).mapLink link (Link.release (f.operand.truncate 32))) :
    execLinkReplay link r s =
      .next (if (u.countReplay link).2
        then ((u.countReplay link).1.emitAll (((u.countReplay link).1.link link).replay.map fun y => .frame link y.2)).giveCredit link 2
        else (u.countReplay link).1) := by
  rw [execLinkReplay, State.onFrames_up _ hp hr hu, State.receive_hears _ _ hh (isControl_of hk ho), hu']

end

theorem execCredit_torn (hw : (s.link link).whole r.wire = false) :
    execCredit link r.wire r.fec s = .next ((s.countFec link r).askReplay link) := by
  rw [execCredit, State.onFrames_up _ hp hr hu, State.receive_torn _ _ hw]

theorem execCredit_outOfSequence (hw : (s.link link).whole r.wire = true) (hf : (s.link link).frameOf r.wire = some f)
    (hk : f.kind = .control) (ho : f.op = 1) (hq : wireSeq r.wire ≠ (s.link link).seqIn) :
    execCredit link r.wire r.fec s = .next (s.countFec link r) := by
  rw [execCredit, State.onFrames_up _ hp hr hu, receive_outOfSequence _ _ hw hf (isControl_of hk ho) hq]

end

end

/-- A replay counted with those of the last second (R296). -/
def State.notesReplay (n : Nat) (s : State) : State :=
  (s.mapLink n fun l => { l with replays := s.aonNs :: l.replays.filter fun t => s.aonNs < t + 1000000000 }).bump (key (linkIndex n) 0xB)

theorem countReplay_eq (n : Nat) (s : State) :
    s.countReplay n =
      if 1000 < ((s.notesReplay n).link n).replays.length && ((s.notesReplay n).link n).st == .up then
        (((((s.notesReplay n).linkDown n .detect).bump (key (linkIndex n) 0xC)).event 0x59 n ((s.notesReplay n).link n).cause.toNat),
          false)
      else (s.notesReplay n, true) := rfl

section
variable {n : Nat} {v : State} (hv : v = s.notesReplay n)
include hv

theorem countReplay_within (h : (v.link n).replays.length ≤ 1000) : s.countReplay n = (v, true) := by
  simp [countReplay_eq, ← hv, Nat.not_lt.2 h]

theorem countReplay_beyond (h : 1000 < (v.link n).replays.length) (hst : (v.link n).st = .up) :
    s.countReplay n = (((v.linkDown n .detect).bump (key (linkIndex n) 0xC)).event 0x59 n (v.link n).cause.toNat, false) := by
  simp [countReplay_eq, ← hv, h, hst]

end

theorem release_unknown {q : BitVec 32} {l : Link} (h : (l.replay.any fun x => x.1 = q) = false) : l.release q = l := by
  rw [Link.release, h]
  rfl

theorem release_known {q : BitVec 32} {l : Link} (h : (l.replay.any fun x => x.1 = q) = true) :
    l.release q = { l with replay := (l.replay.dropWhile fun x => x.1 ≠ q).drop 1 } := by
  rw [Link.release, if_pos h]

/-! ## The partner's word (R291) -/

theorem setPartner_valid {n : Nat} {w : BitVec 64} (hv : w.getLsbD 63 = true) :
    s.setPartner n w = (s.mapLink n fun l => { l with partner := some w, invalidSince := none }).setNum (key (linkIndex n) 4) w.toNat := by
  simp only [State.setPartner, bit_toNat, hv, if_true]

section
variable (hp : s.linkPresent link = true)
include hp

/-! ## Link control of CONNECT (R291, R321) -/

section
variable (hst : (s.link link).st = .connect) (hr : s.linkRuns link = true)
include hst hr

theorem execCapability_heard (hh : s.hears link r f = true) (hk : f.kind = .control) (ho : f.op = 4) :
    execCapability link r s =
      .next (((s.tookFrame link r).setPartner link f.operand).accepted link (s.link link).seqIn (some 2)) := by
  rw [execCapability, onLink_next _ hp hst hr, State.receive_hears _ _ hh (isControl_of hk ho)]

theorem execLinkSpdm_connect (hh : s.hears link r f = true) (hk : f.kind = .control) (ho : f.op = 5) :
    execLinkSpdm link (.message r) s = .next ((s.tookFrame link r).answerSpdm link (s.link link).seqIn) := by
  rw [execLinkSpdm, onFrames_connect _ hp hst hr]
  dsimp only
  rw [State.receive_hears _ _ hh (isControl_of hk ho), tookFrame_link_st r hst (by decide)]
  rfl

theorem execLinkSpdm_established (hi : s.inSession link = true) :
    execLinkSpdm link .established s =
      .next (((s.mapLink link fun l => { l with
        session := true, secret := s.fresh, keyEpoch := 0, keyEpochIn := 0, frameCounter := 0
        counterIn := 0 }).spend).tryConnect link) := by
  rw [execLinkSpdm, onFrames_connect _ hp hst hr, if_pos hi]

theorem execLinkSpdm_failed (hi : s.inSession link = true) : execLinkSpdm link .failed s = .next (s.linkFault link 7) := by
  rw [execLinkSpdm, onFrames_connect _ hp hst hr]
  dsimp only
  rw [if_pos hi]

theorem execLinkSpdm_failed_idle (hi : s.inSession link = false) : execLinkSpdm link .failed s = .next s := by
  rw [execLinkSpdm, onFrames_connect _ hp hst hr, hi]
  rfl

end

/-! ## Keys and SPDM of an UP link (R321), and credit that does not come (R300) -/

section
variable (hr : s.running = true) (hu : s.linkUp link = true)
include hr hu

theorem execKeyUpdate_encrypted (he : (s.link link).encrypted = true) : execKeyUpdate link s = .next (s.rekey link) := by
  rw [execKeyUpdate, State.onUp_next _ hp hr hu, if_pos he]

theorem execKeyUpdate_plain (he : (s.link link).encrypted = false) : execKeyUpdate link s = .next s := by
  rw [execKeyUpdate, State.onUp_next _ hp hr hu, he]
  rfl

section
variable (hh : s.hears link r f = true) (hk : f.kind = .control) (ho : f.op = 5)
include hh hk ho

theorem execLinkSpdm_up :
    execLinkSpdm link (.message r) s = .next ((s.tookFrame link r).accepted link (s.link link).seqIn (some 2)) := by
  rw [execLinkSpdm, State.onFrames_up _ hp hr hu]
  dsimp only
  rw [State.receive_hears _ _ hh (isControl_of hk ho), tookFrame_link_st r (st_of_linkUp hu) (by decide)]
  rfl

theorem execLinkSpdm_keyUpdate (he : (s.link link).encrypted = true) :
    execLinkSpdm link (.keyUpdate r) s =
      .next (((s.tookFrame link r).mapLink link Link.rekeyIn).answerSpdm link (s.link link).seqIn) := by
  have henc : ((s.tookFrame link r).link link).encrypted = true := by
    rw [State.tookFrame_link r (by rw [st_of_linkUp hu]; decide)]
    exact he
  rw [execLinkSpdm, State.onFrames_up _ hp hr hu]
  dsimp only
  rw [State.receive_hears _ _ hh (isControl_of hk ho), henc]
  rfl

end

/-- A frame of this device that has waited too long completes its request with TIMEOUT. -/
def State.timesOut (s : State) (x : Sent) : State :=
  if x.frame.kind != .request || x.frame.src.toNat ≠ s.devNum then s
  else
    match s.request x.frame.tag with
    | some r => s.settleRequest r rsTimeout
    | none => s

theorem execCreditStall_up {late : List Sent} {u : State}
    (hl : late = (s.link link).waiting.filter fun x => x.since + s.num 0x810004 < s.aonNs)
    (hu' : u = (s.mapLink link fun l =>
      { l with waiting := l.waiting.filter fun x => s.aonNs ≤ x.since + s.num 0x810004 }).bumpBy 0x810007 late.length) :
    execCreditStall link s = .next (late.foldl State.timesOut u) := by
  rw [execCreditStall, State.onFrames_up _ hp hr hu, hu', hl]
  rfl

end

end

/-- Settles O54: the frames of link control by their op, then keys, SPDM by the state of the link, and frames without credit. -/
theorem linkControl : Obligations.LinkControl := by
  refine ⟨fun _ _ _ _ hp hr hu hh hk ho => execCredit_heard hp hr hu hh hk ho,
    fun _ _ _ _ hp hr hu hh hk ho => execAck_heard hp hr hu hh hk ho, fun _ _ h => release_unknown h, fun _ _ h => release_known h,
    ?_, ?_, fun _ _ _ hp hr hu hw => execCredit_torn hp hr hu hw,
    fun _ _ _ _ hp hr hu hw hf hk ho hq => execCredit_outOfSequence hp hr hu hw hf hk ho hq, fun _ _ => rfl,
    fun _ _ hp hr hu he => execKeyUpdate_encrypted hp hr hu he, fun _ _ hp hr hu he => execKeyUpdate_plain hp hr hu he,
    fun _ _ _ _ hp hr hu hl hu' => execCreditStall_up hp hr hu hl hu',
    fun _ _ _ _ hp hst hr hh hk ho => execCapability_heard hp hst hr hh hk ho, fun _ _ _ hv => setPartner_valid hv,
    fun _ _ _ _ => ⟨rfl, rfl⟩, ?_, fun _ _ _ _ hp hr hu hh hk ho => execLinkSpdm_up hp hr hu hh hk ho, ?_, fun _ => rfl,
    fun _ _ hp hst hr hi => execLinkSpdm_established hp hst hr hi, fun _ _ hp hst hr hi => execLinkSpdm_failed hp hst hr hi,
    fun _ _ hp hst hr hi => execLinkSpdm_failed_idle hp hst hr hi⟩
  · intro link r f u v s hp hr hu hh hk ho hu' hv hn -- a REPLAY within the limit
    refine (execLinkReplay_heard hp hr hu hh hk ho hu').trans ?_
    rw [countReplay_within hv hn, if_pos rfl]
  · intro link r f u v s hp hr hu hh hk ho hu' hv hn hst -- one beyond it
    refine (execLinkReplay_heard hp hr hu hh hk ho hu').trans ?_
    rw [countReplay_beyond hv hn hst, if_neg Bool.false_ne_true]
  · intro link r f u s hp hst hr hh hk ho hu' -- SPDM in CONNECT
    subst hu'
    exact execLinkSpdm_connect hp hst hr hh hk ho
  · intro link r f u s hp hr hu hh hk ho he hu' -- the partner's KEY_UPDATE
    subst hu'
    exact execLinkSpdm_keyUpdate hp hr hu hh hk ho he

end Sys2Proof.Machine
end

/-!
SUPPORT. Operations of other devices: a request and a response that a link hears, an operation at its target by its kind and its shape,
and operations in the memory tiers by what their grant, their address and their lines allow.
-/

section
namespace Sys2Proof.Machine

variable {s u v : State} {link : Fin 32} {r : Rx} {f : Frame} {o : RemoteOp} {fs : List LineFault}

/-! ## A request at the device it reaches (R303, R304, R306) -/

/-- The operation that a request's frame asks for. -/
def Frame.remoteOp (f : Frame) : RemoteOp := ⟨f.op, addrLocal f.address, f.operand, f.payload, f.operand.toNat, f.src.toNat⟩

theorem requestIn_fenced (n : Nat) (sound : Bool) (hf : s.dev.st = .fenced) :
    s.requestIn n sound fs f = s.respond rsFenced f [] 0 := if_pos (by rw [hf]; rfl)

section
variable (hf : s.dev.st ≠ .fenced)
include hf

theorem requestIn_malformed (n : Nat) : s.requestIn n false fs f = s.respond rsInvalid f [] 0 := by
  simp [State.requestIn, hf]

theorem requestIn_elsewhere (n : Nat) (hd : f.dest.toNat ≠ s.devNum) : s.requestIn n true fs f = s.forward f := by
  simp [State.requestIn, hf, hd]

/-- A request for this device is performed, counted and answered. -/
theorem requestIn_here {n : Nat} {x : State × RemoteAns} (hd : f.dest.toNat = s.devNum) (hx : x = s.perform f.remoteOp true n fs) :
    s.requestIn n true fs f = (x.1.countAnswer x.2.status).respond x.2.status f x.2.data x.2.old := by
  simp [State.requestIn, hf, hd, hx, Frame.remoteOp]

end

/-! ## The operation by its kind and shape (R302, R304) -/

theorem perform_unknown (remote : Bool) (n : Nat) (hk : knownOp o.op = false) :
    s.perform o remote n fs = (s, ⟨rsInvalid, [], 0⟩) := by
  simp [State.perform, hk]

theorem perform_fence (remote : Bool) (n : Nat) (ho : o.op = opFence) : s.perform o remote n fs = (s, ⟨rsOk, [], 0⟩) := by
  have hk : knownOp opFence = true := by decide
  simp [State.perform, hk, ho]

theorem perform_misshapen (remote : Bool) (n : Nat) (hk : knownOp o.op = true) (ho : o.op ≠ opFence)
    (hs : shapeOk o.op o.addr o.len o.payload.length = false) : s.perform o remote n fs = (s, ⟨rsAlign, [], 0⟩) := by
  simp [State.perform, hk, ho, hs]

/-! ## Requests and responses that a link hears (R298, R303) -/

section
variable (hp : s.linkPresent link = true) (hr : s.running = true) (hu : s.linkUp link = true) (hh : s.hears link r f = true)
include hp hr hu hh

/-- A request comes with the row of its operation, or, with an operation that is none of R302's, with any row. -/
theorem onRequest_heard {op : Byte} (hk : f.kind = .request) (ho : f.op = op ∨ knownOp f.op = false) :
    s.onRequest link op r fs =
      .next (((s.tookFrame link r).accepted link (s.link link).seqIn (some 0)).requestIn link (wireSound r.wire) fs f) := by
  have hwant : (f.kind == .request && (f.op = op || !knownOp f.op)) = true := by simpa [hk] using ho
  rw [State.onRequest, State.onFrames_up _ hp hr hu, State.receive_hears _ _ hh hwant]

theorem onRequest_here {op : Byte} {x : State × RemoteAns} (hk : f.kind = .request) (ho : f.op = op)
    (hw : wireSound r.wire = true) (hv : v = (s.tookFrame link r).accepted link (s.link link).seqIn (some 0))
    (hf : v.dev.st ≠ .fenced) (hd : f.dest.toNat = v.devNum) (hx : x = v.perform f.remoteOp true link fs) :
    s.onRequest link op r fs = .next ((x.1.countAnswer x.2.status).respond x.2.status f x.2.data x.2.old) := by
  rw [onRequest_heard hp hr hu hh hk (.inl ho), hw, ← hv, requestIn_here hf hd hx]

theorem onRequest_unknown (op : Byte) (hk : f.kind = .request) (ho : knownOp f.op = false) (hw : wireSound r.wire = true)
    (hv : v = (s.tookFrame link r).accepted link (s.link link).seqIn (some 0)) (hf : v.dev.st ≠ .fenced)
    (hd : f.dest.toNat = v.devNum) : s.onRequest link op r fs = .next (v.respond rsInvalid f [] 0) := by
  rw [onRequest_heard hp hr hu hh hk (.inr ho), hw, ← hv, requestIn_here hf hd (perform_unknown true link ho).symm]
  rfl

theorem execResponse_heard (hk : f.kind = .response) :
    execResponse link r.wire r.fec.corrected r.fec.uncorrected s =
      .next (((s.tookFrame link r).accepted link (s.link link).seqIn (some 1)).responseIn link f) := by
  rw [execResponse, State.onFrames_up _ hp hr hu, State.receive_hears _ _ hh (by rw [hk]; rfl)]

end

theorem execResponse_silent (hp : s.linkPresent link = true) (hst : (s.link link).st ≠ .connect) (hu : s.linkUp link = false) :
    execResponse link r.wire r.fec.corrected r.fec.uncorrected s = .next s := onFrames_silent _ hp hst hu

/-- A response other than FENCED completes the request of its tag. -/
theorem responseIn_completes {n : Nat} {x : Req} (hs : f.status ≠ rsFenced) (hd : f.dest.toNat = s.devNum)
    (hx : s.request f.tag = some x) : s.responseIn n f = s.completeRequest x f := by
  simp [State.responseIn, State.noteFenced, hs, hd, hx]

/-! ## Operations in the memory tiers (R301, R302, R303) -/

/-- The operations that read memory before they answer. -/
def readsMemory (op : Byte) : Prop := op = opGet ∨ op = opAdd ∨ op = opCas ∨ op = opSwap

theorem readsMemory.ne_put {op : Byte} (h : readsMemory op) : op ≠ opPut := by
  rcases h with rfl | rfl | rfl | rfl <;> decide

theorem readsMemory.right {op : Byte} (h : readsMemory op) : rightOf op ≠ none := by
  rcases h with rfl | rfl | rfl | rfl <;> decide

theorem memoryOp_put (ho : o.op = opPut) : s.memoryOp o = (s.devWrite o.addr o.payload, ⟨rsOk, [], 0⟩) := if_pos ho

theorem memoryOp_get (ho : o.op = opGet) : s.memoryOp o = (s, ⟨rsOk, s.mem.read o.addr o.len, 0⟩) :=
  (if_neg (by rw [ho]; decide)).trans (if_pos ho)

theorem memoryOp_word (hp : o.op ≠ opPut) (hg : o.op ≠ opGet) :
    s.memoryOp o = ((s.wordOp o.op o.addr o.operand (BitVec.ofNat 64 (leNat o.payload))).1, ⟨rsOk, [], s.word o.addr⟩) :=
  (if_neg hp).trans (if_neg hg)

section
variable (hu : u = s.loadAppears)
include hu

theorem tierOp_denied (hg : u.granted o = false) :
    s.tierOp o true fs = (if u.backedRange o.addr o.size then u else u.unbacked, ⟨rsAccess, [], 0⟩) := by
  simp [State.tierOp, ← hu, hg]

section
variable (hg : u.granted o = true)
include hg

theorem tierOp_unbacked (hr : rightOf o.op ≠ none) (hb : u.backedRange o.addr o.size = false) :
    s.tierOp o true fs = (u.unbacked, ⟨rsUnbacked, [], 0⟩) := by
  simp [State.tierOp, ← hu, hg, hr, hb]

section
variable (hb : u.backedRange o.addr o.size = true) (ha : u.addrOffline o.addr = false)
include hb ha

theorem tierOp_put (ho : o.op = opPut) : s.tierOp o true fs = (u.devWrite o.addr o.payload, ⟨rsOk, [], 0⟩) := by
  have hr : rightOf opPut ≠ none := by decide
  simp [State.tierOp, ← hu, hg, hr, hb, ha, ho, memoryOp_put ho]

/-- An operation that reads: by whether a line it reads is uncorrectable. -/
theorem tierOp_reads {bad : Bool} (ho : readsMemory o.op) (hl : u.readLines fs (linesOf o.addr o.size) = (v, bad)) :
    s.tierOp o true fs = if bad then (v, ⟨rsPoison, [], 0⟩) else v.memoryOp o := by
  simp [State.tierOp, ← hu, hg, ho.right, ho.ne_put, hb, ha, hl]

theorem tierOp_poison (ho : readsMemory o.op) (hl : u.readLines fs (linesOf o.addr o.size) = (v, true)) :
    s.tierOp o true fs = (v, ⟨rsPoison, [], 0⟩) :=
  tierOp_reads hu hg hb ha ho hl

theorem tierOp_get (ho : o.op = opGet) (hl : u.readLines fs (linesOf o.addr o.size) = (v, false)) :
    s.tierOp o true fs = (v, ⟨rsOk, v.mem.read o.addr o.len, 0⟩) :=
  (tierOp_reads hu hg hb ha (.inl ho) hl).trans (memoryOp_get ho)

theorem tierOp_word (ho : o.op = opAdd ∨ o.op = opCas ∨ o.op = opSwap)
    (hl : u.readLines fs (linesOf o.addr o.size) = (v, false)) :
    s.tierOp o true fs =
      ((v.wordOp o.op o.addr o.operand (BitVec.ofNat 64 (leNat o.payload))).1, ⟨rsOk, [], v.word o.addr⟩) := by
  have hget : o.op ≠ opGet := by rcases ho with ho | ho | ho <;> rw [ho] <;> decide
  exact (tierOp_reads hu hg hb ha (.inr ho) hl).trans (memoryOp_word (readsMemory.ne_put (.inr ho)) hget)

end

end

end

/-- Settles O55: a request by its operation, then by what stops it, and in the memory tiers by what its grant and lines allow. -/
theorem remoteOperations : Obligations.RemoteOperations := by
  refine ⟨fun _ _ _ _ _ _ hp hr hu hh hk ho hw hv hf hd hx => onRequest_here hp hr hu hh hk ho hw hv hf hd hx,
    fun _ _ _ _ _ _ _ hp hr hu hh hk ho hw hv hf hd hx => onRequest_here hp hr hu hh hk ho hw hv hf hd hx,
    fun _ _ _ _ _ _ _ hp hr hu hh hk ho hw hv hf hd hx => onRequest_here hp hr hu hh hk ho hw hv hf hd hx,
    fun _ _ _ _ _ _ _ hp hr hu hh hk ho hw hv hf hd hx => onRequest_here hp hr hu hh hk ho hw hv hf hd hx,
    fun _ _ _ _ _ _ _ hp hr hu hh hk ho hw hv hf hd hx => onRequest_here hp hr hu hh hk ho hw hv hf hd hx,
    fun _ _ _ _ _ _ hp hr hu hh hk ho hw hv hf hd hx => onRequest_here hp hr hu hh hk ho hw hv hf hd hx,
    fun _ _ _ _ _ _ hp hr hu hh hk ho hw hv hf hd hx => onRequest_here hp hr hu hh hk ho hw hv hf hd hx,
    fun _ _ _ _ _ _ hp hr hu hh hk ho hw hv hf hd hx => onRequest_here hp hr hu hh hk ho hw hv hf hd hx,
    fun n sound _ _ _ hf => requestIn_fenced n sound hf, fun n _ _ _ hf => requestIn_malformed hf n,
    fun n _ _ _ hf hd => requestIn_elsewhere hf n hd, fun _ remote n _ _ ho => perform_fence remote n ho,
    fun _ remote n _ _ hk => perform_unknown remote n hk,
    fun _ _ _ _ _ hp hr hu hh hk ho hw hv hf hd => onRequest_unknown hp hr hu hh opPut hk ho hw hv hf hd, ?_,
    fun _ _ _ _ hu hg => tierOp_denied hu hg, fun _ _ _ _ hu hg hr hb => tierOp_unbacked hu hg hr hb,
    fun _ _ _ _ hu hg ho hb ha => tierOp_put hu hg hb ha ho, fun _ _ _ _ _ hu hg ho hb ha hl => tierOp_get hu hg hb ha ho hl,
    fun _ _ _ _ _ hu hg ho hb ha hl => tierOp_word hu hg hb ha ho hl,
    fun _ _ _ _ _ hu hg ho hb ha hl => tierOp_poison hu hg hb ha ho hl, fun _ _ _ => ⟨rfl, rfl, rfl, rfl⟩, ?_,
    fun _ _ _ hp hst hu => execResponse_silent hp hst hu⟩
  · intro o remote n fs s hlo hhi ho hs -- a shape that breaks R302
    exact perform_misshapen remote n (by simp [knownOp, hlo, hhi]) ho hs
  · intro link r f u x s hp hr hu hh hk hs hu' hd hx -- a response with OK
    subst hu'
    refine (execResponse_heard hp hr hu hh hk).trans ?_
    rw [responseIn_completes (by rw [hs]; decide) hd hx]

end Sys2Proof.Machine
end

/-!
SUPPORT. Requests in flight and their time limit, host request slots, hedging, and the lead's cutoff.
-/

section
namespace Sys2Proof.Machine

variable {s u v : State}

/-! ## Requests in flight (R303) -/

section
variable {tag : BitVec 32} {r : Req}

theorem execRequestTimeout_due (hq : s.request tag = some r) (hr : s.running = true) (ht : r.issued + s.num 0x810003 ≤ s.aonNs) :
    execRequestTimeout tag s = .next (s.settleRequest r rsTimeout) := by
  simp [execRequestTimeout, hq, hr, ht]

theorem execRequestTimeout_early (hq : s.request tag = some r) (ht : s.aonNs < r.issued + s.num 0x810003) :
    execRequestTimeout tag s = .next s := by
  simp [execRequestTimeout, hq, Nat.not_le.2 ht]

theorem execRequestTimeout_none (hq : s.request tag = none) : execRequestTimeout tag s = .next s := by
  simp [execRequestTimeout, hq]

end

/-! ## Host request slots (R308) -/

theorem ready_or_fenced {x : DevState} (h : x.ready = true ∨ x = .fenced) : (x.ready || x == .fenced) = true := by
  simpa using h

section
variable {slot : Fin 512} {faults : List LineFault} (hp : s.upstream.contains (slotPort slot) = true) (hr : s.running = true)
  (hd : s.dev.st.ready = true ∨ s.dev.st = .fenced) (hu : u = s.devWrite (slotBase slot + 0x3F) [0])
include hp hr hd hu

theorem execHostRequestGo_invalid (hq : (u.readSlot slot).ok = false) :
    execHostRequestGo ⟨slot, faults⟩ s = .next (u.finishSlot slot (u.takeSlot slot) rsInvalid 0 []) := by
  simp only [execHostRequestGo, hp, hr, ready_or_fenced hd, ← hu, hq, Bool.not_true, Bool.or_self, Bool.not_false,
    Bool.false_eq_true, if_false, if_true]

section
variable (hq : (u.readSlot slot).ok = true)
include hq

theorem execHostRequestGo_fenced (hf : u.dev.st = .fenced) :
    execHostRequestGo ⟨slot, faults⟩ s = .next (u.finishSlot slot (u.takeSlot slot) rsFenced 0 []) := by
  simp only [execHostRequestGo, hp, hr, ready_or_fenced hd, ← hu, hq, hf, beq_self_eq_true, Bool.not_true, Bool.or_self,
    Bool.false_eq_true, if_false, if_true]

/-- A request that runs, or that its own data stops. -/
theorem execHostRequestGo_taken {stop : Option Byte} (hf : u.dev.st ≠ .fenced)
    (hv : u.sourceStop (u.readSlot slot) faults = (v, stop)) :
    execHostRequestGo ⟨slot, faults⟩ s =
      .next (match stop with
        | some st => v.finishSlot slot (u.takeSlot slot) st 0 []
        | none => v.runSlot slot (u.readSlot slot) (u.takeSlot slot) faults) := by
  simp only [execHostRequestGo, hp, hr, ready_or_fenced hd, ← hu, hq, beq_false_of_ne hf, hv, Bool.not_true, Bool.or_self,
    Bool.false_eq_true, if_false]
  cases stop <;> rfl

end

end

/-! ## The lead (R317, R318) -/

section
variable {window : Fin 64} {id : BitVec 32} {r : MergeRec}

theorem execHedgeTimer_due {shard : Nat} {x : ShardState} (hm : s.mergeRec window id = some r) (hx : r.shards[shard]? = some x)
    (hr : s.running = true) (hn : s.num 0x830005 ≠ 0) (ht : x.dispatched + s.num 0x830005 ≤ s.now) (hres : x.result = none)
    (hh : x.heard = false) (hc : x.current ≠ none) (hrep : s.nextReplica x ≠ none) :
    execHedgeTimer window id shard s = .next ((s.bump 0x83000C).redispatch window id shard) := by
  simp [execHedgeTimer, hm, hx, hr, hn, ht, hres, hh, Option.isSome_iff_ne_none.2 hc, Option.isSome_iff_ne_none.2 hrep]

theorem execHedgeTimer_none (shard : Nat) (hm : s.mergeRec window id = none) : execHedgeTimer window id shard s = .next s := by
  simp [execHedgeTimer, hm]

theorem execLeadCutoff_due (hm : s.mergeRec window id = some r) (hr : s.running = true) (ht : r.cutoff ≤ s.now) :
    execLeadCutoff window id s = .next (s.checkRecord window id) := by
  simp [execLeadCutoff, hm, hr, ht]

theorem execLeadCutoff_early (hm : s.mergeRec window id = some r) (ht : s.now < r.cutoff) : execLeadCutoff window id s = .next s := by
  simp [execLeadCutoff, hm, Nat.not_le.2 ht]

end

/-- Settles O56: what is due and what is not, and a slot by what stops its request. -/
theorem requests : Obligations.Requests :=
  ⟨fun _ _ _ hq hr ht => execRequestTimeout_due hq hr ht, fun _ _ _ hq ht => execRequestTimeout_early hq ht,
    fun _ _ hq => execRequestTimeout_none hq, fun _ _ _ _ hp hr hd hu hq => execHostRequestGo_invalid hp hr hd hu hq,
    fun _ _ _ _ _ hp hr hd hu hq hf hv => execHostRequestGo_taken hp hr (.inl hd) hu hq hf hv,
    fun _ _ _ _ _ _ hp hr hd hu hq hf hv => execHostRequestGo_taken hp hr (.inl hd) hu hq hf hv,
    fun _ _ _ _ hp hr hd hu hq hf => execHostRequestGo_fenced hp hr (.inr hd) hu hq hf,
    fun _ _ _ _ _ _ hm hx hr hn ht hres hh hc hrep => execHedgeTimer_due hm hx hr hn ht hres hh hc hrep,
    fun _ _ shard _ hm => execHedgeTimer_none shard hm, fun _ _ _ _ hm hr ht => execLeadCutoff_due hm hr ht,
    fun _ _ _ _ hm ht => execLeadCutoff_early hm ht⟩

end Sys2Proof.Machine
end

/-!
SUPPORT. The mailbox: commands that answer and change nothing, the CXL event logs, Device reset and Submit recipe.
-/

section
namespace Sys2Proof.Machine

variable {s : State} {p : Port}

/-! ## Parts of an answer -/

/-- A part of a string with something before it and something after it. -/
theorem sub_append_middle {off n : Nat} {a x : Bytes} (b : Bytes) (ha : a.length = off) (hx : x.length = n) :
    sub (a ++ (x ++ b)) off n = x := by
  subst ha hx
  rw [sub, List.drop_left, List.take_left]

/-! ## Standard commands (R339, R341, R439) -/

theorem execBackgroundOperationStatus_idle (ht : s.takes p true = true) (hb : (s.port p).bg = none) :
    execBackgroundOperationStatus p s = .next (s.ok p ([0, 0] ++ natLE 2 (s.port p).lastOpcode ++ natLE 2 (s.port p).lastRc.code ++
      natLE 2 (s.port p).lastExt)) :=
  (State.onMailbox_taken _ ht).trans (by simp only [hb])

theorem execBackgroundOperationStatus_running {b : BgCommand} (ht : s.takes p true = true) (hb : (s.port p).bg = some b) :
    execBackgroundOperationStatus p s =
      .next ((s.ok p (natLE 1 (1 + 2 * (s.fresh.toNat % 101)) ++ [0] ++ (natLE 2 b.opcode ++ zeros 4))).spend) :=
  (State.onMailbox_taken _ ht).trans (by simp only [hb, List.append_assoc])

section
variable (ht : s.takes p false = true)
include ht

theorem execRequestAbort_own {k : SelfTest} (hk : s.test.selfTest = some k) (he : k.extended = true) (hp : k.port = p) :
    execRequestAbort p s = .next ((s.ok p []).endSelfTest selfAborted) :=
  (State.onMailbox_taken _ ht).trans (by simp [hk, he, hp])

theorem execRequestAbort_other (hk : (s.test.selfTest.any fun k => k.extended && k.port = p) = false) :
    execRequestAbort p s = .next (s.reply p .unsupported 0 []) := by
  refine (State.onMailbox_taken _ ht).trans (congrArg Host.Outcome.next ?_)
  cases ho : s.test.selfTest with
  | none => rfl
  | some k => exact if_neg (by simpa [ho] using hk)

end

theorem execGetLog_effects {offset length : Nat} (ht : s.takes p true = true) (hl : offset + length ≤ effectsLog.length) :
    execGetLog p true offset length s = .next (s.ok p (sub effectsLog offset length)) :=
  (State.onMailbox_taken _ ht).trans (congrArg Host.Outcome.next (if_neg (Nat.not_lt.2 hl)))

theorem execGetLog_other (offset length : Nat) (ht : s.takes p true = true) :
    execGetLog p false offset length s = .next (s.reply p .invalidLog 0 []) :=
  State.onMailbox_taken _ ht

theorem execIdentifyMemoryDevice_ok (ht : s.takes p true = true) : ∃ d, execIdentifyMemoryDevice p s = .next (s.ok p d) :=
  ⟨_, State.onMailbox_taken _ ht⟩

/-- Settles O32: an answer is what the mailbox returns once it takes the command, and an abort asks whose self-test runs. -/
theorem standardMailbox : Obligations.StandardMailbox := by
  refine ⟨fun p s ht => State.onMailbox_taken _ ht, fun p s ht hb => execBackgroundOperationStatus_idle ht hb, ?_,
    fun p k s ht hk he hp => execRequestAbort_own ht hk he hp, fun p s ht hk => execRequestAbort_other ht hk,
    fun p s ht => State.onMailbox_taken _ ht, fun p o l s ht hl => execGetLog_effects ht hl,
    fun p o l s ht => execGetLog_other o l ht, ?_, fun p s ht => State.onMailbox_taken _ ht,
    fun p s ht => State.onMailbox_taken _ ht⟩
  · intro p b s ht hb -- a command that runs
    exact ⟨_, execBackgroundOperationStatus_running ht hb, _, rfl, by simp, sub_append_middle _ (by simp) (by simp)⟩
  · intro p s ht -- IDENTIFY_MEMORY_DEVICE
    obtain ⟨d, hd⟩ := execIdentifyMemoryDevice_ok ht
    exact ⟨_, hd, d, rfl⟩

/-! ## The CXL event logs (R352) -/

/-- The 32 bytes before the records of a log. -/
def CxlLog.header (l : CxlLog) : Bytes :=
  natLE 1 (bitIf (l.overflow ≠ 0) 0) ++ [0] ++ natLE 2 l.overflow ++ natLE 8 l.firstLost ++ natLE 8 l.lastLost ++
    natLE 2 l.records.length ++ zeros 10

theorem CxlLog.header_length (l : CxlLog) : l.header.length = 32 := by simp [CxlLog.header]

theorem CxlLog.header_overflow (l : CxlLog) : sub l.header 2 2 = natLE 2 l.overflow := by
  have hparts : l.header = (natLE 1 (bitIf (l.overflow ≠ 0) 0) ++ [0]) ++ (natLE 2 l.overflow ++ (natLE 8 l.firstLost ++
      (natLE 8 l.lastLost ++ (natLE 2 l.records.length ++ zeros 10)))) := by simp only [CxlLog.header, List.append_assoc]
  rw [hparts]
  exact sub_append_middle _ (by simp) (by simp)

theorem CxlLog.header_count (l : CxlLog) : sub l.header 20 2 = natLE 2 l.records.length := by
  rw [CxlLog.header, List.append_assoc]
  exact sub_append_middle _ (by simp) (by simp)

theorem execGetEventRecords_header {log : EventLog} (ht : s.takes p true = true) :
    execGetEventRecords p log s = .next (s.ok p (((s.port p).log (EventLog.place log)).header ++
      ((s.port p).log (EventLog.place log)).records.flatMap fun r => cxlRecord r.1 r.2)) :=
  State.onMailbox_taken _ ht

section
variable {log : EventLog} {handles : Option (List Nat)} (ht : s.takes p false = true)
include ht

theorem execClearEventRecords_cleared {l : CxlLog} (hc : ((s.port p).log (EventLog.place log)).clear handles = some l) :
    execClearEventRecords p log handles s = .next ((s.setPort p ((s.port p).setLog (EventLog.place log) l)).ok p []) :=
  (State.onMailbox_taken _ ht).trans (by simp only [hc])

theorem execClearEventRecords_badHandle (hc : ((s.port p).log (EventLog.place log)).clear handles = none) :
    execClearEventRecords p log handles s = .next (s.reply p .invalidHandle 0 []) :=
  (State.onMailbox_taken _ ht).trans (by simp only [hc])

end

theorem execSetEventInterruptPolicy_taken (policy : BitVec 32) (ht : s.takes p false = true) :
    execSetEventInterruptPolicy p policy s = .next ((s.setPort p { s.port p with policy := policy }).ok p []) :=
  State.onMailbox_taken _ ht

theorem CxlLog.clear_oldest {l : CxlLog} {hs : List Nat} (he : hs = (l.records.take hs.length).map Prod.fst)
    (hl : hs.length < l.records.length) : l.clear (some hs) = some { l with records := l.records.drop hs.length } := by
  simp only [CxlLog.clear, if_neg (not_not.2 he), if_neg (Nat.ne_of_lt hl)]

/-- Settles O33: a log is read whole behind its header, and cleared where `CxlLog.clear` knows the handles. -/
theorem eventLogCommands : Obligations.EventLogCommands := by
  refine ⟨?_, ?_, fun p log hs s ht hc => execClearEventRecords_badHandle ht hc, fun l hs he hl => CxlLog.clear_oldest he hl,
    fun p s ht => State.onMailbox_taken _ ht, fun p policy s ht => execSetEventInterruptPolicy_taken policy ht⟩
  · intro p log l s ht hl -- reading
    subst hl
    exact ⟨_, execGetEventRecords_header ht, _, rfl, CxlLog.header_length _, CxlLog.header_overflow _, CxlLog.header_count _⟩
  · intro p log l u hs s ht hl hc -- clearing
    subst hl
    exact execClearEventRecords_cleared ht hc

/-! ## Device reset (R349) -/

/-- An entry to BOOT latches the straps and counts an epoch, and the steps that follow keep both. -/
theorem reboot_latches (straps : BitVec 2) (s : State) :
    (s.reboot straps).dev.straps = straps ∧ (s.reboot straps).dev.epoch = (s.dev.epoch + 1) % 2 ^ 32 := by
  have hsteps : Keeps (s.reenter straps) (s.reboot straps) := (Keeps.refl _).bootSteps
  have hdev := reenter_dev (rfl : s.reenter straps = s.reenter straps)
  exact ⟨hsteps.straps.trans (by rw [hdev]), hsteps.epoch.trans (by rw [hdev])⟩

theorem onMailbox_noPort {f : State → State} {b : Bool} (hm : s.mailboxUp = true) (hp : s.upstream.contains p = false) :
    s.onMailbox p b f = .next (s.deny p .port) := by
  rw [State.onMailbox, if_neg (by simp [hm]), if_pos (by rw [hp]; rfl)]

/-- Port B refuses Device reset, whether or not it has a mailbox. -/
theorem execDeviceReset_b (straps : BitVec 2) (hm : s.mailboxUp = true) : execDeviceReset .b straps s = .next (s.deny .b .port) := by
  cases hp : s.upstream.contains Port.b with
  | true => exact State.onMailbox_taken _ (by simp only [State.takes, hm, hp, Bool.or_true, Bool.and_self])
  | false => exact onMailbox_noPort hm hp

/-- Settles O58: Port A's completion comes before the entry to BOOT that PERSTA_N makes, and `reboot_latches` says what it counts. -/
theorem deviceReset : Obligations.DeviceReset :=
  ⟨fun straps _ hm => ⟨_, execDeviceReset_a straps hm, rfl, reboot_latches straps _⟩, fun straps _ hm => execDeviceReset_b straps hm,
    fun straps _ hs => execPerstaN_powered straps hs⟩

/-! ## Submit recipe (R347) -/

/-- Settles O59: `execSubmitRecipe_goodForm` asks for the three reasons in turn, and each statement leaves one or none. -/
theorem submitRecipe : Obligations.SubmitRecipe := by
  refine ⟨?_, ?_, ?_, ?_⟩
  · intro p d u s ht hu hl hf ha hroom hon hps -- no reason
    refine (execSubmitRecipe_goodForm ht hu hl hf ha).trans ?_
    rw [if_neg (Nat.not_le.2 hroom), if_neg (by simp [hon]), if_neg (Nat.not_le.2 hps)]
  · intro p d u s ht hu hl hf ha hfull _ _ -- QUEUE_FULL
    exact (execSubmitRecipe_goodForm ht hu hl hf ha).trans (by rw [if_pos hfull])
  · intro p d u s ht hu hl hf ha hroom hoff _ -- NOT_ON
    exact (execSubmitRecipe_goodForm ht hu hl hf ha).trans (by rw [if_neg (Nat.not_le.2 hroom), if_pos (by simp [hoff])])
  · intro p d u s ht hu hl hf ha hroom hon hps -- POWER_STATE
    refine (execSubmitRecipe_goodForm ht hu hl hf ha).trans ?_
    rw [if_neg (Nat.not_le.2 hroom), if_neg (by simp [hon]), if_pos hps]

end Sys2Proof.Machine
end

/-!
SUPPORT. The host's side of a port: doorbells and their messages, accesses through the windows, decoders, and links that go down.
-/

section
namespace Sys2Proof.Machine

variable {s : State} {p : Port} {n : Byte}

/-! ## Submission doorbells (R332) -/

section
variable {t : BitVec 32}

/-- A doorbell of a spool that is not ACTIVE is counted for its port. -/
theorem ringSub_inactive (h : (s.subSpool p n).all (fun x => x.resetting) = true) : s.ringSub p n t = s.bump (ignoredKey p) := by
  unfold State.ringSub
  split
  · rfl
  · next x hx => exact if_pos (by simpa [hx] using h)

/-- A doorbell of an ACTIVE spool, by how far its tail and the one it has lie ahead of the head. -/
theorem ringSub_active {x : SubSpool} (hx : s.subSpool p n = some x) (ha : x.resetting = false) :
    s.ringSub p n t =
      if x.entries < ahead x.head t then (s.ignoreSub p n).event 0x70 (256 * Port.num p + n.toNat) 0
      else if ahead x.head t ≤ ahead x.head x.tail then s.ignoreSub p n
      else (s.mapSub p n fun x => { x with tail := t }).loadAppears := by
  simp only [State.ringSub, hx, ha, Bool.false_eq_true, if_false]

end

section
variable {v : BitVec 64} (hp : s.upstream.contains p = true) (hw : s.windowsUp = true)
include hp hw

theorem execSubmissionDoorbell_rings : execSubmissionDoorbell p n v s = .next (s.ringSub p n (v.setWidth 32)) :=
  (State.onPort_up _ hp).trans (by rw [if_pos hw])

theorem execSubmissionDoorbell_active {x : SubSpool} (hx : s.subSpool p n = some x) (ha : x.resetting = false) :
    execSubmissionDoorbell p n v s = .next (
      if x.entries < ahead x.head (v.setWidth 32) then (s.ignoreSub p n).event 0x70 (256 * Port.num p + n.toNat) 0
      else if ahead x.head (v.setWidth 32) ≤ ahead x.head x.tail then s.ignoreSub p n
      else (s.mapSub p n fun x => { x with tail := v.setWidth 32 }).loadAppears) :=
  (execSubmissionDoorbell_rings hp hw).trans (congrArg Host.Outcome.next (ringSub_active hx ha))

/-! ## Completion heads and coalescing (R335, R336) -/

theorem execCompletionHeadDoorbell_rings {c : CompSpool} (hc : s.compSpool p n = some c) :
    execCompletionHeadDoorbell p n v s = .next (
      if 0 < ahead c.head (v.setWidth 32) && ahead c.head (v.setWidth 32) ≤ c.occupied then
        s.mapComp p n fun c => { c with head := v.setWidth 32 }
      else s.mapComp p n fun c => { c with ignored := min (c.ignored + 1) 0xFFFFFFFF }) :=
  (State.onPort_up _ hp).trans (by rw [if_pos hw]; simp only [State.ringComp, hc])

end

theorem execCoalesceTimer_due {c : CompSpool} (hp : s.upstream.contains p = true) (hc : s.compSpool p n = some c)
    (hr : s.running = true) (hu : c.unsignalled ≠ 0) (hd : c.firstUnsignalled + c.coalesceTime ≤ s.now) :
    execCoalesceTimer p n s = .next (s.signalComp p n) :=
  (State.onPort_up _ hp).trans (by simp only [hc]; rw [if_pos (by simp [hr, hu, hd])])

theorem signalComp_vector {c : CompSpool} {v : Nat} (hc : s.compSpool p n = some c) (hm : c.msix = some v) (hu : c.unsignalled ≠ 0) :
    s.signalComp p n = (s.mapComp p n fun c => { c with unsignalled := 0 }).msix p v := by
  simp only [State.signalComp, hc, hm, if_neg hu]

/-! ## Messages (R336) -/

theorem setPort_port (p : Port) (s : State) : s.setPort p (s.port p) = s := by
  cases p <;> rfl

section
variable {m : Msix} {v : Nat}

theorem Msix.raise_disabled (he : m.enabled = false) : m.raise v = (m, false) := if_pos (by rw [he]; rfl)

section
variable (he : m.enabled = true)
include he

theorem Msix.raise_masked (h : m.maskAll = true ∨ m.unmasked.contains v = false) :
    m.raise v = ({ m with pending := insertNat v m.pending }, false) := by
  rw [Msix.raise, if_neg (by simp [he]), if_pos (by simpa using h)]

theorem Msix.raise_open (ha : m.maskAll = false) (hv : m.unmasked.contains v = true) : m.raise v = (m, true) := by
  rw [Msix.raise, if_neg (by simp [he]), if_neg (by simpa [ha] using hv)]

end

theorem msix_frozen (hf : s.dev.frozen = true) : s.msix p v = s := if_pos hf

/-- A vector that becomes due on a port that is not frozen: the capability after it, and the message where there is one. -/
theorem msix_raised {sent : Bool} (hf : s.dev.frozen = false) (hr : (s.port p).msix.raise v = (m, sent)) :
    s.msix p v = if sent then (s.setPort p { s.port p with msix := m }).emit (.msix p v)
      else s.setPort p { s.port p with msix := m } := by
  rw [State.msix, if_neg (by simp [hf])]
  simp only [hr]

theorem msix_leaves (hf : s.dev.frozen = false) (he : (s.port p).msix.enabled = true) (ha : (s.port p).msix.maskAll = false)
    (hv : (s.port p).msix.unmasked.contains v = true) : s.msix p v = s.emit (.msix p v) := by
  rw [msix_raised hf (Msix.raise_open he ha hv), if_pos rfl]
  exact congrArg (State.emit _) (setPort_port p s)

theorem msix_pends (hf : s.dev.frozen = false) (he : (s.port p).msix.enabled = true)
    (h : (s.port p).msix.maskAll = true ∨ (s.port p).msix.unmasked.contains v = false) :
    s.msix p v = s.setPort p { s.port p with msix := { (s.port p).msix with pending := insertNat v (s.port p).msix.pending } } :=
  msix_raised hf (Msix.raise_masked he h)

theorem msix_disabled (he : (s.port p).msix.enabled = false) : s.msix p v = s := by
  cases hf : s.dev.frozen with
  | true => exact msix_frozen hf
  | false => exact (msix_raised hf (Msix.raise_disabled he)).trans (setPort_port p s)

end

/-- Settles O27: a submission doorbell by `ringSub_active`, a completion head by where it lies, and a message by its capability. -/
theorem doorbells : Obligations.Doorbells := by
  refine ⟨?_, ?_, ?_, ?_, ?_, ?_, fun p n c s hp hc hr hu hd => execCoalesceTimer_due hp hc hr hu hd,
    fun p n c v s hc hm hu => signalComp_vector hc hm hu, ?_, ?_, ?_, fun p on s hp => State.onPort_up _ hp⟩
  · intro p n v x s hp hw hx ha hfit hnew -- a tail ahead
    exact (execSubmissionDoorbell_active hp hw hx ha).trans (by rw [if_neg (Nat.not_lt.2 hfit), if_neg (Nat.not_le.2 hnew)])
  · intro p n v x s hp hw hx ha hfit hold -- behind
    exact (execSubmissionDoorbell_active hp hw hx ha).trans (by rw [if_neg (Nat.not_lt.2 hfit), if_pos hold, State.ignoreSub])
  · intro p n v x s hp hw hx ha hbig -- and beyond the ring
    exact (execSubmissionDoorbell_active hp hw hx ha).trans (by rw [if_pos hbig, State.ignoreSub])
  · intro p n v s hp hw hn -- a spool that is not there
    exact (execSubmissionDoorbell_rings hp hw).trans (congrArg Host.Outcome.next (ringSub_inactive hn))
  · intro p n v c s hp hw hc hpos hle -- a head within the entries
    exact (execCompletionHeadDoorbell_rings hp hw hc).trans (by rw [if_pos (by simp [hpos, hle])])
  · intro p n v c s hp hw hc hout -- and one outside them
    exact (execCompletionHeadDoorbell_rings hp hw hc).trans (by rw [if_neg (by rcases hout with h | h <;> simp [h])])
  · intro p v m s hf hm he ha hv -- a message that leaves
    subst hm
    exact msix_leaves hf he ha hv
  · intro p v m s hf hm he h -- stays pending
    subst hm
    exact msix_pends hf he h
  · intro p v s h -- or is not made
    exact h.elim msix_frozen msix_disabled

/-! ## Windows (R327, R328) -/

section
variable {dpa : Nat} {op : WindowOp}

section
variable (hw : s.windowsUp = true)
include hw

theorem hostWindow_backed {w : Window} {off : Nat} (hb : s.windowOf p dpa op.size = some (w, off)) :
    s.hostWindow p dpa op = s.windowAccess p w off op := by
  simp only [State.hostWindow, hw, hb, Bool.not_true, Bool.false_eq_true, if_false]

theorem hostWindow_unbacked (hb : s.windowOf p dpa op.size = none) : s.hostWindow p dpa op = s.windowMiss p op := by
  simp only [State.hostWindow, hw, hb, Bool.not_true, Bool.false_eq_true, if_false]

end

/-- An access behind the host area is an access to memory at the area's base. -/
theorem windowAccess_hostArea {off : Nat} : s.windowAccess p .hostArea off op = s.windowMemory p .hostArea (s.hostBase p + off) op := rfl

theorem windowMemory_read {w : Window} {a n : Nat} (ho : s.rangeOffline a n = false) :
    s.windowMemory p w a (.read n) = s.emit (.hostRead p (some (s.mem.read a n))) := if_neg (by simp [ho])

theorem windowMemory_write {w : Window} {a : Nat} {b : Bytes} (ho : s.rangeOffline a b.length = false) :
    s.windowMemory p w a (.write b) = s.devWrite a b := if_neg (by simp [ho])

section
variable (hp : s.upstream.contains p = true)
include hp

theorem execHostAccess_read (n : Nat) : execHostAccess p dpa (.read n) s = .next (s.hostWindow p dpa (.read n)) := State.onPort_up _ hp

theorem execHostAccess_write (b : Bytes) : execHostAccess p dpa (.write b) s = .next (s.hostWindow p dpa (.write b)) :=
  State.onPort_up _ hp

variable (hc : s.configUp p = true)
include hc

theorem execHostAccess_msix (o : MsixOp) : execHostAccess p dpa (.msix o) s = .next (s.msixWrite p o) :=
  (State.onPort_up _ hp).trans (congrArg Host.Outcome.next (if_pos hc))

theorem execHostAccess_gpfDvsec : execHostAccess p dpa .gpfDvsec s = .next (s.emit (.hostRead p (some gpfDvsecBytes))) :=
  (State.onPort_up _ hp).trans (congrArg Host.Outcome.next (if_pos hc))

end

end

/-! ## A link that goes down (R326) -/

theorem execCxlLinkDown_up {training loopback : Bool} (hp : s.upstream.contains p = true) (hl : (s.port p).linkState = 2) :
    execCxlLinkDown ⟨p, training, loopback⟩ s = .next ((s.setPort p { s.port p with
      linkState := if training then 1 else 0, speed := 0, width := 0, flit := false, ide := false, follower := loopback }).raise
        0x28 (Port.num p) 0 none) :=
  (State.onPort_up _ hp).trans (congrArg Host.Outcome.next (if_neg (not_not.2 hl)))

/-- Settles O28: an access by whether a window backs it, configuration space by its link, and a link that is up goes down. -/
theorem hostAccess : Obligations.HostAccess := by
  refine ⟨?_, ?_, ?_, ?_, fun p dpa o s hp hc => execHostAccess_msix (dpa := dpa) hp hc o,
    fun p dpa s hp hc => execHostAccess_gpfDvsec (dpa := dpa) hp hc,
    fun p n d s hp => State.onPort_up _ hp, fun p training loopback s hp hl => execCxlLinkDown_up hp hl⟩
  · intro p dpa off n s hp hw hb ho -- a read behind the host area
    refine (execHostAccess_read hp n).trans (congrArg Host.Outcome.next ?_)
    rw [hostWindow_backed hw hb, windowAccess_hostArea, windowMemory_read ho]
  · intro p dpa off b s hp hw hb ho -- and a write
    refine (execHostAccess_write hp b).trans (congrArg Host.Outcome.next ?_)
    rw [hostWindow_backed hw hb, windowAccess_hostArea, windowMemory_write ho]
  · intro p dpa n s hp hw hb -- a read that no window backs
    exact (execHostAccess_read hp n).trans (congrArg Host.Outcome.next (hostWindow_unbacked hw hb))
  · intro p dpa b s hp hw hb -- and a write
    exact (execHostAccess_write hp b).trans (congrArg Host.Outcome.next (hostWindow_unbacked hw hb))

end Sys2Proof.Machine
end

/-!
SUPPORT. Background commands of a mailbox: creating, deleting, resetting and flushing spools, and the power states.
-/

section
namespace Sys2Proof.Machine

variable {s u : State} {p : Port} {n kind : Byte} {pad : Bytes}

/-! ## Background commands (R339) -/

/-- A background command of a mailbox on which none runs. -/
theorem startBg_idle (opcode arg : Nat) (f : State → State) (hb : (s.port p).bg = none) :
    s.startBg p opcode arg f =
      f ((s.setPort p { s.port p with bg := some ⟨opcode, arg⟩ }).reply p .backgroundStarted 0 []) := if_neg (by simp [hb])

theorem endBg_running {opcode arg : Nat} (rc : Rc) (ext : Nat) (hb : (s.port p).bg = some ⟨opcode, arg⟩) :
    s.endBg p opcode rc ext = ((s.setPort p { s.port p with
      bg := none, lastOpcode := opcode, lastRc := rc, lastExt := ext }).emit (.background p rc ext)).msix p 0 := by
  simp only [State.endBg, hb, if_true]

/-! ## Creating and deleting spools (R344) -/

theorem execCreateSpool_creates {d : Bytes} (ht : s.takes p false = true) (hl : d.length = 64)
    (hr : (parseSpool d).rangesOk = true) (hs : s.spoolState p (parseSpool d) = false) (hp : s.ringPlaced p (parseSpool d) = true)
    (hn : s.spoolTenant p (parseSpool d) = true) : execCreateSpool p d s = .next ((s.addSpool p (parseSpool d)).ok p []) := by
  rw [execCreateSpool, if_neg (not_not.2 hl), State.onMailbox_taken _ ht]
  simp only [hr, hs, hp, hn, Bool.not_true, Bool.false_eq_true, if_false]

/-- The form of a command of a spool: a kind that there is, and reserved bytes of zero. -/
theorem kindForm_ok (hk : kind = 1 ∨ kind = 2 ∨ kind = 3) (hz : pad.any (· ≠ 0) = false) :
    (kind = 0 || 3 < kind || pad.any (· ≠ 0)) = false := by
  rw [hz]
  rcases hk with rfl | rfl | rfl <;> rfl

section
variable (ht : s.takes p false = true)
include ht

theorem execDeleteSpool_reserved (hz : pad.any (· ≠ 0) = true) : execDeleteSpool p kind ⟨n, pad⟩ s = .next (s.deny p .field) :=
  (State.onMailbox_taken _ ht).trans (congrArg Host.Outcome.next (if_pos (by rw [hz, Bool.or_true])))

variable (hz : pad.any (· ≠ 0) = false)
include hz

theorem execDeleteSpool_completion {c : CompSpool} (hc : s.compSpool p n = some c)
    (hu : (s.spools.sub.any fun x => x.port = p && x.completion = n) = false) :
    execDeleteSpool p 3 ⟨n, pad⟩ s = .next (({ s with spools := { s.spools with
      comp := s.spools.comp.filter fun c => !(c.port = p && c.num = n) } }).ok p []) := by
  have hform := kindForm_ok (kind := 3) (.inr (.inr rfl)) hz
  rw [execDeleteSpool, State.onMailbox_taken _ ht]
  simp only [hform, hc, hu, Bool.false_eq_true, if_false, if_true, Option.isNone_some, Bool.or_self]

section
variable {x : SubSpool} (hk : kind = 1 ∨ kind = 2) (hx : s.spoolOfKind p kind n = some x) (ha : x.resetting = false)
include hk hx ha

theorem execDeleteSpool_submission (hi : x.idle = true) :
    execDeleteSpool p kind ⟨n, pad⟩ s = .next (({ s with spools := { s.spools with
      sub := s.spools.sub.filter fun y => !(y.port = p && y.num = n) } }).ok p []) := by
  have hform := kindForm_ok (hk.imp_right Or.inl) hz
  have hsub : kind ≠ 3 := by rcases hk with rfl | rfl <;> decide
  rw [execDeleteSpool, State.onMailbox_taken _ ht]
  simp only [hform, hx, hi, ha, if_neg hsub, Bool.false_eq_true, if_false, Bool.not_true, Bool.or_self]

/-! ## Resetting a spool (R338) -/

theorem execResetSpool_starts (hb : (s.port p).bg = none) :
    execResetSpool p kind ⟨n, pad⟩ s =
      .next ((((s.setPort p { s.port p with bg := some ⟨0xC012, n.toNat⟩ }).reply p .backgroundStarted 0 []).mapSub p n fun x =>
        { x with resetting := true }).endSpoolWork p n) := by
  have hform := kindForm_ok (hk.imp_right Or.inl) hz
  rw [execResetSpool, State.onMailbox_taken _ ht]
  simp only [hform, hx, ha, startBg_idle _ _ _ hb, Bool.false_eq_true, if_false]

end

end

theorem execSpoolResetComplete_drained {x : SubSpool} (hp : s.upstream.contains p = true) (hx : s.subSpool p n = some x)
    (hr : x.resetting = true) (hm : s.mailboxUp = true) (hu : u = s.drainReset p n x.unread)
    (hi : (u.subSpool p n).all SubSpool.idle = true) :
    execSpoolResetComplete p n s =
      .next ((u.mapSub p n fun x => { x with resetting := false, resets := x.resets + 1 }).endBg p 0xC012 .success 0) := by
  subst hu
  rw [execSpoolResetComplete, State.onPort_up _ hp]
  simp only [hx, hr, hm, hi, Bool.not_true, Bool.or_self, Bool.false_eq_true, if_false]

/-! ## Flush (R346) -/

/-- The job of a flush, in its mailbox's name. -/
def flushJob (p : Port) (opcode : Nat) (h : Handle) (work : MutWork) (t : Time) : MutJob :=
  { id := 0, client := .mailbox p, opcode := opcode, coll := if h = 0xFFFF then none else some h, work := work, arrival := t }

section
variable {h : Handle} (ht : s.takes p false = true) (hz : pad.any (· ≠ 0) = false) (hb : (s.port p).bg = none)
include ht hz hb

theorem execFlush_journal : execFlush p 1 ⟨h, pad⟩ s =
    .next ((((s.setPort p { s.port p with bg := some ⟨0xC030, 1⟩ }).reply p .backgroundStarted 0 []).addJob
      (flushJob p 0x21 h (.flushJournal false) s.now)).closeBlock closedFlush) := by
  rw [execFlush, State.onMailbox_taken _ ht]
  simp only [hz, startBg_idle _ _ _ hb]
  cases p <;> rfl

theorem execFlush_seam : execFlush p 2 ⟨h, pad⟩ s =
    .next (((s.setPort p { s.port p with bg := some ⟨0xC030, 2⟩ }).reply p .backgroundStarted 0 []).addJob
      (flushJob p 0x22 h .flushSeam s.now)) := by
  rw [execFlush, State.onMailbox_taken _ ht]
  simp only [hz, startBg_idle _ _ _ hb]
  cases p <;> rfl

end

/-- Settles O29: each command by the check its case passes, once its mailbox or its port takes it. -/
theorem spools : Obligations.Spools :=
  ⟨fun _ _ _ _ _ ht hz => execDeleteSpool_reserved ht hz,
    fun _ _ _ ht hl hr hs hp hn => execCreateSpool_creates ht hl hr hs hp hn,
    fun _ _ _ _ _ ht hz hc hu => execDeleteSpool_completion ht hz hc hu,
    fun _ _ _ _ _ _ ht hz hk hx hi ha => execDeleteSpool_submission ht hz hk hx ha hi,
    fun _ _ _ _ _ _ ht hz hk hx ha hb => execResetSpool_starts ht hz hk hx ha hb,
    fun _ _ _ _ _ hp hx hr hm hu hi => execSpoolResetComplete_drained hp hx hr hm hu hi,
    fun _ _ _ _ ht hz hb => execFlush_journal ht hz hb, fun _ _ _ _ ht hz hb => execFlush_seam ht hz hb⟩

end Sys2Proof.Machine
end

/-!
SUPPORT. Power states: what a transition ends as it begins, when it is complete, and what each new state takes away or brings back.
-/

section
namespace Sys2Proof.Machine

variable {s t u : State}

/-! ## The self-test and the recipes through changes of memory (R251, R439) -/

/-- The tests and the recipes are as before. -/
structure SameTasks (s t : State) : Prop where
  test : t.test = s.test
  tun : t.tun = s.tun

theorem SameTasks.refl (s : State) : SameTasks s s := ⟨rfl, rfl⟩

theorem SameTasks.trans (h : SameTasks s t) (k : SameTasks t u) : SameTasks s u := ⟨k.test.trans h.test, k.tun.trans h.tun⟩

theorem SameTasks.ite {c : Prop} [Decidable c] (h : SameTasks s t) (k : SameTasks s u) : SameTasks s (if c then t else u) := by
  split
  · exact h
  · exact k

theorem SameTasks.foldl {α : Type} {f : State → α → State} (hf : ∀ t x, SameTasks t (f t x)) (l : List α) (s : State) :
    SameTasks s (l.foldl f s) := by
  induction l generalizing s with
  | nil => exact .refl s
  | cons x l ih => exact (hf s x).trans (ih (f s x))

theorem takeExtentAt_sameTasks {base owner tier : Nat} {set : List Nat} (h : s.takeExtentAt base owner tier set = some t) :
    SameTasks s t := by
  unfold State.takeExtentAt at h
  dsimp only at h
  split at h
  · cases h
  · cases h; exact ⟨rfl, rfl⟩

theorem takeExtent_sameTasks {owner tier : Nat} {set : List Nat} (h : s.takeExtent owner tier set = some t) : SameTasks s t := by
  unfold State.takeExtent at h
  split at h
  · exact takeExtentAt_sameTasks h
  · cases h

theorem takeBytes_sameTasks {fuel owner tier bytes : Nat} {set : List Nat} (h : s.takeBytes fuel owner tier set bytes = some t) :
    SameTasks s t := by
  induction fuel generalizing s bytes with
  | zero =>
    unfold State.takeBytes at h
    split at h
    · cases h; exact .refl _
    · cases h
  | succ fuel ih =>
    unfold State.takeBytes at h
    split at h
    · cases h; exact .refl _
    · split at h
      · cases h
      · next hv => exact (takeExtent_sameTasks hv).trans (ih h)

theorem takeRow_sameTasks {fuel base owner tier bytes : Nat} {set : List Nat}
    (h : s.takeRow fuel base owner tier set bytes = some t) : SameTasks s t := by
  induction fuel generalizing s base bytes with
  | zero =>
    unfold State.takeRow at h
    split at h
    · cases h; exact .refl _
    · cases h
  | succ fuel ih =>
    unfold State.takeRow at h
    split at h
    · cases h; exact .refl _
    · split at h
      · cases h
      · next hv => exact (takeExtentAt_sameTasks hv).trans (ih h)

theorem placeArea_sameTasks {owner tier bytes b : Nat} (h : s.placeArea owner tier bytes = some (b, t)) : SameTasks s t := by
  unfold State.placeArea at h
  dsimp only at h
  split at h
  · cases h; exact .refl _
  · split at h
    · cases h
    · split at h
      · obtain ⟨v, hv, he⟩ := Option.map_eq_some_iff.1 h
        cases he
        exact takeRow_sameTasks hv
      · cases h

theorem applyArena_sameTasks (s : State) : SameTasks s s.applyArena := by
  unfold State.applyArena
  split
  · exact .refl s
  · split
    · next hv =>
      have hplaced := placeArea_sameTasks hv
      exact ⟨hplaced.test, hplaced.tun⟩
    · exact .refl s

theorem applySlices_sameTasks (code k : Nat) (empty : Bool) (s : State) : SameTasks s (s.applySlices code k empty) :=
  .ite ⟨rfl, rfl⟩ (.refl s)

theorem applyAreas_sameTasks (s : State) : SameTasks s s.applyAreas := by
  unfold State.applyAreas
  extract_lets a b c d w
  have hc : SameTasks s c := ((applySlices_sameTasks ..).trans (applySlices_sameTasks ..)).trans (applySlices_sameTasks ..)
  have hd : SameTasks s d := hc.trans (.ite ⟨rfl, rfl⟩ (.refl c))
  refine .ite ?_ hd
  split
  · next hv => exact hd.trans ⟨(takeBytes_sameTasks hv).test, (takeBytes_sameTasks hv).tun⟩
  · exact hd

theorem holdLine_sameTasks (n c line : Nat) (data : Bytes) (s : State) : SameTasks s (s.holdLine n c line data) := by
  unfold State.holdLine
  dsimp only
  refine .ite (.refl s) (.ite ?_ (.ite ?_ ?_))
  all_goals constructor <;> simp

theorem holdWrite_sameTasks (a : Nat) (s : State) : SameTasks s (s.holdWrite a) := by
  unfold State.holdWrite
  split
  · exact .refl s
  · next m _ =>
    have hown := holdLine_sameTasks m.stack m.channel (m.offset / 64 * 64) (s.mem.read a 64) s
    dsimp only
    split
    · exact .ite hown (hown.trans (holdLine_sameTasks ..))
    · exact hown

theorem devWrite_sameTasks (a : Nat) (b : Bytes) (s : State) : SameTasks s (s.devWrite a b) := by
  have hwritten : SameTasks s { s with mem := s.mem.write a b } := ⟨rfl, rfl⟩
  unfold State.devWrite State.holdRange
  exact .ite hwritten (hwritten.trans (.foldl (fun t _ => holdWrite_sameTasks _ t) _ _))

/-! ## The end of a self-test and of the runs (R251, R439) -/

/-- The tests are as before, and no run is running. -/
structure RunEnded (s t : State) : Prop where
  test : t.test = s.test
  run : t.tun.run = none

theorem endRun_ended (r : Run) (status : Nat) (failed : Option Nat) (s : State) : RunEnded s (s.endRun r status failed) := by
  unfold State.endRun
  extract_lets b w v x
  have hw : SameTasks s w := .ite (devWrite_sameTasks ..) (.refl s)
  have hv : SameTasks w v := by constructor <;> simp [v]
  have hx : SameTasks v x := .ite (.refl v) (by constructor <;> simp)
  have hareas := fun y : State => (applyArena_sameTasks y).trans (applyAreas_sameTasks _)
  exact ⟨by rw [(hareas _).test, State.setNum_test]; exact ((hw.trans hv).trans hx).test,
    by rw [(hareas _).tun, State.setNum_tun]⟩

/-- Queued runs end one after another. -/
theorem RunEnded.foldl_endRun (status : Nat) (q : List RunDesc) (h : RunEnded s t) :
    RunEnded s (q.foldl (fun (v : State) d => v.endRun (newRun d [] [] 0 v.stamp) status none) t) := by
  induction q generalizing t with
  | nil => exact h
  | cons d q ih =>
    have hended := endRun_ended (newRun d [] [] 0 t.stamp) status none t
    exact ih ⟨hended.test.trans h.test, hended.run⟩

theorem endRuns_ended (status : Nat) (s : State) : RunEnded s (s.endRuns status) ∧ (s.endRuns status).tun.queue = [] := by
  unfold State.endRuns
  extract_lets v q w
  have hv : RunEnded s v := by
    unfold v
    split
    · exact endRun_ended ..
    · next hn => exact ⟨rfl, hn⟩
  have hw : RunEnded s w := hv.foldl_endRun status q
  have harena := applyArena_sameTasks { w with tun := { w.tun with queue := [] } }
  exact ⟨⟨harena.test.trans hw.test, by rw [harena.tun]; exact hw.run⟩, by rw [harena.tun]⟩

theorem endSelfTest_none (outcome : Nat) (s : State) : (s.endSelfTest outcome).test.selfTest = none := by
  unfold State.endSelfTest
  split
  · next hn => exact hn
  · rw [endBg_frame]

/-! ## Setting a power state (R350) -/

variable {p : Port} {x : Transition}

theorem beginPower_active {k : Nat} (force : Bool) (hk : k < 2) :
    s.beginPower p k force = { s with dev := { s.dev with transition := some ⟨p, k, false⟩, target := k } } := by
  have hlow : ¬2 ≤ k := Nat.not_le.2 hk
  simp only [State.beginPower, if_neg hlow, decide_eq_false hlow, Bool.and_false, Bool.false_and]

/-- A transition to PS2, PS3 or PS4 begins with the end of the self-test and of every run. -/
theorem beginPower_low {k : Nat} (force : Bool) (hk : 2 ≤ k) (hu : u = (s.endSelfTest selfAborted).endRuns runPower) :
    s.beginPower p k force =
      { u with dev := { u.dev with transition := some ⟨p, k, force && s.spoolsHold⟩, target := k } } := by
  subst hu
  simp only [State.beginPower, if_pos hk, decide_eq_true hk, Bool.and_true]

theorem beginPower_tasks (hu : u = (s.endSelfTest selfAborted).endRuns runPower) :
    u.test.selfTest = none ∧ u.tun.run = none ∧ u.tun.queue = [] := by
  subst hu
  obtain ⟨⟨htest, hrun⟩, hqueue⟩ := endRuns_ended runPower (s.endSelfTest selfAborted)
  exact ⟨by rw [htest]; exact endSelfTest_none .., hrun, hqueue⟩

section
variable {target flags : Byte} {pad : Bytes}

theorem execSetPowerState_starts (ht : s.takes p false = true) (hz : pad.any (· ≠ 0) = false) (ht4 : target.toNat ≤ 4)
    (hf : flags.toNat ≤ 1) (hn : s.dev.transition = none) (h4 : s.dev.power ≠ 4) (hne : target.toNat ≠ s.dev.power)
    (hlend : 3 ≤ target.toNat → (s.sw 0x3400).st = .off)
    (hbusy : 2 ≤ target.toNat → flags.getLsbD 0 = false → s.spoolsBusy = false) (hb : (s.port p).bg = none) :
    execSetPowerState p target ⟨flags, pad⟩ s =
      .next (((s.setPort p { s.port p with bg := some ⟨0xC050, target.toNat⟩ }).reply p .backgroundStarted 0 []).beginPower p
        target.toNat (flags.getLsbD 0)) := by
  have hform : (4 < target.toNat || 1 < flags || pad.any (· ≠ 0)) = false := by
    have hflags : ¬(1 : Byte) < flags := by rw [BitVec.lt_def]; exact Nat.not_lt.2 hf
    rw [hz, decide_eq_false (Nat.not_lt.2 ht4), decide_eq_false hflags]; rfl
  have hkeep : (3 ≤ target.toNat && (s.sw 0x3400).st != .off) = false := by
    by_cases h : 3 ≤ target.toNat
    · simp [hlend h]
    · simp [h]
  have hfree : (2 ≤ target.toNat && !flags.getLsbD 0 && s.spoolsBusy) = false := by
    cases hforce : flags.getLsbD 0 with
    | true => simp
    | false =>
      by_cases h : 2 ≤ target.toNat
      · simp [hbusy h hforce]
      · simp [h]
  rw [execSetPowerState, State.onMailbox_taken _ ht]
  simp only [hform, hn, h4, hne, hkeep, hfree, startBg_idle _ _ _ hb, Option.isSome_none, Bool.false_eq_true, if_false]

end

/-! ## Reaching a power state (R350, R351) -/

section
variable (hx : s.dev.transition = some x) (hs : s.serves = true)
include hx hs

theorem execPowerTransitionComplete_serving (hl : x.target ≤ 2) (hw : x.target = 2 → s.dev.power < 2 → s.tunBatches = false) :
    execPowerTransitionComplete s = .next (s.reachPower x) := by
  have hidle : (decide (x.target = 2) && decide (s.dev.power < 2) && s.tunBatches) = false := by
    by_cases h2 : x.target = 2
    · by_cases hp : s.dev.power < 2
      · simp [hw h2 hp]
      · simp [hp]
    · simp [h2]
  simp only [execPowerTransitionComplete, hx, hs, hidle, if_pos hl, Bool.not_true, Bool.false_eq_true, if_false]

theorem execPowerTransitionComplete_quiet (hl : 2 < x.target) (hd : s.allDone = true) (hc : s.muts.journal.current = none)
    (hu : s.muts.journal.unwritten = []) : execPowerTransitionComplete s = .next (s.reachPower x) := by
  have hnot2 : x.target ≠ 2 := Nat.ne_of_gt hl
  simp only [execPowerTransitionComplete, hx, hs, hd, hc, hu, hnot2, if_neg (Nat.not_le.2 hl), decide_false, Bool.false_and,
    Bool.not_true, Bool.false_eq_true, if_false, Option.isSome_none, List.isEmpty_nil]

end

/-- The device reads the target, and no transition is in progress. -/
def State.atTarget (x : Transition) (s : State) : State :=
  { s with dev := { s.dev with power := x.target, transition := none, target := x.target } }

/-- What a state from PS2 on takes away: the runs end, the clusters hold nothing, and queries that need them complete. -/
def State.withoutTun (s : State) : State :=
  ((s.endRuns runPower).clearTun).endQueries (fun q => q.stage == .flat || q.stage == .flatWait)
    fun q => { q with degraded := true, powerLimited := true }

/-- The transition is counted and recorded, a forced one too, and the command ends. -/
def State.countPower (x : Transition) (old : Nat) (s : State) : State :=
  let v := (s.bump 0xC00003).logChange 2 old x.target 0
  (if x.forced then v.bump 0xC00004 else v).endBg x.port 0xC050 .success 0

/-- A transition reaches its target through what the target takes away, what it does to the links, and what PS4 discards. -/
theorem reachPower_eq (x : Transition) (s : State) :
    s.reachPower x =
      let u := if 2 ≤ x.target then (s.atTarget x).withoutTun else s.atTarget x
      let v := if 3 ≤ x.target then u.linksStop else if 3 ≤ s.dev.power then u.linksStart else u
      (if x.target = 4 then v.enterPs4 else v).countPower x s.dev.power := rfl

/-- PS0 or PS1. -/
theorem reachPower_active (hl : x.target ≤ 1) :
    s.reachPower x =
      (if 3 ≤ s.dev.power then (s.atTarget x).linksStart else s.atTarget x).countPower x s.dev.power := by
  rw [reachPower_eq]
  simp only [if_neg (show ¬2 ≤ x.target by omega), if_neg (show ¬3 ≤ x.target by omega), if_neg (show x.target ≠ 4 by omega)]

/-- PS2. -/
theorem reachPower_ps2 (hl : x.target = 2) :
    s.reachPower x = (if 3 ≤ s.dev.power then (s.atTarget x).withoutTun.linksStart
      else (s.atTarget x).withoutTun).countPower x s.dev.power := by
  rw [reachPower_eq]
  simp only [hl]
  rfl

/-- PS3 or PS4. -/
theorem reachPower_low (hl : 3 ≤ x.target) :
    s.reachPower x = (if x.target = 4 then (s.atTarget x).withoutTun.linksStop.enterPs4
      else (s.atTarget x).withoutTun.linksStop).countPower x s.dev.power := by
  rw [reachPower_eq]
  simp only [if_pos hl, if_pos (show 2 ≤ x.target by omega)]

/-- Settles O30: a transition starts, is complete and reaches its target by `reachPower_active`, `reachPower_ps2` and
`reachPower_low`. -/
theorem powerStates : Obligations.PowerStates := by
  refine ⟨fun p target flags pad s ht hz h4 hf hn hp hne hlend hbusy hb =>
      execSetPowerState_starts ht hz h4 hf hn hp hne hlend hbusy hb, fun p k force s hk => beginPower_active force hk,
    fun x s hx hs hl hw => execPowerTransitionComplete_serving hx hs hl hw,
    fun x s hx hs hl hd hc hu => execPowerTransitionComplete_quiet hx hs hl hd hc hu, ?_, ?_, ?_, ?_, ?_, ?_,
    fun p k rc e s hb => endBg_running rc e hb, fun p k force u s hk hu => ⟨beginPower_low force hk hu, beginPower_tasks hu⟩⟩
  · intro x k w v s hl hp hw hv _ -- PS0 or PS1 from PS0 to PS2
    rw [reachPower_active hl, if_neg (by omega), hv, hw]
    rfl
  · intro x k w v s hl hp hw hv _ -- PS2 from PS0 or PS1
    rw [reachPower_ps2 hl, if_neg (by omega), hv, hw]
    rfl
  · intro x k w v s hl hw hv _ -- PS3
    rw [reachPower_low (by omega), if_neg (by omega), hv, hw]
    rfl
  · intro x k w v s hl hw hv _ -- PS4
    rw [reachPower_low (by omega), if_pos hl, hv, hw]
    rfl
  · intro x k w v s hl hp hw hv _ -- PS0 or PS1 from PS3
    rw [reachPower_active hl, if_pos (by omega), hv, hw]
    rfl
  · intro x k w v s hl hp hw hv _ -- PS2 from PS3
    rw [reachPower_ps2 hl, if_pos (by omega), hv, hw]
    rfl

end Sys2Proof.Machine
end

/-!
SUPPORT. The Pattern book over the mailbox, and the copies of its retained values: what is read and written in one piece, a commit,
and how the write of a copy ends.
-/

section
namespace Sys2Proof.Machine

variable {s : State} {p : Port}

/-! ## Entries in one piece (R343, R356) -/

theorem key_div_256 (index : Nat) (sub : Byte) : key index sub.toNat / 256 = index := by
  have := sub.isLt
  unfold key
  omega

theorem Ty.size_pos {ty : Ty} {n : Nat} (h : ty.size = some n) : 0 < n := by
  cases ty <;> cases h <;> decide

theorem Ty.size_le {ty : Ty} {n : Nat} (h : ty.size = some n) : n ≤ 8 := by
  cases ty <;> cases h <;> decide

theorem toNat_offset_zero : (0 : BitVec 32).toNat = 0 := rfl

theorem countResult_ok (s : State) : s.countResult rOk = s := rfl

theorem execResynchronise_captures (ht : s.takes p true = true) :
    execResynchronise p s = .next (({ s with trans := { s.trans with token := s.trans.token + 1 } }).ok p s.summary) :=
  State.onMailbox_taken _ ht

section
variable {k n : Nat} {r : Row}

/-- A number that its transport may read, asked for whole. -/
theorem answerRead_number {src : Source} (hserved : s.served (k / 256) = true) (hr : s.row k = some r) (hp : s.policy src ≠ 0)
    (ha : r.access ≠ .wo) (hn : r.ty.size = some n) :
    s.answerRead src k 0 n = ⟨rOk, r.ty.code, n, natLE n (s.value k)⟩ := by
  have hlimit : ¬sourceLimit src < n := Nat.not_lt.2 ((Ty.size_le hn).trans (le_sourceLimit src))
  have hpos : n ≠ 0 := Nat.ne_of_gt (Ty.size_pos hn)
  have hwhole : sub (natLE n (s.value k)) 0 n = natLE n (s.value k) := by
    rw [sub, List.drop_zero, List.take_of_length_le (Nat.le_of_eq (natLE_length ..))]
  simp [State.answerRead, hserved, hr, hp, ha, hn, hlimit, hpos, hwhole]

/-- A read of an entry whose value is not open changes nothing where it is not refused. -/
theorem dictRead_settled {src : Source} {off len : Nat} {a : Answer} (ho : s.openEntry k = false)
    (ha : s.answerRead src k off len = a) (hr : a.result = rOk) : s.dictRead src k off len = (s, a) := by
  simp [State.dictRead, ho, ha, hr, countResult_ok]

theorem execGetEntry_number {index : BitVec 16} {sub : Byte} {length : BitVec 32} {pad : Bytes} (ht : s.takes p true = true)
    (hz : pad.any (· ≠ 0) = false) (hk : k = key index.toNat sub.toNat) (hserved : s.served (k / 256) = true)
    (hr : s.row k = some r) (ha : r.access ≠ .wo) (hn : r.ty.size = some n) (hl : length.toNat = n)
    (ho : s.openEntry k = false) :
    execGetEntry p index sub 0 ⟨length, pad⟩ s = .next (s.ok p ([0x00, r.ty.code, 0, 0] ++ natLE 4 n ++ natLE n (s.value k))) := by
  have hread := dictRead_settled ho (answerRead_number (src := .mailbox p) hserved hr (by simp [State.policy]) ha hn) rfl
  rw [execGetEntry, State.onMailbox_taken _ ht]
  simp only [hz, ← hk, hl, toNat_offset_zero, hread, Bool.false_eq_true, if_false]
  rfl

theorem writeGate_row {src : Source} {expert : Bool} (hg : s.writeGate src expert k = none) : ∃ r, s.row k = some r := by
  cases hr : s.row k with
  | some r => exact ⟨r, rfl⟩
  | none =>
    simp only [State.writeGate, hr] at hg
    repeat' split at hg
    all_goals cases hg

/-- A value of a fixed size is written in one piece. -/
theorem pieceWrite_sized {src : Source} {expert : Bool} {b : Bytes} (hg : s.writeGate src expert k = none) (hr : s.row k = some r)
    (hn : r.ty.size = some n) (hb : b.length = n) : s.pieceWrite src expert false k 0 b = s.dictWrite src expert k b := by
  have hlimit : b.length ≤ sourceLimit src := by rw [hb]; exact (Ty.size_le hn).trans (le_sourceLimit src)
  simp [State.pieceWrite, hg, hr, hn, hlimit]

/-- A number in its range, for an entry that is no function's state. -/
theorem contentWrite_number {b : Bytes} (hn : r.ty.size = some n) (hb : b.length = n)
    (hs : (switchable (k / 256) && k % 256 = 1) = false) (hv : s.rangeOk k (leNat b) = true) :
    s.contentWrite r k b = s.numWrite r k (leNat b) := by
  simp only [State.contentWrite, hn, hb, hs, hv, ne_eq, not_true_eq_false, Bool.not_true, Bool.false_eq_true, if_false]

theorem flags_expertOnly {flags : Byte} (h : flags.toNat ≤ 1) : ¬4 ≤ flags ∧ flags.getLsbD 1 = false := by
  have hcases : flags = 0 ∨ flags = 1 := by
    rcases Nat.le_one_iff_eq_zero_or_eq_one.1 h with h | h
    · exact .inl (BitVec.eq_of_toNat_eq h)
    · exact .inr (BitVec.eq_of_toNat_eq h)
  rcases hcases with rfl | rfl <;> decide

theorem execSetEntry_stores {index : BitVec 16} {sub flags : Byte} {pad value : Bytes} (ht : s.takes p true = true)
    (hz : pad.any (· ≠ 0) = false) (hk : k = key index.toNat sub.toNat) (hf : flags.toNat ≤ 1)
    (hg : s.writeGate (.mailbox p) (flags.getLsbD 0) k = none) (hsub : sub ≠ 0) (hr : rowOf k = some r)
    (hn : r.ty.size = some n) (hl : value.length = n) (hs : (switchable index.toNat && sub = 1) = false)
    (hv : s.rangeOk k (leNat value) = true) (ho : s.ownRule k (leNat value) = none) (ha : r.access ≠ .wo) :
    execSetEntry p index sub flags ⟨0, pad⟩ value s = .next (((s.storeNum k (leNat value)).countSet k rOk).ok p (zeros 8)) := by
  obtain ⟨hreserved, hlast⟩ := flags_expertOnly hf
  have hmod : k % 256 = sub.toNat := by rw [hk, key_mod_256]
  have hdiv : k / 256 = index.toNat := by rw [hk, key_div_256]
  obtain ⟨r', hrow⟩ := writeGate_row hg
  have hfirst : k % 256 ≠ 0 := fun h0 => hsub (BitVec.eq_of_toNat_eq (hmod.symm.trans h0))
  obtain rfl : r' = r := Option.some.inj ((State.row_eq hfirst hrow).symm.trans hr)
  have hswitch : (switchable (k / 256) && k % 256 = 1) = false := by
    have hone : (sub = 1) ↔ (sub.toNat = 1) := ⟨fun h => by rw [h]; rfl, fun h => BitVec.eq_of_toNat_eq h⟩
    rw [hdiv, hmod, ← hs]
    simp only [hone]
  have hwrite : s.pieceWrite (.mailbox p) (flags.getLsbD 0) false k 0 value = ((s.storeNum k (leNat value)).countSet k rOk, rOk) := by
    rw [pieceWrite_sized hg hrow hn hl, State.dictWrite_passed _ hg hrow, contentWrite_number hn hl hswitch hv,
      numWrite_stores ho ha]
  rw [execSetEntry, State.onMailbox_taken _ ht]
  simp only [hz, ← hk, hreserved, hlast, hs, toNat_offset_zero, hwrite, decide_false, Bool.or_self, Bool.false_eq_true, if_false]
  rfl

end

/-! ## Commits (R366) -/

theorem commit_idle (empty : Bool) (hf : s.hasFlash = true) (hw : s.ret.writing = none) :
    s.commit empty = (s.startCopy ((s.newerCopy.map RetCopy.sequence).getD 0 + 1) empty, rOk,
      (s.newerCopy.map RetCopy.sequence).getD 0 + 1) := by
  simp only [State.commit, hf, hw, Bool.not_true, Bool.false_eq_true, if_false]

theorem execCommitRetained_idle {q : Nat} (ht : s.takes p true = true) (hd : s.dev.stepsDone = true) (hf : s.hasFlash = true)
    (hw : s.ret.writing = none) (hq : q = (s.newerCopy.map RetCopy.sequence).getD 0 + 1) :
    execCommitRetained p s = .next ((s.startCopy q false).ok p ([0x00, 0, 0, 0] ++ natLE 4 q)) := by
  subst hq
  have hcommit : s.commitFrom (.mailbox p) =
      (s.startCopy ((s.newerCopy.map RetCopy.sequence).getD 0 + 1) false, rOk, (s.newerCopy.map RetCopy.sequence).getD 0 + 1) := by
    simp [State.commitFrom, State.policy, hd, commit_idle false hf hw, countResult_ok]
  rw [execCommitRetained, State.onMailbox_taken _ ht]
  simp only [hcommit]
  rfl

/-! ## The write of a copy ends (R366) -/

/-- Outside BOOT there are no steps of start-up to go on with. -/
theorem bootSteps_past (h : s.dev.st ≠ .boot) : s.bootSteps = s := by
  simp [State.bootSteps, h]

theorem nextCopy_st (s : State) : s.nextCopy.dev.st = s.dev.st := by
  unfold State.nextCopy
  split <;> rfl

section
variable {w : RetWrite} (hw : s.ret.writing = some w) (hon : s.dev.st ≠ .off)
include hw hon

theorem execRetainedCopyWritten_retries (hr : w.retried = false) :
    execRetainedCopyWritten false s = .next { s with ret := { s.ret with writing := some { w with retried := true } } } := by
  simp [execRetainedCopyWritten, hw, hon, hr]

variable (hb : s.dev.st ≠ .boot)
include hb

theorem execRetainedCopyWritten_passes :
    execRetainedCopyWritten true s = .next ({ s.storeCopy w.toA w.copy with
      ret := { (s.storeCopy w.toA w.copy).ret with writing := none, lastSequence := w.copy.sequence } }).nextCopy := by
  simp only [execRetainedCopyWritten, hw, beq_false_of_ne hon, Bool.false_eq_true, if_false, if_true]
  exact congrArg Host.Outcome.next (bootSteps_past (by rw [nextCopy_st]; exact hb))

theorem execRetainedCopyWritten_fails (hr : w.retried = true) :
    execRetainedCopyWritten false s =
      .next ((({ s with ret := { s.ret with writing := none, failed := true } }).event 0x6B 0xFFFF 0).nextCopy) := by
  simp only [execRetainedCopyWritten, hw, hr, beq_false_of_ne hon, Bool.not_true, Bool.false_eq_true, if_false]
  exact congrArg Host.Outcome.next (bootSteps_past (by rw [nextCopy_st, (State.event_only ..).st]; exact hb))

end

/-- Settles O31: an entry is read or written in one piece, a commit starts a copy, and a copy's write ends, is tried again or fails. -/
theorem dictionaryMailbox : Obligations.DictionaryMailbox := by
  refine ⟨fun p s ht => execResynchronise_captures ht, ?_, ?_, fun p q s ht hd hf hw hq => execCommitRetained_idle ht hd hf hw hq,
    fun w s hw hon hb => execRetainedCopyWritten_passes hw hon hb, fun w s hw hon hr => execRetainedCopyWritten_retries hw hon hr,
    fun w s hw hon hb hr => execRetainedCopyWritten_fails hw hon hb hr⟩
  · intro p index sub_ length pad k n r s ht hz hk hserved hr ha hn _ hl ho -- GET_ENTRY
    exact execGetEntry_number ht hz hk hserved hr ha hn hl ho
  · intro p index sub_ flags pad value k n r s ht hz hk hf hg hsub hr hn hl hs hv ho ha -- SET_ENTRY
    exact execSetEntry_stores ht hz hk hf hg hsub hr hn hl hs hv ho ha

end Sys2Proof.Machine
end

/-!
SUPPORT. The self-test: its start, a slice in its turn, its pauses and its limit.
-/

section
namespace Sys2Proof.Machine

variable {s : State} {p : Port} {x : SelfTest} {r : SliceRef}

/-! ## Starting, and the result (R348, R435) -/

section
variable {kind : Byte} {pad : Bytes} (ht : s.takes p false = true)
include ht

theorem execStartSelfTest_badForm (hf : (kind ≠ 1 ∧ kind ≠ 2) ∨ pad.any (· ≠ 0) = true) :
    execStartSelfTest p ⟨kind, pad⟩ s = .next (s.deny p .field) :=
  (State.onMailbox_taken _ ht).trans (congrArg Host.Outcome.next (if_pos (by simpa using hf)))

/-- The test that a command starts: the short slices, and for the extended test the long ones after them. -/
def State.newSelfTest (p : Port) (kind : Byte) (s : State) : SelfTest :=
  { port := p, extended := kind = 2, started := s.stamp, begun := s.aonNs,
    left := if kind = 2 then s.shortSlices ++ s.longSlices else s.shortSlices }

theorem execStartSelfTest_starts (hz : pad.any (· ≠ 0) = false) (hk : kind = 1 ∨ kind = 2) (hp : s.dev.power < 3)
    (hfree : s.testBusy = false) (hb : (s.port p).bg = none) :
    execStartSelfTest p ⟨kind, pad⟩ s =
      .next { (s.setPort p { s.port p with bg := some ⟨0xC060, kind.toNat⟩ }).reply p .backgroundStarted 0 [] with
        test := { s.test with selfTest := some (s.newSelfTest p kind) } } := by
  have hform : ((kind ≠ 1 && kind ≠ 2) || pad.any (· ≠ 0)) = false := by
    rw [hz]
    rcases hk with rfl | rfl <;> rfl
  rw [execStartSelfTest, State.onMailbox_taken _ ht]
  simp only [hform, hfree, if_neg (Nat.not_le.2 hp), startBg_idle _ _ _ hb, Bool.false_eq_true, if_false]
  cases p <;> rfl

end

theorem execGetSelfTestResult_kept (ht : s.takes p true = true) :
    execGetSelfTestResult p s = .next (s.ok p ([s.test.result.kind, s.test.result.outcome, 0, 0] ++ natLE 4 s.test.result.failures ++
      natLE 8 s.test.result.started ++ natLE 8 s.test.result.completed)) :=
  State.onMailbox_taken _ ht

/-! ## A slice in its turn (R436, R437, R438) -/

/-- A slice outside memory stands in the list of its test as it is. -/
theorem key_of_phase (h : s.slicePhase r ≠ 3) : SliceRef.key r = r := by
  cases r with
  | hbmSlice | bulkSlice => exact absurd rfl h
  | compute | golden | link | caskSlice | d2dGroup => rfl

/-- The slice `r` is done with: tested where it can be, and a failed one acts as its failure (R438). -/
def State.sliceDone (r : SliceRef) (x : SelfTest) (pass : Bool) (s : State) : State :=
  let can := s.canTest r
  let u := if can then s.marchStarts r else s
  let v := { u with test := { u.test with selfTest := some (x.past r (s.slicePhase r) can (can && !pass)) } }
  if can && !pass then v.sliceFails r else v

section
variable (hx : s.test.selfTest = some x)
include hx

/-- A listed slice outside memory, in its turn, and its unit free for the test. -/
theorem execSelfTestSlice_turn (pass : Bool) (h3 : s.slicePhase r ≠ 3) (hl : x.left.contains r = true)
    (hph : x.phase ≤ s.slicePhase r) (hmin : (x.left.all fun y => s.slicePhase r ≤ s.slicePhase y) = true)
    (hp : x.paused = true → s.aonNs ≤ x.pausedAt + 100000) (hf : s.sliceLater r = false) :
    execSelfTestSlice r pass s = .next (s.sliceDone r x pass).testEnds := by
  have hpause : (x.paused && decide (x.pausedAt + 100000 < s.aonNs)) = false := by
    cases hc : x.paused with
    | false => rfl
    | true => simpa using hp hc
  have hgo : (!decide (x.left.contains r = true) ||
      !(decide (x.phase ≤ s.slicePhase r) && x.left.all fun y => s.slicePhase r ≤ s.slicePhase y) ||
      (x.paused && decide (x.pausedAt + 100000 < s.aonNs)) || s.sliceLater r) = false := by
    rw [hl, hmin, hpause, hf, decide_eq_true hph]; rfl
  simp only [execSelfTestSlice, hx, key_of_phase h3, if_neg h3, hgo, Bool.false_eq_true, if_false]
  rfl

theorem execSelfTestSlice_waits (pass : Bool) (hw : s.sliceLater r = true) : execSelfTestSlice r pass s = .next s := by
  simp only [execSelfTestSlice, hx, hw, Bool.or_true, if_true]

end

theorem execSelfTestSlice_noTest (pass : Bool) (hx : s.test.selfTest = none) : execSelfTestSlice r pass s = .next s := by
  simp only [execSelfTestSlice, hx]

section
variable (hc : s.canTest r = true)
include hc

theorem sliceDone_passed : s.sliceDone r x true = { s.marchStarts r with
    test := { (s.marchStarts r).test with selfTest := some (x.past r (s.slicePhase r) true false) } } := by
  simp only [State.sliceDone, hc, if_true, Bool.not_true, Bool.and_false, Bool.false_eq_true, if_false]

theorem sliceDone_failed : s.sliceDone r x false = State.sliceFails r { s.marchStarts r with
    test := { (s.marchStarts r).test with selfTest := some (x.past r (s.slicePhase r) true true) } } := by
  simp only [State.sliceDone, hc, if_true, Bool.not_false, Bool.and_true]

end

theorem sliceDone_untested (pass : Bool) (hc : s.canTest r = false) : s.sliceDone r x pass =
    { s with test := { s.test with selfTest := some (x.past r (s.slicePhase r) false false) } } := by
  simp only [State.sliceDone, hc, Bool.false_and, Bool.false_eq_true, if_false]

/-! ## Pauses and the limit (R435, R439) -/

section
variable (hx : s.test.selfTest = some x)
include hx

theorem execSelfTestResume_idle (hp : x.paused = true) (hi : x.idleSince + s.num 0xD30003 ≤ s.aonNs) (hq : s.search.queries = [])
    (ho : (s.spools.sub.all fun y => y.outstanding = 0) = true) :
    execSelfTestResume s = .next { s with test := { s.test with selfTest := some { x with paused := false } } } := by
  simp only [execSelfTestResume, hx]
  exact if_pos (by rw [hp, decide_eq_true hi, hq, ho]; rfl)

theorem execSelfTestResume_running (hp : x.paused = false) : execSelfTestResume s = .next s := by
  simp only [execSelfTestResume, hx, hp, Bool.false_and, Bool.false_eq_true, if_false]

/-- The limit of a test is its own kind's. -/
theorem execSelfTestLimit_eq : execSelfTestLimit s =
    if x.begun + s.num (if x.extended then 0xD30005 else 0xD30004) * 1000000000 ≤ s.aonNs then .next (s.endSelfTest selfAborted)
    else .next s := by
  simp only [execSelfTestLimit, hx]

end

/-- Settles O49: a test starts where none of its refusals holds, a slice in its turn is done with by `execSelfTestSlice_turn`, and a
pause and the limit by their times. -/
theorem selfTestCommands : Obligations.SelfTestCommands := by
  refine ⟨fun p kind pad s ht hz hk hp hfree hb => execStartSelfTest_starts ht hz hk hp hfree hb,
    fun p kind pad s ht hf => execStartSelfTest_badForm ht hf, fun p s ht => execGetSelfTestResult_kept ht, ?_, ?_, ?_,
    fun r pass x s hx hw => execSelfTestSlice_waits hx pass hw, fun r pass s hx => execSelfTestSlice_noTest pass hx,
    fun x s hx hp hi hq ho => execSelfTestResume_idle hx hp hi hq ho, fun x s hx hp => execSelfTestResume_running hx hp, ?_, ?_⟩
  · intro r x s hx h3 hl hph hmin hp hf hc -- a slice that passes
    exact (execSelfTestSlice_turn hx true h3 hl hph hmin hp hf).trans (by rw [sliceDone_passed hc])
  · intro r x s hx h3 hl hph hmin hp hf hc -- that fails
    exact (execSelfTestSlice_turn hx false h3 hl hph hmin hp hf).trans (by rw [sliceDone_failed hc])
  · intro r pass x s hx h3 hl hph hmin hp hf hc -- and that is left out
    exact (execSelfTestSlice_turn hx pass h3 hl hph hmin hp hf).trans (by rw [sliceDone_untested pass hc])
  · intro x s hx hd -- the limit reached
    exact (execSelfTestLimit_eq hx).trans (if_pos hd)
  · intro x s hx hd -- and not yet
    exact (execSelfTestLimit_eq hx).trans (if_neg (Nat.not_le.2 hd))

end Sys2Proof.Machine
end

/-!
SUPPORT. Two statements about every step: the tables keep their canonical forms over a reset too, and a freeze outlasts every
command but a reset.
-/

section
namespace Sys2Proof.Machine

variable {s s₀ t : State} {c : Instr}

/-! ## Canonical forms over a reset (R354, R255) -/

/-- The tables of `t` are in their canonical forms where those of `s` are. -/
def KeepsForms (s t : State) : Prop := s.canonical → t.canonical

theorem Keeps.canonical (k : Keeps s t) (h : s.canonical) : t.canonical := by
  obtain ⟨hbook, hsw, hmem, hhost⟩ := h
  exact ⟨k.book hbook, k.switches hsw, k.mem hmem, k.hostMem hhost⟩

/-- A reset empties the book and the switches, and only drops bytes of memory. -/
theorem survivors_canonical (h : s.canonical) : s.survivors.canonical := by
  obtain ⟨-, -, hmem, hhost⟩ := h
  exact ⟨rfl, rfl, Memory.wf_drop (fun a => a < cxlBase || caskBase ≤ a || s.lentCxl a) hmem, hhost⟩

theorem setDevState_canonical (x : DevState) (h : s.canonical) : (s.setDevState x).canonical := by
  unfold State.setDevState
  split
  · exact h
  · exact (Keeps.logChange _ _ _ _ (.refl _)).canonical h

theorem beginBoot_canonical (straps : BitVec 2) (epoch : Nat) (h : s.canonical) : (s.beginBoot straps epoch).canonical := by
  unfold State.beginBoot
  dsimp only
  split
  · exact (Keeps.setNum _ _ (.refl _)).canonical (setDevState_canonical _ h)
  · exact setDevState_canonical _ h

theorem reboot_canonical (straps : BitVec 2) (h : s.canonical) : (s.reboot straps).canonical :=
  (Keeps.refl _).bootSteps.canonical
    (beginBoot_canonical straps _ (survivors_canonical ((Keeps.refl s).flashLanded.canonical h)))

theorem execPowerGood_canonical (straps : BitVec 2) : Ends none (KeepsForms s) (execPowerGood straps s) :=
  .ite (.next id)
    (.next fun h => (Keeps.refl _).bootSteps.canonical (beginBoot_canonical straps 1 (survivors_canonical h)))

theorem execVauxLost_canonical : Ends none (KeepsForms s) (execVauxLost s) :=
  .next fun h => survivors_canonical ((Keeps.refl s).flashCut.canonical h)

theorem execPerstaN_canonical (straps : BitVec 2) : Ends none (KeepsForms s) (execPerstaN straps s) :=
  .ite (.next id) (.next fun h => reboot_canonical straps h)

theorem execDeviceReset_canonical (p : Port) (straps : BitVec 2) : Ends none (KeepsForms s) (execDeviceReset p straps s) := by
  have hdeny (e : Ext) : KeepsForms s (s.deny p e) := ((Keeps.refl s).deny p e).canonical
  refine .ite (.next id) (.ite (.next (hdeny _)) (.ite (.next (hdeny _)) (.next ?_)))
  dsimp only
  split
  · exact hdeny _
  · exact fun h => reboot_canonical straps (((Keeps.refl s).ok p []).canonical h)

theorem execZeroFillComplete_canonical (n : Fin 12) :
    Ends (s.stackStop n) (KeepsForms s) (execZeroFillComplete n s) := by
  refine .orFault (.ite (.next id) (.next fun ⟨hbook, hsw, hmem, hhost⟩ => (Keeps.refl _).restore.canonical ?_))
  exact ⟨hbook, hsw, Memory.wf_drop _ hmem, hhost⟩

/-- Every command leaves tables in canonical form as such. -/
theorem exec_canonical (c : Instr) (s : State) : Ends (c.stop s) (KeepsForms s) (exec c s) := by
  cases c with
  | powerGood straps => exact execPowerGood_canonical straps
  | vauxLost => exact execVauxLost_canonical
  | perstaN straps => exact execPerstaN_canonical straps
  | deviceReset p straps => exact execDeviceReset_canonical p straps
  | zeroFillComplete n => exact execZeroFillComplete_canonical n
  | _ => exact (exec_ends_keeps _ s rfl).mono fun _ h => h.canonical

/-- Settles O5: a cycle of the clock touches no table, and of the commands those that `Keeps` does not cover drop or rebuild them. -/
theorem tablesStayCanonical : Obligations.TablesStayCanonical := by
  intro s t h hs
  rcases step_cases h with ⟨-, rfl⟩ | ⟨c, rest, -, h⟩
  · rw [tick_frame]; exact hs
  · exact (exec_canonical c { s with pending := rest }).of_next h hs

/-! ## A freeze outlasts every command but a reset (R441) -/

/-- The mailbox is down in a freeze, so that DEVICE_RESET does nothing then. -/
theorem execDeviceReset_frozen (p : Port) (straps : BitVec 2) (h : s.dev.frozen = true) :
    execDeviceReset p straps s = .next s := by
  simp [execDeviceReset, State.onMailbox, State.mailboxUp, h]

theorem execPowerGood_powered (straps : BitVec 2) (h : s.dev.st ≠ .off) : execPowerGood straps s = .next s := by
  simp [execPowerGood, h]

/-- A stack does not return while its main clocks stand. -/
theorem execZeroFillComplete_frozen (n : Fin 12) (h : s.dev.frozen = true) :
    Ends (s.stackStop n) (fun t => t.dev.frozen = true) (execZeroFillComplete n s) := by
  refine .orFault ?_
  have hstop : (!s.running || !(s.stack n).zeroFilling) = true := by simp [State.running, h]
  dsimp only
  rw [if_pos hstop]
  exact .next h

/-- In a freeze of a powered device every command but PERSTA_N and VAUX_LOST leaves it frozen. -/
theorem exec_frozen (hp : s.dev.st ≠ .off) (hf : s.dev.frozen = true) (h : exec c s = .next t) :
    t.dev.frozen = true ∨ (∃ straps, c = .perstaN straps) ∨ c = .vauxLost := by
  cases c with
  | powerGood straps =>
    cases (execPowerGood_powered straps hp).symm.trans h
    exact .inl hf
  | vauxLost => exact .inr (.inr rfl)
  | perstaN straps => exact .inr (.inl ⟨straps, rfl⟩)
  | deviceReset p straps =>
    cases (execDeviceReset_frozen p straps hf).symm.trans h
    exact .inl hf
  | zeroFillComplete n => exact .inl ((execZeroFillComplete_frozen n hf).of_next h)
  | _ => exact .inl (((exec_ends_keeps _ s rfl).of_next h).frozen hf)

/-- Settles O8: a cycle of the clock leaves the device as it is, and a command by `exec_frozen`. -/
theorem freezeLeftOnlyByReset : Obligations.FreezeLeftOnlyByReset := by
  intro s t h hp hf ht
  rcases step_cases h with ⟨-, rfl⟩ | ⟨c, rest, hq, h⟩
  · rw [tick_frame, hf] at ht; cases ht
  · refine ⟨c, rest, hq, (exec_frozen (s := { s with pending := rest }) hp hf h).resolve_left ?_⟩
    rw [ht]
    exact Bool.false_ne_true

end Sys2Proof.Machine
end

/-!
SUPPORT. The table of R362, row by row, and what setting the state of a function leaves of the other functions and of the entries.
-/

section
namespace Sys2Proof.Machine

variable {s : State} {i : Nat}

/-! ## The rows of R362 -/

theorem switchWrite_offToOff (hi : i ≠ 0x2100) (h : (s.sw i).st = .off) : s.switchWrite i false = (s, rOk) := by
  simp only [State.switchWrite, h, if_neg hi]

theorem switchWrite_startingToOn (h : (s.sw i).st = .starting) :
    s.switchWrite i true = (s.setSw i ⟨.starting, none⟩, rOk) := by
  simp only [State.switchWrite, h]

theorem switchWrite_startingToOff (hi : i ≠ 0x2100) (h : (s.sw i).st = .starting) :
    s.switchWrite i false = (s.setSw i ⟨.starting, some false⟩, rDeferred) := by
  simp only [State.switchWrite, h, if_neg hi]

theorem switchWrite_onToOn (h : (s.sw i).st = .on) : s.switchWrite i true = (s, rOk) := by
  simp only [State.switchWrite, h]

theorem switchWrite_stoppingRefused (h : (s.sw i).st = .stopping) (hr : s.restartRefused i = true) :
    s.switchWrite i true = (s, rState) := by
  simp only [State.switchWrite, h, hr, if_true]

theorem switchWrite_stoppingToOn (h : (s.sw i).st = .stopping) (hr : s.restartRefused i = false) :
    s.switchWrite i true = (s.setSw i ⟨.stopping, some true⟩, rDeferred) := by
  simp only [State.switchWrite, h, hr, Bool.false_eq_true, if_false]

theorem switchWrite_stoppingToOff (h : (s.sw i).st = .stopping) :
    s.switchWrite i false = (s.setSw i ⟨.stopping, none⟩, rOk) := by
  simp only [State.switchWrite, h]

/-! ## Setting a function's state (R360, R361) -/

/-- Counting the change leaves the table of switches alone. -/
theorem setSw_switches (i : Nat) (x : Switch) (s : State) :
    (s.setSw i x).switches = putDef (switchDefault i) i x s.switches := by
  unfold State.setSw
  dsimp only
  split
  · rfl
  · rw [State.bump_switches]

theorem setSw_sw_same (i : Nat) (x : Switch) (hw : switchesWf s.switches = true) : (s.setSw i x).sw i = x := by
  simp only [switchesWf, Bool.and_eq_true] at hw
  rw [State.sw, setSw_switches]
  exact lookDef_putDef_same _ _ _ hw.1

theorem setSw_sw_other {j : Nat} (h : j ≠ i) (x : Switch) (s : State) : (s.setSw i x).sw j = s.sw j := by
  rw [State.sw, setSw_switches]
  exact lookDef_putDef_other h ..

/-- A pending change does not show: where the state stays, no entry changes. -/
theorem setSw_pend_num (i : Nat) (p : Option Bool) (s : State) : SameNums s (s.setSw i ⟨(s.sw i).st, p⟩) [] := by
  intro k _
  unfold State.setSw
  dsimp only
  rw [if_pos rfl]
  rfl

/-- A change of the state is counted in P1003.03. -/
theorem setSw_counts {x : Switch} (h : (s.sw i).st ≠ x.st) : (s.setSw i x).num 0x100303 = (s.bump 0x100303).num 0x100303 := by
  unfold State.setSw
  dsimp only
  rw [if_neg h]
  rfl

/-- Settles O24: each row by its lemma, and the record of a pending change by what `setSw` leaves. -/
theorem switchTable : Obligations.SwitchTable := by
  refine ⟨fun _ _ h hr => switchWrite_start h hr, fun _ _ hi h => switchWrite_offToOff hi h, ?_, ?_,
    fun _ _ h => switchWrite_onToOn h, fun _ _ hi h => switchWrite_stop hi h,
    fun _ _ h hr => switchWrite_stoppingRefused h hr, ?_, ?_⟩
  · intro i s h -- ON in STARTING
    rw [switchWrite_startingToOn h]
    exact ⟨rfl, rfl⟩
  · intro i s hi h -- OFF in STARTING
    rw [switchWrite_startingToOff hi h]
    exact ⟨rfl, rfl⟩
  · intro i s h hr -- ON and OFF in STOPPING
    rw [switchWrite_stoppingToOn h hr, switchWrite_stoppingToOff h]
    exact ⟨rfl, rfl, rfl, rfl⟩
  · intro i x s hw -- what a pending change leaves
    exact ⟨setSw_sw_same i x hw, fun j hj => setSw_sw_other hj x s, fun p => setSw_pend_num i p s, fun _ h => setSw_counts h⟩

end Sys2Proof.Machine
end

/-!
SUPPORT. The reference clocks and the management port, and the test access port: what each command answers with power, and in OFF.
-/

section
namespace Sys2Proof.Machine

variable {s : State}

/-! ## Reference clocks and the management port (R378, R409) -/

theorem execRefclkCheck_powered (present : BitVec 3) (h : s.dev.st ≠ .off) :
    execRefclkCheck present s =
      .next { s with dev := { s.dev with refclk := present, mgmtUp := s.dev.mgmtUp && present.getLsbD 2 } } :=
  if_neg (by simpa using h)

theorem execManagementPortState_powered (up : Bool) (h : s.dev.st ≠ .off) :
    execManagementPortState up s =
      .next { s with dev := { s.dev with mgmtUp := up && s.dev.refclk.getLsbD 2 && s.sec.identity ≠ 2 } } :=
  if_neg (by simpa using h)

theorem execSetEndpointId_powered (eid : Byte) (h : s.dev.st ≠ .off) :
    execSetEndpointId eid s = .next (s.setNum 0x100403 eid.toNat) :=
  if_neg (by simpa using h)

theorem defaultOf_endpointId : defaultOf 0x100403 < 2 ^ 64 := by decide +kernel

/-- Setting one entry leaves every other as it reads. -/
theorem sameNums_setNum (k v : Nat) (s : State) : SameNums s (s.setNum k v) [k] := fun _ hj =>
  State.num_setNum_other (fun h => hj (List.mem_singleton.2 h)) v s

/-- Settles O16: with power each command sets its register or its entry. -/
theorem clocksAndPort : Obligations.ClocksAndPort := by
  refine ⟨fun present _ h => execRefclkCheck_powered present h, fun up _ h => execManagementPortState_powered up h, ?_⟩
  intro eid s h hw -- the endpoint ID
  have heid : eid.toNat < 2 ^ 64 := Nat.lt_trans eid.isLt (by decide)
  exact ⟨_, execSetEndpointId_powered eid h, State.num_setNum_same _ _ hw heid defaultOf_endpointId,
    sameNums_setNum _ _ s, rfl⟩

/-! ## The test access port (R443) -/

/-- With power the TAP loads an instruction, and only EXTEST leaves the pins driven. -/
def State.tapLoaded (ir : Byte) (s : State) : State :=
  { s with test := { s.test with tap := { s.test.tap with ir := ir, driven := false } } }

theorem onTap_off (ir : Byte) (f : State → State) (h : s.dev.st = .off) : s.onTap ir f = .next s :=
  if_pos (by simpa using h)

section
variable {u : State} (h : s.dev.st ≠ .off)
include h

theorem onTap_powered {ir : Byte} (f : State → State) (hu : u = s.tapLoaded ir) : s.onTap ir f = .next (f u) := by
  subst hu
  exact if_neg (by simpa using h)

/-- EXTEST drives the pins in a freeze, and in BOOT before MAIN_EN. -/
theorem execExtest_drives (hu : u = s.tapLoaded 0x03) (hd : u.dev.frozen = true ∨ (u.dev.st = .boot ∧ u.dev.mainEn = false)) :
    execExtest s =
      .next (({ u with test := { u.test with tap := { u.test.tap with driven := true } } }).shiftPins u.test.tap.sampled) := by
  refine (onTap_powered h _ hu).trans (congrArg Host.Outcome.next (if_pos ?_))
  rcases hd with hf | ⟨hb, hm⟩
  · simp [hf]
  · simp [hb, hm]

theorem execExtest_bypasses (hu : u = s.tapLoaded 0x03) (hf : u.dev.frozen = false)
    (hm : u.dev.st ≠ .boot ∨ u.dev.mainEn = true) : execExtest s = .next u.shiftBypass := by
  refine (onTap_powered h _ hu).trans (congrArg Host.Outcome.next (if_neg ?_))
  rcases hm with hb | hm
  · simp [hf, hb]
  · simp [hf, hm]

theorem execBypass_powered {code : Byte} (hc : [(0x01 : Byte), 0x02, 0x03, 0x40, 0x41, 0x42].contains code = false) :
    execBypass code s = .next (s.tapLoaded code).shiftBypass :=
  (if_neg (by rw [hc]; exact Bool.false_ne_true)).trans (onTap_powered h _ rfl)

end

/-- Settles O50: an instruction is loaded by `onTap_powered`, and EXTEST asks whether the pins may be driven. -/
theorem testAccessPort : Obligations.TestAccessPort :=
  ⟨fun _ s h hu => (onTap_powered h _ hu : execIdcode s = _),
    fun pins tdi _ s h hu => (onTap_powered h _ hu : execSamplePreload ⟨pins, tdi⟩ s = _),
    fun _ _ h hu hd => execExtest_drives h hu hd, fun _ _ h hu hf hm => execExtest_bypasses h hu hf hm,
    fun _ s h hu => (onTap_powered h _ hu : execFreezeStatus s = _),
    fun chain _ s h hu => (onTap_powered h _ hu : execChainSelect chain s = _),
    fun n _ s h hu => (onTap_powered h _ hu : execChainRead n s = _), fun _ _ h hc => execBypass_powered h hc,
    fun _ h => onTap_off _ _ h⟩

end Sys2Proof.Machine
end

/-!
SUPPORT. Requests of the Pattern Access Protocol and MCTP: what stops one before it is performed, what is kept and sent, and when
staged bytes and kept answers go.
-/

section
namespace Sys2Proof.Machine

variable {s : State} {src : Source} {op : PapOp} {b : Bytes}

/-! ## What stops a request (R371, R372, R373) -/

theorem papRequest_unheard (h : s.heard src = false) : s.papRequest src op b = s := by
  simp only [State.papRequest, h, Bool.not_false, if_true]

section
variable {u : State} {r : State × Answer} {x : Kept} (hh : s.heard src = true)
include hh

/-- Over a transport that is off, or not of the protocol at all. -/
theorem papRequest_discarded (h : s.policy src = 0 ∨ papHead b = false) : s.papRequest src op b = s.countPap src false := by
  have hif : (decide (s.policy src = 0) || !papHead b) = true := by simpa using h
  simp only [State.papRequest, hh, hif, Bool.not_true, Bool.false_eq_true, if_false, if_true]

variable (hp : s.policy src ≠ 0) (hb : papHead b = true) (ho : (parsePap b).op = op.code)
include hp hb ho

theorem papRequest_badLength (hl : papLength op (parsePap b) = false) : s.papRequest src op b = s.countPap src false := by
  have hif : (decide (s.policy src = 0) || !papHead b) = false := by simp [hp, hb]
  simp only [State.papRequest, hh, hif, ho, hl, Bool.not_true, Bool.not_false, Bool.false_eq_true, if_false, if_true, ne_eq,
    not_true_eq_false]

variable (hl : papLength op (parsePap b) = true)
include hl

/-- A frame that is right is served. -/
theorem papRequest_right :
    s.papRequest src op b = s.papServe src (parsePap b) fun s => s.papPerform src op (parsePap b) := by
  have hif : (decide (s.policy src = 0) || !papHead b) = false := by simp [hp, hb]
  simp only [State.papRequest, hh, hif, ho, hl, Bool.not_true, Bool.false_eq_true, if_false, ne_eq, not_true_eq_false]

variable (hu : u = s.rollSecond)
include hu

theorem papRequest_overRate (hr : u.rateLeft src = false) : s.papRequest src op b = u.countPap src false := by
  subst hu
  rw [papRequest_right hh hp hb ho hl]
  simp only [State.papServe, hr, Bool.not_false, if_true]

variable (hr : u.rateLeft src = true)
include hr

/-- A request that is repeated is answered from what is kept. -/
theorem papRequest_repeated (hk : s.keptFor src (parsePap b).requestId = some x) :
    s.papRequest src op b = (u.spendRate src).papAnswer src x := by
  subst hu
  rw [papRequest_right hh hp hb ho hl]
  simp only [State.papServe, hr, hk, Bool.not_true, Bool.false_eq_true, if_false]

/-- One that is new is performed, and its answer kept and sent. -/
theorem papRequest_new (hk : s.keptFor src (parsePap b).requestId = none)
    (he : r = s.papPerform src op (parsePap b)) (hx : x = ⟨src, (parsePap b).requestId, r.1.aonNs, (parsePap b).answer r.2⟩) :
    (.next (s.papRequest src op b) : Result) = .next (((r.1.rollSecond.spendRate src).keep x).papAnswer src x) := by
  subst hu
  rw [papRequest_right hh hp hb ho hl, State.papServe_fresh _ hr hk, ← he, hx, State.papServed]

end

/-! ## The bytes of an answer (R371) -/

/-- The 24 bytes of an answer before its value. -/
def PapFrame.head (f : PapFrame) (a : Answer) : Bytes :=
  natLE 2 0x4150 ++ [1, f.op, 4] ++ natLE 1 a.result ++ natLE 2 f.index ++ natLE 1 f.sub ++ [a.type] ++ natLE 2 a.value.length ++
    natLE 4 f.offset ++ natLE 4 a.total ++ natLE 4 f.requestId.toNat

theorem PapFrame.answer_eq (f : PapFrame) (a : Answer) : f.answer a = f.head a ++ a.value := rfl

theorem PapFrame.head_length (f : PapFrame) (a : Answer) : (f.head a).length = 24 := by
  simp [PapFrame.head]

theorem PapFrame.answer_split (f : PapFrame) (a : Answer) :
    ((f.answer a).take 24).length = 24 ∧ (f.answer a).drop 24 = a.value := by
  rw [f.answer_eq, ← f.head_length a]
  simp

/-! ## Staged bytes that are idle (R370) -/

/-- A source whose staging is not in use, or that has none, is left with none. -/
theorem execStagingDiscard_idle (h : s.stagingOf src = none) : execStagingDiscard src s = .next (s.unstage src) := by
  by_cases hany : (s.trans.staging.any fun x => x.src = src) = true
  · exact if_pos (by rw [hany, h]; rfl)
  · have hnone : s.unstage src = s := by
      have hall : s.trans.staging.filter (fun x => x.src ≠ src) = s.trans.staging :=
        List.filter_eq_self.2 fun x hx => by
          have hne : ¬ x.src = src := fun hs => hany (List.any_eq_true.2 ⟨x, hx, by simpa using hs⟩)
          simpa using hne
      rw [State.unstage, hall]
    rw [hnone]
    exact if_neg (by simp [hany])

theorem execStagingDiscard_inUse {x : Staging} (h : s.stagingOf src = some x) : execStagingDiscard src s = .next s :=
  if_neg (by simp [h])

/-- Settles O51: a request of any operation is what stops it, or is performed by `papRequest_new`. -/
theorem transports : Obligations.Transports :=
  ⟨fun _ _ _ _ _ _ _ => papRequest_new, fun _ _ _ _ _ _ _ => papRequest_new, fun _ _ _ _ _ _ _ => papRequest_new,
    fun _ _ _ _ _ _ _ => papRequest_new, fun _ _ _ _ _ _ => papRequest_new, fun _ _ _ _ _ _ => papRequest_new,
    fun _ _ _ _ _ _ => papRequest_new, fun _ _ _ _ _ _ => papRequest_new,
    fun _ _ _ _ => papRequest_unheard, fun _ _ _ _ => papRequest_discarded, fun _ _ _ _ => papRequest_badLength,
    fun _ _ _ _ _ => papRequest_overRate, fun _ _ _ _ _ _ => papRequest_repeated, fun _ _ _ _ => rfl, fun _ _ _ => rfl,
    fun f a _ => f.answer_split a, fun _ _ => execStagingDiscard_idle, fun _ _ _ => execStagingDiscard_inUse, fun _ _ _ => rfl⟩

end Sys2Proof.Machine
end

/-!
SUPPORT. Firmware update and the SPDM responder: a part by the transfer it belongs to, an activation by its slot, and a request by
what it needs.
-/

section
namespace Sys2Proof.Machine

variable {s : State} {p : Port}

/-! ## Transfers of firmware (R421) -/

section
variable (ht : s.takes p true = true)
include ht

section
variable {slot : Byte} {b : Bool} {offset : Nat} {data : Bytes} (hs : fwSlot slot = some b) (hr : s.sec.running ≠ some b)
  (hf : s.ports.fw = none) (hfit : offset + data.length ≤ slotBytes)
include hs hr hf hfit

/-- A transfer into the slot that does not run, in one part. -/
theorem execTransferFw_full : execTransferFw p .full slot offset data s = .next ((s.writeSlot b offset data).fwFinish p b) := by
  rw [execTransferFw, State.onMailbox_taken _ ht]
  simp only [hs, if_neg hr, hf, Option.isSome_none, Bool.false_eq_true, if_false, hfit, decide_true, Bool.not_true]

/-- The first part of a transfer. -/
theorem execTransferFw_begins : execTransferFw p .initiate slot offset data s =
    .next (({ s.writeSlot b offset data with ports := { (s.writeSlot b offset data).ports with
      fw := some ⟨p, b, offset + data.length⟩ } }).ok p []) := by
  rw [execTransferFw, State.onMailbox_taken _ ht]
  simp only [hs, if_neg hr, hf, Option.isSome_none, Bool.false_eq_true, if_false, hfit, decide_true, Bool.not_true]

end

section
variable {f : FwTransfer} (hf : s.ports.fw = some f) (hp : f.port = p)
include hf hp

section
variable {data : Bytes} (hfit : f.next + data.length ≤ slotBytes)
include hfit

/-- The next part in order. -/
theorem execTransferFw_continues (slot : Byte) : execTransferFw p .continue slot f.next data s =
    .next (({ s.writeSlot f.slotB f.next data with ports := { (s.writeSlot f.slotB f.next data).ports with
      fw := some { f with next := f.next + data.length } } }).ok p []) := by
  rw [execTransferFw, State.onMailbox_taken _ ht]
  simp only [hf, hp, ne_eq, not_true_eq_false, if_false, hfit, decide_true, Bool.not_true, Bool.false_eq_true]

/-- The last part. -/
theorem execTransferFw_finishes (slot : Byte) : execTransferFw p .finish slot f.next data s =
    .next ((s.writeSlot f.slotB f.next data).fwFinish p f.slotB) := by
  rw [execTransferFw, State.onMailbox_taken _ ht]
  simp only [hf, hp, ne_eq, not_true_eq_false, if_false, hfit, decide_true, Bool.not_true, Bool.false_eq_true]

end

theorem execTransferFw_aborts (slot : Byte) (offset : Nat) (data : Bytes) : execTransferFw p .abort slot offset data s =
    .next (({ s with ports := { s.ports with fw := none } }).ok p []) := by
  rw [execTransferFw, State.onMailbox_taken _ ht]
  simp only [hf, hp, if_true]

end

/-! ## Activation, and what is told of the slots (R421) -/

section
variable {slot : Byte} {b : Bool} (hs : fwSlot slot = some b)
include hs

theorem execActivateFw_other (hr : s.sec.running ≠ some b) : execActivateFw p false slot s =
    .next ((s.setRecord fun r => { r with activeB := b, trial := true, trialStarted := false }).ok p []) := by
  rw [execActivateFw, State.onMailbox_taken _ ht]
  simp only [hs, if_neg hr, Bool.false_eq_true, if_false]

theorem execActivateFw_running (hr : s.sec.running = some b) : execActivateFw p false slot s = .next (s.ok p []) := by
  rw [execActivateFw, State.onMailbox_taken _ ht]
  simp only [hs, if_pos hr, Bool.false_eq_true, if_false]

end

/-- GET_FW_INFO answers 80 bytes, of which the first is the number of slots. -/
theorem execGetFwInfo_answers : ∃ d : Bytes, execGetFwInfo p s = .next (s.ok p d) ∧ d.length = 80 ∧ d.head? = some 2 := by
  rw [execGetFwInfo, State.onMailbox_taken _ ht]
  refine ⟨_, rfl, ?_, rfl⟩
  simp only [List.length_append, natLE_length, zeros_length, padTo_length]

end

/-! ## The SPDM responder (R417, R423) -/

section
variable {via : Source} (hh : s.spdmHeard via = true)
include hh

theorem execSpdmRequest_noIdentity {r : SpdmRequest} (hn : needsIdentity r = true) (hi : s.sec.identity ≠ 0) :
    execSpdmRequest via r s = .next (s.emit (.spdm via true [spdmUnspecified])) := by
  have hif : (needsIdentity r && decide (s.sec.identity ≠ 0)) = true := by rw [hn, decide_eq_true hi]; rfl
  exact (if_neg (by simp [hh])).trans (if_pos hif)

theorem execSpdmRequest_challengeSlot {slot : Byte} (hi : s.sec.identity = 0) (hs : slot ≠ 0) :
    execSpdmRequest via (.challenge slot) s = .next (s.emit (.spdm via true [spdmInvalid])) := by
  have hif : ¬ (needsIdentity (.challenge slot) && decide (s.sec.identity ≠ 0)) = true := by simp [hi]
  have hslot : (decide (spdmSlot (.challenge slot) ≠ 0) && true) = true := by rw [spdmSlot, decide_eq_true hs]; rfl
  exact (if_neg (by simp [hh])).trans ((if_neg hif).trans (if_pos hslot))

/-- An unsigned measurement needs no identity. -/
theorem execSpdmRequest_measurement {i : Byte} (h1 : 1 ≤ i.toNat) (h8 : i.toNat ≤ 8) :
    execSpdmRequest via (.getMeasurements i false) s = .next (s.emit (.spdm via false (s.measurement i.toNat))) := by
  have h0 : ¬ i = 0 := fun h => by rw [h] at h1; exact absurd h1 (by decide)
  have hall : ¬ i = 0xFF := fun h => by rw [h] at h8; exact absurd h8 (by decide)
  have hle : ¬ 8 < i := by rw [BitVec.lt_def]; exact Nat.not_lt.2 h8
  simp only [execSpdmRequest, hh, needsIdentity, spdmSlot, h0, hall, hle, Bool.not_true, Bool.false_and, Bool.false_eq_true,
    if_false, ne_eq, not_true_eq_false, decide_false]

theorem execSpdmRequest_finish :
    execSpdmRequest via .finish s = .next ((s.setSession via true).spdmOpen via []) := by
  simp [execSpdmRequest, hh, needsIdentity, spdmSlot]

theorem execSpdmRequest_endSession :
    execSpdmRequest via .endSession s = .next ((s.setSession via false).spdmOpen via []) := by
  simp [execSpdmRequest, hh, needsIdentity, spdmSlot]

end

/-- A transport's session is open or closed, and those of the other transports are as they were. -/
theorem setSession_contains {via x : Source} (hx : x ≠ via) (s : State) :
    (s.setSession via true).sec.sessions.contains via = true ∧ (s.setSession via false).sec.sessions.contains via = false ∧
      (s.setSession via true).sec.sessions.contains x = s.sec.sessions.contains x := by
  refine ⟨?_, ?_, ?_⟩
  · simp [State.setSession]
  · simp [State.setSession]
  · simp [State.setSession, hx]

/-- Settles O34: a part by `execTransferFw` once its mailbox takes it, and a request of SPDM by what it needs. -/
theorem firmware : Obligations.Firmware := by
  refine ⟨fun _ _ _ _ _ _ ht hs hr hf hfit => execTransferFw_full ht hs hr hf hfit,
    fun _ _ _ _ _ _ ht hs hr hf hfit => execTransferFw_begins ht hs hr hf hfit,
    fun _ slot _ _ _ ht hf hp hfit => execTransferFw_continues ht hf hp hfit slot,
    fun _ slot _ _ _ ht hf hp hfit => execTransferFw_finishes ht hf hp hfit slot,
    fun _ slot _ offset data _ ht hf hp => execTransferFw_aborts ht hf hp slot offset data,
    fun _ _ _ _ ht hs hr => execActivateFw_other ht hs hr, fun _ _ _ _ ht hs hr => execActivateFw_running ht hs hr, ?_,
    fun _ _ _ hh h1 h8 => execSpdmRequest_measurement hh h1 h8, fun _ _ _ hh hn hi => execSpdmRequest_noIdentity hh hn hi,
    fun _ _ _ hh hi hs => execSpdmRequest_challengeSlot hh hi hs, fun _ _ hh => execSpdmRequest_finish hh,
    fun _ _ hh => execSpdmRequest_endSession hh, fun _ _ s hx => setSession_contains hx s⟩
  intro p s ht -- GET_FW_INFO
  obtain ⟨d, he, hd⟩ := execGetFwInfo_answers ht
  exact ⟨_, he, d, rfl, hd⟩

end Sys2Proof.Machine
end

/-!
SUPPORT. Thimble: the writes of its entries (R386 to R397), and the events, the fault pulse and the reaction timers (R380 to R390).
-/

section
namespace Sys2Proof.Machine

variable {s u : State} {w : Writer}

/-! ## Rows of the entries (R405) -/

theorem rowOf_handle : rowOf 0xA02003 = some ⟨3, .u32, .wo, false, 0, 0, 0xFFFFFFFF⟩ := by decide +kernel

theorem rowOf_acknowledge : rowOf 0xA03002 = some ⟨2, .u16, .wo, false, 0, 0, 0xFFFF⟩ := by decide +kernel

theorem rowOf_clear : rowOf 0xA03003 = some ⟨3, .u16, .wo, false, 0, 0, 0xFFFF⟩ := by decide +kernel

theorem rowOf_force : rowOf 0xA00006 = some ⟨6, .domain, .wo, true, 0, 0, 0⟩ := by decide +kernel

theorem rowOf_level : rowOf 0xA11001 = some ⟨1, .u8, .rw, false, 0, 0, 1⟩ := by decide +kernel

theorem rowOf_rearm : rowOf 0xA11002 = some ⟨2, .bool, .wo, false, 0, 0, 1⟩ := by decide +kernel

/-- A value written in as many bytes as its width has. -/
theorem leNat_natLE_bitVec {n : Nat} (v : BitVec (8 * n)) : leNat (natLE n v.toNat) = v.toNat := by
  rw [leNat_natLE]
  exact Nat.mod_eq_of_lt (by rw [show 256 = 2 ^ 8 from rfl, ← Nat.pow_mul]; exact v.isLt)

theorem leNat_byte (v : Byte) : leNat [v] = v.toNat := by simp [leNat]

/-! ## HANDLE (R386, R387) -/

theorem execHandle_answers {v : BitVec 32} {t : State} {q : Nat} (h : s.mayWrite w 0xA02003 = true)
    (ht : orState s (s.handleEvent v.toNat) = (t, q)) : exec (.handle w v) s = .next (t.written w 0xA02003 q 4 4) := by
  have hrange : s.rangeOk 0xA02003 v.toNat = true :=
    State.rangeOk_of rowOf_handle (by simp [storedValue, rowOf_handle]) (Nat.zero_le _) (Nat.le_of_lt_succ v.isLt) rfl
  have hw := entryWrite_action h (by decide) rowOf_handle rfl (natLE_length ..) (leNat_natLE_bitVec (n := 4) v) rfl hrange rfl rfl ht
  exact congrArg Host.Outcome.next hw

/-- An event whose timer has not ended is not escalated. -/
theorem escalateDue_early {q : Nat} (h : ∀ e ∈ s.thimble.opened, s.dueAt e = none) : s.escalateDue q = s := by
  unfold State.escalateDue
  split
  · rfl
  · next e he => rw [h e (List.mem_of_find?_eq_some he)]

theorem escalateDue_due {q at_ : Nat} {e : Event} (he : s.thimble.opened.find? (fun e => e.sequence = q) = some e)
    (hd : s.dueAt e = some at_) : s.escalateDue q = s.escalate e at_ := by
  simp only [State.escalateDue, he, hd]

theorem escalateDue_absent {q : Nat} (he : s.thimble.opened.find? (fun e => e.sequence = q) = none) : s.escalateDue q = s := by
  simp only [State.escalateDue, he]

/-- Closing takes an event out of the open list, and changes its copy in the history. -/
theorem closeEvent_opened {q : Nat} (h : (s.thimble.opened.any fun e => e.sequence = q) = true) :
    ∃ u, s.closeEvent q = some u ∧ u.thimble.opened = (s.thimble.opened.filter fun e => e.sequence ≠ q) ∧
      u = { s with thimble := u.thimble } ∧
      u.thimble = { s.thimble with opened := u.thimble.opened, history := u.thimble.history } := by
  unfold State.closeEvent
  split
  · next hn =>
    obtain ⟨e, he, hq⟩ := List.any_eq_true.1 h
    exact absurd hq (List.find?_eq_none.1 hn e he)
  · exact ⟨_, rfl, rfl, rfl, rfl⟩

/-! ## ACKNOWLEDGE and CLEAR (R397) -/

theorem execAcknowledge_acts {v : BitVec 16} (h : s.mayWrite w 0xA03002 = true) (hv : v.toNat ≤ 0xFF ∨ v.toNat = 0xFFFF) :
    exec (.acknowledge w v) s = .next ((s.acknowledge v.toNat).written w 0xA03002 rOk 3 2) := by
  have hmore : s.rangeMore 0xA03002 v.toNat = true := by simpa [State.rangeMore] using hv
  have hrange : s.rangeOk 0xA03002 v.toNat = true :=
    State.rangeOk_of rowOf_acknowledge (by simp [storedValue, rowOf_acknowledge]) (Nat.zero_le _) (Nat.le_of_lt_succ v.isLt) hmore
  have hact : s.numAction 0xA03002 v.toNat = (s.acknowledge v.toNat, rOk) := rfl
  have hw := entryWrite_action h (by decide) rowOf_acknowledge rfl (natLE_length ..) (leNat_natLE_bitVec (n := 2) v) rfl hrange rfl
    rfl hact
  exact congrArg Host.Outcome.next hw

/-- One slot. -/
theorem acknowledge_slot {n : Nat} (hn : n ≤ 0xFF) : s.acknowledge n = s.setAlarm n { s.alarm n with unacked := false } :=
  if_neg (by omega)

theorem execClear_answers {v : BitVec 16} {t : State} {q : Nat} (h : s.mayWrite w 0xA03003 = true) (hv : v.toNat ≤ 0xFF)
    (ht : orState s (s.clearSlot v.toNat) = (t, q)) : exec (.clear w v) s = .next (t.written w 0xA03003 q 3 2) := by
  have hmore : s.rangeMore 0xA03003 v.toNat = true := by simpa [State.rangeMore] using hv
  have hrange : s.rangeOk 0xA03003 v.toNat = true :=
    State.rangeOk_of rowOf_clear (by simp [storedValue, rowOf_clear]) (Nat.zero_le _) (Nat.le_of_lt_succ v.isLt) hmore
  have hw := entryWrite_action h (by decide) rowOf_clear rfl (natLE_length ..) (leNat_natLE_bitVec (n := 2) v) rfl hrange rfl rfl ht
  exact congrArg Host.Outcome.next hw

theorem clearSlot_acknowledged {n : Nat} (h : (s.alarm n).unacked = false) :
    s.clearSlot n = some (s.setAlarm n (if n < 128 then { source := (s.alarm n).source } else {})) := by
  rw [State.clearSlot, h]
  rfl

theorem clearSlot_unacked {n : Nat} (h : (s.alarm n).unacked = true) : s.clearSlot n = none := if_pos h

/-! ## FORCE, LEVEL and REARM (R388, R391) -/

theorem execForce_acts {b : Bytes} (h : s.mayWrite w 0xA00006 = true) (hl : b.length ≤ sourceLimit w.src) (hb : b.length = 16) :
    exec (.force w b) s = .next (((s.unstage w.src).forceEvents b).written w 0xA00006 rOk 0x0A b.length) :=
  congrArg Host.Outcome.next (entryWrite_domain h (by decide) rowOf_force rfl hl (decide_eq_true hb) (by decide) rfl)

theorem execLevel_acts {v : Byte} (h : s.mayWrite w 0xA11001 = true) (hv : v.toNat ≤ 1) :
    exec (.level w v) s = .next ((s.setLevel v.toNat).written w 0xA11001 rOk 2 1) := by
  have hrange : s.rangeOk 0xA11001 v.toNat = true :=
    State.rangeOk_of rowOf_level (by simp [storedValue, rowOf_level]) (Nat.zero_le _) hv rfl
  have hw := State.entryWrite_num [v] h (by decide) rowOf_level rfl rfl rfl (by rw [leNat_byte]; exact hrange)
  rw [leNat_byte, numWrite_stores rfl (by decide)] at hw
  exact congrArg Host.Outcome.next hw

/-- A write of 1 arms FAULT_N; one of 0 does nothing. -/
theorem execRearm_acts {v : Byte} (h : s.mayWrite w 0xA11002 = true) (hv : v.toNat ≤ 1) :
    exec (.rearm w v) s = .next ((if v.toNat = 1 then s.rearmFault else s).written w 0xA11002 rOk 1 1) := by
  have hrange : s.rangeOk 0xA11002 v.toNat = true :=
    State.rangeOk_of rowOf_rearm (by simp [storedValue, rowOf_rearm]) (Nat.zero_le _) hv rfl
  have hact : s.numAction 0xA11002 v.toNat = (if v.toNat = 1 then s.rearmFault else s, rOk) := rfl
  have hw := entryWrite_action h (by decide) rowOf_rearm rfl rfl (leNat_byte v) rfl hrange rfl rfl hact
  exact congrArg Host.Outcome.next hw

/-- Settles O20: each command is the write of its entry, and its action by the event or the slot it names. -/
theorem thimbleWrites : Obligations.ThimbleWrites := by
  refine ⟨fun _ _ _ _ h hu => execHandle_answers h (by rw [hu]; rfl), fun _ _ _ h hn => execHandle_answers h (by rw [hn]; rfl),
    ?_, ?_, ?_, fun _ _ h => execAcknowledge_acts h (.inr rfl), ?_, ?_, ?_, fun _ _ _ h hv => execLevel_acts h hv,
    fun _ _ h => execRearm_acts h (by decide), fun _ _ h => execRearm_acts h (by decide)⟩
  · intro q s hq hd -- an open event is closed
    rw [State.handleEvent, escalateDue_early hd, escalateDue_early hd]
    exact closeEvent_opened hq
  · intro q at_ e s he hd -- and escalated first where it is due
    have hdue := escalateDue_due he hd
    exact ⟨hdue, by rw [State.handleEvent, hdue]⟩
  · intro w slot s h hv -- ACKNOWLEDGE of a slot
    rw [execAcknowledge_acts h (.inl hv), acknowledge_slot hv]
  · intro w slot s h hv ha -- CLEAR of an acknowledged slot
    exact execClear_answers h hv (by rw [clearSlot_acknowledged ha]; rfl)
  · intro w slot s h hv ha -- and of one that is not
    exact execClear_answers h hv (by rw [clearSlot_unacked ha]; rfl)
  · rintro w bits u s h hl rfl hb -- FORCE
    exact execForce_acts h hl hb

/-! ## Raised events (R380) -/

theorem execEventRaised_off {source : Byte} {inst : BitVec 16} {detail : BitVec 64} {r : Option Nat} (h : s.dev.st = .off) :
    execEventRaised source inst detail r s = .next s :=
  if_pos (by simpa using h)

section
variable {inst : BitVec 16} {detail : BitVec 64} {r : Option Nat} (hp : s.dev.st ≠ .off)
include hp

/-- An event of a source that does nothing else. -/
theorem execEventRaised_alone {source : Byte} (hu : u = s.raise source.toNat inst.toNat detail.toNat r) (h39 : source ≠ 0x39)
    (h42 : source ≠ 0x42) : execEventRaised source inst detail r s = .next u := by
  have hoff : ¬ (s.dev.st == .off) = true := by simpa using hp
  simp only [execEventRaised, if_neg hoff, ← hu, if_neg h39, if_neg h42, ite_self]

/-- RECIPE_CONTAINED ends the run in progress. -/
theorem execEventRaised_recipe {x : Run} (hu : u = s.raise 0x39 inst.toNat detail.toNat r) (hf : u.dev.frozen = false)
    (hx : u.tun.run = some x) : execEventRaised 0x39 inst detail r s = .next (u.endRun x runInternal (some x.step)) := by
  have hoff : ¬ (s.dev.st == .off) = true := by simpa using hp
  have hu' : s.raise (0x39 : Byte).toNat inst.toNat detail.toNat r = u := hu.symm
  simp only [execEventRaised, if_neg hoff, hu', hf, hx, Bool.false_eq_true, if_false, if_true]

end

/-! ## The fault pulse and the reaction timers (R387, R388, R390) -/

section
variable {t : Nat} (ht : s.thimble.pulse = some t)
include ht

theorem execFaultNPulseEnd_ended (hd : t ≤ s.aonNs) : execFaultNPulseEnd s =
    .next { s with thimble := { s.thimble with pulse := none, armed := false, faultLow := s.num 0xA11001 = 1 } } := by
  simp only [execFaultNPulseEnd, ht, if_neg (Nat.not_lt.2 hd)]

theorem execFaultNPulseEnd_early (hd : s.aonNs < t) : execFaultNPulseEnd s = .next s := by
  simp only [execFaultNPulseEnd, ht, if_pos hd]

end

section
variable {t : Nat} {e : Event} (ht : e.timer = some t)
include ht

theorem dueAt_due (hd : t ≤ s.aonNs) (hf : s.dev.frozen = false) (hp : s.dev.st ≠ .off) : s.dueAt e = some t := by
  simp [State.dueAt, ht, hd, hf, hp]

theorem dueAt_early (hd : s.aonNs < t ∨ s.dev.frozen = true) : s.dueAt e = none := by
  rcases hd with hd | hf
  · simp [State.dueAt, ht, Nat.not_le.2 hd]
  · simp [State.dueAt, ht, hf]

end

/-- Settles O52: an event by its source, the pulse by its time, and a reaction timer by what `dueAt` says of its event. -/
theorem eventTimers : Obligations.EventTimers := by
  refine ⟨fun _ _ _ _ _ _ hp hu h39 h42 => execEventRaised_alone hp hu h39 h42,
    fun _ _ _ _ _ _ hp hu hf hx => execEventRaised_recipe hp hu hf hx, fun _ _ _ _ _ h => execEventRaised_off h,
    fun _ _ ht hd => execFaultNPulseEnd_ended ht hd, fun _ _ ht hd => execFaultNPulseEnd_early ht hd,
    fun _ _ _ _ he ht hd hf hp => congrArg Host.Outcome.next (escalateDue_due he (dueAt_due ht hd hf hp)), ?_,
    fun _ _ he => congrArg Host.Outcome.next (escalateDue_absent he)⟩
  intro n t e s he ht hd -- not due
  have hnot := dueAt_early ht hd
  simp only [exec, execReactionTimer, State.escalateDue, he, hnot]

end Sys2Proof.Machine
end

/-!
SUPPORT. The security entries (R420 to R425): the record and its areas, recovery, and the tenant bindings of a port.
-/

section
namespace Sys2Proof.Machine

variable {s u : State} {w : Writer} {b : Bytes}

/-! ## Rows of the entries (R426) -/

theorem rowOf_setSigPolicy : rowOf 0xE00002 = some ⟨2, .u8, .wo, true, 0, 0, 1⟩ := by decide +kernel

theorem rowOf_commitSvn : rowOf 0xE00008 = some ⟨8, .bool, .wo, true, 0, 0, 1⟩ := by decide +kernel

theorem rowOf_recoveryData : rowOf 0xE01003 = some ⟨3, .domain, .wo, true, 0, 0, 0⟩ := by decide +kernel

theorem rowOf_recoveryVerify : rowOf 0xE01004 = some ⟨4, .bool, .wo, true, 0, 0, 1⟩ := by decide +kernel

theorem rowOf_bindings (p : Port) : rowOf (bindKey p) = some ⟨2, .domain, .rwr, false, 0, 0, 0⟩ := by
  cases p <;> decide +kernel

/-! ## The signature policy and the SVN (R420, R421) -/

theorem execSetSigPolicy_acts {v : Byte} (h : s.mayWrite w 0xE00002 = true) (hv : v.toNat ≤ 1) :
    exec (.setSigPolicy w v) s = .next ((s.setPolicy v.toNat).written w 0xE00002 rOk 2 1) := by
  have hrange : s.rangeOk 0xE00002 v.toNat = true :=
    State.rangeOk_of rowOf_setSigPolicy (by simp [storedValue, rowOf_setSigPolicy]) (Nat.zero_le _) hv rfl
  have hact : s.numAction 0xE00002 v.toNat = (s.setPolicy v.toNat, rOk) := rfl
  have hw := entryWrite_action h (by decide) rowOf_setSigPolicy rfl rfl (leNat_byte v) rfl hrange rfl rfl hact
  exact congrArg Host.Outcome.next hw

theorem execCommitSvn_acts (h : s.mayWrite w 0xE00008 = true) :
    exec (.commitSvn w 1) s = .next (s.commitSvn.written w 0xE00008 rOk 1 1) := by
  have hrange : s.rangeOk 0xE00008 1 = true :=
    State.rangeOk_of rowOf_commitSvn (by simp [storedValue, rowOf_commitSvn]) (Nat.zero_le _) (Nat.le_refl _) rfl
  exact congrArg Host.Outcome.next (entryWrite_one h (by decide) rowOf_commitSvn rfl rfl rfl hrange rfl rfl)

/-! ## The record and its areas (R420) -/

/-- A rewritten record counts on, and goes with its code to the next area, not before 100 ms from now. -/
theorem setRecord_written {f : SecRecord → SecRecord} {r : SecRecord}
    (hr : r = { f s.sec.record with sequence := (f s.sec.record).sequence + 1 }) (hf : s.hasFlash = true) (hu : u = s.setRecord f) :
    u.sec.record = r ∧
      (∃ due, u.sec.writes = s.sec.writes ++ [⟨s.nextArea, ⟨r, Config.hmacSha256 s.recordKey r.bytes⟩, due⟩] ∧
        s.aonNs + 100000000 ≤ due) ∧
      u.sec.lastB = s.nextArea ∧ u = { s with sec := u.sec } := by
  have hw : s.setRecord f =
      { s with sec := { s.sec with
          record := r, lastB := s.nextArea,
          writes := s.sec.writes ++ [⟨s.nextArea, ⟨r, Config.hmacSha256 s.recordKey r.bytes⟩,
            max s.aonNs ((s.sec.writes.getLast?.map SecWrite.due).getD 0) + recordNs⟩] } } := by
    have hno : ¬ (!s.hasFlash) = true := by simpa using hf
    subst hr
    exact if_neg hno
  rw [hu, hw]
  exact ⟨rfl, ⟨_, rfl, Nat.add_le_add_right (Nat.le_max_left ..) _⟩, rfl, rfl⟩

/-- With both areas there, they take turns. -/
theorem nextArea_turns (ha : s.slotThere false = true) (hb : s.slotThere true = true) : s.nextArea = !s.sec.lastB := by
  rw [State.nextArea, ha, hb]
  cases s.sec.lastB <;> rfl

/-! ## Recovery (R422) -/

theorem execRecoveryData_answers {t : State} {q : Nat} (h : s.mayWrite w 0xE01003 = true) (hl : b.length ≤ sourceLimit w.src)
    (hr : s.sec.recovery = true) (ht : (s.unstage w.src).recoveryWrite b = (t, q)) :
    exec (.recoveryData w b) s = .next (t.written w 0xE01003 q 0x0A b.length) := by
  have hw := State.entryWrite_text b h (by decide) rowOf_recoveryData rfl (hl.trans (sourceLimit_le _)) hl rfl fun _ => hr
  have hd : (s.unstage w.src).textWrite 0xE01003 b = (t, q) := ht
  rw [hd] at hw
  exact congrArg Host.Outcome.next hw

theorem recoveryWrite_inside (h : s.num 0xE01002 + b.length ≤ slotBytes) :
    s.recoveryWrite b = (s.writeSlot s.recoverySlot (s.num 0xE01002) b, rOk) := if_neg (Nat.not_lt.2 h)

theorem recoveryWrite_beyond (h : slotBytes < s.num 0xE01002 + b.length) : s.recoveryWrite b = (s, rRange) := if_pos h

theorem execRecoveryVerify_acts (h : s.mayWrite w 0xE01004 = true) (hr : s.sec.recovery = true) :
    exec (.recoveryVerify w 1) s = .next (s.recoveryVerify.written w 0xE01004 rOk 1 1) := by
  have hrange : s.rangeOk 0xE01004 1 = true :=
    State.rangeOk_of rowOf_recoveryVerify (by simp [storedValue, rowOf_recoveryVerify]) (Nat.zero_le _) (Nat.le_refl _) rfl
  have hown : s.ownRule 0xE01004 1 = none := if_pos hr
  exact congrArg Host.Outcome.next (entryWrite_one h (by decide) rowOf_recoveryVerify rfl rfl rfl hrange hown rfl)

/-! ## The tenant bindings (R424, R425) -/

section
variable {p : Port}

theorem execBindings_eq : exec (.bindings w p b) s = .next (s.entryWrite w (bindKey p) b) := by cases p <;> rfl

theorem textWrite_bindings : s.textWrite (bindKey p) b = s.writeBindings p b := by cases p <;> rfl

/-- Bindings whose layout is kept are what `writeBindings` makes of them. -/
theorem execBindings_answers {t : State} {q : Nat} (h : s.mayWrite w (bindKey p) = true) (hl : b.length ≤ sourceLimit w.src)
    (hb : textOk (bindKey p) b = true) (ht : (s.unstage w.src).writeBindings p b = (t, q)) :
    exec (.bindings w p b) s = .next (t.written w (bindKey p) q 0x0A b.length) := by
  have hsub : bindKey p % 256 ≠ 0 := by cases p <;> decide
  have hindex : bindKey p / 256 ≠ 0xE010 := by cases p <;> decide
  rw [execBindings_eq, entryWrite_domain h hsub (rowOf_bindings p) rfl hl hb hindex (textWrite_bindings.trans ht)]

theorem writeBindings_short (h : s.bindingsShort p b = true) : s.writeBindings p b = (s, rRange) := if_pos h

section
variable (hs : s.bindingsShort p b = false)
include hs

theorem writeBindings_refused (h : s.bindingsRefused p b = true) : s.writeBindings p b = (s, rState) := by
  simp only [State.writeBindings, hs, h, Bool.false_eq_true, if_false, if_true]

theorem writeBindings_taken (h : s.bindingsRefused p b = false) : s.writeBindings p b = (s.setBlob (bindKey p) b, rOk) := by
  simp only [State.writeBindings, hs, h, Bool.false_eq_true, if_false]

end

end

/-- Settles O21: a record by `setRecord_written`, a piece by whether it lies in its slot, and bindings by `writeBindings`. -/
theorem securityWrites : Obligations.SecurityWrites := by
  refine ⟨fun _ _ _ h hv => execSetSigPolicy_acts h hv, fun _ _ h => execCommitSvn_acts h,
    fun _ _ _ _ hr hf hu => setRecord_written hr hf hu, fun _ ha hb => nextArea_turns ha hb, fun _ _ _ => rfl, ?_, ?_,
    fun _ _ h hr => execRecoveryVerify_acts h hr, ?_, ?_, ?_, ?_, ?_⟩
  · rintro w b u s h hl rfl hr hi -- a piece inside the slot
    exact execRecoveryData_answers h hl hr (recoveryWrite_inside hi)
  · rintro w b u s h hl rfl hr hi -- and beyond it
    exact execRecoveryData_answers h hl hr (recoveryWrite_beyond hi)
  · rintro w b u s h hl rfl hb hs hr -- bindings of Port A
    exact execBindings_answers (p := .a) h hl hb (writeBindings_taken hs hr)
  · rintro w b u s h hl rfl hb hs -- without its own tenant
    exact execBindings_answers (p := .a) h hl hb (writeBindings_short hs)
  · rintro w b u s h hl rfl hb hs hr -- bindings of Port B
    exact execBindings_answers (p := .b) h hl hb (writeBindings_taken hs hr)
  · rintro w b u s h hl rfl hb hs -- without its own tenant
    exact execBindings_answers (p := .b) h hl hb (writeBindings_short hs)
  · rintro w b u s h hl rfl hb hs hr -- and those that take away what is held
    exact execBindings_answers (p := .a) h hl hb (writeBindings_refused hs hr)

end Sys2Proof.Machine
end

/-!
SUPPORT. Start-up: power-good, the main rails and their time limit, PERSTA_N deasserted, and the end of training.
-/

section
namespace Sys2Proof.Machine

variable {s u : State}

/-! ## Power-good (R411, R414) -/

/-- Power-good from OFF latches the straps and begins the count of boots, whatever the steps of start-up then do. -/
theorem powerUp_latches {t : State} (straps : BitVec 2) (ht : t = (s.survivors.beginBoot straps 1).bootSteps) :
    t.dev.straps = straps ∧ t.dev.epoch = 1 ∧ t.pending = s.pending ∧ t.chip.part = s.chip.part ∧ t.ftu.aon = s.ftu.aon := by
  obtain ⟨hs, hd, -⟩ := State.beginBoot_only (rfl : s.survivors.beginBoot straps 1 = _)
  have hk := (Keeps.refl (s.survivors.beginBoot straps 1)).bootSteps
  rw [ht, hk.straps, hk.epoch, hk.pending, hk.part, hk.aon, hd, hs]
  exact ⟨rfl, rfl, rfl, rfl, rfl⟩

/-- With FREEZE_N held the device waits in BOOT. -/
theorem powerUp_waits {t : State} (straps : BitVec 2) (hpin : s.dev.freezePin = true)
    (ht : t = (s.survivors.beginBoot straps 1).bootSteps) :
    t.dev.st = .boot ∧ t.dev.stepsDone = false ∧ t.dev.mainEn = false ∧ t.thimble.armed = true ∧
      t.mem = s.mem.drop (fun a => a < cxlBase || caskBase ≤ a || s.lentCxl a) ∧ t.hostMem = s.hostMem := by
  obtain ⟨hs, hd, hth⟩ := State.beginBoot_only (rfl : s.survivors.beginBoot straps 1 = _)
  have hwait : (s.survivors.beginBoot straps 1).dev.freezeWait = true := by rw [hd]; exact hpin
  rw [bootSteps_waiting hwait] at ht
  rw [ht, hth, hd, hs]
  exact ⟨rfl, rfl, rfl, rfl, rfl, rfl⟩

/-! ## The main rails (R407, R414) -/

theorem execMainPg_boot (hb : s.dev.st = .boot) (he : s.dev.mainEn = true) (hp : s.dev.mainPg = false) :
    execMainPg s = .next (({ s with dev := { s.dev with mainPg := true } }).loadPhiug.enterTrain) :=
  if_neg (by simp [hb, he, hp])

/-- Phiug is loaded once nothing is missing. -/
theorem loadPhiug_loads (hb : s.dev.st = .boot) (hf : s.dev.frozen = false) (hd : s.dev.stepsDone = true)
    (hr : s.sec.running ≠ none) (hp : s.dev.mainPg = true) (hn : s.dev.phiug = false) (hm : s.monitorsOk = true) :
    s.loadPhiug = ({ s with dev := { s.dev with phiug := true } }).calArmAll :=
  if_neg (by simp [hb, hf, hd, hr, hp, hn, hm])

theorem loadPhiug_waits (h : s.dev.st ≠ .boot ∨ s.dev.frozen = true ∨ s.dev.stepsDone = false ∨ s.sec.running = none ∨
    s.dev.mainPg = false ∨ s.dev.phiug = true ∨ s.monitorsOk = false) : s.loadPhiug = s :=
  if_pos (by simpa [or_assoc] using h)

theorem mainLate_since {at_ : Nat} (h : s.dev.mainEnAt = some at_) : s.mainLate = decide (at_ + 200000000 ≤ s.aonNs) := by
  rw [State.mainLate, h, Option.any_some]

/-- The reading given for a rail, in mV; 0 where none is. -/
def railGiven (rails : List (BitVec 16)) (n : Nat) : Nat := ((rails[n]?).map BitVec.toNat).getD 0

/-- The main rails are late: the wait ends. -/
def State.railsLate (s : State) : State := { s with dev := { s.dev with mainEnAt := none } }

section
variable {rails : List (BitVec 16)} (hb : s.dev.st = .boot) (hf : s.dev.frozen = false) (hl : s.mainLate = true)
include hb hf hl

/-- The lowest-numbered rail out of band fails. -/
theorem execMainPgTimeout_rail {n : Nat} {mv : BitVec 16} (hn : n < 6) (hmv : rails[n]? = some mv)
    (hout : railOut n 8 mv.toNat = true) (hlow : ∀ m < n, railOut m 8 (railGiven rails m) = false) :
    execMainPgTimeout rails s = .next (s.railsLate.raise 0x09 n mv.toNat none) := by
  have hgiven : railGiven rails n = mv.toNat := by rw [railGiven, hmv]; rfl
  have hlen : n < rails.length := (List.getElem?_eq_some_iff.1 hmv).1
  have hfind : (List.range (min 6 rails.length)).find? (fun n => railOut n 8 (railGiven rails n)) = some n := by
    rw [List.find?_range_eq_some]
    exact ⟨by rw [hgiven]; exact hout, List.mem_range.2 (Nat.lt_min.2 ⟨hn, hlen⟩), fun m hm => by simpa using hlow m hm⟩
  have hgo : ¬ (s.dev.st != .boot || s.dev.frozen || !s.mainLate) = true := by simp [hb, hf, hl]
  rw [execMainPgTimeout, if_neg hgo]
  simp only [railGiven] at hfind hgiven
  simp only [hfind, hgiven]
  rfl

/-- With every reading given in band, MAIN_PG alone may be missing. -/
theorem execMainPgTimeout_inBand (hin : ∀ m < min 6 rails.length, railOut m 8 (railGiven rails m) = false) :
    execMainPgTimeout rails s =
      .next (if s.dev.mainPg then s.railsLate else s.railsLate.raise 0x09 0 (railGiven rails 0) none) := by
  have hfind : (List.range (min 6 rails.length)).find? (fun n => railOut n 8 (railGiven rails n)) = none := by
    rw [List.find?_range_eq_none]
    exact fun m hm => by simpa using hin m hm
  have hgo : ¬ (s.dev.st != .boot || s.dev.frozen || !s.mainLate) = true := by simp [hb, hf, hl]
  rw [execMainPgTimeout, if_neg hgo]
  simp only [railGiven] at hfind
  simp only [hfind]
  rfl

end

/-! ## PERSTA_N deasserted (R411, R414) -/

/-- PERSTA_N is high. -/
def State.releasePerstA (s : State) : State := { s with dev := { s.dev with perstA := false } }

theorem execPerstaNDeasserted_enters (hb : s.dev.st = .boot) (hf : s.dev.frozen = false) (hd : s.dev.stepsDone = true)
    (hp : s.dev.phiug = true) : execPerstaNDeasserted s =
      .next ((({ s.releasePerstA with dev := { s.releasePerstA.dev with banksDriven := true }, chip := s.latched }).setDevState
        .train).portsTrain.linksStart) :=
  congrArg Host.Outcome.next (if_neg (by simp [hb, hf, hd, hp]))

theorem execPerstaNDeasserted_stays
    (h : s.dev.st ≠ .boot ∨ s.dev.frozen = true ∨ s.dev.stepsDone = false ∨ s.dev.phiug = false) :
    execPerstaNDeasserted s = .next s.releasePerstA :=
  congrArg Host.Outcome.next (if_pos (by simpa [or_assoc] using h))

/-! ## Training (R326, R414, R419) -/

@[simp] theorem setRecord_dev (f : SecRecord → SecRecord) (s : State) : (s.setRecord f).dev = s.dev := by
  unfold State.setRecord State.writeRecord
  dsimp only
  split <;> rfl

@[simp] theorem endTrial_dev (s : State) : s.endTrial.dev = s.dev := by
  unfold State.endTrial
  split
  · exact setRecord_dev ..
  · rfl

/-- Memory_Active is set on the ports to a host, and nothing else changes. -/
theorem memoryReady_frame (s : State) : s.memoryReady = { s with ports := s.memoryReady.ports } := by
  unfold State.memoryReady State.upstream
  split <;> rfl

theorem memoryReady_active {p : Port} (hp : p ∈ s.memoryReady.upstream) : (s.memoryReady.port p).memoryActive = true := by
  have hup : s.memoryReady.upstream = s.upstream := by rw [memoryReady_frame]; rfl
  rw [hup] at hp
  unfold State.memoryReady
  unfold State.upstream at hp ⊢
  split at hp
  · next hb =>
    rw [if_pos hb, List.mem_singleton.1 hp]
    rfl
  · next hb =>
    rw [if_neg hb]
    cases p <;> rfl

/-- Training ends: READY-EMPTY, the trial of an image over, and Memory_Active set. -/
theorem trained_ready {v t : State} (hv : v.dev.st = .train) (ht : t = (v.setDevState .readyEmpty).endTrial.memoryReady) :
    t.dev.st = .readyEmpty ∧ ∀ p ∈ t.upstream, (t.port p).memoryActive = true := by
  have hne : v.dev.st ≠ .readyEmpty := by rw [hv]; decide
  subst ht
  refine ⟨?_, fun p hp => memoryReady_active hp⟩
  rw [memoryReady_frame, endTrial_dev, (State.setDevState_only ..).2, if_neg hne]

theorem execTrainComplete_ready {r : TrainReport} {v : State} (hw : r.wellFormed = true) (hst : s.dev.st = .train)
    (hf : s.dev.frozen = false) (hl : s.ports.a.linkState = 2)
    (hu : u = ((s.trainStacks r.failedStacks).trainBulk r.packages).trainRoot r.expanders) (hust : u.dev.st = .train)
    (huf : u.dev.frozen = false) (hv : v = (u.retainCalib r).measureTiers.setOut) (hvst : v.dev.st = .train) :
    execTrainComplete r s = .next (v.setDevState .readyEmpty).endTrial.memoryReady := by
  have hgo : ¬ (s.dev.st != .train || s.dev.frozen || decide (s.ports.a.linkState ≠ 2)) = true := by simp [hst, hf, hl]
  have hon : ¬ (u.dev.frozen || u.dev.st != .train) = true := by simp [hust, huf]
  have hin : ¬ (v.dev.st != .train) = true := by simp [hvst]
  rw [execTrainComplete, if_neg (by simp [hw]), if_neg hgo]
  simp only [← hu, if_neg hon, ← hv, if_neg hin]

theorem execHostLinkUp_trains {p : Port} {speed width : Byte} {flit : Bool} (hp : s.upstream.contains p = true)
    (hr : s.running = true) (hb : s.dev.st ≠ .boot) (hc : s.dev.refclk.getLsbD 0 = true) :
    execHostLinkUp p speed width flit s =
      .next (s.setPort p { s.port p with linkState := 2, speed := speed, width := width, flit := flit, follower := false }) := by
  have hgo : ¬ (!s.running || s.dev.st == .boot || !s.dev.refclk.getLsbD 0) = true := by simp [hr, hb, hc]
  exact (State.onPort_up _ hp).trans (congrArg Host.Outcome.next (if_neg hgo))

/-- Settles O12: power-good by what its entry to BOOT latches and holds back, the rails by the first that is out of band, and the rest
by the conditions under which start-up goes on. -/
theorem startUp : Obligations.StartUp := by
  refine ⟨fun straps s hs => ⟨_, execPowerGood_off straps hs, powerUp_latches straps rfl⟩,
    fun straps s hs hp => ⟨_, execPowerGood_off straps hs, powerUp_waits straps hp rfl⟩,
    fun _ hb he hp => execMainPg_boot hb he hp, fun _ hb hf hd hr hp hn hm => loadPhiug_loads hb hf hd hr hp hn hm,
    fun _ h => loadPhiug_waits h, fun _ _ h => mainLate_since h,
    fun _ _ _ _ hb hf hl hn hmv hout hlow => execMainPgTimeout_rail hb hf hl hn hmv hout hlow, ?_, ?_,
    fun _ hb hf hd hp => execPerstaNDeasserted_enters hb hf hd hp, fun _ h => execPerstaNDeasserted_stays h, ?_,
    fun _ _ _ _ _ hp hr hb hc => execHostLinkUp_trains hp hr hb hc⟩
  · intro rails s hb hf hl hin hp -- MAIN_PG missing
    exact (execMainPgTimeout_inBand hb hf hl hin).trans (by rw [hp]; rfl)
  · intro rails s hb hf hl hin hp -- nothing missing
    exact (execMainPgTimeout_inBand hb hf hl hin).trans (by rw [hp]; rfl)
  · intro r u v s hw hst hf hl hu hust huf hv hvst -- the end of training
    exact ⟨_, execTrainComplete_ready hw hst hf hl hu hust huf hv hvst, rfl, trained_ready hvst rfl⟩

end Sys2Proof.Machine
end

/-!
SUPPORT. Loop-backs and margin scans: the end of a loop-back's duration, a test that waits for its instant, and the steps of a scan.
-/

section
namespace Sys2Proof.Machine

variable {s u v : State} {x : TestRun}

/-! ## Loop-backs (R428, R430) -/

/-- What is compared and what is in error, once a loop-back's duration is over. -/
theorem execLoopBackDuration_over {bits errors : Nat} {t0 : Time} {b e : Nat} (hx : s.test.loop = some x) (hw : x.waiting = false)
    (hd : x.deadline ≤ s.aonNs) (hr : s.running = true) (hb : b = min (s.num 0xD10007 + bits) (2 ^ 64 - 1))
    (he : e = min (s.num 0xD10008 + errors) b) (hu : u = (s.setNum 0xD10007 b).setNum 0xD10008 e)
    (hv : v = if errors = 0 ∨ u.num 0xD1000A ≠ 0 then u else u.setNum 0xD1000A t0) :
    execLoopBackDuration bits errors t0 s = .next (v.endLoop (if v.loopPasses b e then testDone else testFailed)) := by
  have hgo : ¬ (x.waiting || decide (s.aonNs < x.deadline) || !s.running) = true := by simp [hw, hr, hd]
  simp only [execLoopBackDuration, hx, if_neg hgo, ← hb, ← he, ← hu]
  simp only [Bool.or_eq_true, decide_eq_true_eq, ← hv]

theorem execLoopBackDuration_early {bits errors : Nat} {t0 : Time} (hx : s.test.loop = some x) (hd : s.aonNs < x.deadline) :
    execLoopBackDuration bits errors t0 s = .next s := by
  have hstop : (x.waiting || decide (s.aonNs < x.deadline) || !s.running) = true := by simp [hd]
  simp only [execLoopBackDuration, hx, if_pos hstop]

/-- At a digital depth, and with nothing compared, no bit may be in error. -/
theorem loopPasses_exact {bits errors : Nat} (h : digitalDepth s.loopPort s.loopDepth = true ∨ bits = 0) :
    s.loopPasses bits errors = decide (errors = 0) :=
  if_pos (by simpa using h)

theorem loopPasses_ratio {bits errors : Nat} (h : digitalDepth s.loopPort s.loopDepth = false) (hb : bits ≠ 0) :
    s.loopPasses bits errors =
      (Dy.ofInt errors).le ((f32 (BitVec.ofNat 32 (s.num 0xD10009))).val.mul (Dy.ofInt bits)) :=
  if_neg (by simp [h, hb])

/-- A loop-back that takes no link and scans no channel ends with its result, and reads OFF. -/
theorem endLoop_plain {result : Nat} (hx : s.test.loop = some x) (hp : s.num 0xD10002 ≠ 1) (hc : s.scannedChannel = none) :
    s.endLoop result =
      (({ s with test := { s.test with loop := none } }).setNum 0xD10006 result).setSw 0xD100 ⟨.off, none⟩ := by
  have hthere : ¬ s.test.loop.isNone = true := by simp [hx]
  have hends : ¬ (decide (s.num 0xD10002 = 1) && decide (s.num 0xD10004 = 4)) = true := by simp [hp]
  have hfree : s.freeChannel = s := by simp only [State.freeChannel, hc]
  simp only [State.endLoop, if_neg hthere, State.closeLoop, if_neg hends, hfree, List.foldl_nil]

/-! ## A test that waits for its instant (R432) -/

/-- The channel of a scan that begins. -/
def State.scanTakes (i : Nat) (s : State) : State :=
  s.mapChannel (i / 32) (i % 32) fun c => { c with st := .reconstruct, forScan := true, wanted := false }

theorem execMarginScanStart_scan {i : Nat} (hc : s.waitingChannel = some (false, i)) (hi : s.scanInstant (i / 32) (i % 32) = true)
    (hv : v = (s.scanTakes i).marginRuns) : execMarginScanStart s =
      .next (if (v.sw 0xD200).st == .starting && (v.sw 0xD200).pend.isNone then v.setSw 0xD200 ⟨.on, none⟩ else v) := by
  subst hv
  simp only [execMarginScanStart, hc, hi, Bool.not_true, Bool.false_eq_true, if_false]
  rfl

theorem execMarginScanStart_none (hc : s.waitingChannel = none) : execMarginScanStart s = .next s := by
  simp only [execMarginScanStart, hc]

section
variable {i : Nat} (hd : 1000000000 + x.since ≤ s.aonNs)
include hd

theorem execBellConflict_scan (hc : s.waitingChannel = some (false, i)) (hx : s.test.margin = some x) :
    execBellConflict s = .next (s.endMargin testFailed) := by
  simp [execBellConflict, hc, hx, hd]

theorem execBellConflict_loop (hc : s.waitingChannel = some (true, i)) (hx : s.test.loop = some x) :
    execBellConflict s = .next (s.endLoop testCut) := by
  simp [execBellConflict, hc, hx, hd]

end

/-! ## The steps of a scan (R431, R434) -/

section
variable (hx : s.test.margin = some x) (hw : x.waiting = false) (hr : s.running = true)
include hx hw hr

/-- A step of a scan that runs: one that passes goes on, unless it is the last of its side. -/
theorem execMarginStep_runs (pass : Bool) : execMarginStep pass s =
    .next (if pass then (if x.step = s.sideSteps x.setting then s.sideDone x x.step
        else { s with test := { s.test with margin := some { x with step := x.step + 1, best := x.step } } })
      else s.sideDone x x.best) := by
  have hgo : ¬ (x.waiting || !s.running) = true := by simp [hw, hr]
  simp only [execMarginStep, hx, if_neg hgo]
  cases pass with
  | false => rfl
  | true =>
    simp only [Bool.not_true, Bool.false_eq_true, if_false, if_true]
    split <;> rfl

end

theorem sideDone_next {best : Nat} (h : x.setting ≠ 7) : s.sideDone x best =
    { s with test := { s.test with
      margin := some { x with setting := x.setting + 1, step := 1, best := 0, edges := x.edges ++ [edgeValue x.setting best] } } } :=
  if_neg h

theorem sideDone_last {best : Nat} (h : x.setting = 7) : s.sideDone x best =
    ((s.setBlob 0xD20005 ((x.edges ++ [edgeValue 7 best]).flatMap fun x => natLE 2 (unsigned 16 x))).bump 0xD20006).endMargin
      testDone := by
  simp only [State.sideDone, h, if_true]

/-- Settles O57: a loop-back by its duration and its ratio, a test that waits by its instant, and a step by where its side stands. -/
theorem interfaceTests : Obligations.InterfaceTests := by
  refine ⟨fun _ _ _ _ _ _ _ _ _ hx hw hd hr hb he hu hv => execLoopBackDuration_over hx hw hd hr hb he hu hv,
    fun _ _ _ h => loopPasses_exact h, fun _ _ _ h hb => loopPasses_ratio h hb, fun _ _ _ hx hp hc => endLoop_plain hx hp hc,
    fun _ _ _ _ _ hx hd => execLoopBackDuration_early hx hd, ?_, ?_, fun _ hc => execMarginScanStart_none hc,
    fun _ _ _ hc hx hd => execBellConflict_scan hd hc hx, fun _ _ _ hc hx hd => execBellConflict_loop hd hc hx, ?_, ?_,
    fun _ _ hx hw hr => execMarginStep_runs hx hw hr false, fun _ _ _ h => sideDone_next h, fun _ _ _ h => sideDone_last h⟩
  · intro i u v s hc hi hu hv hn -- a scan begins, its function already ON
    subst hu
    exact (execMarginScanStart_scan hc hi hv).trans (congrArg Host.Outcome.next (if_neg (by simp [hn])))
  · intro i u v s hc hi hu hv hst -- and its function reads ON now
    subst hu
    exact (execMarginScanStart_scan hc hi hv).trans (congrArg Host.Outcome.next (if_pos (by rw [hst]; rfl)))
  · intro x s hx hw hr hn -- a step that goes on
    exact (execMarginStep_runs hx hw hr true).trans (congrArg Host.Outcome.next (if_neg hn))
  · intro x s hx hw hr hl -- the last step of its side
    exact (execMarginStep_runs hx hw hr true).trans (congrArg Host.Outcome.next (if_pos hl))

end Sys2Proof.Machine
end
